-- ==== Sys2Proof/Word.lean ====
section
/-! DEFINITION. Words of the Zelika 7420: bytes of the exchange and the control field, 24-bit samples (R2, R79). -/

namespace Sys2Proof

/-- One byte of a payload, of the host exchange or of note data. -/
abbrev Byte := BitVec 8

/-- One 24-bit sample in two's complement (R2), also one word of the sample store (R79). -/
abbrev Sample := BitVec 24

/-- A set of zone ids 0 to 15, zone z at bit z (section 1.3). -/
abbrev ZoneSet := BitVec 16

/-- A set of audio slots 0 to 39, slot s at bit s (section 1.3). -/
abbrev SlotSet := BitVec 40

/-- A pair of samples, left and right. -/
structure Stereo where
  left : Sample
  right : Sample
  deriving DecidableEq, Repr, Inhabited

/-- Silence on both channels. -/
def Stereo.zero : Stereo := { left := 0, right := 0 }

end Sys2Proof
end

