-- ==== Sys2Proof/Syntax.lean ====
section
/-! DEFINITION. The commands of the block: one constructor of Instr for each row of spec/opcode_table.json, with the
operands its rule needs (the table gives none: log 4), and the types those operands are made of. -/

namespace Sys2Proof

/-! Named values that operands carry. -/

/-- Kinds of stream, Table 3-1, in the order of their codes. -/
inductive StreamKind where
  | programme | announce | voiceDownlink | voiceUplink | reference
  deriving DecidableEq, Repr, Inhabited

/-- Source bindings, Table 3-5, in the order of its rows. -/
inductive Binding where
  | input (pair : Nat)
  | blend
  | announce
  | uplink
  | zoneMix (zone : Nat)
  deriving DecidableEq, Repr, Inhabited

/-- The role flags, section 1.3. -/
structure Roles where
  attended : Bool
  outputs : Bool
  mics : Bool
  tuner : Bool
  deriving DecidableEq, Repr, Inhabited

/-- Kinds of zone, Table 6-1 (PRIVATE is a word Lean reserves). -/
inductive ZoneKind where
  | openZone | privateZone
  deriving DecidableEq, Repr, Inhabited

/-- Duck policies, Table 6-1. -/
inductive DuckPolicy where
  | mix | duck | mute
  deriving DecidableEq, Repr, Inhabited

/-- Clients of the sample store, in the order the manual lists them. -/
inductive Client where
  | align | blend | echo | clip
  deriving DecidableEq, Repr, Inhabited

/-- Quality of a decoder block, best first (R76). -/
inductive Quality where
  | good | poor | lost
  deriving DecidableEq, Repr, Inhabited

/-! The start-up record, Table 11-7. Numbers are as the record gives them, in or out of range (R181). -/

/-- One output pair of a zone, Table 6-1. -/
structure OutputPair where
  pair : Nat
  delay : Nat
  trim : Nat
  deriving DecidableEq, Repr, Inhabited

/-- A zone definition, Table 6-1. -/
structure ZoneDefinition where
  id : Nat
  kind : ZoneKind
  pairs : List OutputPair
  duckDepth : Nat
  policy1 : DuckPolicy
  policy2 : DuckPolicy
  policy3 : DuckPolicy
  deriving DecidableEq, Repr, Inhabited

/-- A region of the sample store, Table 5-3. -/
structure Region where
  client : Client
  group : Nat
  firstBank : Nat
  firstRow : Nat
  rows : Nat
  deriving DecidableEq, Repr, Inhabited

/-- An autonomous offer, Table 11-7. -/
structure AutonomousOffer where
  index : Nat
  kind : StreamKind
  channels : Nat
  cls : Nat
  binding : Binding
  carry : Bool
  deriving DecidableEq, Repr, Inhabited

/-- An autonomous route, Table 11-7. -/
structure AutonomousRoute where
  zone : Nat
  stream : Nat
  level : Nat
  deriving DecidableEq, Repr, Inhabited

/-- The fields of a start-up record, Table 11-7. Bank b of the retained set is bit b; microphone m is bit m. -/
structure StartUpRecord where
  station : Nat
  serial : BitVec 32
  roles : Roles
  zones : List ZoneDefinition
  regions : List Region
  retained : BitVec 8
  nominalDelay : Nat
  autostart : Bool
  microphones : BitVec 4
  offers : List AutonomousOffer
  routes : List AutonomousRoute
  deriving DecidableEq, Repr, Inhabited

/-- What the I2C read of the start-up record brought (R181, Table 11-7, log 34): no acknowledge, or the bytes of the record
length, the bytes that follow it up to the check, and the check as read, with the record length and the fields that those
bytes give. The layout of the fields in the memory is not given; `fields` is none where the code of a named value has no
meaning. -/
inductive RecordRead where
  | noAcknowledge
  | read (head following : List Byte) (check : BitVec 16) (length : Nat) (fields : Option StartUpRecord)
  deriving DecidableEq, Repr, Inhabited

/-! Payloads of control messages, Table 1-5, each field at its width on the wire. -/

/-- The descriptor of a PRESENCE, Table 1-5. `other` is a descriptor type that the table does not allow. -/
inductive Descriptor where
  | stream (index state kind channels cls first : Byte)
  | call (id state downlink uplink reference mic : Byte) (zones : ZoneSet)
  | other (type : Byte)
  deriving DecidableEq, Repr, Inhabited

/-- The five fields of a CALL beside its call id and action, Table 1-5. -/
structure CallFields where
  downlink : Byte
  uplink : Byte
  reference : Byte
  mic : Byte
  zones : ZoneSet
  deriving DecidableEq, Repr, Inhabited

/-! Other operands. -/

/-- One audio slot as a receiver reads it (R2). A slot nobody drives reads with its valid mark clear. -/
structure SlotRead where
  sample : Sample
  valid : Bool
  check : Bool
  deriving DecidableEq, Repr, Inhabited

/-- The samples at the four input pairs in one local sample (R72). -/
structure InputSamples where
  in0 : Stereo
  in1 : Stereo
  in2 : Stereo
  in3 : Stereo
  deriving DecidableEq, Repr, Inhabited

/-- Which ramp of a zone ends (R108): that of the entry of a stream, or that of the call position. -/
inductive RampOf where
  | entry (stream : Fin 64)
  | callPosition
  deriving DecidableEq, Repr

/-- The parameters of Cadence Set beside the channel, by role (R127). `other` is a role code of none. -/
inductive CadenceSetup where
  | off
  | leader (period : BitVec 24) (repetitions trigger : Byte)
  | follower (leader : Byte) (delay : BitVec 24) (clip level : Byte)
  | other (role : Byte)
  deriving DecidableEq, Repr, Inhabited

/-- The commands: one constructor for each row of spec/opcode_table.json, in its order. -/
inductive Instr where
  | powerOn
  | resetPinAsserted
  | resetLine
  | startUpRecordRead (read : RecordRead)
  | frameStart (inWindow : Bool)
  | leadStart
  | frameTimerExpiry
  | missingStart
  | silentLine
  | dormancyEntry
  | controlField (others : Option (BitVec 187)) (readable : Bool)
  | audioSlots (reads : List SlotRead)
  | tailEnd (veto : Bool)
  | selfVeto
  | listenEnd
  | join (sender : Fin 16) (roles : Byte) (zones privateZones : ZoneSet) (serial : BitVec 32)
  | presence (sender : Fin 16) (roles : Byte) (zones privateZones : ZoneSet) (owned : SlotSet) (descriptor : Descriptor)
  | leave (sender : Fin 16)
  | offer (sender : Fin 16) (index kind channels cls : Byte)
  | withdraw (sender : Fin 16) (index : Byte)
  | claim (sender : Fin 16) (index first : Byte)
  | release (sender : Fin 16) (index : Byte)
  | add (sender : Fin 16) (zone stream level : Byte)
  | setLevel (sender : Fin 16) (zone stream level : Byte)
  | remove (sender : Fin 16) (zone stream level : Byte)
  | routeAnswer (sender : Fin 16) (requester zone stream verdict : Byte)
  | ring (sender : Fin 16) (id : Byte) (fields : CallFields)
  | answer (sender : Fin 16) (id : Byte) (fields : CallFields)
  | hold (sender : Fin 16) (id : Byte) (fields : CallFields)
  | resume (sender : Fin 16) (id : Byte) (fields : CallFields)
  | zones (sender : Fin 16) (id : Byte) (fields : CallFields)
  | endCall (sender : Fin 16) (id : Byte) (fields : CallFields)
  | notePart (sender : Fin 16) (target index : Byte) (total : BitVec 16) (data : BitVec 128)
  | agedOut (station : Fin 16)
  | holdExpiry (slot : Fin 40)
  | queueHoldExpiry
  | presenceDue
  | silenceEnded
  | noteStall
  | noteExpiry
  | uplinkRetry
  | carryRetry (index : Fin 4)
  | localSample (inputs : InputSamples)
  | decoderArrival (sample : Stereo) (quality : Quality)
  | arrivalGap
  | qualityBlock
  | gateRampEnd
  | rampEnd (zone : Fin 4) (ramp : RampOf)
  | refreshDebtRise
  | openComplete (bank : Fin 8)
  | burstComplete (bank : Fin 8)
  | closeComplete (bank : Fin 8)
  | refreshComplete (bank : Fin 8)
  | filled
  | primingDone
  | correlationResult
  | tapCrossfadeEnd
  | toDigitalComplete
  | toAnalogueComplete
  | cancellerBlock
  | freezeEnd
  | referenceLost
  | cadenceExpiry (channel : Fin 8)
  | followerFire (channel : Fin 8)
  | playCompleted (place : Fin 4)
  | transferForReading
  | getInfo (selection : Byte)
  | getStatus
  | leaveLine
  | rejoin
  | stayAwake (flag : Byte)
  | wake (flag : Byte)
  | offerStream (index kind channels cls binding bindingNumber : Byte)
  | carryStream (index first : Byte)
  | dropStream (index : Byte)
  | withdrawStream (index : Byte)
  | readDirectory (first count : Byte)
  | readSlots
  | route (zone stream action level : Byte)
  | readZone (zone : Byte)
  | clipLoadBegin (clip : Byte) (offset length : BitVec 24)
  | clipData (clip : Byte) (samples : List Sample)
  | clipLoadEnd (clip : Byte)
  | clipLock (clip : Byte)
  | clipStatus (first count : Byte)
  | play (clip level repeats : Byte)
  | cadenceSet (channel : Byte) (setup : CadenceSetup)
  | cadenceStart (channel : Byte)
  | cadenceStop (channel : Byte)
  | readCadence (channel : Byte)
  | blendEnable
  | blendDisable
  | tuned
  | readBlend
  | callRing (id index : Byte) (zones : ZoneSet)
  | callAnswer (id mic index reference : Byte)
  | callHold (id : Byte)
  | callResume (id : Byte)
  | callZones (id : Byte) (zones : ZoneSet)
  | callEnd (id : Byte)
  | readCalls
  | readCanceller
  | noteSend (target : Byte) (total : BitVec 16) (data : List Byte)
  | noteRead (offset count : Byte)
  | noteStatus
  | readEvents
  | badTransfer (bytes : List Byte)
  deriving DecidableEq, Repr

end Sys2Proof
end

