-- ==== Sys2Proof/Config.lean ====
section
/-! DEFINITION. Free values: what the spec leaves open, each a constant without a body. Nothing is provable of their values. -/

namespace Sys2Proof

/-- Log 13. Whether a quotient that is no whole number is rounded up rather than down, by its numerator and
denominator. The spec states no rounding of samples or of read-out steps. -/
opaque Config.roundUp : Int → Nat → Bool

/-- Log 14. The sample a path or tap uses at a position for which no read was requested in time or has yet
been delivered: by reader (0 to 5 the output paths, 6 main tap, 7 old tap, 8 correlation tap, 9 echo tap, 10 to 13 the plays)
and local sample count. -/
opaque Config.undelivered : Nat → Nat → Stereo

/-- Log 15. The word a bank lost by overdue refresh holds, by loss event and word address (R92). -/
opaque Config.lostWord : Nat → Nat → Sample

/-- Log 16. The join backoff sequence of R40: the n-th value drawn, by the serial and n. -/
opaque Config.joinBackoff : BitVec 32 → Nat → BitVec 8

/-- Log 17. A coefficient after one adaptation (R165: "by the normalised error"), by its number, its old
value, the reference window and the error. In steps of 2^-32. -/
opaque Config.adaptedCoefficient : Nat → Int → List Int → Int → Int

/-- Log 20. Whether the echo filter takes the samples of the read tap's window (R163) and not those at the delays of R162. -/
opaque Config.filterReadsWindow : Bool

/-- Log 18. The delay of the highest correlation of the search, less 32, before it is bounded to R165's
range 32 to 4,800: by the copies of the reference and of the microphone sum. -/
opaque Config.searchPeak : List (Int × Int) → Nat

/-- Log 19. The ERLE, in whole decibels, of a measured block of which one of the two energies is 0 (the logarithm is
not defined there), and the value reported for a block that is not measured (R166 gives an ERLE to measured
blocks alone): by both energies and the local sample count. -/
opaque Config.erleWithoutEnergy : Nat → Nat → Nat → Int

end Sys2Proof
end

