-- ==== Sys2Proof/Machine/State.lean ====
section
/-! DEFINITION. The state of the block as plain data: every piece of state the spec gives the part, block by block
(Table 0-1), the queue of waiting commands, the reasons a step can stop, and the state right after reset. -/

namespace Sys2Proof.Machine

/-! ## Named values -/

/-- Station states, Table 2-1. -/
inductive StationState where
  | offline | listening | joining | member | leaving | detached | silenced | dormant
  deriving DecidableEq, Repr, Inhabited

/-- Every name that a rule gives as the cause of an event (R180), in the order of their codes (log 11). -/
inductive Cause where
  | abandoned | agedOut | alreadyCarried | answer | answered | badClass | badDownlink | badField | badReference
  | badUplink | bankLost | callChanged | callSlot | callState | claim | clipInvalid | complete | completed
  | configInvalid | deadline | disabled | dormant | dropped | empty | enabled | endCall | erleHigh
  | erleLow | filled | found | goodRun | hold | inUse | joined | joinFailed | leaveRequested | left
  | live | lost | micLost | nearEnd | nearEndQuiet | notCarried | notFound | notOffered | notOwner
  | notPresent | notRetained | noMic | noRoom | noStream | noZones | numberTaken | offer | outOfRange
  | ownerLost | poor | powerOn | presence | privateStream | privateZone | queueFull | ready | referenceBack
  | referenceChanged | referenceLost | rejoin | release | resetLine | resume | ring | selfVeto | senderRemoved
  | settled | silenceEnded | silentLine | slipLimit | slotBusy | stalled | startsMissed | startSeen
  | startUp | stationChanged | streamGone | taken | targetLost | tuned | vetoed | waiting | wakeRequest
  | wakeStart | withdraw | zones | zoneFull | zoneTaken
  deriving DecidableEq, Repr, Inhabited

/-- Kinds of event, Table 11-6, in the order of their codes. -/
inductive EventKind where
  | reset | lineOutcome | stationChanged | stationAdded | stationRemoved | streamChanged | streamLost
  | routeDropped | routeAnswer | callPositionChanged | followerChanged | storeGap | refreshOverdue | clipLost
  | playDone | cadenceDone | blendChanged | startUpFailed | blendAlignFailed | callChanged | cancellerChanged
  | noteArrived | noteDropped | noteExpired | noteSent | noteUndelivered | eventsLost
  deriving DecidableEq, Repr, Inhabited

/-- Error codes of a response, Table 11-3, after OK. -/
inductive Status where
  | ok | badRequest | badCheck | badParameter | wrongState | notMember | queueFull | noRoom | noStation
  | noZone | locked | busy | overlap | short | playsFull | badBinding | dormant
  deriving DecidableEq, Repr, Inhabited

/-! ## The line interface (chapter 1) -/

/-- A control message with its payload fields as they travel, Table 1-5. -/
inductive Message where
  | join (roles : Byte) (zones privateZones : ZoneSet) (serial : BitVec 32)
  | presence (roles : Byte) (zones privateZones : ZoneSet) (owned : SlotSet) (descriptor : Descriptor)
  | leave
  | offer (index kind channels cls : Byte)
  | withdraw (index : Byte)
  | claim (index first : Byte)
  | release (index : Byte)
  | route (zone stream action level : Byte)
  | routeAnswer (requester zone stream verdict : Byte)
  | call (id action : Byte) (fields : CallFields)
  | notePart (target index : Byte) (total : BitVec 16) (data : BitVec 128)
  deriving DecidableEq, Repr, Inhabited

/-- Originators of queued messages, Table 1-6. -/
inductive Originator where
  | host | startUp | membership | zoneMixer | callUnit | noteUnit
  deriving DecidableEq, Repr, Inhabited

/-- A send-queue entry (R18). `auto` marks a CLAIM whose first slot is AUTO (R54); `companion` is the binding
that goes with an OFFER (R57); `ready` is clear while a hold is running; `order` is the moment of entry. -/
structure QueueEntry where
  message : Message
  originator : Originator
  auto : Bool
  companion : Option Binding
  vetoes : Nat
  hold : Nat
  ready : Bool
  order : Nat
  deriving DecidableEq, Repr, Inhabited

/-- How far the current frame has passed (R1, R5). `unread` is the rest of a frame whose start woke the
station (R22): nothing of it is read. -/
inductive FramePhase where
  | over | started | fieldPassed | slotsPassed | unread
  deriving DecidableEq, Repr, Inhabited

/-- The control field of the frame as this station judged it (R8). -/
inductive Field where
  | unseen
  | empty
  | failed
  | passed (sender : Nat) (message : Message)
  deriving DecidableEq, Repr, Inhabited

/-- Why this station drives the veto mark in this frame (R13). -/
inductive Veto where
  | none | failedCheck | refusedNote
  deriving DecidableEq, Repr, Inhabited

/-- The own message driven in this frame: that of a queue entry, by its order, or a presence message. -/
inductive Sent where
  | queued (order : Nat) (message : Message)
  | presence (message : Message)
  deriving DecidableEq, Repr, Inhabited

/-- The samples last handed to the users of a stream, one for each channel read: valid mark and sample (R21). -/
structure LineSample where
  stream : Nat
  channels : List (Bool × Sample)
  deriving DecidableEq, Repr, Inhabited

/-- The line interface (Table 0-1, Table 1-9). -/
structure LineInterface where
  timerExpired : Bool
  silentCount : Nat
  silent : Bool
  lead : Bool
  phase : FramePhase
  field : Field
  sent : Option Sent
  vetoing : Veto
  queue : List QueueEntry
  waiting : List QueueEntry
  nextOrder : Nat
  presenceCounter : Nat
  presenceDue : Bool
  selfVeto : Nat
  bindings : List (Option Binding)
  lineSamples : List LineSample
  driven : List (Option SlotRead)
  deriving DecidableEq, Repr, Inhabited

/-! ## The line tables (chapters 1, 2, 3 and 9) -/

/-- Completeness of a roster entry at a listener (R35). -/
inductive Completeness where
  | none | opened | complete
  deriving DecidableEq, Repr, Inhabited

/-- A roster entry, Table 2-3. The owned slot set is not stored (R24). -/
structure RosterEntry where
  present : Bool
  roles : Roles
  zones : ZoneSet
  privateZones : ZoneSet
  age : Nat
  serial : Option (BitVec 32)
  completeness : Completeness
  marks : List Nat
  deriving DecidableEq, Repr, Inhabited

/-- What is fixed about a stream when it is offered (Table 3-3). -/
structure StreamParameters where
  kind : StreamKind
  channels : Nat
  cls : Nat
  deriving DecidableEq, Repr, Inhabited

/-- A stream directory entry, Table 3-3. -/
inductive StreamEntry where
  | none
  | offered (parameters : StreamParameters)
  | carried (parameters : StreamParameters) (first : Nat)
  deriving DecidableEq, Repr, Inhabited

/-- A slot table entry (R46). -/
inductive Slot where
  | free
  | owned (stream : Nat)
  | held (remaining : Nat)
  deriving DecidableEq, Repr, Inhabited

/-- States of a call record, Table 9-1. -/
inductive CallState where
  | none | ringing | active | held
  deriving DecidableEq, Repr, Inhabited

/-- A call record, Table 9-1. -/
structure CallRecord where
  state : CallState
  owner : Option Nat
  downlink : Option Nat
  uplink : Option Nat
  reference : Option Nat
  mic : Option Nat
  zones : ZoneSet
  deriving DecidableEq, Repr, Inhabited

/-- The line tables. -/
structure LineTables where
  frameCount : BitVec 32
  roster : List RosterEntry
  directory : List StreamEntry
  slots : List Slot
  calls : List CallRecord
  deriving DecidableEq, Repr, Inhabited

/-! ## The membership unit (chapter 2) -/

/-- The descriptor pointer (R29). -/
inductive Pointer where
  | stream (index : Nat)
  | callFrom (id : Nat)
  deriving DecidableEq, Repr, Inhabited

/-- The membership unit. -/
structure Membership where
  station : StationState
  cause : Option Cause
  undamaged : Nat
  pointer : Pointer
  backoff : Nat
  silenceCount : Nat
  deriving DecidableEq, Repr, Inhabited

/-! ## The clock follower and the ports (chapter 4) -/

/-- Follower states (R65). -/
inductive FollowerState where
  | freeRun | pulling | locked
  deriving DecidableEq, Repr, Inhabited

/-- The rate of the local sample clock (R65), as the rule names it (log 26). -/
inductive ClockRate where
  | nominal | towardsLine | matched
  deriving DecidableEq, Repr, Inhabited

/-- States of the output gate (R69). -/
inductive GateState where
  | open | closing | shut | opening
  deriving DecidableEq, Repr, Inhabited

/-- The clock follower and the output gate. The gain is in steps of 1/480. -/
structure Follower where
  state : FollowerState
  onTime : Nat
  miss : Nat
  rate : ClockRate
  gate : GateState
  gain : Nat
  deriving DecidableEq, Repr, Inhabited

/-- A sample of the decoder with its quality mark. -/
structure DecoderSample where
  sample : Stereo
  quality : Quality
  deriving DecidableEq, Repr, Inhabited

/-- The port block. `digital` is what was handed to the blend engine at the latest local sample: none is a
sample marked missing. -/
structure Ports where
  inputs : List Stereo
  outputs : List Stereo
  buffer : List DecoderSample
  reading : Bool
  lastHanded : Option DecoderSample
  digital : Option Stereo
  slipGuard : Nat
  balance : Int
  blockReads : Nat
  blockWorst : Quality
  lastQuality : Quality
  arrivalGap : Nat
  nextLost : Nat
  deriving DecidableEq, Repr, Inhabited

/-! ## The sample store (chapter 5) -/

/-- The contents of the store: (word address, word) pairs, addresses rising, no zero word. -/
abbrev Memory := List (Nat × Sample)

/-- Bank states, Table 5-1. -/
inductive BankState where
  | idle
  | opening (row : Nat)
  | open (row : Nat)
  | closing
  | refreshing
  deriving DecidableEq, Repr, Inhabited

/-- The five request queues (R83), in the order the rule lists them. -/
inductive QueueId where
  | echo | align | blend | playback | loading
  deriving DecidableEq, Repr, Inhabited

/-- A bank. `burst` is the queue whose head has its burst in flight. `loss` names the event by which the bank's
contents were lost (R92), and `rewritten` the words written since. -/
structure Bank where
  state : BankState
  burst : Option QueueId
  debt : Nat
  nextRefresh : Nat
  loss : Option Nat
  rewritten : List Nat
  deriving DecidableEq, Repr, Inhabited

/-- READ or WRITE (Table 5-5). -/
inductive Access where
  | read | write
  deriving DecidableEq, Repr, Inhabited

/-- What a request is for, so that its client knows it again at its end. `right` tells the right words of a
stereo group from the left ones; serials tell a tap, ring, play or load from an ended one. -/
inductive Purpose where
  | alignWrite (pair group : Nat) (right : Bool)
  | alignRead (pair group : Nat) (right : Bool)
  | blendWrite (ring group : Nat) (right : Bool)
  | blendRead (tap group : Nat) (right : Bool)
  | echoWrite (ring group : Nat)
  | echoRead (ring group : Nat)
  | clipRead (play repetition group : Nat)
  | clipWrite (load : Nat)
  deriving DecidableEq, Repr, Inhabited

/-- A store request, Table 5-5. `data` is the write set with its new words, by place in the burst; `late` marks
a burst in flight whose deadline has passed (R85). -/
structure Request where
  queue : QueueId
  access : Access
  word : Nat
  short : Bool
  data : List (Nat × Sample)
  closeAfter : Bool
  deadline : Option (BitVec 32)
  late : Bool
  purpose : Purpose
  deriving DecidableEq, Repr, Inhabited

/-- The sample store controller, Table 5-7. The queues stand in the order of QueueId, the gap counts in the order
of Client. -/
structure Store where
  memory : Memory
  banks : List Bank
  lossEvents : Nat
  refreshTick : Nat
  queues : List (List Request)
  budget : Nat
  allowance : Nat
  frames : BitVec 32
  gaps : List Nat
  overdue : Nat
  regions : List Region
  retained : BitVec 8
  retention : Bool
  pinHeld : Bool
  deriving DecidableEq, Repr, Inhabited

/-! ## Rings and taps in the store -/

/-- One of the two bursts of a group that a path holds: not yet delivered, its words, or silence. -/
inductive Part where
  | awaited
  | words (samples : List Sample)
  | silent
  deriving DecidableEq, Repr, Inhabited

/-- A group of 8 positions that a path, tap or play holds or has requested. -/
structure HeldGroup where
  group : Nat
  left : Part
  right : Part
  deriving DecidableEq, Repr, Inhabited

/-- A ring of positions in the store (R113, R133, R163): write position, the positions of the group being written
(oldest first), the newest whole group whose writes are not requested, the groups whose hole mark is clear, and
the groups of which one of two writes has been served since they were requested. -/
structure Ring where
  write : Nat
  current : List Stereo
  whole : Option (Nat × List Stereo)
  clean : List Nat
  half : List Nat
  serial : Nat
  deriving DecidableEq, Repr, Inhabited

/-- A read tap of a ring: the groups it holds or has requested. -/
structure Tap where
  serial : Nat
  held : List HeldGroup
  deriving DecidableEq, Repr, Inhabited

/-! ## The zone mixer (chapter 6) -/

/-- A gain in steps of 2^-32 (log 12). -/
abbrev Gain := Nat

/-- A ramp of 480 steps (R108): from `start` to `target`, with `steps` taken and the gain `current` there. -/
structure Ramp where
  start : Gain
  target : Gain
  current : Gain
  steps : Nat
  running : Bool
  deriving DecidableEq, Repr, Inhabited

/-- States of a route entry, Table 6-2. -/
inductive RouteState where
  | waiting | live | leaving
  deriving DecidableEq, Repr, Inhabited

/-- A route entry, Table 6-2. -/
structure RouteEntry where
  stream : Nat
  cls : Option Nat
  level : Nat
  state : RouteState
  ramp : Ramp
  age : Nat
  deriving DecidableEq, Repr, Inhabited

/-- States of a call position (R110). -/
inductive PositionState where
  | empty | waiting | live
  deriving DecidableEq, Repr, Inhabited

/-- A call position (R110), with the call record it selects. -/
structure CallPosition where
  state : PositionState
  downlink : Option Nat
  record : Option Nat
  ramp : Ramp
  deriving DecidableEq, Repr, Inhabited

/-- What the mixer holds for one zone beside its definition. -/
structure Zone where
  routes : List RouteEntry
  position : CallPosition
  sum : Stereo
  deriving DecidableEq, Repr, Inhabited

/-- An output pair's path through its alignment line (R113 to R115). -/
structure OutputPath where
  ring : Ring
  held : List HeldGroup
  deriving DecidableEq, Repr, Inhabited

/-- The zone mixer. -/
structure Mixer where
  zones : List Zone
  paths : List OutputPath
  round : Nat
  nextAge : Nat
  deriving DecidableEq, Repr, Inhabited

/-! ## The announce unit and the cadence unit (chapter 7) -/

/-- States of a clip, Table 7-1. -/
inductive ClipState where
  | empty | loading | ready | locked | invalid
  deriving DecidableEq, Repr, Inhabited

/-- A clip table entry, Table 7-1. -/
structure Clip where
  state : ClipState
  offset : Nat
  length : Nat
  received : Nat
  written : Nat
  deriving DecidableEq, Repr, Inhabited

/-- Who started a play, Table 7-3. -/
inductive Starter where
  | host
  | follower (channel : Nat)
  deriving DecidableEq, Repr, Inhabited

/-- A group of a clip that a play holds (Table 7-3). -/
structure PlayGroup where
  repetition : Nat
  group : Nat
  part : Part
  deriving DecidableEq, Repr, Inhabited

/-- A play, Table 7-3. `wait` counts the local samples until the next sample sounds (R125); `finished` is set when
the last sample of the last repetition has sounded. -/
structure Play where
  clip : Nat
  level : Nat
  repeats : Nat
  done : Nat
  position : Nat
  starter : Starter
  groups : List PlayGroup
  wait : Nat
  finished : Bool
  serial : Nat
  deriving DecidableEq, Repr, Inhabited

/-- Roles of a cadence channel, Table 7-4. -/
inductive CadenceRole where
  | off
  | leader
  | follower (leader : Nat)
  deriving DecidableEq, Repr, Inhabited

/-- A cadence channel, Table 7-4. -/
structure CadenceChannel where
  role : CadenceRole
  activePeriod : Nat
  stagedPeriod : Nat
  activeRepetitions : Nat
  stagedRepetitions : Nat
  done : Nat
  time : Nat
  trigger : Bool
  running : Bool
  activeDelay : Nat
  stagedDelay : Nat
  activeClip : Nat
  stagedClip : Nat
  level : Nat
  remaining : Nat
  counting : Bool
  missed : Bool
  deriving DecidableEq, Repr, Inhabited

/-- The announce unit with its cadence unit. `bufferClip` is the clip whose samples the load buffer holds; `loads`
holds the serial of each clip's latest load. -/
structure Announce where
  clips : List Clip
  bufferClip : Option Nat
  buffer : List Sample
  loads : List Nat
  nextLoad : Nat
  plays : List (Option Play)
  nextPlay : Nat
  out : Sample
  channels : List CadenceChannel
  deriving DecidableEq, Repr, Inhabited

/-! ## The blend engine (chapter 8) -/

/-- Blend states, Table 8-1. -/
inductive BlendState where
  | idle | filling | analogue | aligning | toDigital | digital | toAnalogue | lockout
  deriving DecidableEq, Repr, Inhabited

/-- What the correlator does (R142). -/
inductive CorrelatorPhase where
  | notRunning | priming | window | forming
  deriving DecidableEq, Repr, Inhabited

/-- The last result of the correlator (R149). -/
inductive CorrelationOutcome where
  | none
  | found (candidate correction : Int)
  | notFound
  deriving DecidableEq, Repr, Inhabited

/-- The correlator: phase with local samples done, analogue samples the correlation tap read (newest first, the sum
of left and right) and the digital samples of the window (newest first, the sum of left and right). -/
structure Correlator where
  phase : CorrelatorPhase
  done : Nat
  analogue : List Int
  digital : List Int
  tap : Tap
  deriving DecidableEq, Repr, Inhabited

/-- A tap crossfade in flight (R143): the old tap, its delay and the weight of the main tap in steps of 1/480. -/
structure Crossfade where
  old : Tap
  delay : Int
  weight : Nat
  deriving DecidableEq, Repr, Inhabited

/-- The blend engine. The mix fraction is in steps of 1/2,400, the programme gain in steps of 1/480. -/
structure Blend where
  state : BlendState
  mix : Nat
  gain : Nat
  correction : Int
  valid : Bool
  attempts : Nat
  fast : Bool
  goodRun : Nat
  poorRun : Nat
  ring : Ring
  fill : Nat
  round : Nat
  main : Tap
  crossfade : Option Crossfade
  correlator : Correlator
  last : CorrelationOutcome
  nextTap : Nat
  out : Stereo
  deriving DecidableEq, Repr, Inhabited

/-! ## The call unit (chapter 9) -/

/-- Canceller states, Table 9-5. -/
inductive CancellerState where
  | off | fallback | converging | converged | doubleTalk
  deriving DecidableEq, Repr, Inhabited

/-- The block of 480 local samples under way (R166): samples counted, energies, and whether the freeze count was 0
and no history zero fed the filter throughout. -/
structure CancellerBlock where
  count : Nat
  reference : Nat
  microphone : Nat
  estimate : Nat
  output : Nat
  unfrozen : Bool
  whole : Bool
  deriving DecidableEq, Repr, Inhabited

/-- The last block as judged (R167). -/
structure BlockJudgement where
  erle : Int
  farEnd : Bool
  nearEnd : Bool
  measured : Bool
  deriving DecidableEq, Repr, Inhabited

/-- The call unit. `references` holds the reference samples written into the history since it was cleared, newest first, as
many as the longest delay needs; `window` holds the last 1,024 samples of the read tap, newest first, missing ones zero;
`windowZeros` says which of them are zeros of a hole or a gap (log 20). -/
structure CallUnit where
  retry : Nat
  retryArmed : Bool
  state : CancellerState
  served : Option Nat
  servedReference : Option Nat
  coefficients : List Int
  searchDone : Bool
  bulkDelay : Nat
  gathered : Nat
  copies : List (Int × Int)
  searchTick : Nat
  history : Ring
  tap : Tap
  references : List Int
  window : List Int
  windowZeros : List Bool
  round : Nat
  freeze : Nat
  frozen : Bool
  notValidRun : Nat
  usable : Bool
  block : CancellerBlock
  last : BlockJudgement
  convergedRun : Nat
  lossRun : Nat
  quietRun : Nat
  fallback : Ramp
  downlinkLive : Bool
  microphone : Sample
  uplink : Sample
  deriving DecidableEq, Repr, Inhabited

/-! ## The note unit (chapter 10) -/

/-- The inbound note box, Table 10-1. -/
inductive NoteBox where
  | free
  | filling (sender total next stall : Nat) (data : List Byte)
  | full (sender total expiry : Nat) (data : List Byte)
  deriving DecidableEq, Repr, Inhabited

/-- States of the outbound buffer (R173). -/
inductive OutboundState where
  | idle
  | sending (part : Nat)
  | done
  | failed
  deriving DecidableEq, Repr, Inhabited

/-- The outbound buffer (R173) with the cause of the last failure (R175). The veto count of the current part stands in its
queue entry (R16). -/
structure Outbound where
  state : OutboundState
  target : Nat
  total : Nat
  data : List Byte
  lastFailure : Option Cause
  deriving DecidableEq, Repr, Inhabited

/-- The note unit. -/
structure NoteUnit where
  box : NoteBox
  outbound : Outbound
  deriving DecidableEq, Repr, Inhabited

/-! ## The host port and the start-up unit (chapter 11) -/

/-- An event record, Table 11-5. The subject holds up to three items. -/
structure EventRecord where
  kind : EventKind
  subject : List Nat
  cause : Option Cause
  stamp : BitVec 16
  deriving DecidableEq, Repr, Inhabited

/-- A response, Table 11-2, without its check. -/
structure Response where
  code : Byte
  status : Status
  results : List Byte
  deriving DecidableEq, Repr, Inhabited

/-- The host port. `shifted` is what it shifted out in the latest transfer. -/
structure HostPort where
  response : Option Response
  shifted : List Byte
  events : List EventRecord
  stayAwake : Bool
  deriving DecidableEq, Repr, Inhabited

/-- A carry retry count of the start-up unit (R182). -/
structure CarryRetry where
  count : Nat
  armed : Bool
  deriving DecidableEq, Repr, Inhabited

/-- The start-up unit. `record` is the image of the start-up record. -/
structure StartUp where
  reading : Bool
  record : Option StartUpRecord
  carryRetry : List CarryRetry
  deriving DecidableEq, Repr, Inhabited

/-! ## The whole state -/

/-- The state of the block: the commands waiting, the number of local samples so far (the model's key of free
values, log 14), and the blocks of Table 0-1. -/
structure State where
  pending : List Instr
  localCount : Nat
  line : LineInterface
  tables : LineTables
  member : Membership
  follower : Follower
  ports : Ports
  store : Store
  mixer : Mixer
  announce : Announce
  blend : Blend
  call : CallUnit
  note : NoteUnit
  host : HostPort
  startUp : StartUp
  deriving DecidableEq, Repr, Inhabited

/-- Why the machine could stop with a fault: never. The spec names no condition that stops the part. -/
inductive Fault where
  deriving DecidableEq, Repr

/-- Why a command could have no meaning. -/
inductive Refusal where
  /-- Raised by `exec` for a command that has no meaning yet, by its mnemonic. Safe: the model stops. -/
  | notModelled (mnemonic : String)
  deriving DecidableEq, Repr

/-! ## Values after reset -/

/-- The line interface after each kind of reset, Table 1-9 and R58. -/
def LineInterface.reset : LineInterface :=
  { timerExpired := false, silentCount := 0, silent := false, lead := false, phase := .over, field := .unseen,
    sent := none, vetoing := .none, queue := [], waiting := [], nextOrder := 0, presenceCounter := 0,
    presenceDue := false, selfVeto := 0, bindings := List.replicate 4 none, lineSamples := [],
    driven := List.replicate 40 none }

/-- An absent roster entry: every field as after a reset (Table 2-3). -/
def RosterEntry.absent : RosterEntry :=
  { present := false, roles := { attended := false, outputs := false, mics := false, tuner := false },
    zones := 0, privateZones := 0, age := 0, serial := none, completeness := .none, marks := [] }

/-- A call record in NONE, Table 9-1. -/
def CallRecord.none : CallRecord :=
  { state := .none, owner := Option.none, downlink := Option.none, uplink := Option.none,
    reference := Option.none, mic := Option.none, zones := 0 }

/-- The line tables after each kind of reset (R1, R24, R45, R46, R150). -/
def LineTables.reset : LineTables :=
  { frameCount := 0, roster := List.replicate 16 .absent, directory := List.replicate 64 .none,
    slots := List.replicate 40 .free, calls := List.replicate 2 .none }

/-- The membership unit after each kind of reset (R23, R29, R40). -/
def Membership.reset : Membership :=
  { station := .offline, cause := none, undamaged := 0, pointer := .stream 0, backoff := 0, silenceCount := 0 }

/-- The clock follower and the gate after each kind of reset (R65, R69). -/
def Follower.reset : Follower :=
  { state := .freeRun, onTime := 0, miss := 0, rate := .nominal, gate := .shut, gain := 0 }

/-- The port block after each kind of reset (R73 to R77). -/
def Ports.reset : Ports :=
  { inputs := List.replicate 4 .zero, outputs := List.replicate 6 .zero, buffer := [], reading := false,
    lastHanded := none, digital := none, slipGuard := 64, balance := 0, blockReads := 0, blockWorst := .good,
    lastQuality := .lost, arrivalGap := 0, nextLost := 64 }

/-- A bank after each kind of reset (Table 5-7). -/
def Bank.reset : Bank :=
  { state := .idle, burst := none, debt := 0, nextRefresh := 0, loss := none, rewritten := [] }

/-- The sample store after a POWER-ON reset (Table 5-7), before the record is read. -/
def Store.reset : Store :=
  { memory := [], banks := List.replicate 8 .reset, lossEvents := 0, refreshTick := 0,
    queues := List.replicate 5 [], budget := 6, allowance := 2, frames := 0, gaps := List.replicate 4 0,
    overdue := 0, regions := [], retained := 0, retention := false, pinHeld := false }

/-- A ring with every hole mark set and its write position 0. -/
def Ring.cleared (serial : Nat) : Ring :=
  { write := 0, current := [], whole := none, clean := [], half := [], serial := serial }

/-- No ramp, at a gain. -/
def Ramp.at (gain : Gain) : Ramp :=
  { start := gain, target := gain, current := gain, steps := 480, running := false }

/-- An empty call position (R110). -/
def CallPosition.emptied : CallPosition :=
  { state := .empty, downlink := none, record := none, ramp := .at 0 }

/-- A zone after each kind of reset, before the autonomous routes (R117). -/
def Zone.reset : Zone :=
  { routes := [], position := .emptied, sum := .zero }

/-- The zone mixer after each kind of reset (R113, R114, R115, R117). -/
def Mixer.reset : Mixer :=
  { zones := List.replicate 4 .reset, paths := List.replicate 6 { ring := .cleared 0, held := [] }, round := 0,
    nextAge := 0 }

/-- An EMPTY clip (R118). -/
def Clip.none : Clip := { state := .empty, offset := 0, length := 0, received := 0, written := 0 }

/-- A cadence channel after each kind of reset, Table 7-4. -/
def CadenceChannel.reset : CadenceChannel :=
  { role := .off, activePeriod := 48, stagedPeriod := 48, activeRepetitions := 0, stagedRepetitions := 0,
    done := 0, time := 48, trigger := false, running := false, activeDelay := 0, stagedDelay := 0,
    activeClip := 0, stagedClip := 0, level := 63, remaining := 0, counting := false, missed := false }

/-- The announce unit after a POWER-ON reset (R118, R120, R124, R132). -/
def Announce.reset : Announce :=
  { clips := List.replicate 32 .none, bufferClip := none, buffer := [],
    loads := List.replicate 32 0, nextLoad := 1, plays := List.replicate 4 none, nextPlay := 0, out := 0,
    channels := List.replicate 8 .reset }

/-- The correlator at rest. -/
def Correlator.stopped : Correlator :=
  { phase := .notRunning, done := 0, analogue := [], digital := [], tap := { serial := 0, held := [] } }

/-- The blend engine after each kind of reset (R133, R136). That there is no last result then is the model's choice (log 73). -/
def Blend.reset : Blend :=
  { state := .idle, mix := 0, gain := 0, correction := 0, valid := false, attempts := 0, fast := false,
    goodRun := 0, poorRun := 0, ring := .cleared 0, fill := 0, round := 0, main := { serial := 0, held := [] },
    crossfade := none, correlator := .stopped, last := .none, nextTap := 1, out := .zero }

/-- An empty canceller block. -/
def CancellerBlock.start : CancellerBlock :=
  { count := 0, reference := 0, microphone := 0, estimate := 0, output := 0, unfrozen := true, whole := true }

/-- The call unit after each kind of reset (R160 to R166). The fallback gain 1 is 2^32 steps. -/
def CallUnit.reset : CallUnit :=
  { retry := 0, retryArmed := false, state := .off, served := none, servedReference := none,
    coefficients := List.replicate 1024 0, searchDone := false, bulkDelay := 32, gathered := 0, copies := [],
    searchTick := 0, history := .cleared 0, tap := { serial := 0, held := [] }, references := [], window := [], windowZeros := [],
    round := 0, freeze := 0, frozen := false, notValidRun := 0, usable := false, block := .start,
    last := { erle := 0, farEnd := false, nearEnd := false, measured := false }, convergedRun := 0,
    lossRun := 0, quietRun := 0, fallback := .at 4294967296, downlinkLive := false, microphone := 0,
    uplink := 0 }

/-- The note unit after each kind of reset (R168, R173). Target, total length and data of an IDLE buffer are the model's
choice (log 10). -/
def NoteUnit.reset : NoteUnit :=
  { box := .free, outbound := { state := .idle, target := 0, total := 0, data := [], lastFailure := none } }

/-- The host port after a POWER-ON reset (R176, R179, R183). -/
def HostPort.reset : HostPort :=
  { response := none, shifted := [],
    events := [{ kind := .reset, subject := [], cause := some .powerOn, stamp := 0 }], stayAwake := false }

/-- The start-up unit after a POWER-ON reset: it reads the record (R181). -/
def StartUp.reset : StartUp :=
  { reading := true, record := none, carryRetry := List.replicate 4 { count := 0, armed := false } }

/-- The machine right after a POWER-ON reset: OFFLINE, the start-up record being read (R23, R181, R183). No
command waits. -/
def State.reset : State :=
  { pending := [], localCount := 0, line := .reset, tables := .reset, member := .reset, follower := .reset,
    ports := .reset, store := .reset, mixer := .reset, announce := .reset, blend := .reset, call := .reset,
    note := .reset, host := .reset, startUp := .reset }

end Sys2Proof.Machine
end

