-- ==== Sys2Proof/Machine/Ops.lean ====
section
/-! DEFINITION. The operations every block shares: events, the words of the sample store, gains, ramps and the rounding of
samples. -/

namespace Sys2Proof.Machine

/-! ## Rounding and limiting -/

/-- A quotient as a whole number: exact where it divides, else one of its two neighbours, which one is open (log 13). -/
def roundDiv (num : Int) (den : Nat) : Int :=
  if num % den = 0 then num / den
  else if Config.roundUp num den then num / den + 1 else num / den

/-- A value limited to the range of a 24-bit sample (R109): beyond it, the nearer end. -/
def limit24 (x : Int) : Sample :=
  BitVec.ofInt 24 (max (-8388608) (min 8388607 x))

/-! ## Gains and ramps -/

/-- The gain 1 in steps of 2^-32 (log 12). -/
def gainOne : Gain := 4294967296

/-- The gains of the attenuations 0 to 62 dB: 10^(-a/20), rounded down to a step of 2^-32 (R107, log 12). -/
def attenuationTable : List Nat :=
    ([4294967296, 3827893631, 3411613790, 3040603991, 2709941159, 2415237600, 2152582777, 1918491419,
     1709857277, 1523911902, 1358187913, 1210486251, 1078847007, 961523407, 856958638, 763765190, 680706442,
     606680255, 540704347, 481903256, 429496729] : List Nat) ++
    ([382789363, 341161379, 304060399, 270994115, 241523760, 215258277, 191849141, 170985727, 152391190,
     135818791, 121048625, 107884700, 96152340, 85695863, 76376519, 68070644, 60668025, 54070434, 48190325,
     42949672, 38278936] : List Nat) ++
    ([34116137, 30406039, 27099411, 24152376, 21525827, 19184914, 17098572, 15239119, 13581879, 12104862,
     10788470, 9615234, 8569586, 7637651, 6807064, 6066802, 5407043, 4819032, 4294967, 3827893, 3411613] : List Nat)

/-- The gain of an attenuation in dB (R107): 63 or more is OFF, a gain of 0. -/
def attenuation (a : Nat) : Gain := attenuationTable.getD a 0

/-- A new ramp from the gain as it stands to a target (R108): at its end at once where the gain is there already. -/
def Ramp.toTarget (r : Ramp) (target : Gain) : Ramp :=
  if r.current = target then .at target
  else { start := r.current, target := target, current := r.current, steps := 0, running := true }

/-- One of the 480 equal steps of a ramp in flight (R108). -/
def Ramp.advance (r : Ramp) : Ramp :=
  if r.running && r.steps < 480 then
    { r with steps := r.steps + 1,
             current := (r.start * (479 - r.steps) + r.target * (r.steps + 1)) / 480 }
  else r

/-- The sum of samples times gains, as a whole number limited to 24 bits (R109, log 13). -/
def mixSamples (terms : List (Sample × Gain)) : Sample :=
  limit24 (roundDiv (terms.foldl (fun acc t => acc + t.1.toInt * t.2) 0) gainOne)

/-! ## Events (R180) -/

/-- The record in force: none while the station is OFFLINE (R179). -/
def State.inForce (s : State) : Option StartUpRecord :=
  if s.member.station = .offline then none else s.startUp.record

/-- The role flags of the record in force. -/
def State.roles (s : State) : Roles :=
  match s.inForce with
  | some r => r.roles
  | none => { attended := false, outputs := false, mics := false, tuner := false }

/-- Whether events are taken: at a station with a host, and while OFFLINE (R180). -/
def State.hasHost (s : State) : Bool :=
  s.member.station = .offline || s.roles.attended

/-- The event list with one more event (R180): the 32nd place counts the events lost. -/
def addEvent (r : EventRecord) (events : List EventRecord) : List EventRecord :=
  if events.length < 31 then events ++ [r]
  else if events.length = 31 then
    events ++ [{ kind := .eventsLost, subject := [1], cause := none, stamp := r.stamp }]
  else events.modify 31 (fun e => { e with subject := [min 255 (e.subject.headD 0 + 1)] })

/-- Raise an event with its subject and cause, stamped with the low 16 bits of the frame count (R1, R180). -/
def raise (kind : EventKind) (subject : List Nat) (cause : Option Cause) (s : State) : State :=
  if s.hasHost then
    let record : EventRecord :=
      { kind := kind, subject := subject, cause := cause, stamp := s.tables.frameCount.setWidth 16 }
    { s with host.events := addEvent record s.host.events }
  else s

/-- Causes in the order of their codes: alphabetical, character by character (R180, log 11). -/
def causeOrder : List Cause :=
  ([.abandoned, .agedOut, .alreadyCarried, .answer, .answered, .badClass, .badDownlink, .badField,
   .badReference, .badUplink, .bankLost, .callChanged, .callSlot, .callState, .claim, .clipInvalid,
   .complete, .completed, .configInvalid, .deadline, .disabled, .dormant, .dropped, .empty, .enabled,
   .endCall, .erleHigh, .erleLow, .filled, .found, .goodRun, .hold] : List Cause) ++
  ([.inUse, .joined, .joinFailed, .leaveRequested, .left, .live, .lost, .micLost, .nearEnd,
   .nearEndQuiet, .notCarried, .notFound, .notOffered, .notOwner, .notPresent, .notRetained, .noMic,
   .noRoom, .noStream, .noZones, .numberTaken, .offer, .outOfRange, .ownerLost, .poor, .powerOn,
   .presence, .privateStream, .privateZone, .queueFull, .ready, .referenceBack] : List Cause) ++
  ([.referenceChanged, .referenceLost, .rejoin, .release, .resetLine, .resume, .ring, .selfVeto,
   .senderRemoved, .settled, .silenceEnded, .silentLine, .slipLimit, .slotBusy, .stalled,
   .startsMissed, .startSeen, .startUp, .stationChanged, .streamGone, .taken, .targetLost, .tuned,
   .vetoed, .waiting, .wakeRequest, .wakeStart, .withdraw, .zones, .zoneFull, .zoneTaken] : List Cause)

/-- The code of a cause, from 1 (R180); 0 where no cause is named (Table 11-5). -/
def causeCode : Option Cause → Nat
  | none => 0
  | some c => causeOrder.idxOf c + 1

/-! ## The words of the sample store (R79) -/

/-- Read one word; an unlisted word is zero (R96). -/
def Memory.read : Memory → Nat → Sample
  | [], _ => 0
  | (k, v) :: rest, a => if k = a then v else Memory.read rest a

/-- Write one word, keeping the canonical form: addresses rising, no zero word listed. -/
def Memory.write : Memory → Nat → Sample → Memory
  | [], a, v => if v = 0 then [] else [(a, v)]
  | (k, w) :: rest, a, v =>
    if a < k then (if v = 0 then (k, w) :: rest else (a, v) :: (k, w) :: rest)
    else if a = k then (if v = 0 then rest else (a, v) :: rest)
    else (k, w) :: Memory.write rest a v

/-- The words of a bank: 512 rows of 256. -/
def bankWords : Nat := 131072

/-- Word address of a word of a row of a bank. -/
def wordAddress (bank row word : Nat) : Nat := bank * bankWords + row * 256 + word

/-- Keep the words of some banks only; the others are zero. -/
def Memory.keepBanks (m : Memory) (keep : Nat → Bool) : Memory :=
  m.filter (fun c => keep (c.1 / bankWords))

/-- The canonical form: addresses strictly rising, and no zero word. -/
def Memory.wf : Memory → Bool
  | [] => true
  | [(_, v)] => decide (v ≠ 0)
  | (a, v) :: (b, w) :: rest => decide (a < b) && decide (v ≠ 0) && Memory.wf ((b, w) :: rest)

/-! ## Small table operations -/

/-- The station number of the record (0 before any record is kept: no rule then uses it). -/
def State.number (s : State) : Nat :=
  match s.startUp.record with
  | some r => r.station
  | none => 0

/-- Whether a zone id is in a zone set. -/
def inSet (zones : ZoneSet) (z : Nat) : Bool := zones.getLsbD z

/-- The zone set of a list of zone ids. -/
def setOf (ids : List Nat) : ZoneSet :=
  ids.foldl (fun acc z => acc ||| (1#16 <<< z)) 0

/-- A stream's directory entry. -/
def LineTables.entry (t : LineTables) (x : Nat) : StreamEntry := t.directory.getD x .none

/-- A station's roster entry. -/
def LineTables.station (t : LineTables) (n : Nat) : RosterEntry := t.roster.getD n .absent

/-- A call record. -/
def LineTables.call (t : LineTables) (j : Nat) : CallRecord := t.calls.getD j .none

/-- The parameters of a stream that is OFFERED or CARRIED. -/
def StreamEntry.parameters : StreamEntry → Option StreamParameters
  | .none => Option.none
  | .offered p => some p
  | .carried p _ => some p

/-- Whether a stream is CARRIED. -/
def StreamEntry.isCarried : StreamEntry → Bool
  | .carried _ _ => true
  | _ => false

/-- Whether a stream is OFFERED. -/
def StreamEntry.isOffered : StreamEntry → Bool
  | .offered _ => true
  | _ => false

/-- The code of a stream's state, Table 1-5. -/
def StreamEntry.code : StreamEntry → Nat
  | .none => 0
  | .offered _ => 1
  | .carried _ _ => 2

/-- The zones of the roster: the ids in the zone sets of the present entries (R24). -/
def LineTables.zonesPresent (t : LineTables) : ZoneSet :=
  t.roster.foldl (fun acc e => if e.present then acc ||| e.zones else acc) 0

/-- The private zones of the present entries (R152). -/
def LineTables.privateZonesPresent (t : LineTables) : ZoneSet :=
  t.roster.foldl (fun acc e => if e.present then acc ||| e.privateZones else acc) 0

/-- The slots OWNED by a station's streams: the owned slot set of its roster entry (R24). -/
def LineTables.ownedSlots (t : LineTables) (station : Nat) : SlotSet :=
  (List.range 40).foldl (fun acc i =>
    match t.slots.getD i .free with
    | .owned x => if x / 4 = station then acc ||| (1#40 <<< i) else acc
    | _ => acc) 0

/-- The zone definitions of the record in force (R98): none while OFFLINE. -/
def State.definitions (s : State) : List ZoneDefinition :=
  match s.inForce with
  | some r => r.zones
  | none => []

/-- The place of an own zone among the definitions, by its id. -/
def State.ownZone (s : State) (id : Nat) : Option Nat :=
  s.definitions.findIdx? (fun d => d.id == id)

/-- Do something to each of the indexes below a bound, in ascending order. -/
def forEach (n : Nat) (f : Nat → State → State) (s : State) : State :=
  (List.range n).foldl (fun acc i => f i acc) s

end Sys2Proof.Machine
end

