-- ==== Sys2Proof/Machine/Operands.lean ====
section
/-! DEFINITION. Layouts: the control field on the line (Tables 1-3 to 1-5), the check (R8), the ranges of message fields
(R10), the codes of named values and the items of requests and responses (R177). -/

namespace Sys2Proof.Machine

/-! ## Bytes and the check -/

/-- A number in a given count of bytes, most significant byte first (R177). -/
def inBytes : Nat → Nat → List Byte
  | 0, _ => []
  | width + 1, v => BitVec.ofNat 8 (v / 256 ^ width) :: inBytes width v

/-- A signed number in two's complement (R177). -/
def signed (width : Nat) (v : Int) : List Byte := inBytes width (v % (256 ^ width : Nat)).toNat

/-- An item that may be absent: all ones in its width when it is (R177). -/
def optional (width : Nat) : Option Nat → List Byte
  | some v => inBytes width v
  | none => List.replicate width 255

/-- A flag, or a yes or no (R177). -/
def flag (b : Bool) : List Byte := [if b then 1 else 0]

/-- A list of entries after its count in one byte (R177). -/
def listed {α : Type} (items : List α) (f : α → List Byte) : List Byte :=
  inBytes 1 items.length ++ items.flatMap f

/-- The bits of a word, most significant first. -/
def bitsOf {n : Nat} (w : BitVec n) : List Bool := (List.range n).map (fun i => w.getMsbD i)

/-- One bit through the CRC-16 register of R8: generator x^16 + x^12 + x^5 + 1. -/
def crcBit (register : BitVec 16) (bit : Bool) : BitVec 16 :=
  if register.msb ^^ bit then (register <<< 1) ^^^ 0x1021#16 else register <<< 1

/-- The CRC-16 of R8: the register starts at all ones, bits in the order sent. -/
def crc16 (bits : List Bool) : BitVec 16 := bits.foldl crcBit 0xFFFF#16

/-- The CRC-16 over bytes, each most significant bit first. -/
def crcBytes (bytes : List Byte) : BitVec 16 := crc16 (bytes.flatMap (fun b => bitsOf b))

/-! ## Codes of named values -/

/-- The role flags as a byte: ATTENDED bit 0, OUTPUTS 1, MICS 2, TUNER 3 (section 1.3). -/
def rolesByte (r : Roles) : Byte :=
  (if r.attended then 1 else 0) ||| (if r.outputs then 2 else 0) ||| (if r.mics then 4 else 0)
    ||| (if r.tuner then 8 else 0)

/-- The role flags of a byte. -/
def rolesOf (b : Byte) : Roles :=
  { attended := b.getLsbD 0, outputs := b.getLsbD 1, mics := b.getLsbD 2, tuner := b.getLsbD 3 }

/-- The kind of stream of a code, Table 3-1. -/
def kindOf (code : Nat) : Option StreamKind :=
  [StreamKind.programme, .announce, .voiceDownlink, .voiceUplink, .reference][code]?

/-- The code of a kind of stream, Table 3-1. -/
def kindCode : StreamKind → Nat
  | .programme => 0 | .announce => 1 | .voiceDownlink => 2 | .voiceUplink => 3 | .reference => 4

/-- A stream id, station or slot field that may be none: 255 (section 1.3). -/
def presentByte (b : Byte) : Option Nat := if b = 255 then none else some b.toNat

/-- The code of a station state: its place in Table 2-1. -/
def stationCode : StationState → Nat
  | .offline => 0 | .listening => 1 | .joining => 2 | .member => 3 | .leaving => 4 | .detached => 5
  | .silenced => 6 | .dormant => 7

/-- The code of a follower state: its place in R65. -/
def followerCode : FollowerState → Nat
  | .freeRun => 0 | .pulling => 1 | .locked => 2

/-- The code of a gate state: its place in Table 4-4. -/
def gateCode : GateState → Nat
  | .open => 0 | .closing => 1 | .shut => 2 | .opening => 3

/-- The code of a quality: its place in Table 4-4. -/
def qualityCode : Quality → Nat
  | .good => 0 | .poor => 1 | .lost => 2

/-- The code of a call record's state, Table 1-5. -/
def callCode : CallState → Nat
  | .none => 0 | .ringing => 1 | .active => 2 | .held => 3

/-- The call record's state of a code, Table 1-5. -/
def callStateOf : Nat → CallState
  | 1 => .ringing | 2 => .active | 3 => .held | _ => .none

/-- The code of a client: its place in Table 5-3. -/
def clientCode : Client → Nat
  | .align => 0 | .blend => 1 | .echo => 2 | .clip => 3

/-- The code of an access: its place in Table 5-5. -/
def accessCode : Access → Nat
  | .read => 0 | .write => 1

/-- The code of a bank state: its place in Table 5-1. -/
def bankCode : BankState → Nat
  | .idle => 0 | .opening _ => 1 | .open _ => 2 | .closing => 3 | .refreshing => 4

/-- The code of a zone kind: its place in Table 6-1. -/
def zoneKindCode : ZoneKind → Nat
  | .openZone => 0 | .privateZone => 1

/-- The code of a duck policy: its place in Table 6-1. -/
def policyCode : DuckPolicy → Nat
  | .mix => 0 | .duck => 1 | .mute => 2

/-- The code of a route entry's state: its place in Table 6-2. -/
def routeStateCode : RouteState → Nat
  | .waiting => 0 | .live => 1 | .leaving => 2

/-- The code of a call position's state: its place in R110. -/
def positionCode : PositionState → Nat
  | .empty => 0 | .waiting => 1 | .live => 2

/-- The cause that names a call position's state (R111). -/
def positionCause : PositionState → Cause
  | .empty => .empty | .waiting => .waiting | .live => .live

/-- The code of a clip's state: its place in Table 7-1. -/
def clipCode : ClipState → Nat
  | .empty => 0 | .loading => 1 | .ready => 2 | .locked => 3 | .invalid => 4

/-- The code of a blend state: its place in Table 8-1. -/
def blendCode : BlendState → Nat
  | .idle => 0 | .filling => 1 | .analogue => 2 | .aligning => 3 | .toDigital => 4 | .digital => 5
  | .toAnalogue => 6 | .lockout => 7

/-- The code of a correlator phase: its place in Table 8-3. -/
def correlatorCode : CorrelatorPhase → Nat
  | .notRunning => 0 | .priming => 1 | .window => 2 | .forming => 3

/-- The code of a canceller state: its place in Table 9-5. -/
def cancellerCode : CancellerState → Nat
  | .off => 0 | .fallback => 1 | .converging => 2 | .converged => 3 | .doubleTalk => 4

/-- The code of an event kind, Table 11-6. -/
def eventCode : EventKind → Nat
  | .reset => 1 | .lineOutcome => 2 | .stationChanged => 3 | .stationAdded => 4 | .stationRemoved => 5
  | .streamChanged => 6 | .streamLost => 7 | .routeDropped => 8 | .routeAnswer => 9
  | .callPositionChanged => 10 | .followerChanged => 11 | .storeGap => 12 | .refreshOverdue => 13
  | .clipLost => 14 | .playDone => 15 | .cadenceDone => 16 | .blendChanged => 17 | .startUpFailed => 18
  | .blendAlignFailed => 19 | .callChanged => 20 | .cancellerChanged => 21 | .noteArrived => 22
  | .noteDropped => 23 | .noteExpired => 24 | .noteSent => 25 | .noteUndelivered => 26 | .eventsLost => 27

/-- The code of a response's status: 0 for OK, else Table 11-3. -/
def statusCode : Status → Nat
  | .ok => 0 | .badRequest => 1 | .badCheck => 2 | .badParameter => 3 | .wrongState => 4 | .notMember => 5
  | .queueFull => 6 | .noRoom => 7 | .noStation => 8 | .noZone => 9 | .locked => 10 | .busy => 11
  | .overlap => 12 | .short => 13 | .playsFull => 14 | .badBinding => 15 | .dormant => 16

/-- A binding in two bytes: its row of Table 3-5, then p or z (R177). -/
def bindingBytes : Binding → List Byte
  | .input p => inBytes 1 0 ++ inBytes 1 p
  | .blend => [1, 0]
  | .announce => [2, 0]
  | .uplink => [3, 0]
  | .zoneMix z => inBytes 1 4 ++ inBytes 1 z

/-- The binding of two bytes, where they name one: pair 0 to 3, zone id 0 to 15. -/
def bindingOf (row arg : Byte) : Option Binding :=
  match row.toNat with
  | 0 => if arg.toNat ≤ 3 then some (.input arg.toNat) else none
  | 1 => if arg = 0 then some .blend else none
  | 2 => if arg = 0 then some .announce else none
  | 3 => if arg = 0 then some .uplink else none
  | 4 => if arg.toNat ≤ 15 then some (.zoneMix arg.toNat) else none
  | _ => none

/-- The source channels of a binding, Table 3-5. -/
def sourceChannels : Binding → Nat
  | .announce => 1
  | .uplink => 1
  | _ => 2

/-- The kinds a binding may feed, Table 3-5, apart from whether the zone is an own OPEN one. -/
def bindingAllows : Binding → StreamKind → Bool
  | .input _, k => k == .programme || k == .voiceDownlink
  | .blend, k => k == .programme
  | .announce, k => k == .announce
  | .uplink, k => k == .voiceUplink
  | .zoneMix _, k => k == .reference

/-! ## The control message -/

/-- The kind code of a message, Table 1-4. -/
def Message.kindCode : Message → Nat
  | .join .. => 1 | .presence .. => 2 | .leave => 3 | .offer .. => 4 | .withdraw _ => 5 | .claim .. => 6
  | .release _ => 7 | .route .. => 8 | .routeAnswer .. => 9 | .call .. => 10 | .notePart .. => 11

/-- The class fixed for a kind code, Table 1-4. -/
def kindClass : Nat → Option Nat
  | 1 => some 1 | 2 => some 1 | 3 => some 1 | 4 => some 2 | 5 => some 2 | 6 => some 2 | 7 => some 2
  | 8 => some 3 | 9 => some 3 | 10 => some 0 | 11 => some 4 | _ => none

/-- The class of a message, Table 1-4. -/
def Message.cls (m : Message) : Nat := (kindClass m.kindCode).getD 0

/-- The arbitration value of a message, class first, then station (section 1.3). -/
def arbitrationValue (sender : Nat) (m : Message) : Nat := m.cls * 16 + sender

/-- The bytes of a descriptor: payload bytes 10 to 18, Table 1-5. -/
def descriptorBytes : Descriptor → List Byte
  | .stream i st k c l f => [0, i, st, k, c, l, f, 0, 0]
  | .call i st d u r m z => [1, i, st, d, u, r, m] ++ inBytes 2 z.toNat
  | .other t => [t, 0, 0, 0, 0, 0, 0, 0, 0]

/-- The named payload bytes of a message, Table 1-5. -/
def Message.payload : Message → List Byte
  | .join r z p s => [r] ++ inBytes 2 z.toNat ++ inBytes 2 p.toNat ++ inBytes 4 s.toNat
  | .presence r z p o d => [r] ++ inBytes 2 z.toNat ++ inBytes 2 p.toNat ++ inBytes 5 o.toNat ++ descriptorBytes d
  | .leave => []
  | .offer i k c l => [i, k, c, l]
  | .withdraw i => [i]
  | .claim i f => [i, f]
  | .release i => [i]
  | .route z x a l => [z, x, a, l]
  | .routeAnswer s z x v => [s, z, x, v]
  | .call j a f => [j, a, f.downlink, f.uplink, f.reference, f.mic] ++ inBytes 2 f.zones.toNat
  | .notePart t i n d => [t, i] ++ inBytes 2 n.toNat ++ inBytes 16 d.toNat

/-- The 20 payload bytes as one number, byte 0 first: bytes the table does not name are zero. -/
def Message.payloadWord (m : Message) : BitVec 160 :=
  BitVec.ofNat 160 ((m.payload ++ List.replicate (20 - m.payload.length) 0).foldl
    (fun (acc : Nat) (b : Byte) => acc * 256 + b.toNat) 0)

/-- The 187 bits of the control field, first bit sent the most significant, Table 1-3. -/
def fieldBits (sender : Nat) (m : Message) : BitVec 187 :=
  let head : BitVec 171 :=
    BitVec.ofNat 3 m.cls ++ BitVec.ofNat 4 sender ++ BitVec.ofNat 4 m.kindCode ++ m.payloadWord
  head ++ crc16 (bitsOf head)

/-- Byte i of the payload of a control field. -/
def payloadByte (field : BitVec 187) (i : Nat) : Byte := field.extractLsb' (168 - 8 * i) 8

/-- Bytes i and i + 1 of the payload as one number. -/
def payloadPair (field : BitVec 187) (i : Nat) : BitVec 16 := field.extractLsb' (160 - 8 * i) 16

/-- The descriptor of a PRESENCE. -/
def descriptorOf (w : BitVec 187) : Descriptor :=
  let b := payloadByte w
  match (b 10).toNat with
  | 0 => .stream (b 11) (b 12) (b 13) (b 14) (b 15) (b 16)
  | 1 => .call (b 11) (b 12) (b 13) (b 14) (b 15) (b 16) (payloadPair w 17)
  | _ => .other (b 10)

/-- The message of a kind code and the payload of a control field, Table 1-5. -/
def messageOf (kind : Nat) (w : BitVec 187) : Option Message :=
  let b := payloadByte w
  match kind with
  | 1 => some (.join (b 0) (payloadPair w 1) (payloadPair w 3) (w.extractLsb' 104 32))
  | 2 => some (.presence (b 0) (payloadPair w 1) (payloadPair w 3) (w.extractLsb' 96 40) (descriptorOf w))
  | 3 => some .leave
  | 4 => some (.offer (b 0) (b 1) (b 2) (b 3))
  | 5 => some (.withdraw (b 0))
  | 6 => some (.claim (b 0) (b 1))
  | 7 => some (.release (b 0))
  | 8 => some (.route (b 0) (b 1) (b 2) (b 3))
  | 9 => some (.routeAnswer (b 0) (b 1) (b 2) (b 3))
  | 10 => some (.call (b 0) (b 1)
      { downlink := b 2, uplink := b 3, reference := b 4, mic := b 5, zones := payloadPair w 6 })
  | 11 => some (.notePart (b 0) (b 1) (payloadPair w 2) (w.extractLsb' 16 128))
  | _ => none

/-- The arbitration value that a control field presents. -/
def fieldArbitration (w : BitVec 187) : Nat := (w.extractLsb' 180 7).toNat

/-- Judge the form of a control field (R8): the check, the kind code and the class of the kind; none where the
field fails its check. -/
def judgeField (w : BitVec 187) : Option (Nat × Message) :=
  let cls := (w.extractLsb' 184 3).toNat
  let sender := (w.extractLsb' 180 4).toNat
  let kind := (w.extractLsb' 176 4).toNat
  if crc16 (bitsOf (w.extractLsb' 16 171)) = w.extractLsb' 0 16 ∧ kindClass kind = some cls then
    (messageOf kind w).map (fun m => (sender, m))
  else none

/-! ## Ranges of the message fields (R10) -/

/-- A stream id field that may be none. -/
def streamOrNone (b : Byte) : Bool := decide (b.toNat ≤ 63) || b == 255

/-- A station field that may be none. -/
def stationOrNone (b : Byte) : Bool := decide (b.toNat ≤ 15) || b == 255

/-- The private zone set is a subset of the zone set of the same message. -/
def privateWithin (zones privateZones : ZoneSet) : Bool := privateZones &&& ~~~zones == 0

/-- Whether the fields of a descriptor are within Table 1-5. For state NONE the bytes after the state are ignored. -/
def descriptorInRange : Descriptor → Bool
  | .stream i st k c l f =>
    decide (i.toNat ≤ 3) && decide (st.toNat ≤ 2) &&
      (st == 0 || (decide (k.toNat ≤ 4) && decide (1 ≤ c.toNat ∧ c.toNat ≤ 8) && decide (l.toNat ≤ 3)
        && (decide (f.toNat ≤ 39) || f == 255)))
  | .call i st d u r m _ =>
    decide (i.toNat ≤ 1) && decide (st.toNat ≤ 3) && streamOrNone d && streamOrNone u && streamOrNone r
      && stationOrNone m
  | .other _ => false

/-- Whether every named field of a message is within the values Table 1-5 allows (R10). -/
def Message.inRange : Message → Bool
  | .join r z p _ => decide (r.toNat ≤ 15) && privateWithin z p
  | .presence r z p _ d => decide (r.toNat ≤ 15) && privateWithin z p && descriptorInRange d
  | .leave => true
  | .offer i k c l =>
    decide (i.toNat ≤ 3) && decide (k.toNat ≤ 4) && decide (1 ≤ c.toNat ∧ c.toNat ≤ 8) && decide (l.toNat ≤ 3)
  | .withdraw i => decide (i.toNat ≤ 3)
  | .claim i f => decide (i.toNat ≤ 3) && decide (f.toNat ≤ 39)
  | .release i => decide (i.toNat ≤ 3)
  | .route z x a l =>
    decide (z.toNat ≤ 15) && decide (x.toNat ≤ 63) && decide (a.toNat ≤ 2) && decide (l.toNat ≤ 63)
  | .routeAnswer s z x v =>
    decide (s.toNat ≤ 15) && decide (z.toNat ≤ 15) && decide (x.toNat ≤ 63) && decide (v.toNat ≤ 4)
  | .call j a f =>
    decide (j.toNat ≤ 1) && decide (a.toNat ≤ 5) && streamOrNone f.downlink && streamOrNone f.uplink
      && streamOrNone f.reference && stationOrNone f.mic
  | .notePart t i n _ =>
    decide (t.toNat ≤ 15) && decide (i.toNat ≤ 15) && decide (1 ≤ n.toNat ∧ n.toNat ≤ 256)

/-- The subject of a LINE_OUTCOME (R15): the kind, with its local index, zone id or call id where it has one. -/
def Message.subject (m : Message) : List Nat :=
  match m with
  | .offer i _ _ _ => [m.kindCode, i.toNat]
  | .withdraw i => [m.kindCode, i.toNat]
  | .claim i _ => [m.kindCode, i.toNat]
  | .release i => [m.kindCode, i.toNat]
  | .route z _ _ _ => [m.kindCode, z.toNat]
  | .call j _ _ => [m.kindCode, j.toNat]
  | _ => [m.kindCode]

/-- The bytes of an event record as Read Events returns it, Table 11-5: unused subject items are 255. -/
def eventBytes (e : EventRecord) : List Byte :=
  inBytes 1 (eventCode e.kind) ++ ((e.subject.map (fun i => BitVec.ofNat 8 i)) ++ [255, 255, 255]).take 3
    ++ inBytes 1 (causeCode e.cause) ++ inBytes 2 e.stamp.toNat

/-- A response as shifted out, Table 11-2, with its check. -/
def Response.bytes (r : Response) : List Byte :=
  let body := [r.code] ++ inBytes 1 (statusCode r.status) ++ inBytes 2 r.results.length ++ r.results
  body ++ inBytes 2 (crcBytes body).toNat

/-- What a transfer shifts out when the response buffer is EMPTY (R176). -/
def emptyResponse : Response := { code := 0, status := .badRequest, results := [] }

end Sys2Proof.Machine
end

