-- ==== Sys2Proof/Machine/Flags.lean ====
section
/-! DEFINITION. Flags that are not stored but follow from the state: keep-up, attention, urgency, who takes part. -/

namespace Sys2Proof.Machine

/-- JOINING, MEMBER and LEAVING: the states that take part in the line (R11, R13). -/
def StationState.takesPart : StationState → Bool
  | .joining | .member | .leaving => true
  | _ => false

/-- LISTENING, JOINING, MEMBER and LEAVING: the states that may emit starts and hand messages on (Table 1-8). -/
def StationState.onLine : StationState → Bool
  | .listening | .joining | .member | .leaving => true
  | _ => false

/-- MEMBER and LEAVING: the states that drive slots and send presence (R20, R28). -/
def StationState.drives : StationState → Bool
  | .member | .leaving => true
  | _ => false

/-- Whether one of the station's own streams is CARRIED in its directory. -/
def State.carriesOwn (s : State) : Bool :=
  (List.range 4).any (fun i => (s.tables.entry (s.number * 4 + i)).isCarried)

/-- The keep-up flag: set while any reason of R7 holds. -/
def State.keepUp (s : State) : Bool :=
  !s.line.queue.isEmpty || s.line.presenceDue || s.carriesOwn
    || s.tables.calls.any (fun c => c.state != .none)
    || s.host.stayAwake
    || ((s.member.station == .listening || s.member.station == .joining)
        && (match s.startUp.record with
            | some r => !r.offers.isEmpty
            | none => false))

/-- The attention line: asserted while the event list holds a record (R180). -/
def State.attention (s : State) : Bool := !s.host.events.isEmpty

/-- Whether a bank's refresh is urgent (R89, R91). -/
def Bank.urgent (b : Bank) : Bool := decide (8 ≤ b.debt)

/-- Whether a bank owes an ordinary refresh (R90). -/
def Bank.owesOrdinary (b : Bank) : Bool := decide (1 ≤ b.debt ∧ b.debt < 8)

/-- The number of COMPLETE entries (R34). That outside LISTENING, where R35 keeps no completeness, it counts the marks as they last
stood is the model's choice (log 78). -/
def LineTables.completeEntries (t : LineTables) : Nat :=
  (t.roster.filter (fun e => e.present && e.completeness == .complete)).length

/-- Every present entry is COMPLETE (R36). -/
def LineTables.allComplete (t : LineTables) : Bool :=
  t.roster.all (fun e => !e.present || e.completeness == .complete)

/-- Whether the station drives the veto mark because the field failed its check, and so on (R13). -/
def State.vetoes (s : State) : Bool := s.line.vetoing != .none

/-- Whether the sound of a clip may be played: READY or LOCKED (R118). -/
def ClipState.playable : ClipState → Bool
  | .ready | .locked => true
  | _ => false

/-- The message that the station drives in this frame. -/
def Sent.message : Sent → Message
  | .queued _ m => m
  | .presence m => m

/-- Whether a message of a sender is the one this station drives in this frame (R14, R39). -/
def State.isOwn (s : State) (sender : Nat) (m : Message) : Bool :=
  sender == s.number &&
    (match s.line.sent with
     | some sent => sent.message == m
     | none => false)

end Sys2Proof.Machine
end

