-- ==== Sys2Proof/Machine/Store.lean ====
section
/-! DEFINITION. The sample store controller (chapter 5): regions, banks, queues, the arbiter, refresh and retention. These
operations act on the store alone; StoreClients.lean hands their outcomes to the clients. -/

namespace Sys2Proof.Machine

/-! ## Regions (R81) -/

/-- The bank and bank row of a client row, going through the client's regions in table order. -/
def placeRow : List Region → Nat → Option (Nat × Nat)
  | [], _ => none
  | g :: rest, row =>
    if row < g.rows then some (g.firstBank + row % g.group, g.firstRow + row / g.group)
    else placeRow rest (row - g.rows)

/-- The regions of a client in table order. -/
def Store.regionsOf (st : Store) (c : Client) : List Region := st.regions.filter (fun g => g.client == c)

/-- The rows of a client's space. -/
def Store.rowsOf (st : Store) (c : Client) : Nat := (st.regionsOf c).foldl (fun acc g => acc + g.rows) 0

/-- The words of a client's space. -/
def Store.spaceOf (st : Store) (c : Client) : Nat := st.rowsOf c * 256

/-- The bank, row and word of a client word; a client's space is a ring (R81). -/
def Store.locate (st : Store) (c : Client) (word : Nat) : Option (Nat × Nat × Nat) :=
  let w := word % st.spaceOf c
  if st.spaceOf c = 0 then none
  else (placeRow (st.regionsOf c) (w / 256)).map (fun place => (place.1, place.2, w % 256))

/-- The client of a queue (R83). -/
def QueueId.client : QueueId → Client
  | .echo => .echo | .align => .align | .blend => .blend | .playback => .clip | .loading => .clip

/-- The place of a queue in the list of queues. -/
def QueueId.place : QueueId → Nat
  | .echo => 0 | .align => 1 | .blend => 2 | .playback => 3 | .loading => 4

/-- The five queues, the most urgent head first (R86). -/
def allQueues : List QueueId := [.echo, .align, .blend, .playback, .loading]

/-- The bank, row and word that a request names. -/
def Store.named (st : Store) (r : Request) : Option (Nat × Nat × Nat) := st.locate r.queue.client r.word

/-! ## Banks -/

/-- A bank. -/
def Store.bank (st : Store) (b : Nat) : Bank := st.banks.getD b .reset

/-- Change a bank. -/
def Store.onBank (st : Store) (b : Nat) (f : Bank → Bank) : Store := { st with banks := st.banks.modify b f }

/-- A queue. -/
def Store.queue (st : Store) (q : QueueId) : List Request := st.queues.getD q.place []

/-- Change a queue. -/
def Store.onQueue (st : Store) (q : QueueId) (f : List Request → List Request) : Store :=
  { st with queues := st.queues.modify q.place f }

/-- Whether the head of a queue has its burst in flight. -/
def Store.inFlight (st : Store) (q : QueueId) : Bool := st.banks.any (fun b => b.burst == some q)

/-- Begin the burst of a queue's head on an open bank (Table 5-2). -/
def Store.beginBurst (st : Store) (b : Nat) (q : QueueId) : Store :=
  st.onBank b (fun k => { k with burst := some q })

/-- Begin the close of a bank (Table 5-2). It takes nothing from the budget (R80). -/
def Store.beginClose (st : Store) (b : Nat) : Store := st.onBank b (fun k => { k with state := .closing })

/-- Grant the opening of a row: one from the budget (R88). -/
def Store.grantOpen (st : Store) (b row : Nat) : Store :=
  { st.onBank b (fun k => { k with state := .opening row }) with budget := st.budget - 1 }

/-- Grant a refresh: one from the budget (R88). -/
def Store.grantRefresh (st : Store) (b : Nat) : Store :=
  { st.onBank b (fun k => { k with state := .refreshing }) with budget := st.budget - 1 }

/-! ## The arbiter (R86, R87) -/

/-- The step of an urgent refresh on its bank (R91); the flag says whether a step was taken. -/
def Store.urgentStep (st : Store) (b : Nat) : Store × Bool :=
  match (st.bank b).state, (st.bank b).burst with
  | .open _, none => (st.beginClose b, true)
  | .idle, _ => if 0 < st.budget then (st.grantRefresh b, true) else (st, false)
  | _, _ => (st, false)

/-- The step of an ordinary refresh on its bank (R90). -/
def Store.ordinaryStep (st : Store) (b : Nat) : Store × Bool :=
  if (st.bank b).state = .idle ∧ 0 < st.budget ∧ 0 < st.allowance then
    ({ st.grantRefresh b with allowance := st.allowance - 1 }, true)
  else (st, false)

/-- The step of a head on the bank it names (Table 5-6); none on a bank whose refresh is urgent (R91). -/
def Store.headStep (st : Store) (q : QueueId) (b row : Nat) : Store × Bool :=
  if (st.bank b).urgent then (st, false)
  else match (st.bank b).state, (st.bank b).burst with
    | .open r, none =>
      if r = row then (st.beginBurst b q, true)
      else if 0 < st.budget then (st.beginClose b, true) else (st, false)
    | .idle, _ => if 0 < st.budget then (st.grantOpen b row, true) else (st, false)
    | _, _ => (st, false)

/-- Insert a bank into a list ordered by highest debt, then lowest number (R87). -/
def Store.insertByDebt (st : Store) (b : Nat) : List Nat → List Nat
  | [] => [b]
  | c :: rest => if (st.bank c).debt < (st.bank b).debt then b :: c :: rest else c :: st.insertByDebt b rest

/-- The banks with a property, in order of highest debt, then lowest number (R87). -/
def Store.byDebt (st : Store) (p : Bank → Bool) : List Nat :=
  ((List.range 8).filter (fun b => p (st.bank b))).foldl (fun acc b => st.insertByDebt b acc) []

/-- A store and the banks that have had their step while the arbiter acts. -/
abbrev Arbitration := Store × List Nat

/-- Give a claimant on a bank its step, unless the bank has had one (R87). -/
def claim (b : Nat) (f : Store → Store × Bool) (a : Arbitration) : Arbitration :=
  if a.2.contains b then a
  else
    let (st, taken) := f a.1
    (st, if taken then b :: a.2 else a.2)

/-- The claim of a queue's head. -/
def claimHead (q : QueueId) (a : Arbitration) : Arbitration :=
  match a.1.queue q with
  | [] => a
  | r :: _ =>
    if a.1.inFlight q then a
    else match a.1.named r with
      | none => a
      | some (b, row, _) => claim b (fun st => st.headStep q b row) a

/-- The arbiter acts once: urgent refreshes, the ECHO, ALIGN, BLEND and CLIP playback heads, ordinary refreshes, the
CLIP loading head, at most one step to each bank (R86, R87). Nothing begins in retention. -/
def Store.arbitrate (st : Store) : Store :=
  if st.retention then st
  else
    let a := (st.byDebt Bank.urgent).foldl (fun a b => claim b (fun st => st.urgentStep b) a) (st, [])
    let a := [QueueId.echo, .align, .blend, .playback].foldl (fun a q => claimHead q a) a
    let a := (a.1.byDebt Bank.owesOrdinary).foldl (fun a b => claim b (fun st => st.ordinaryStep b) a) a
    (claimHead .loading a).1

/-! ## Words -/

/-- The word at an address: a word of a lost bank that has not been written since is open (R92, log 15). -/
def Store.word (st : Store) (a : Nat) : Sample :=
  match (st.bank (a / bankWords)).loss with
  | some e => if (st.bank (a / bankWords)).rewritten.contains a then st.memory.read a else Config.lostWord e a
  | none => st.memory.read a

/-- Write one word; in a lost bank it is to be trusted from then on (R92). -/
def Store.writeWord (st : Store) (a : Nat) (v : Sample) : Store :=
  let written := { st with memory := st.memory.write a v }
  match (st.bank (a / bankWords)).loss with
  | some _ =>
    if (st.bank (a / bankWords)).rewritten.contains a then written
    else written.onBank (a / bankWords) (fun k => { k with rewritten := a :: k.rewritten })
  | none => written

/-- The words a burst moves: 8, or 4 for a short burst (R79). -/
def Request.words (r : Request) : Nat := if r.short then 4 else 8

/-- The address of the first word of a request's burst. -/
def Store.address (st : Store) (r : Request) : Option Nat :=
  (st.named r).map (fun p => wordAddress p.1 p.2.1 p.2.2)

/-- The words of a read burst. -/
def Store.readBurst (st : Store) (r : Request) : List Sample :=
  match st.address r with
  | some a => (List.range r.words).map (fun i => st.word (a + i))
  | none => []

/-- Write the write set of a burst; the other words keep their contents (R79). -/
def Store.writeBurst (st : Store) (r : Request) : Store :=
  match st.address r with
  | some a =>
    r.data.foldl (fun acc d => if d.1 < r.words then acc.writeWord (a + d.1) d.2 else acc) st
  | none => st

/-! ## Arrivals, boundaries and completions -/

/-- Whether a deadline frame is at or below the store frame count, across its return to 0 (R85). -/
def deadlineReached (d count : BitVec 32) : Bool := decide ((d - count).toInt ≤ 0)

/-- What becomes of an arriving request: a gap, or its place in its queue (R83, R85). -/
def Store.arrivalGap (st : Store) (r : Request) : Option Cause :=
  if 4 ≤ (st.queue r.queue).length then some .queueFull
  else match r.deadline with
    | some d => if deadlineReached d st.frames then some .deadline else none
    | none => none

/-- Put a request at the end of its queue; the arbiter acts if it becomes the head (R83, R87). -/
def Store.enqueue (st : Store) (r : Request) : Store :=
  let queued := st.onQueue r.queue (fun q => q ++ [r])
  if (st.queue r.queue).isEmpty then queued.arbitrate else queued

/-- Whether a queued request is withdrawn at a boundary: its deadline is reached (R85). -/
def Store.overdue? (st : Store) (r : Request) : Bool :=
  match r.deadline with
  | some d => deadlineReached d st.frames
  | none => false

/-- The requests of a queue whose burst has not begun. -/
def Store.unbegun (st : Store) (q : QueueId) : List Request :=
  if st.inFlight q then (st.queue q).drop 1 else st.queue q

/-- The requests that a boundary withdraws, in order of queue and arrival (R85). -/
def Store.withdrawn (st : Store) : List Request :=
  allQueues.flatMap (fun q => (st.unbegun q).filter st.overdue?)

/-- A queue after the withdrawals of a boundary: a burst in flight past its deadline is marked late. -/
def Store.afterWithdrawal (st : Store) (q : QueueId) : List Request :=
  let kept := (st.unbegun q).filter (fun r => !st.overdue? r)
  if st.inFlight q then
    match st.queue q with
    | head :: _ => { head with late := head.late || st.overdue? head } :: kept
    | [] => kept
  else kept

/-- The first three parts of a store frame boundary: the count, the budget and the allowance (R84). -/
def Store.newFrame (st : Store) : Store := { st with frames := st.frames + 1, budget := 6, allowance := 2 }

/-- The withdrawal of a boundary (R84, R85). -/
def Store.withdraw (st : Store) : Store := { st with queues := allQueues.map st.afterWithdrawal }

/-- How a request ends. -/
inductive RequestEnd where
  | served (words : List Sample)
  | gap (cause : Cause)
  deriving DecidableEq, Repr

/-- Burst complete on a bank (R79, R80, R85): the head leaves its queue, a write lands whole, and the bank goes to
CLOSING where the burst carried close after. The outcome is handed to the client. -/
def Store.completeBurst (st : Store) (b : Nat) : Store × Option (Request × RequestEnd) :=
  match (st.bank b).burst with
  | none => (st, none)
  | some q =>
    match st.queue q with
    | [] => (st.onBank b (fun k => { k with burst := none }), none)
    | r :: rest =>
      let words := st.readBurst r
      let landed := if r.access = .write then st.writeBurst r else st
      let left := landed.onQueue q (fun _ => rest)
      let closed := left.onBank b (fun k =>
        { k with burst := none, state := if r.closeAfter then .closing else k.state })
      let outcome := if r.late then RequestEnd.gap .deadline
        else .served (if r.access = .read then words else [])
      (closed, some (r, outcome))

/-- Open complete (Table 5-2). -/
def Store.completeOpen (st : Store) (b : Nat) : Store :=
  match (st.bank b).state with
  | .opening r => (st.onBank b (fun k => { k with state := .open r })).arbitrate
  | _ => st

/-- Close complete (Table 5-2). -/
def Store.completeClose (st : Store) (b : Nat) : Store :=
  match (st.bank b).state with
  | .closing => (st.onBank b (fun k => { k with state := .idle })).arbitrate
  | _ => st

/-- Refresh complete (Table 5-2, R89): the debt falls by one and the next row is the following one. -/
def Store.completeRefresh (st : Store) (b : Nat) : Store :=
  match (st.bank b).state with
  | .refreshing =>
    (st.onBank b (fun k => { k with state := .idle, debt := k.debt - 1,
                                    nextRefresh := (k.nextRefresh + 1) % 512 })).arbitrate
  | _ => st

/-! ## Refresh debt (R89, R92) -/

/-- The banks whose debt a rise brings to 16 (R92). -/
def Store.reachingOverdue (st : Store) : List Nat := (List.range 8).filter (fun b => (st.bank b).debt == 15)

/-- Whether a rise makes the refresh of some bank urgent: a debt that stands at 7 (R87, R91). -/
def Store.turnsUrgent (st : Store) : Bool := (List.range 8).any (fun b => (st.bank b).debt == 7)

/-- Every debt rises by one, up to 16; the contents of a bank that reaches 16 are lost (R89, R92). The overdue count rises at a
station without a host too: the model's choice (log 70). -/
def Store.riseDebts (st : Store) : Store :=
  let lost := st.reachingOverdue
  let marked := lost.foldl (fun acc b =>
    { acc.onBank b (fun k => { k with loss := some acc.lossEvents, rewritten := [] }) with
      lossEvents := acc.lossEvents + 1, overdue := min 65535 (acc.overdue + 1) }) st
  { marked with banks := marked.banks.map (fun k => { k with debt := min 16 (k.debt + 1) }) }

/-! ## Retention and resets (R94 to R96) -/

/-- Whether a bank is retained. -/
def Store.retains (st : Store) (b : Nat) : Bool := st.retained.getLsbD b

/-- Let every burst in flight complete whole, handing nothing to any client: writes land (R94, R95). -/
def Store.landBursts (st : Store) : Store :=
  allQueues.foldl (fun acc q =>
    match acc.queue q with
    | r :: _ => if acc.inFlight q ∧ r.access = .write then acc.writeBurst r else acc
    | [] => acc) st

/-- A bank after its operations are ended and its row closed: retained, or without its contents, which then read
zero (R94 to R96). A loss by overdue refresh outlasts retention in a retained bank. -/
def Bank.retire (k : Bank) (kept : Bool) : Bank :=
  { Bank.reset with loss := if kept then k.loss else none, rewritten := if kept then k.rewritten else [] }

/-- Put the retained banks into retention: bursts land, queues empty, rows close, the other banks lose their
contents (R94, R95). -/
def Store.retain (st : Store) : Store :=
  let landed := st.landBursts
  { landed with
    memory := landed.memory.keepBanks st.retains
    banks := (List.range 8).map (fun b => (landed.bank b).retire (st.retains b))
    queues := List.replicate 5 []
    retention := true }

/-- The store at the end of a reset (Table 5-7), with the contents that retention kept. The region table comes from the
record that follows; until then the retained banks are those whose contents were kept, which the content report names
(R94, R96). -/
def Store.afterReset (st : Store) : Store :=
  { Store.reset with memory := st.memory,
                     banks := (List.range 8).map (fun b => (st.bank b).retire true),
                     lossEvents := st.lossEvents, retained := st.retained }

/-- The client space holds the rows a rule needs (R82). -/
def rowsOfPlan (regions : List Region) (c : Client) : Nat :=
  ((regions.filter (fun g => g.client == c)).foldl (fun acc g => acc + g.rows) 0)

end Sys2Proof.Machine
end

