-- ==== Sys2Proof/Machine/Rings.lean ====
section
/-! DEFINITION. Rings of positions in the sample store and the taps that read them: what output paths (R113 to R115), the
analogue delay line (R133 to R135) and the reference history (R163) have in common. -/

namespace Sys2Proof.Machine

/-- Write one position of a ring of `size` positions; the eighth position of a group makes it the newest whole group. -/
def Ring.push (r : Ring) (size : Nat) (x : Stereo) : Ring :=
  let written := r.current ++ [x]
  if (r.write + 1) % 8 = 0 then
    { r with write := (r.write + 1) % size, current := [], whole := some (r.write / 8, written) }
  else { r with write := (r.write + 1) % size, current := written }

/-- The hole mark of a group. -/
def Ring.hole (r : Ring) (group : Nat) : Bool := !r.clean.contains group

/-- The group's writes are requested: its hole mark is set (R115, R133, R163). -/
def Ring.writeRequested (r : Ring) (group : Nat) : Ring :=
  { r with whole := none, clean := r.clean.erase group, half := r.half.erase group }

/-- The group's hole mark is cleared. -/
def Ring.clear (r : Ring) (group : Nat) : Ring :=
  { r with clean := group :: r.clean.erase group, half := r.half.erase group }

/-- One of the two writes of a group is served; the second clears its hole mark (R115, R133). -/
def Ring.serveHalf (r : Ring) (group : Nat) : Ring :=
  if r.half.contains group then r.clear group else { r with half := group :: r.half }

/-- The words of a client row that hold the left or right samples of a group of stereo positions: position j lies
in row j div 128, left in word j mod 128, right in word 128 + j mod 128 (R113, R133). -/
def stereoWord (baseRow group : Nat) (right : Bool) : Nat :=
  (baseRow + group * 8 / 128) * 256 + group * 8 % 128 + (if right then 128 else 0)

/-- The write set of a whole group: every word of the burst. -/
def wholeSet (samples : List Sample) : List (Nat × Sample) := samples.zipIdx.map (fun p => (p.2, p.1))

/-- A held group with one of its bursts settled. -/
def HeldGroup.settle (h : HeldGroup) (right : Bool) (part : Part) : HeldGroup :=
  if right then { h with right := part } else { h with left := part }

/-- Settle a burst of a group among the groups held. -/
def settleHeld (held : List HeldGroup) (group : Nat) (right : Bool) (part : Part) : List HeldGroup :=
  held.map (fun h => if h.group = group then h.settle right part else h)

/-- A group just requested: neither burst delivered. -/
def HeldGroup.requested (group : Nat) : HeldGroup := { group := group, left := .awaited, right := .awaited }

/-- The sample of a stereo position as a path or tap reads it: silence for a hole and for a group one of whose
bursts was a gap, else its words; what no read delivered is open (log 14). -/
def readHeld (held : List HeldGroup) (r : Ring) (position reader count : Nat) : Stereo :=
  match held.find? (fun h => h.group == position / 8) with
  | none => if r.hole (position / 8) then .zero else Config.undelivered reader count
  | some h =>
    match h.left, h.right with
    | .silent, _ => .zero
    | _, .silent => .zero
    | .words l, .words m => { left := l.getD (position % 8) 0, right := m.getD (position % 8) 0 }
    | _, _ => Config.undelivered reader count

/-- The positions that follow a position in a ring. -/
def following (size position n : Nat) : List Nat := (List.range n).map (fun k => (position + k + 1) % size)

/-- A position moved back by a delay in a ring. -/
def back (size position : Nat) (delay : Int) : Nat := ((position - delay) % (size : Int)).toNat

/-- The groups that positions to come lie in, each once, in order. -/
def groupsOf (positions : List Nat) : List Nat :=
  positions.foldl (fun acc p => if acc.contains (p / 8) then acc else acc ++ [p / 8]) []

/-- The groups a tap requests at its turn: those of the positions to come that it does not hold and whose hole mark is
clear, while it holds fewer than 3 (R135, R163). A group requested and not yet delivered counts among those held: the
model's choice (log 62). -/
def tapWants (held : List HeldGroup) (r : Ring) (positions : List Nat) : List Nat :=
  ((groupsOf positions).filter (fun g => !(held.any (fun h => h.group == g)) && !r.hole g)).take (3 - held.length)

/-- The groups a tap still holds once its reading has moved on to the positions to come. -/
def stillHeld (held : List HeldGroup) (positions : List Nat) : List HeldGroup :=
  held.filter (fun h => positions.any (fun p => p / 8 == h.group))

end Sys2Proof.Machine
end

