-- ==== Sys2Proof/Machine/StoreClients.lean ====
section
/-! DEFINITION. Requests of the store's clients and what their ends mean to them (R83, R85, R93), and the loader of clips
(R120). -/

namespace Sys2Proof.Machine

/-! ## What the end of a request means to its client -/

/-- Change a client's output path. -/
def State.onPath (s : State) (pair : Nat) (f : OutputPath → OutputPath) : State :=
  { s with mixer.paths := s.mixer.paths.modify pair f }

/-- Settle a read of one of the blend engine's taps, known by its serial; a tap that has stopped takes nothing
(R135). -/
def State.settleBlendRead (s : State) (tap group : Nat) (right : Bool) (part : Part) : State :=
  let on (t : Tap) : Tap := if t.serial = tap then { t with held := settleHeld t.held group right part } else t
  { s with blend.main := on s.blend.main,
           blend.crossfade := s.blend.crossfade.map (fun x => { x with old := on x.old }),
           blend.correlator.tap := on s.blend.correlator.tap }

/-- Settle a read of the canceller's read tap. -/
def State.settleEchoRead (s : State) (ring group : Nat) (part : Part) : State :=
  if s.call.history.serial = ring then
    { s with call.tap.held := s.call.tap.held.map (fun h =>
        if h.group = group then { h with left := part, right := part } else h) }
  else s

/-- Settle a read of a play, known by its serial; a play that has ended takes nothing (R126). -/
def State.settleClipRead (s : State) (play repetition group : Nat) (part : Part) : State :=
  let groups (p : Play) : List PlayGroup := p.groups.map (fun g =>
    if g.repetition = repetition ∧ g.group = group then { g with part := part } else g)
  { s with announce.plays := s.announce.plays.map (Option.map (fun p =>
      if p.serial = play then { p with groups := groups p } else p)) }

/-- A write of a clip's load completes: `written` rises by its words while that load is under way (R119, R120). -/
def State.settleClipWrite (s : State) (load words : Nat) : State :=
  match s.announce.loads.findIdx? (fun l => l == load) with
  | none => s
  | some i =>
    { s with announce.clips := s.announce.clips.modify i (fun c =>
        if c.state = .loading then { c with written := c.written + words } else c) }

/-- Every ECHO gap sets the freeze count to 4,800 (R163). -/
def State.freezeForGap (s : State) : State :=
  { s with call.freeze := 4800, call.frozen := true, call.block.unfrozen := false }

/-- The client takes the words of a served read, or learns that its write stands (R83). A BLEND or ECHO write that was
requested before its ring was cleared clears no hole mark: the model's choice (log 61). -/
def State.takeServed (s : State) (r : Request) (words : List Sample) : State :=
  match r.purpose with
  | .alignWrite pair group _ => s.onPath pair (fun p => { p with ring := p.ring.serveHalf group })
  | .alignRead pair group right =>
    s.onPath pair (fun p => { p with held := settleHeld p.held group right (.words words) })
  | .blendWrite ring group _ =>
    if s.blend.ring.serial = ring then { s with blend.ring := s.blend.ring.serveHalf group } else s
  | .blendRead tap group right => s.settleBlendRead tap group right (.words words)
  | .echoWrite ring group =>
    if s.call.history.serial = ring then { s with call.history := s.call.history.clear group } else s
  | .echoRead ring group => s.settleEchoRead ring group (.words words)
  | .clipRead play repetition group => s.settleClipRead play repetition group (.words words)
  | .clipWrite load => s.settleClipWrite load r.data.length

/-- The client takes a gap: silence for a read, a standing hole mark for a write (R115, R125, R133, R135, R163). -/
def State.takeGap (s : State) (r : Request) : State :=
  match r.purpose with
  | .alignWrite .. => s
  | .alignRead pair group right =>
    s.onPath pair (fun p => { p with held := settleHeld p.held group right .silent })
  | .blendWrite .. => s
  | .blendRead tap group right => s.settleBlendRead tap group right .silent
  | .echoWrite .. => s.freezeForGap
  | .echoRead ring group => (s.settleEchoRead ring group .silent).freezeForGap
  | .clipRead play repetition group => s.settleClipRead play repetition group .silent
  | .clipWrite _ => s

/-- Hand a request back to its client; a gap raises STORE_GAP and is counted (R93). -/
def State.endRequest (s : State) (r : Request) (e : RequestEnd) : State :=
  match e with
  | .served words => s.takeServed r words
  | .gap cause =>
    let gaps := s.store.gaps.modify (clientCode r.queue.client) (fun n => min 65535 (n + 1))
    let counted := { s with store.gaps := gaps }
    (raise .storeGap [clientCode r.queue.client, accessCode r.access] (some cause) counted).takeGap r

/-- A client makes a request (R83); a client with no region makes none (R81). -/
def State.request (s : State) (r : Request) : State :=
  if s.store.spaceOf r.queue.client = 0 then s
  else match s.store.arrivalGap r with
    | some cause => s.endRequest r (.gap cause)
    | none => { s with store := s.store.enqueue r }

/-- The deadline frame a number of store frames from now. -/
def State.deadlineIn (s : State) (frames : Nat) : BitVec 32 := s.store.frames + BitVec.ofNat 32 frames

/-- A burst request without close after. -/
def burst (queue : QueueId) (access : Access) (word : Nat) (data : List (Nat × Sample)) (deadline : BitVec 32)
    (purpose : Purpose) : Request :=
  { queue := queue, access := access, word := word, short := false, data := data, closeAfter := false,
    deadline := some deadline, late := false, purpose := purpose }

/-! ## The loader of clips (R120) -/

/-- One loading write, if the buffer holds every sample of its next group and the loading queue has room. -/
def State.loadOne (s : State) : State :=
  match s.announce.bufferClip with
  | none => s
  | some i =>
    let c := s.announce.clips.getD i .none
    let begun := c.received - s.announce.buffer.length
    let size := min 8 (c.length - begun)
    if c.state = .loading ∧ 0 < size ∧ size ≤ s.announce.buffer.length ∧ (s.store.queue .loading).length < 4 then
      let left := s.announce.buffer.drop size
      let taken := { s with announce.buffer := left,
                            announce.bufferClip := if left.isEmpty then none else some i }
      taken.request
        { queue := .loading, access := .write, word := c.offset + begun, short := false,
          data := wholeSet (s.announce.buffer.take size), closeAfter := true, deadline := none, late := false,
          purpose := .clipWrite (s.announce.loads.getD i 0) }
    else s

/-- The announce unit makes write requests whenever the loading queue holds fewer than 4 (R120). -/
def State.feedLoader (s : State) : State := s.loadOne.loadOne.loadOne.loadOne

/-! ## Store events -/

/-- A store frame boundary, in R84's order: the count, the budget and the allowance, the withdrawals, the arbiter. The
loader takes up places that fall free. -/
def State.storeBoundary (s : State) : State :=
  let counted := { s with store := s.store.newFrame }
  let gaps := counted.store.withdrawn
  let withdrawn := { counted with store := counted.store.withdraw }
  let handed := gaps.foldl (fun acc r => acc.endRequest r (.gap .deadline)) withdrawn
  { handed with store := handed.store.arbitrate }

/-- Burst complete on a bank: the words move, the request is handed back, the loader and the arbiter act (R80, R87,
R120). -/
def State.burstComplete (s : State) (bank : Nat) : State :=
  match s.store.completeBurst bank with
  | (st, none) => { s with store := st }
  | (st, some (r, outcome)) =>
    let handed := ({ s with store := st }.endRequest r outcome).feedLoader
    { handed with store := handed.store.arbitrate }

end Sys2Proof.Machine
end

