-- ==== Sys2Proof/Machine/Queue.lean ====
section
/-! DEFINITION. The send queue and its waiting places (R18), what each originator does when one of its messages leaves
them (R15, R19, R160, R174, R182), and the call unit's care for its uplink (R159). -/

namespace Sys2Proof.Machine

/-! ## The queue -/

/-- Place an entry by class, and within a class behind those already there (R18). -/
def placeEntry (e : QueueEntry) : List QueueEntry → List QueueEntry
  | [] => [e]
  | f :: rest => if e.message.cls < f.message.cls then e :: f :: rest else f :: placeEntry e rest

/-- A new message of an originator: no vetoes, hold count 0, ready. -/
def newEntry (m : Message) (o : Originator) (auto : Bool) (companion : Option Binding) : QueueEntry :=
  { message := m, originator := o, auto := auto, companion := companion, vetoes := 0, hold := 0, ready := true,
    order := 0 }

/-- Whether the send queue holds 8 entries (R18). -/
def State.queueFull (s : State) : Bool := decide (8 ≤ s.line.queue.length)

/-- Put a message into the send queue, at the moment of entry that comes next. -/
def State.enter (s : State) (e : QueueEntry) : State :=
  { s with line.queue := placeEntry { e with order := s.line.nextOrder } s.line.queue,
           line.nextOrder := s.line.nextOrder + 1 }

/-- Every entry that is queued or waiting. -/
def State.outgoing (s : State) : List QueueEntry := s.line.queue ++ s.line.waiting

/-- Whether a message of an originator, with a property, is queued or waiting. -/
def State.hasOutgoing (s : State) (o : Originator) (p : Message → Bool) : Bool :=
  s.outgoing.any (fun e => e.originator == o && p e.message)

/-- Whether a message is a CLAIM. -/
def Message.isClaim : Message → Bool
  | .claim .. => true
  | _ => false

/-- Whether a message is a RELEASE of a local index. -/
def Message.isReleaseOf (i : Nat) : Message → Bool
  | .release j => j.toNat == i
  | _ => false

/-- The own stream of a local index. -/
def State.ownStream (s : State) (i : Nat) : Nat := s.number * 4 + i

/-- A CLAIM of the call unit has left and its stream is not CARRIED: the retry count is set (R160). -/
def State.setRetryAfter (s : State) (m : Message) : State :=
  match m with
  | .claim i _ =>
    if (s.tables.entry (s.ownStream i.toNat)).isCarried then s
    else { s with call.retry := 128, call.retryArmed := true }
  | _ => s

/-- Hand a message of an originator other than the host to the line interface: into the queue, or into that
originator's waiting place, where it replaces what waits (R18). The call unit is told of a replaced CLAIM (R160); the start-up
unit is not, and sets no carry retry count for it: the model's choice (log 75). -/
def State.send (s : State) (e : QueueEntry) : State :=
  if s.queueFull then
    let replaced := s.line.waiting.filter (fun w => w.originator == e.originator)
    let kept := s.line.waiting.filter (fun w => w.originator != e.originator)
    let stored := { s with line.waiting := kept ++ [e] }
    if e.originator = .callUnit then replaced.foldl (fun acc w => acc.setRetryAfter w.message) stored else stored
  else s.enter e

/-- Move waiting messages into the queue, oldest first, until it holds 8 (R18). -/
def State.moveWaiting (s : State) : State :=
  let room := 8 - s.line.queue.length
  (s.line.waiting.take room).foldl (fun acc e => acc.enter e)
    { s with line.waiting := s.line.waiting.drop room }

/-- Take an entry out of the queue by its order of entry. -/
def State.removeEntry (s : State) (order : Nat) : State :=
  { s with line.queue := s.line.queue.filter (fun e => e.order != order) }

/-! ## The uplink (R159) -/

/-- The served record: the ACTIVE record whose mic station is this station (R159, R161). -/
def State.servedRecord (s : State) : Option Nat :=
  (List.range 2).find? (fun j =>
    let c := s.tables.call j
    c.state == .active && c.mic == some s.number && s.inForce.isSome)

/-- The demanded uplink, in MEMBER or LEAVING (R159). -/
def State.demandedUplink (s : State) : Option Nat :=
  match s.servedRecord with
  | some j => (s.tables.call j).uplink
  | none => none

/-- Queue a CLAIM of the demanded uplink where it is OFFERED and none is under way (R159). For a stream of another station, which
a descriptor may name, none is queued: the model's choice (log 74). -/
def State.claimUplink (s : State) : State :=
  match s.demandedUplink with
  | some u =>
    if (s.tables.entry u).isOffered ∧ u / 4 = s.number ∧ s.call.retry = 0
        ∧ s.hasOutgoing .callUnit Message.isClaim = false then
      s.send (newEntry (.claim (BitVec.ofNat 8 (u % 4)) 0) .callUnit true none)
    else s
  | none => s

/-- Queue a RELEASE of an own uplink that is CARRIED and not demanded (R159). -/
def State.releaseUplink (s : State) (i : Nat) : State :=
  if s.line.bindings.getD i none = some .uplink ∧ (s.tables.entry (s.ownStream i)).isCarried
      ∧ s.demandedUplink ≠ some (s.ownStream i)
      ∧ s.outgoing.any (fun e => e.message.isReleaseOf i) = false then
    s.send (newEntry (.release (BitVec.ofNat 8 i)) .callUnit false none)
  else s

/-- The call unit looks at its own directory, in MEMBER or LEAVING (R159). -/
def State.lookAtUplink (s : State) : State :=
  if s.member.station.drives then forEach 4 (fun i acc => acc.releaseUplink i) s.claimUplink else s

/-! ## How a message leaves -/

/-- How a message leaves the queue or its waiting place (R15, R16, R19, R56). -/
inductive Departure where
  | tookEffect (verdict : Cause)
  | noRoom
  | abandoned
  | dropped
  deriving DecidableEq, Repr

/-- The cause of the LINE_OUTCOME of a departure. -/
def Departure.cause : Departure → Cause
  | .tookEffect v => v
  | .noRoom => .noRoom
  | .abandoned => .abandoned
  | .dropped => .dropped

/-- A claim of the start-up unit has left: its carry retry count is set unless the stream is CARRIED (R182). -/
def State.startUpTold (s : State) (m : Message) : State :=
  match m with
  | .claim i _ =>
    if (s.tables.entry (s.ownStream i.toNat)).isCarried then s
    else { s with startUp.carryRetry := s.startUp.carryRetry.set i.toNat { count := 2048, armed := true } }
  | _ => s

/-- The last part of a note of a total length (R170). -/
def lastPart (total : Nat) : Nat := (total - 1) / 16

/-- The 16 data bytes of a part. What the bytes beyond the note carry is open: the model sends zero (log 66). -/
def partData (data : List Byte) (part : Nat) : BitVec 128 :=
  BitVec.ofNat 128 (((List.range 16).map (fun i => data.getD (part * 16 + i) 0)).foldl
    (fun (acc : Nat) (b : Byte) => acc * 256 + b.toNat) 0)

/-- Hand a part of the outbound note to the line interface (R173, R174). -/
def State.sendPart (s : State) (part : Nat) : State :=
  let o := s.note.outbound
  s.send (newEntry (.notePart (BitVec.ofNat 8 o.target) (BitVec.ofNat 8 part) (BitVec.ofNat 16 o.total)
    (partData o.data part)) .noteUnit false none)

/-- The outbound buffer goes to FAILED, and the cause is kept (R174, R175). -/
def State.failNote (s : State) (cause : Cause) : State :=
  raise .noteUndelivered [s.note.outbound.target] (some cause)
    { s with note.outbound.state := .failed, note.outbound.lastFailure := some cause }

/-- The note unit learns how its part left (R174). -/
def State.noteUnitTold (s : State) (d : Departure) : State :=
  match s.note.outbound.state, d with
  | .sending k, .tookEffect _ =>
    if k = lastPart s.note.outbound.total then
      raise .noteSent [s.note.outbound.target] none { s with note.outbound.state := .done }
    else ({ s with note.outbound.state := .sending (k + 1) }).sendPart (k + 1)
  | .sending _, .abandoned => s.failNote .vetoed
  | .sending _, .dropped => s.failNote .dropped
  | _, _ => s

/-- Tell the originator of a message how it left: LINE_OUTCOME for the host (R15, R16, R19, R56), else what the
originator's chapter gives. -/
def State.tell (s : State) (e : QueueEntry) (d : Departure) : State :=
  match e.originator with
  | .host => raise .lineOutcome e.message.subject (some d.cause) s
  | .startUp => s.startUpTold e.message
  | .membership => s
  | .zoneMixer => s
  | .callUnit => (s.setRetryAfter e.message).lookAtUplink
  | .noteUnit => s.noteUnitTold d

/-- Empty the queue and every waiting place, telling each originator that its message was dropped (R19). -/
def State.dropAll (s : State) : State :=
  let dropped := s.outgoing
  dropped.foldl (fun acc e => acc.tell e .dropped)
    { s with line.queue := [], line.waiting := [], line.presenceDue := false, line.sent := none,
             line.vetoing := .none }

end Sys2Proof.Machine
end

