-- ==== Sys2Proof/Machine/Zones.lean ====
section
/-! DEFINITION. The zone mixer's control (chapter 6): route lists, liveness, ducking, call positions and routing
actions. Zone places 0 to 3 follow the order of the definitions (R98). -/

namespace Sys2Proof.Machine

/-! ## Route lists (R99) -/

/-- The rank of an entry in its list: its class, an unknown class after every class (R99). -/
def RouteEntry.rank (e : RouteEntry) : Nat := e.cls.getD 4

/-- Place an entry at the end of its class (R99). -/
def placeRoute (e : RouteEntry) : List RouteEntry → List RouteEntry
  | [] => [e]
  | f :: rest => if e.rank < f.rank then e :: f :: rest else f :: placeRoute e rest

/-- Change the entry of a stream. -/
def onRoute (x : Nat) (f : RouteEntry → RouteEntry) (routes : List RouteEntry) : List RouteEntry :=
  routes.map (fun e => if e.stream = x then f e else e)

/-- Whether a list holds an entry for a stream. -/
def holdsRoute (x : Nat) (routes : List RouteEntry) : Bool := routes.any (fun e => e.stream == x)

/-- Take the entry of a stream out of its list. -/
def dropRoute (x : Nat) (routes : List RouteEntry) : List RouteEntry := routes.filter (fun e => e.stream != x)

/-- A zone of this station by its place. -/
def State.zone (s : State) (z : Nat) : Zone := s.mixer.zones.getD z .reset

/-- Change a zone. -/
def State.onZone (s : State) (z : Nat) (f : Zone → Zone) : State :=
  { s with mixer.zones := s.mixer.zones.modify z f }

/-! ## Classes, ducking and targets (R107) -/

/-- The dominant class: the lowest class among the LIVE entries and, as 0, a LIVE call position (R107). -/
def Zone.dominant (z : Zone) : Option Nat :=
  if z.position.state = .live then some 0
  else ((z.routes.filter (fun e => e.state == .live)).filterMap (fun e => e.cls)).min?

/-- The duck policy of a class (Table 6-1); class 0 has none, so it plays at its level. -/
def policyOf (d : ZoneDefinition) (cls : Nat) : DuckPolicy :=
  match cls with
  | 1 => d.policy1
  | 2 => d.policy2
  | 3 => d.policy3
  | _ => .mix

/-- The target gain of an entry (R107). -/
def targetGain (d : ZoneDefinition) (dominant : Option Nat) (e : RouteEntry) : Gain :=
  if e.state = .leaving then 0
  else match e.cls, dominant with
    | some c, some top =>
      if c ≤ top then attenuation e.level
      else match policyOf d c with
        | .mix => attenuation e.level
        | .duck => attenuation (e.level + d.duckDepth)
        | .mute => 0
    | _, _ => attenuation e.level

/-- Give an entry its target afresh: a WAITING entry keeps it without a ramp, another starts a ramp where the target
changed (R107, R108). -/
def retargetEntry (d : ZoneDefinition) (dominant : Option Nat) (e : RouteEntry) : RouteEntry :=
  let t := targetGain d dominant e
  if e.state = .waiting then { e with ramp := { Ramp.at 0 with target := t } }
  else if t = e.ramp.target then e
  else { e with ramp := e.ramp.toTarget t }

/-- Compute a zone's dominant class and every target afresh (R107). -/
def State.retarget (s : State) (z : Nat) : State :=
  match s.definitions[z]? with
  | none => s
  | some d => s.onZone z (fun v => { v with routes := v.routes.map (retargetEntry d v.dominant) })

/-! ## Liveness (R100) -/

/-- Whether an entry for a stream may be LIVE: the station is MEMBER and the stream CARRIED (R100). -/
def State.mayPlay (s : State) (x : Nat) : Bool :=
  s.member.station == .member && (s.tables.entry x).isCarried

/-- An entry after the test of R100: LIVE with its gain starting from 0, WAITING with gain 0 at once, or, when it
was LEAVING and can no longer play, removed. -/
def testEntry (live : Bool) (e : RouteEntry) : Option RouteEntry :=
  match e.state, live with
  | .waiting, true => some { e with state := .live, ramp := .at 0 }
  | .live, false => some { e with state := .waiting, ramp := .at 0 }
  | .leaving, false => none
  | _, _ => some e

/-- Test the entries of a zone (R100). -/
def State.testRoutes (s : State) (z : Nat) : State :=
  s.onZone z (fun v => { v with routes := v.routes.filterMap (fun e => testEntry (s.mayPlay e.stream) e) })

/-- Test the entries of a zone that name a stream (R100). -/
def State.testRoutesOf (s : State) (x z : Nat) : State :=
  s.onZone z (fun v => { v with routes := v.routes.filterMap (fun e =>
    if e.stream = x then testEntry (s.mayPlay x) e else some e) })

/-! ## Call positions (R110, R111) -/

/-- Whether a record selects a zone for a kind of zone (R110). -/
def recordSelects (kind : ZoneKind) (zone : Nat) (state : CallState) (c : CallRecord) : Bool :=
  c.state == state && inSet c.zones zone && (state == .active || (state == .ringing && kind == .openZone))

/-- The call record that a zone's position selects: the ACTIVE one ahead of a RINGING one, of two RINGING ones the
lower call id (R110). -/
def LineTables.selectedCall (t : LineTables) (kind : ZoneKind) (zone : Nat) : Option Nat :=
  match (List.range 2).find? (fun j => recordSelects kind zone .active (t.call j)) with
  | some j => some j
  | none => (List.range 2).find? (fun j => recordSelects kind zone .ringing (t.call j))

/-- The state and downlink a position takes from its selection (R110), with the record selected, which an EMPTY position has
too where that record's downlink is absent (R116). -/
def State.positionWanted (s : State) (d : ZoneDefinition) : PositionState × Option Nat × Option Nat :=
  match s.tables.selectedCall d.kind d.id with
  | none => (.empty, none, none)
  | some j =>
    match (s.tables.call j).downlink with
    | none => (.empty, none, some j)
    | some x => (if s.mayPlay x then .live else .waiting, some x, some j)

/-- The gain of a position that moves to a state and downlink: kept where neither changes, at 0 without a ramp when
it stops, from 0 to 1 when it starts (R110, R111). -/
def positionRamp (p : CallPosition) (state : PositionState) (downlink : Option Nat) : Ramp :=
  if state = p.state ∧ downlink = p.downlink then p.ramp
  else if state = .live then (Ramp.at 0).toTarget gainOne
  else .at 0

/-- Take a zone's selection afresh (R110). CALL_POSITION_CHANGED is raised for each change of state or downlink
(R111), except where the station has left MEMBER and the position goes WAITING (R110). A position that goes straight from
one downlink to another makes one change with one event: the model's choice (log 58). -/
def State.retakePosition (s : State) (z : Nat) : State :=
  match s.definitions[z]? with
  | none => s
  | some d =>
    let p := (s.zone z).position
    let (state, downlink, record) := s.positionWanted d
    let taken := s.onZone z (fun v => { v with position :=
      { state := state, downlink := downlink, record := record, ramp := positionRamp p state downlink } })
    if state = p.state ∧ downlink = p.downlink then taken
    else if state = .waiting ∧ p.state = .live ∧ downlink = p.downlink ∧ s.member.station ≠ .member then taken
    else raise .callPositionChanged [d.id] (some (positionCause state)) taken

/-! ## What the zone mixer does at a change -/

/-- Each of the four zone places. -/
def State.forZones (s : State) (f : Nat → State → State) : State := forEach 4 f s

/-- A change of station state (R100, R110): every entry is tested, every selection taken, every target computed. -/
def State.zonesAtStation (s : State) : State :=
  s.forZones (fun z acc => ((acc.testRoutes z).retakePosition z).retarget z)

/-- A change of the call records (R110). -/
def State.zonesAtCalls (s : State) : State :=
  s.forZones (fun z acc => (acc.retakePosition z).retarget z)

/-- A stream notice: the stream, its state before and after, and the cause (R53). -/
structure StreamNotice where
  stream : Nat
  before : StreamEntry
  after : StreamEntry
  cause : Cause
  deriving DecidableEq, Repr

/-- Whether an entry of a zone plays a stream. -/
def Zone.entryPlays (v : Zone) (x : Nat) : Bool := v.routes.any (fun e => e.stream == x && e.state == .live)

/-- Whether the call position of a zone is in a state with a stream. -/
def Zone.positionHolds (v : Zone) (state : PositionState) (x : Nat) : Bool :=
  v.position.state == state && v.position.downlink == some x

/-- Entries take the class of a stream that comes from NONE; a VOICE_DOWNLINK drops them instead (R99, R101). -/
def State.takeClass (s : State) (n : StreamNotice) (z : Nat) : State :=
  match n.after.parameters, s.definitions[z]? with
  | some p, some d =>
    match (s.zone z).routes.find? (fun e => e.stream == n.stream) with
    | none => s
    | some e =>
      if p.kind = .voiceDownlink then
        raise .routeDropped [d.id, n.stream] (some .privateStream)
          (s.onZone z (fun v => { v with routes := dropRoute n.stream v.routes }))
      else if n.before ≠ .none ∨ e.cls = some p.cls then s
      else
        let moved : RouteEntry := { e with cls := some p.cls }
        s.onZone z (fun v => { v with routes := placeRoute moved (dropRoute n.stream v.routes) })
  | _, _ => s

/-- A stream notice at one zone (R100, R101, R107, R110): STREAM_LOST where an entry or the call position of the zone went
WAITING because the stream left CARRIED. `applied` is the state with the change applied and no notice taken: a position
that an earlier notice of the same change made WAITING counts at the notice of its own downlink. A position that its
record no longer fills went EMPTY instead. An entry that R101 drops at this notice counts as one that went WAITING: the
model's choice (log 59). -/
def State.zoneNotice (s applied : State) (n : StreamNotice) (z : Nat) : State :=
  let moved := ((((s.takeClass n z).testRoutesOf n.stream z).retakePosition z).retarget z)
  let stopped := (s.zone z).entryPlays n.stream
    || ((applied.zone z).positionHolds .live n.stream && (moved.zone z).positionHolds .waiting n.stream)
  if stopped && n.before.isCarried && !n.after.isCarried && s.member.station == .member then
    match s.definitions[z]? with
    | some d => raise .streamLost [d.id, n.stream] (some n.cause) moved
    | none => moved
  else moved

/-- A stream notice at every zone. -/
def State.zonesAtNotice (s applied : State) (n : StreamNotice) : State :=
  s.forZones (fun z acc => acc.zoneNotice applied n z)

/-! ## Routing actions (R102, R103) -/

/-- The verdicts of a routing action (Table 1-5). -/
inductive RouteVerdict where
  | taken | noStream | privateStream | zoneFull | badField
  deriving DecidableEq, Repr

/-- The code of a routing verdict, Table 1-5. -/
def RouteVerdict.code : RouteVerdict → Nat
  | .taken => 0 | .noStream => 1 | .privateStream => 2 | .zoneFull => 3 | .badField => 4

/-- The cause that names the routing verdict of a code (R106). -/
def routeVerdictCause : Nat → Cause
  | 0 => .taken | 1 => .noStream | 2 => .privateStream | 3 => .zoneFull | _ => .badField

/-- SET_LEVEL for a stream in a zone (R103): an entry that was LEAVING returns to LIVE or WAITING. -/
def State.setRouteLevel (s : State) (z x level : Nat) : State × RouteVerdict :=
  if holdsRoute x (s.zone z).routes then
    let back : RouteState := if s.mayPlay x then .live else .waiting
    let set := s.onZone z (fun v => { v with routes := onRoute x (fun e =>
      { e with level := level, state := if e.state = .leaving then back else e.state }) v.routes })
    (set.retarget z, .taken)
  else (s, .noStream)

/-- ADD for a stream in a zone, judged in the order of R102. -/
def State.addRoute (s : State) (z x level : Nat) : State × RouteVerdict :=
  match (s.tables.entry x).parameters with
  | none => (s, .noStream)
  | some p =>
    if p.kind = .voiceDownlink then (s, .privateStream)
    else if holdsRoute x (s.zone z).routes then s.setRouteLevel z x level
    else if 6 ≤ (s.zone z).routes.length then (s, .zoneFull)
    else
      let e : RouteEntry :=
        { stream := x, cls := some p.cls, level := level,
          state := if s.mayPlay x then .live else .waiting, ramp := .at 0, age := s.mixer.nextAge }
      let added := { s with mixer.nextAge := s.mixer.nextAge + 1 }
      ((added.onZone z (fun v => { v with routes := placeRoute e v.routes })).retarget z, .taken)

/-- REMOVE for a stream in a zone (R103): a WAITING entry goes at once, and so does a LIVE one whose gain is 0; another
LIVE one ramps out. -/
def State.removeRoute (s : State) (z x : Nat) : State × RouteVerdict :=
  match (s.zone z).routes.find? (fun e => e.stream == x) with
  | none => (s, .noStream)
  | some e =>
    match e.state with
    | .waiting => ((s.onZone z (fun v => { v with routes := dropRoute x v.routes })).retarget z, .taken)
    | .live =>
      if e.ramp.current = 0 then
        ((s.onZone z (fun v => { v with routes := dropRoute x v.routes })).retarget z, .taken)
      else
        let leave (e : RouteEntry) : RouteEntry := { e with state := .leaving }
        ((s.onZone z (fun v => { v with routes := onRoute x leave v.routes })).retarget z, .taken)
    | .leaving => (s, .taken)

/-- A routing action by its code (Table 1-5): 0 ADD, 1 SET_LEVEL, 2 REMOVE. -/
def State.judgeRoute (s : State) (z x action level : Nat) : State × RouteVerdict :=
  match action with
  | 0 => s.addRoute z x level
  | 1 => s.setRouteLevel z x level
  | _ => s.removeRoute z x

/-- The ramp of a stream's entry has ended (R108): a LEAVING entry at gain 0 is removed (R103), and the zone is computed
afresh (R107). Nothing happens while the ramp runs. -/
def State.endEntryRamp (s : State) (z x : Nat) : State :=
  match (s.zone z).routes.find? (fun e => e.stream == x) with
  | none => s
  | some e =>
    if e.ramp.running && e.ramp.steps == 480 then
      if e.state = .leaving then (s.onZone z (fun v => { v with routes := dropRoute x v.routes })).retarget z
      else
        let stop (e : RouteEntry) : RouteEntry := { e with ramp.running := false }
        s.onZone z (fun v => { v with routes := onRoute x stop v.routes })
    else s

/-- The ramp of a call position has ended (R108). -/
def State.endPositionRamp (s : State) (z : Nat) : State :=
  let p := (s.zone z).position
  if p.ramp.running && p.ramp.steps == 480 then s.onZone z (fun v => { v with position.ramp.running := false })
  else s

/-- A ramp of a zone has ended (R108). -/
def State.endRamp (s : State) (z : Nat) (which : RampOf) : State :=
  match which with
  | .entry x => s.endEntryRamp z x.val
  | .callPosition => s.endPositionRamp z

end Sys2Proof.Machine
end

