-- ==== Sys2Proof/Machine/Canceller.lean ====
section
/-! DEFINITION. The echo canceller's states (R161, R164): which record it serves, whether its reference is usable, and its
moves. Its work on samples is in CallAudio.lean. -/

namespace Sys2Proof.Machine

/-- The runs and the block under way start afresh at each change of canceller state (R161, R166). -/
def State.restartBlocks (s : State) : State :=
  { s with call.convergedRun := 0, call.lossRun := 0, call.quietRun := 0, call.block := .start }

/-- Whether the served record's downlink is CARRIED in the directory (R162). -/
def State.servedDownlinkLive (s : State) : Bool :=
  match s.call.served with
  | some j =>
    match (s.tables.call j).downlink with
    | some x => (s.tables.entry x).isCarried
    | none => false
  | none => false

/-- The fallback gain for a downlink live or not (R162): 12 dB or none. -/
def fallbackGain (live : Bool) : Gain := if live then attenuation 12 else gainOne

/-- What happens on entry into a canceller state: the fallback gain for FALLBACK (R162), a fresh search for
CONVERGING with the search not done (R165). -/
def State.enterCanceller (s : State) (new : CancellerState) : State :=
  let moved := ({ s with call.state := new }).restartBlocks
  match new with
  | .fallback =>
    { moved with call.fallback := .at (fallbackGain s.servedDownlinkLive),
                 call.downlinkLive := s.servedDownlinkLive }
  | .converging =>
    let tested := { moved with call.usable := true }
    if s.call.searchDone then tested
    else { tested with call.gathered := 0, call.copies := [], call.searchTick := 0 }
  | .off => { moved with call.uplink := 0 }
  | _ => moved

/-- A move of the canceller with its cause: CANCELLER_CHANGED is raised where the state changes (R161). A move to the state
already held raises no event and is otherwise an entry: the model's choice (log 64). -/
def State.goCanceller (s : State) (new : CancellerState) (cause : Cause) : State :=
  let moved := s.enterCanceller new
  if s.call.state = new then moved else raise .cancellerChanged [cancellerCode new] (some cause) moved

/-- The coefficients are discarded (R161): all 0, search not done, history cleared, freeze count and runs 0. -/
def State.discardCoefficients (s : State) : State :=
  { s with call.coefficients := List.replicate 1024 0, call.searchDone := false,
           call.history := .cleared (s.call.history.serial + 1), call.tap.held := [], call.references := [], call.window := [],
           call.windowZeros := [], call.freeze := 0, call.frozen := false, call.convergedRun := 0,
           call.lossRun := 0, call.quietRun := 0 }

/-- The reference of a served record. -/
def State.referenceOf (s : State) (j : Nat) : Option Nat := (s.tables.call j).reference

/-- Whether the served record's reference is usable (R164). -/
def State.referenceUsable (s : State) : Bool :=
  match s.call.served with
  | some j =>
    match s.referenceOf j with
    | some x => s.mayPlay x && decide (s.call.notValidRun < 48)
    | none => false
  | none => false

/-- The canceller goes to OFF: coefficients and bulk delay are discarded (R161). That a discarded bulk delay is 32, as after a reset
(R165), is the model's choice (log 81). -/
def State.cancellerOff (s : State) (cause : Cause) : State :=
  let off := { s with call.served := none, call.servedReference := none }
  if s.call.state = .off then off
  else ({ off.discardCoefficients with call.bulkDelay := 32 }).goCanceller .off cause

/-- The canceller begins to serve a record (R161, R164). -/
def State.beginService (s : State) (j : Nat) : State :=
  let serving := { s with call.served := some j, call.servedReference := s.referenceOf j, call.notValidRun := 0 }
  serving.goCanceller (if serving.referenceUsable then .converging else .fallback) .answered

/-- The reference of the record served has changed (R161, R164). -/
def State.changeReference (s : State) (j : Nat) : State :=
  let changed := { s with call.servedReference := s.referenceOf j, call.notValidRun := 0 }
  let fresh := changed.discardCoefficients
  fresh.goCanceller (if fresh.referenceUsable then .converging else .fallback) .referenceChanged

/-- Compare the served record with the one last served (R161). -/
def State.checkServed (s : State) : State :=
  match s.servedRecord with
  | none => s.cancellerOff .callChanged
  | some j =>
    if s.call.served = some j ∧ s.call.state ≠ .off then
      if s.call.servedReference = s.referenceOf j then s else s.changeReference j
    else (s.cancellerOff .callChanged).beginService j

end Sys2Proof.Machine
end

