-- ==== Sys2Proof/Machine/Tables.lean ====
section
/-! DEFINITION. Changes of the line tables (chapters 2, 3 and 9) as functions of the tables alone, and what every block does
when they have changed (R53, R58, R150, R156). -/

namespace Sys2Proof.Machine

/-! ## Streams and slots -/

/-- Each slot a stream OWNED becomes HELD with 64 frames remaining. -/
def holdSlots (x : Nat) (slots : List Slot) : List Slot :=
  slots.map (fun e => if e = .owned x then .held 64 else e)

/-- Set a stream's directory entry. -/
def LineTables.setEntry (t : LineTables) (x : Nat) (e : StreamEntry) : LineTables :=
  { t with directory := t.directory.set x e }

/-- The run of c slots from f. -/
def run (f c : Nat) : List Nat := (List.range c).map (fun i => f + i)

/-- Make a run of slots OWNED by a stream. -/
def ownRun (x f c : Nat) (slots : List Slot) : List Slot :=
  (run f c).foldl (fun acc i => acc.set i (.owned x)) slots

/-- A stream returns to NONE and its slots become HELD (R26, R31, R52). -/
def LineTables.endStream (t : LineTables) (x : Nat) : LineTables :=
  { t.setEntry x .none with slots := holdSlots x t.slots }

/-- A stream becomes OFFERED with parameters; slots it OWNED become HELD (R31, R51). -/
def LineTables.offerStream (t : LineTables) (x : Nat) (p : StreamParameters) : LineTables :=
  { t.setEntry x (.offered p) with slots := holdSlots x t.slots }

/-- A stream becomes CARRIED and owns its run (R50). -/
def LineTables.carryStream (t : LineTables) (x : Nat) (p : StreamParameters) (f : Nat) : LineTables :=
  { t.setEntry x (.carried p f) with slots := ownRun x f p.channels t.slots }

/-- Whether every slot of a run is FREE. -/
def LineTables.runFree (t : LineTables) (f c : Nat) : Bool :=
  (run f c).all (fun i => t.slots.getD i (.held 0) == .free)

/-- The lowest first slot below a bound whose run is FREE. -/
def LineTables.lowestRun (t : LineTables) (bound c : Nat) : Option Nat :=
  (List.range bound).find? (fun f => t.runFree f c)

/-- Automatic slot choice for c channels of class k (R55). -/
def LineTables.chooseRun (t : LineTables) (c k : Nat) : Option Nat :=
  match t.lowestRun (39 - c) c with
  | some f => some f
  | none => if k = 0 then t.lowestRun (41 - c) c else none

/-! ## Call records -/

/-- Set a call record. -/
def LineTables.setCall (t : LineTables) (j : Nat) (c : CallRecord) : LineTables :=
  { t with calls := t.calls.set j c }

/-- The other call id. -/
def otherCall (j : Nat) : Nat := 1 - j

/-- Make a record ACTIVE as given; the other becomes HELD if it was ACTIVE (R150). -/
def LineTables.activate (t : LineTables) (j : Nat) (c : CallRecord) : LineTables :=
  let other := t.call (otherCall j)
  let held := if other.state = .active then t.setCall (otherCall j) { other with state := .held } else t
  held.setCall j { c with state := .active }

/-- A field that names a stream which has gone to NONE becomes absent (R156). -/
def withoutGone (gone : Nat → Bool) (field : Option Nat) : Option Nat :=
  match field with
  | some x => if gone x then none else some x
  | none => none

/-- Whether a stream went to NONE between two tables. -/
def wentNone (before after : LineTables) (x : Nat) : Bool :=
  before.entry x != .none && after.entry x == .none

/-- The records after the streams they name have gone to NONE (R156). -/
def LineTables.strip (t before : LineTables) : LineTables :=
  let gone := wentNone before t
  { t with calls := t.calls.map (fun c =>
      { c with downlink := withoutGone gone c.downlink, uplink := withoutGone gone c.uplink,
               reference := withoutGone gone c.reference }) }

/-! ## The roster -/

/-- Set a roster entry. -/
def LineTables.setStation (t : LineTables) (n : Nat) (e : RosterEntry) : LineTables :=
  { t with roster := t.roster.set n e }

/-- Change a roster entry. -/
def LineTables.onStation (t : LineTables) (n : Nat) (f : RosterEntry → RosterEntry) : LineTables :=
  { t with roster := t.roster.modify n f }

/-- A record after a station's removal: NONE where it was the owner; without uplink, reference and mic station where
it was the mic station (R26). -/
def callAfterRemoval (n : Nat) (c : CallRecord) : CallRecord :=
  if c.owner = some n then .none
  else if c.mic = some n then { c with uplink := none, reference := none, mic := none }
  else c

/-- Remove a station from the tables (R26). -/
def LineTables.removeStation (t : LineTables) (n : Nat) : LineTables :=
  let ended := (List.range 4).foldl (fun acc i => acc.endStream (n * 4 + i)) t
  ({ ended with calls := ended.calls.map (callAfterRemoval n) }).setStation n .absent

/-- Every completeness record restarts (R34, R35). -/
def LineTables.restartCompleteness (t : LineTables) : LineTables :=
  { t with roster := t.roster.map (fun e => { e with completeness := .none }) }

/-- The line tables cleared, with the frame count as it is (R33, R41, R42). -/
def LineTables.cleared (t : LineTables) : LineTables := { LineTables.reset with frameCount := t.frameCount }

/-! ## What every block does when the tables have changed -/

/-- The stream notices between two tables, in ascending stream id (R53). -/
def notices (before after : LineTables) (cause : Cause) : List StreamNotice :=
  (List.range 64).filterMap (fun x =>
    if (before.entry x).code = (after.entry x).code then none
    else some { stream := x, before := before.entry x, after := after.entry x, cause := cause })

/-- STREAM_CHANGED at a station in JOINING, MEMBER or LEAVING (R53). -/
def State.noticeHost (s : State) (n : StreamNotice) : State :=
  if s.member.station.takesPart then raise .streamChanged [n.stream] (some n.cause) s else s

/-- A binding record becomes empty when its stream goes to NONE (R58). -/
def State.emptyBindings (s : State) : State :=
  { s with line.bindings := s.line.bindings.zipIdx.map (fun p =>
      if s.tables.entry (s.ownStream p.2) = .none then none else p.1) }

/-- CALL_CHANGED for a record that changed, at a station in JOINING, MEMBER or LEAVING (R150). -/
def State.callChanged (s : State) (before : LineTables) (cause : Nat → Cause) (j : Nat) : State :=
  if before.call j = s.tables.call j then s
  else if s.member.station.takesPart then
    raise .callChanged [j, callCode (s.tables.call j).state] (some (cause j)) s
  else s

/-- What the blocks do when a change has been applied in full (R53, R150, R156): the stream notices in ascending
order, then the changes of call records. `cause` is that of the notices, `callCause` that of each record the change
itself made; a record changed only by a stream that went to NONE has the cause STREAM_GONE. -/
def State.changeTables (s : State) (changed : LineTables) (cause : Cause) (callCause : Nat → Cause) : State :=
  let before := s.tables
  let after := changed.strip before
  let causeOf (j : Nat) : Cause := if before.call j = changed.call j then .streamGone else callCause j
  let applied := ({ s with tables := after }).emptyBindings
  let noticed := (notices before after cause).foldl
    (fun acc n => ((acc.noticeHost n).zonesAtNotice applied n).lookAtUplink) applied
  if before.calls = after.calls then noticed
  else
    (((forEach 2 (fun j acc => acc.callChanged before causeOf j) noticed).zonesAtCalls).checkServed).lookAtUplink

end Sys2Proof.Machine
end

