-- ==== Sys2Proof/Machine/Station.lean ====
section
/-! DEFINITION. The membership unit: changes of station state with all they bring about (R19, R23, R33, R38, R41, R42), the
removal of a station (R26, R27), and the presence message (R29). -/

namespace Sys2Proof.Machine

/-! ## Changes of station state -/

/-- A FILLING note box becomes FREE when the station leaves the states that take part (R168). -/
def State.dropFilling (s : State) : State :=
  match s.note.box with
  | .filling sender _ _ _ _ =>
    raise .noteDropped [sender] (some .stationChanged) { s with note.box := .free }
  | _ => s

/-- Leaving JOINING, MEMBER and LEAVING (R19, R168). -/
def State.leaveTakingPart (s : State) : State := s.dropAll.dropFilling

/-- The line tables are dropped, with the binding records and the call unit's retry count (R33, R41, R42, R58,
R160). -/
def State.dropTables (s : State) : State :=
  { s with tables := s.tables.cleared, line.bindings := List.replicate 4 none, call.retry := 0,
           call.retryArmed := false }

/-- The companion binding and the messages of an autonomous offer (R182): its OFFER, and its AUTO CLAIM where it is to
be carried. -/
def State.queueOffer (s : State) (o : AutonomousOffer) : State :=
  let i := BitVec.ofNat 8 o.index
  let offered := s.send (newEntry (.offer i (BitVec.ofNat 8 (kindCode o.kind)) (BitVec.ofNat 8 o.channels)
    (BitVec.ofNat 8 o.cls)) .startUp false (some o.binding))
  if o.carry then offered.send (newEntry (.claim i 0) .startUp true none) else offered

/-- The start-up unit queues the autonomous offers in order of local index (R182). -/
def State.queueOffers (s : State) : State :=
  match s.startUp.record with
  | none => s
  | some r => (List.range 4).foldl (fun acc i =>
      (r.offers.filter (fun o => o.index == i)).foldl (fun acc o => acc.queueOffer o) acc) s

/-- What entry into a state sets, beside the tables (R16, R17, R29, R33, R41). -/
def State.enterStation (s : State) (new : StationState) : State :=
  match new with
  | .listening => { s with member.undamaged := 0, member.backoff := 0, line.selfVeto := 0 }
  | .silenced => { s with member.silenceCount := 1024, line.selfVeto := 0 }
  | .joining => { s with line.selfVeto := 0 }
  | .member => { s with member.pointer := .stream 0 }
  | _ => s

/-- Whether a state's entry drops the tables (R33, R41, R42, R184). -/
def StationState.dropsTables : StationState → Bool
  | .listening | .silenced | .detached | .dormant => true
  | _ => false

/-- A change of station state with its cause (R23), and what follows from it: messages dropped on leaving the states
that take part (R19), tables dropped (R33, R41, R42), carry retry counts cleared (R182), presence no longer due
(R28), the autonomous offers queued on entry into MEMBER from JOINING (R38, R182), and the reactions of the zone
mixer and the canceller. A change of state is none of the occasions at which the call unit looks (R159). That the event of the move
from OFFLINE to LISTENING is judged in LISTENING, where a station without a host takes none, is the model's choice (log 84). -/
def State.goTo (s : State) (new : StationState) (cause : Cause) : State :=
  let old := s.member.station
  let moved := raise .stationChanged [stationCode new] (some cause)
    { s with member.station := new, member.cause := some cause }
  let left := if old.takesPart && !new.takesPart then moved.leaveTakingPart else moved
  let dropped := if new.dropsTables then left.dropTables else left
  let entered := dropped.enterStation new
  let counted := if new.drives then entered
    else { entered with startUp.carryRetry := List.replicate 4 { count := 0, armed := false },
                        line.presenceDue := false }
  let offered := if old = .joining ∧ new = .member then counted.queueOffers else counted
  offered.zonesAtStation.checkServed

/-! ## Removal of a station -/

/-- The note unit at the removal of a station (R171, R174): a note being filled from it is dropped, a note being
sent to it fails and its part is withdrawn. -/
def State.noteAtRemoval (s : State) (n : Nat) : State :=
  let boxed := match s.note.box with
    | .filling sender _ _ _ _ =>
      if sender = n then raise .noteDropped [n] (some .senderRemoved) { s with note.box := .free } else s
    | _ => s
  match boxed.note.outbound.state with
  | .sending _ =>
    if boxed.note.outbound.target = n then
      ({ boxed with line.queue := boxed.line.queue.filter (fun e => e.originator != Originator.noteUnit),
                    line.waiting := boxed.line.waiting.filter (fun e => e.originator != Originator.noteUnit) }).failNote
        .targetLost
    else boxed
  | _ => boxed

/-- The cause of a call record's change at a removal (R26, R156). -/
def removalCause (n : Nat) (before : LineTables) (j : Nat) : Cause :=
  if (before.call j).owner = some n then .ownerLost else .micLost

/-- A station is removed from the roster with a cause, AGED_OUT or LEFT (R26). -/
def State.removeStation (s : State) (n : Nat) (cause : Cause) : State :=
  let changed := s.changeTables (s.tables.removeStation n) cause (removalCause n s.tables)
  (raise .stationRemoved [n] (some cause) changed).noteAtRemoval n

/-- A station that finds its own entry removed moves (R27). -/
def State.ownRemoved (s : State) : State :=
  match s.member.station with
  | .member => s.goTo .listening .agedOut
  | .leaving => s.goTo .detached .left
  | _ => s

/-! ## Presence (R29) -/

/-- A field that may be none, as a byte. -/
def byteOrNone (v : Option Nat) : Byte :=
  match v with
  | some n => BitVec.ofNat 8 n
  | none => 255

/-- The STREAM descriptor of a local index, as the station's own directory holds the stream (R29). -/
def State.streamDescriptor (s : State) (i : Nat) : Descriptor :=
  let ix := BitVec.ofNat 8 i
  let of (state : Byte) (p : StreamParameters) (first : Byte) : Descriptor :=
    .stream ix state (BitVec.ofNat 8 (kindCode p.kind)) (BitVec.ofNat 8 p.channels) (BitVec.ofNat 8 p.cls) first
  match s.tables.entry (s.ownStream i) with
  | .none => .stream ix 0 0 0 0 0
  | .offered p => of 1 p 255
  | .carried p f => of 2 p (BitVec.ofNat 8 f)

/-- The CALL descriptor of a record (Table 1-5). -/
def callDescriptor (j : Nat) (c : CallRecord) : Descriptor :=
  .call (BitVec.ofNat 8 j) (BitVec.ofNat 8 (callCode c.state)) (byteOrNone c.downlink) (byteOrNone c.uplink)
    (byteOrNone c.reference) (byteOrNone c.mic) c.zones

/-- The descriptor a presence message carries, by the pointer (R29). -/
def State.nextDescriptor (s : State) : Descriptor :=
  match s.member.pointer with
  | .stream i => s.streamDescriptor i
  | .callFrom k =>
    match (List.range 2).find? (fun j => decide (k ≤ j) && (s.tables.call j).owner == some s.number) with
    | some j => callDescriptor j (s.tables.call j)
    | none => s.streamDescriptor 0

/-- The pointer after the station's own PRESENCE with a descriptor has taken effect (R29). -/
def pointerAfter (pointer : Pointer) (d : Descriptor) : Pointer :=
  match pointer, d with
  | .callFrom _, .stream .. => .stream 1
  | _, .stream i .. => if i.toNat < 3 then .stream (i.toNat + 1) else .callFrom 0
  | _, .call j .. => if j = 0 then .callFrom 1 else .stream 0
  | p, .other _ => p

/-- The zone set that a list of definitions declares (R98). -/
def zoneSetOf (zones : List ZoneDefinition) : ZoneSet := setOf (zones.map (fun d => d.id))

/-- The private zone set that a list of definitions declares (R98). -/
def privateSetOf (zones : List ZoneDefinition) : ZoneSet :=
  zoneSetOf (zones.filter (fun d => d.kind == .privateZone))

/-- The presence message of the moment (R29). -/
def State.presenceMessage (s : State) (r : StartUpRecord) : Message :=
  .presence (rolesByte r.roles) (zoneSetOf r.zones) (privateSetOf r.zones) (s.tables.ownedSlots r.station)
    s.nextDescriptor

/-- The JOIN of the station (R36). -/
def joinMessage (r : StartUpRecord) : Message :=
  .join (rolesByte r.roles) (zoneSetOf r.zones) (privateSetOf r.zones) r.serial

end Sys2Proof.Machine
end

