-- ==== Sys2Proof/Machine/Messages.lean ====
section
/-! DEFINITION. Messages that take effect (R14): the verdict of each kind and what every station does with it
(chapters 2, 3, 6, 9 and 10). -/

namespace Sys2Proof.Machine

/-! ## JOIN, PRESENCE, LEAVE (chapter 2) -/

/-- The verdict of a JOIN whose fields are in range (R37). -/
def joinVerdict (t : LineTables) (sender : Nat) (zones : ZoneSet) : Cause :=
  if (t.station sender).present then .numberTaken
  else if zones &&& t.zonesPresent ≠ 0 then .zoneTaken
  else .taken

/-- The roster entry that a JOIN taken makes (R37, R35). -/
def joinedEntry (roles : Byte) (zones privateZones : ZoneSet) (serial : BitVec 32) : RosterEntry :=
  { present := true, roles := rolesOf roles, zones := zones, privateZones := privateZones, age := 0,
    serial := some serial, completeness := .complete, marks := [] }

/-- Judge a JOIN (R37). -/
def State.judgeJoin (s : State) (sender : Nat) (roles : Byte) (zones privateZones : ZoneSet)
    (serial : BitVec 32) : State × Cause :=
  match joinVerdict s.tables sender zones with
  | .taken =>
    (raise .stationAdded [sender] none
      { s with tables := s.tables.setStation sender (joinedEntry roles zones privateZones serial) }, .taken)
  | verdict => (s, verdict)

/-- Whether a STREAM descriptor describes what no stream could be (R31). The first slot is judged in a CARRIED descriptor alone:
the model's choice (log 68). -/
def impossibleDescriptor (state : Nat) (kind : StreamKind) (channels cls : Nat) (first : Byte) : Bool :=
  ((kind == .voiceDownlink || kind == .voiceUplink) && (cls != 0 || channels != 1))
    || (state == 2 && (decide (39 < first.toNat) || decide (39 < first.toNat + channels - 1)
        || (decide (38 ≤ first.toNat + channels - 1) && cls != 0)))

/-- The other streams that own a slot of a run. -/
def LineTables.ownersIn (t : LineTables) (x f c : Nat) : List Nat :=
  (run f c).foldl (fun acc i =>
    match t.slots.getD i .free with
    | .owned y => if y = x ∨ acc.contains y then acc else acc ++ [y]
    | _ => acc) []

/-- A stream that loses slots to a CARRIED descriptor goes to OFFERED, its slots become HELD (R31 step 2). -/
def LineTables.displace (t : LineTables) (y : Nat) : LineTables :=
  match (t.entry y).parameters with
  | some p => t.offerStream y p
  | none => t

/-- Apply a STREAM descriptor for stream x (R31). Slots of the run that were made HELD in the first two steps are
OWNED by x after the third. -/
def LineTables.applyStream (t : LineTables) (x state : Nat) (p : StreamParameters) (first : Nat) : LineTables :=
  match state with
  | 0 => if (t.entry x).code = 0 then t else t.endStream x
  | 1 => t.offerStream x p
  | _ =>
    let held := { t with slots := holdSlots x t.slots }
    ((t.ownersIn x first p.channels).foldl (fun acc y => acc.displace y) held).carryStream x p first

/-- The call marks after a station's stream descriptor (R32). Descriptor 3 adds a mark for each record the station owns;
marks that an unseen descriptor 0 left stand. -/
def LineTables.markCalls (t : LineTables) (sender index : Nat) : LineTables :=
  if index = 3 then
    let owned := (List.range 2).filter (fun j => (t.call j).owner == some sender)
    t.onStation sender (fun e => { e with marks := e.marks ++ owned.filter (fun j => !e.marks.contains j) })
  else if index = 0 then
    let ended := (t.station sender).marks.foldl (fun acc j =>
      if (acc.call j).owner = some sender then acc.setCall j .none else acc) t
    ended.onStation sender (fun e => { e with marks := [] })
  else t

/-- The record that a CALL descriptor describes (R32). -/
def describedCall (sender : Nat) (state : Byte) (downlink uplink reference mic : Byte) (zones : ZoneSet) :
    CallRecord :=
  if state = 0 then .none
  else { state := callStateOf state.toNat, owner := some sender, downlink := presentByte downlink,
         uplink := presentByte uplink, reference := presentByte reference, mic := presentByte mic,
         zones := zones }

/-- Apply a descriptor from a sender (R31, R32). A STREAM descriptor that is ignored as impossible still sets or expires the
call marks: the model's choice (log 57). -/
def LineTables.applyDescriptor (t : LineTables) (sender : Nat) (d : Descriptor) : LineTables :=
  match d with
  | .stream i st k c l f =>
    let kind := (kindOf k.toNat).getD .programme
    let p : StreamParameters := { kind := kind, channels := c.toNat, cls := l.toNat }
    let applied :=
      if st ≠ 0 ∧ impossibleDescriptor st.toNat kind c.toNat l.toNat f then t
      else t.applyStream (sender * 4 + i.toNat) st.toNat p f.toNat
    applied.markCalls sender i.toNat
  | .call j st d u r m z =>
    let c := describedCall sender st d u r m z
    let set := if c.state = .active then t.activate j.toNat c else t.setCall j.toNat c
    set.onStation sender (fun e => { e with marks := e.marks.filter (fun k => k != j.toNat) })
  | .other _ => t

/-- The sender's entry with what a PRESENCE declares; a listener makes it present (R30). -/
def RosterEntry.declare (e : RosterEntry) (roles : Byte) (zones privateZones : ZoneSet) : RosterEntry :=
  { e with present := true, roles := rolesOf roles, zones := zones, privateZones := privateZones }

/-- Completeness after a descriptor (R35). -/
def Completeness.advance (c : Completeness) (d : Descriptor) : Completeness :=
  match d, c with
  | .stream 0 .., .none => .opened
  | .stream 0 .., .opened => .complete
  | _, c => c

/-- Whether a PRESENCE changed the tables, as a listener judges it (R35). -/
def presenceChanged (before after : LineTables) (sender : Nat) (owned : SlotSet) : Bool :=
  let e := before.station sender
  let f := after.station sender
  !e.present || e.roles != f.roles || e.zones != f.zones || e.privateZones != f.privateZones
    || owned != after.ownedSlots sender || before.directory != after.directory || before.slots != after.slots
    || before.calls != after.calls

/-- A listener's completeness records after a PRESENCE (R35). That a STREAM descriptor of local index 0 advances the sender's record
also where R31 ignores it is the model's choice (log 77). -/
def State.countDescriptor (s : State) (before : LineTables) (sender : Nat) (owned : SlotSet) (d : Descriptor) :
    State :=
  if s.member.station = .listening then
    let restarted :=
      if presenceChanged before s.tables sender owned then s.tables.restartCompleteness else s.tables
    let advanced := restarted.onStation sender (fun e => { e with completeness := e.completeness.advance d })
    { s with tables := advanced }
  else s

/-- Judge a PRESENCE (R30): refused from an absent sender, except at a listener, which makes the entry present. -/
def State.judgePresence (s : State) (sender : Nat) (roles : Byte) (zones privateZones : ZoneSet)
    (owned : SlotSet) (d : Descriptor) : State × Cause :=
  let before := s.tables
  if (before.station sender).present = false ∧ s.member.station ≠ .listening then (s, .notPresent)
  else
    let added := if (before.station sender).present then s else raise .stationAdded [sender] none s
    let declared := before.onStation sender (fun e => e.declare roles zones privateZones)
    let changed := added.changeTables (declared.applyDescriptor sender d) .presence (fun _ => .presence)
    (changed.countDescriptor before sender owned d, .taken)

/-- Judge a LEAVE (R43). -/
def State.judgeLeave (s : State) (sender : Nat) : State × Cause :=
  if (s.tables.station sender).present then (s.removeStation sender .left, .taken) else (s, .notPresent)

/-! ## OFFER, CLAIM, RELEASE, WITHDRAW (chapter 3) -/

/-- The verdict of an OFFER for stream x from a present sender (R49), with the tables after it. -/
def LineTables.offer (t : LineTables) (x : Nat) (p : StreamParameters) : LineTables × Cause :=
  if (p.kind = .voiceDownlink ∨ p.kind = .voiceUplink) ∧ (p.cls ≠ 0 ∨ p.channels ≠ 1) then (t, .badClass)
  else match (t.entry x).parameters with
    | none => (t.setEntry x (.offered p), .taken)
    | some q => if q = p then (t, .taken) else (t, .inUse)

/-- The verdict of a CLAIM of first slot f for stream x from a present sender, in R50's order. -/
def LineTables.claim (t : LineTables) (x f : Nat) : LineTables × Cause :=
  match t.entry x with
  | .none => (t, .notOffered)
  | .carried _ _ => (t, .alreadyCarried)
  | .offered p =>
    if 39 < f + p.channels - 1 then (t, .outOfRange)
    else if t.runFree f p.channels = false then (t, .slotBusy)
    else if 38 ≤ f + p.channels - 1 ∧ p.cls ≠ 0 then (t, .callSlot)
    else (t.carryStream x p f, .taken)

/-- The verdict of a RELEASE (R51). -/
def LineTables.release (t : LineTables) (x : Nat) : LineTables × Cause :=
  match t.entry x with
  | .carried p _ => (t.offerStream x p, .taken)
  | _ => (t, .notCarried)

/-- The verdict of a WITHDRAW (R52). -/
def LineTables.withdraw (t : LineTables) (x : Nat) : LineTables × Cause :=
  match t.entry x with
  | .none => (t, .notOffered)
  | _ => (t.endStream x, .taken)

/-- Judge a stream message whose fields are in range: NOT_PRESENT, then the verdict (R48). -/
def State.judgeStream (s : State) (sender : Nat) (kind : Cause)
    (verdict : LineTables → LineTables × Cause) : State × Cause :=
  if (s.tables.station sender).present then
    (s.changeTables (verdict s.tables).1 kind (fun _ => .streamGone), (verdict s.tables).2)
  else (s, .notPresent)

/-! ## CALL (chapter 9) -/

/-- The checks of RING (R152). -/
def LineTables.ring (t : LineTables) (sender j : Nat) (f : CallFields) : LineTables × Cause :=
  let downlinkGood := match presentByte f.downlink with
    | some x => decide (x / 4 = sender) && (match (t.entry x).parameters with
        | some p => p.kind == .voiceDownlink
        | none => false)
    | none => false
  if downlinkGood = false then (t, .badDownlink)
  else if f.zones = 0 ∨ f.zones &&& ~~~t.zonesPresent ≠ 0 then (t, .noZones)
  else if f.zones &&& t.privateZonesPresent ≠ 0 then (t, .privateZone)
  else (t.setCall j { state := .ringing, owner := some sender, downlink := presentByte f.downlink,
                      uplink := none, reference := none, mic := none, zones := f.zones }, .taken)

/-- Whether a field names a stream of a kind that is OFFERED or CARRIED. -/
def LineTables.live (t : LineTables) (x : Nat) (kind : StreamKind) : Bool :=
  match (t.entry x).parameters with
  | some p => p.kind == kind
  | none => false

/-- The checks of ANSWER (R153). -/
def LineTables.answer (t : LineTables) (j : Nat) (f : CallFields) : LineTables × Cause :=
  let c := t.call j
  let downlinkGood := match c.downlink with
    | some x => (t.entry x).code != 0
    | none => false
  let micGood := match presentByte f.mic with
    | some m => (t.station m).present && (t.station m).roles.mics
    | none => false
  let uplinkGood := match presentByte f.uplink, presentByte f.mic with
    | some u, some m => decide (u / 4 = m) && t.live u .voiceUplink
    | _, _ => false
  let referenceGood := match presentByte f.reference with
    | some r => t.live r .reference
    | none => true
  if downlinkGood = false then (t, .badDownlink)
  else if micGood = false then (t, .noMic)
  else if uplinkGood = false then (t, .badUplink)
  else if referenceGood = false then (t, .badReference)
  else (t.activate j { c with uplink := presentByte f.uplink, reference := presentByte f.reference,
                              mic := presentByte f.mic }, .taken)

/-- The checks of ZONES (R155). -/
def LineTables.callZones (t : LineTables) (j : Nat) (f : CallFields) : LineTables × Cause :=
  let c := t.call j
  if f.zones &&& ~~~t.zonesPresent ≠ 0 ∨ (c.state = .ringing ∧ f.zones = 0) then (t, .noZones)
  else if c.state = .ringing ∧ f.zones &&& t.privateZonesPresent ≠ 0 then (t, .privateZone)
  else (t.setCall j { c with zones := f.zones }, .taken)

/-- Whether an action is allowed from a record's state (R151, R153, R154; Table 9-3). -/
def actionAllowed (action : Nat) (state : CallState) : Bool :=
  match action with
  | 0 => state == .none
  | 1 => state == .ringing || state == .active
  | 2 => state == .active
  | 3 => state == .held
  | _ => state != .none

/-- The call action of a code as a cause (Table 1-5). -/
def actionCause : Nat → Cause
  | 0 => .ring | 1 => .answer | 2 => .hold | 3 => .resume | 4 => .zones | _ => .endCall

/-- The verdict of a CALL whose fields are in range, in R151's order. -/
def LineTables.judgeCall (t : LineTables) (sender j action : Nat) (f : CallFields) : LineTables × Cause :=
  let c := t.call j
  if (t.station sender).present = false then (t, .notPresent)
  else if c.state ≠ .none ∧ c.owner ≠ some sender then (t, .notOwner)
  else if actionAllowed action c.state = false then (t, .callState)
  else match action with
    | 0 => t.ring sender j f
    | 1 => t.answer j f
    | 2 => (t.setCall j { c with state := .held }, .taken)
    | 3 => (t.activate j c, .taken)
    | 4 => t.callZones j f
    | _ => (t.setCall j .none, .taken)

/-- Judge a CALL (R151 to R155). -/
def State.judgeCallMessage (s : State) (sender j action : Nat) (f : CallFields) : State × Cause :=
  let (t, verdict) := s.tables.judgeCall sender j action f
  (s.changeTables t .streamGone (fun _ => actionCause action), verdict)

/-! ## ROUTE and ROUTE_ANSWER (chapter 6) -/

/-- Queue a ROUTE_ANSWER (R105). -/
def State.answerRoute (s : State) (sender : Nat) (zone stream : Byte) (verdict : RouteVerdict) : State :=
  s.send (newEntry (.routeAnswer (BitVec.ofNat 8 sender) zone stream (BitVec.ofNat 8 verdict.code))
    .zoneMixer false none)

/-- A ROUTE at the station that owns the zone, in MEMBER or LEAVING; nothing elsewhere (R105). -/
def State.judgeRouteMessage (s : State) (sender : Nat) (zone stream action level : Byte) : State :=
  if s.member.station.drives then
    match s.ownZone zone.toNat with
    | none => s
    | some z =>
      if (Message.route zone stream action level).inRange then
        let (judged, verdict) := s.judgeRoute z stream.toNat action.toNat level.toNat
        judged.answerRoute sender zone stream verdict
      else s.answerRoute sender zone stream .badField
  else s

/-- A ROUTE_ANSWER at the requesting station (R106). -/
def State.takeRouteAnswer (s : State) (requester zone stream verdict : Byte) : State :=
  if (Message.routeAnswer requester zone stream verdict).inRange ∧ requester.toNat = s.number then
    raise .routeAnswer [zone.toNat, stream.toNat] (some (routeVerdictCause verdict.toNat)) s
  else s

/-! ## NOTE_PART (chapter 10) -/

/-- Whether the note box accepts a part (R169). -/
def NoteBox.accepts (box : NoteBox) (sender : Nat) (index : Nat) (total : Nat) : Bool :=
  let inForm := decide (1 ≤ total ∧ total ≤ 256) && decide (index ≤ lastPart total)
  match box with
  | .free => index == 0 && inForm
  | .filling from' length next _ _ =>
    inForm && from' == sender && (index == 0 || (index == next && total == length))
  | .full .. => false

/-- The 16 data bytes of a part. -/
def dataBytes (data : BitVec 128) : List Byte :=
  (List.range 16).map (fun i => data.extractLsb' (120 - 8 * i) 8)

/-- The data of the box once a part is written: bytes at or beyond the total length are discarded (R170). -/
def noteData (old : List Byte) (index total : Nat) (data : BitVec 128) : List Byte :=
  (old.take (16 * index) ++ dataBytes data).take total

/-- Apply an accepted part (R170). -/
def State.takePart (s : State) (sender index total : Nat) (data : BitVec 128) : State :=
  let old : List Byte := match s.note.box with
    | .filling _ _ _ _ d => if index = 0 then [] else d
    | _ => []
  let written := noteData old index total data
  if index = lastPart total then
    raise .noteArrived [sender, total - 1] none { s with note.box := .full sender total 0 written }
  else { s with note.box := .filling sender total (index + 1) 0 written }

/-- A NOTE_PART at its target, which judges notes while it takes part (R168 to R170). -/
def State.judgeNotePart (s : State) (sender : Nat) (target index : Byte) (total : BitVec 16)
    (data : BitVec 128) : State :=
  if s.member.station.takesPart ∧ target.toNat = s.number
      ∧ s.note.box.accepts sender index.toNat total.toNat then
    s.takePart sender index.toNat total.toNat data
  else s

/-! ## A message that takes effect -/

/-- The verdict of a message that takes effect and what it does to the tables and blocks (R10, R14). ROUTE,
ROUTE_ANSWER and NOTE_PART are not judged by the line tables: their outcome is TAKEN (R15). -/
def State.judge (s : State) (sender : Nat) (m : Message) : State × Cause :=
  match m with
  | .route z x a l => (s.judgeRouteMessage sender z x a l, .taken)
  | .routeAnswer r z x v => (s.takeRouteAnswer r z x v, .taken)
  | .notePart t i n d => (s.judgeNotePart sender t i n d, .taken)
  | _ =>
    if m.inRange = false then (s, .badField)
    else match m with
      | .join r z p n => s.judgeJoin sender r z p n
      | .presence r z p o d => s.judgePresence sender r z p o d
      | .leave => s.judgeLeave sender
      | .offer i k c l =>
        let p : StreamParameters :=
          { kind := (kindOf k.toNat).getD .programme, channels := c.toNat, cls := l.toNat }
        s.judgeStream sender .offer (fun t => t.offer (sender * 4 + i.toNat) p)
      | .claim i f => s.judgeStream sender .claim (fun t => t.claim (sender * 4 + i.toNat) f.toNat)
      | .release i => s.judgeStream sender .release (fun t => t.release (sender * 4 + i.toNat))
      | .withdraw i => s.judgeStream sender .withdraw (fun t => t.withdraw (sender * 4 + i.toNat))
      | .call j a f => s.judgeCallMessage sender j.toNat a.toNat f
      | _ => (s, .taken)

/-- A message from a station sets that station's age to 0, whatever its verdict (R25). -/
def State.refreshAge (s : State) (sender : Nat) : State :=
  { s with tables := s.tables.onStation sender (fun e => { e with age := 0 }) }

/-- The companion binding is placed when the own OFFER has moved its stream from NONE to OFFERED (R58). -/
def State.placeBinding (s : State) (before : LineTables) (e : QueueEntry) : State :=
  match e.message, e.companion with
  | .offer i _ _ _, some b =>
    if (before.entry (s.ownStream i.toNat)).code = 0 ∧ (s.tables.entry (s.ownStream i.toNat)).code = 1 then
      { s with line.bindings := s.line.bindings.set i.toNat (some b) }
    else s
  | _, _ => s

/-- The own message has taken effect: it leaves the queue and its originator is told (R15); an own PRESENCE sets the
due counter to 0 and moves the pointer on (R28, R29). -/
def State.concludeOwn (s : State) (before : LineTables) (sent : Sent) (verdict : Cause) : State :=
  match sent with
  | .queued order _ =>
    match s.line.queue.find? (fun e => e.order == order) with
    | none => s
    | some e => ((s.placeBinding before e).removeEntry order).tell e (.tookEffect verdict)
  | .presence m =>
    match m with
    | .presence _ _ _ _ d =>
      { s with line.presenceCounter := 0, line.presenceDue := false,
               member.pointer := pointerAfter s.member.pointer d }
    | _ => s

/-- Whether a serial is not that of the record (R39). -/
def State.foreignSerial (s : State) (serial : BitVec 32) : Bool :=
  match s.startUp.record with
  | some r => r.serial != serial
  | none => false

/-- How the station itself moves when a JOIN or LEAVE has taken effect (R27, R38, R39, R43). Its own JOIN sets the
presence-due counter to 0, whatever the verdict (R28). -/
def State.moveByMessage (s : State) (own : Bool) (sender : Nat) (m : Message) (verdict : Cause) : State :=
  match m with
  | .join _ _ _ serial =>
    if own then
      let counted := { s with line.presenceCounter := 0 }
      if verdict = .taken then counted.goTo .member .joined else counted.goTo .detached verdict
    else if sender = s.number ∧ s.member.station.onLine ∧ s.foreignSerial serial then
      s.goTo .detached .numberTaken
    else s
  | .leave =>
    if own then s.goTo .detached .left
    else if sender = s.number ∧ verdict = .taken then s.ownRemoved else s
  | _ => s

/-- A message takes effect at this station (R14, R15): ages, verdict, the own message's end, and the station's own
moves. -/
def State.takeEffect (s : State) (sender : Nat) (m : Message) : State :=
  let own := s.isOwn sender m
  let (judged, verdict) := (s.refreshAge sender).judge sender m
  let concluded := match own, s.line.sent with
    | true, some sent => judged.concludeOwn s.tables sent verdict
    | _, _ => judged
  concluded.moveByMessage own sender m verdict

end Sys2Proof.Machine
end

