-- ==== Sys2Proof/Machine/Follower.lean ====
section
/-! DEFINITION. The clock follower's judgements (R65 to R67) and the output gate (R69, R70). -/

namespace Sys2Proof.Machine

/-- The rate of the local clock on entry into a follower state (R65): FREE_RUN holds the rate it last had. -/
def rateIn (old : ClockRate) : FollowerState → ClockRate
  | .freeRun => old
  | .pulling => .towardsLine
  | .locked => .matched

/-- The gate at a change of follower state (R69, R70). -/
def gateAt (gate : GateState) (old new : FollowerState) : GateState :=
  if new = .locked then
    match gate with
    | .shut => .opening
    | .closing => .opening
    | g => g
  else if old = .locked then
    match gate with
    | .open => .closing
    | .opening => .closing
    | g => g
  else gate

/-- A change of follower state (R67): both runs become 0 and FOLLOWER_CHANGED is raised; the gate follows. -/
def State.follow (s : State) (new : FollowerState) (cause : Cause) : State :=
  let f := s.follower
  let changed : Follower :=
    { state := new, onTime := 0, miss := 0, rate := rateIn f.rate new, gate := gateAt f.gate f.state new,
      gain := f.gain }
  raise .followerChanged [followerCode new] (some cause) { s with follower := changed }

/-- A start judged on time (R66, R67). The run stops at 256 (R78). -/
def State.judgeOnTime (s : State) : State :=
  match s.follower.state with
  | .freeRun => s.follow .pulling .startSeen
  | .pulling =>
    if 255 ≤ s.follower.onTime then s.follow .locked .settled
    else { s with follower.onTime := s.follower.onTime + 1, follower.miss := 0 }
  | .locked => { s with follower.onTime := min 256 (s.follower.onTime + 1), follower.miss := 0 }

/-- A start judged late or missing in PULLING or LOCKED (R66, R67). -/
def State.judgeMiss (s : State) : State :=
  match s.follower.state with
  | .freeRun => s
  | .pulling => { s with follower.miss := s.follower.miss + 1, follower.onTime := 0 }
  | .locked =>
    if 3 ≤ s.follower.miss then s.follow .pulling .startsMissed
    else { s with follower.miss := s.follower.miss + 1, follower.onTime := 0 }

/-- Judge a start seen or emitted: the first one in FREE_RUN is neither on time nor late and begins PULLING (R66). -/
def State.judgeStart (s : State) (onTime : Bool) : State :=
  if s.follower.state = .freeRun then s.follow .pulling .startSeen
  else if onTime then s.judgeOnTime
  else s.judgeMiss

/-- The gate's gain moves at a local sample (R69): down by 1/48, up by 1/480, in steps of 1/480. -/
def Follower.stepGate (f : Follower) : Follower :=
  match f.gate with
  | .closing => { f with gain := f.gain - 10 }
  | .opening => { f with gain := min 480 (f.gain + 1) }
  | _ => f

/-- The gate's ramp ends (R69): SHUT at gain 0, OPEN at gain 1. No effect while the ramp runs. -/
def State.endGateRamp (s : State) : State :=
  match s.follower.gate with
  | .closing => if s.follower.gain = 0 then { s with follower.gate := .shut } else s
  | .opening => if 480 ≤ s.follower.gain then { s with follower.gate := .open } else s
  | _ => s

end Sys2Proof.Machine
end

