-- ==== Sys2Proof/Machine/Line.lean ====
section
/-! DEFINITION. The line interface (chapter 1): frame starts, the control field, the audio slots, the tail and the vetoes. -/

namespace Sys2Proof.Machine

/-! ## Reading slots for users (R2, R21, R60) -/

/-- The parity of a sample and its valid mark: the slot check bit that makes the number of ones even (R2). -/
def slotCheck (sample : Sample) (valid : Bool) : Bool := (bitsOf sample).foldl (fun acc b => acc ^^ b) valid

/-- A slot as a reader judges it (R2): not valid where its check bit disagrees, and then zero. -/
def judgeSlot (r : SlotRead) : Bool × Sample :=
  let valid := r.valid && r.check == slotCheck r.sample r.valid
  (valid, if valid then r.sample else 0)

/-- A slot that is not read (R5). -/
def unreadSlot : SlotRead := { sample := 0, valid := false, check := false }

/-- Whether a route entry of one of the zones names a stream. -/
def State.routed (s : State) (x : Nat) : Bool := s.mixer.zones.any (fun v => holdsRoute x v.routes)

/-- Whether a call position or the canceller names a stream (Table 3-6). -/
def State.calledFor (s : State) (x : Nat) : Bool :=
  s.mixer.zones.any (fun v => v.position.downlink == some x) || s.call.servedReference == some x

/-- The channels of a stream that its users take (R60): a route entry takes two, or the one there is; a call position
and the canceller take channel 0. -/
def State.channelsTaken (s : State) (x channels : Nat) : Nat :=
  if s.routed x then min channels 2 else if s.calledFor x then 1 else 0

/-- The samples of every CARRIED stream that a user needs, read from the slots of a frame (R21). The table is the one that stands
at AUDIO_SLOTS: the model's choice where a station has aged out since the last tail (log 69). -/
def State.readStreams (s : State) (reads : List SlotRead) : List LineSample :=
  if s.member.station = .member then
    (List.range 64).filterMap (fun x =>
      match s.tables.entry x with
      | .carried p f =>
        let n := s.channelsTaken x p.channels
        if n = 0 then none
        else some { stream := x,
                    channels := (List.range n).map (fun i => judgeSlot (reads.getD (f + i) unreadSlot)) }
      | _ => none)
  else []

/-- Channel 0 of a stream as the line interface last handed it: valid mark and sample. -/
def State.handed (s : State) (x channel : Nat) : Option (Bool × Sample) :=
  match s.line.lineSamples.find? (fun l => l.stream == x) with
  | some l => l.channels[channel]?
  | none => none

/-- The canceller counts consecutive not-valid samples of its reference as they are handed (R164). -/
def State.countReference (s : State) : State :=
  match s.call.servedReference with
  | none => s
  | some x =>
    match s.handed x 0 with
    | some (true, _) => { s with call.notValidRun := 0 }
    | some (false, _) => { s with call.notValidRun := min 48 (s.call.notValidRun + 1) }
    | none => s

/-- Hand the slots of a frame to their users (R21). -/
def State.handSlots (s : State) (reads : List SlotRead) : State :=
  ({ s with line.lineSamples := s.readStreams reads }).countReference

/-! ## Driving slots (R20, R59) -/

/-- The most recent sample on each channel of a source (R59, Table 3-5). -/
def State.sourceSamples (s : State) (b : Binding) : List Sample :=
  match b with
  | .input p => let x := s.ports.inputs.getD p .zero; [x.left, x.right]
  | .blend => [s.blend.out.left, s.blend.out.right]
  | .announce => [s.announce.out]
  | .uplink => [s.call.uplink]
  | .zoneMix id =>
    match s.ownZone id with
    | some z => let x := (s.zone z).sum; [x.left, x.right]
    | none => [0, 0]

/-- What a stream of c channels carries in channel i, by the samples of its source (R59). -/
def channelSample (source : List Sample) (c i : Nat) : Sample :=
  match source with
  | [x] => x
  | [l, r] =>
    if c = 1 then limit24 (roundDiv (l.toInt + r.toInt) 2)
    else if i = 0 then l else if i = 1 then r else 0
  | _ => 0

/-- A slot as the station that owns it drives it: the sample with the valid mark and the slot check bit set for it (R2). -/
def drivenSlot (x : Sample) : SlotRead := { sample := x, valid := true, check := slotCheck x true }

/-- What the station drives into a slot, if anything (R2, R20). -/
def State.drivenInto (s : State) (slot : Nat) : Option SlotRead :=
  match s.tables.slots.getD slot .free with
  | .owned x =>
    match s.tables.entry x with
    | .carried p f =>
      if s.member.station.drives ∧ x / 4 = s.number then
        match s.line.bindings.getD (x % 4) none with
        | some b => some (drivenSlot (channelSample (s.sourceSamples b) p.channels (slot - f)))
        | none => some (drivenSlot 0)
      else none
    | _ => none
  | _ => none

/-- The audio slots of the frame: this station drives its own, and at their end hands the ones it reads to their users
(R20, R21). No effect outside a frame whose slots are still to come. -/
def State.audioSlots (s : State) (reads : List SlotRead) : State :=
  if s.line.phase = .started ∨ s.line.phase = .fieldPassed then
    ({ s with line.driven := (List.range 40).map s.drivenInto, line.phase := .slotsPassed }).handSlots reads
  else s

/-! ## Frame starts (R1, R3 to R6) -/

/-- The frame under way when a start comes is cut short (R5): its unread slots are handed as not valid. -/
def State.cut (s : State) : State :=
  if s.line.phase = .started ∨ s.line.phase = .fieldPassed then s.handSlots [] else s

/-- Whether a start cuts a frame short (R5). -/
def FramePhase.isOpen : FramePhase → Bool
  | .started | .fieldPassed | .slotsPassed => true
  | _ => false

/-- The per-frame work of the line tables at a start (R1, R25, R47). -/
def LineTables.atStart (t : LineTables) : LineTables :=
  { t with
    frameCount := t.frameCount + 1
    roster := t.roster.map (fun e => if e.present then { e with age := e.age + 1 } else e)
    slots := t.slots.map (fun e => match e with
      | .held n => .held (n - 1)
      | e => e) }

/-- The note box's counts rise at a start (R168). -/
def NoteBox.atStart : NoteBox → NoteBox
  | .free => .free
  | .filling sender total next stall data => .filling sender total next (stall + 1) data
  | .full sender total expiry data => .full sender total (expiry + 1) data

/-- The line interface at a start: timer reloaded, silent-line count 0, a new frame, hold counts lowered, the
presence-due counter raised in MEMBER and LEAVING (R1, R3, R6, R18, R28). -/
def LineInterface.atStart (l : LineInterface) (drives emitted : Bool) : LineInterface :=
  { l with
    timerExpired := false
    silentCount := 0
    silent := false
    lead := emitted
    phase := .started
    field := .unseen
    sent := none
    vetoing := .none
    queue := l.queue.map (fun e => { e with hold := e.hold - 1 })
    presenceCounter := if drives then l.presenceCounter + 1 else l.presenceCounter }

/-- One frame period of the silence count (R41). -/
def State.countSilence (s : State) : State :=
  if s.member.station = .silenced then { s with member.silenceCount := s.member.silenceCount - 1 } else s

/-- A FRAME START seen or emitted (R1, R3 to R6, R25, R28, R47, R66, R84, R160, R168, R182). -/
def State.start (s : State) (emitted inWindow : Bool) : State :=
  let onTime := emitted || (inWindow && !s.line.phase.isOpen && !s.line.timerExpired)
  let passed := s.cut
  let begun := { passed with
    line := passed.line.atStart passed.member.station.drives emitted
    tables := passed.tables.atStart
    call.retry := passed.call.retry - 1
    note.box := passed.note.box.atStart
    startUp.carryRetry := passed.startUp.carryRetry.map (fun (c : CarryRetry) => { c with count := c.count - 1 }) }
  (begun.countSilence.judgeStart onTime).storeBoundary

/-- Whether the station may emit a start now (R3). -/
def State.mayLead (s : State) : Bool := s.keepUp && s.member.station.onLine

/-- One frame period passes with nothing emitted (R3, R6, R41, R66, R84): the start is missing. -/
def State.missStart (s : State) : State :=
  (({ s with line.timerExpired := true,
             line.silentCount := s.line.silentCount + 1 }).countSilence.judgeMiss).storeBoundary

/-- One frame period since the last start, none seen: the station leads if it may (R3). -/
def State.leadStart (s : State) : State :=
  if s.mayLead && !s.line.timerExpired then s.start true true else s

/-- The frame timer expires (R3, R66): the station emits a start if it may, else the start is missing. A DORMANT
station only watches for a start. -/
def State.expireTimer (s : State) : State :=
  if s.line.timerExpired || s.member.station == .dormant then s
  else if s.mayLead then s.start true true
  else s.missStart

/-- A further frame period with the timer expired (R66). -/
def State.missFurther (s : State) : State :=
  if s.line.timerExpired && s.member.station != .dormant then s.missStart else s

/-- A keep-up flag that becomes set while the timer is expired makes the station emit a start at once (R3). So does, as the
model's choice (log 67), a flag that was set before, at a station that comes into a state that may emit starts. -/
def State.keepUpStart (s : State) : State :=
  if s.line.timerExpired && s.mayLead then s.start true true else s

/-! ## The control field (R8, R11 to R13, R54 to R56) -/

/-- The candidate for the control field (R11): the first ready queued message, or a due presence message of lower
class. -/
def State.candidate (s : State) : Option (Sum QueueEntry StartUpRecord) :=
  let queued := s.line.queue.find? (fun e => e.ready)
  match queued, (if s.line.presenceDue then s.startUp.record else none) with
  | some e, some r => if 1 < e.message.cls then some (.inr r) else some (.inl e)
  | some e, none => some (.inl e)
  | none, some r => some (.inr r)
  | none, none => none

/-- The first slot of an AUTO claim by the slot table as it stands (R54, R55): 0 where no run is sought, none where there
is no run. -/
def State.autoSlot (s : State) (i : Nat) : Option Nat :=
  match s.tables.entry (s.ownStream i) with
  | .offered p => s.tables.chooseRun p.channels p.cls
  | _ => some 0

/-- Choose the ready message (R11); an AUTO claim that finds no run is removed and the choice is made again (R56). -/
def State.chooseReady : Nat → State → State × Option Sent
  | 0, s => (s, none)
  | fuel + 1, s =>
    match s.candidate with
    | none => (s, none)
    | some (.inr r) => (s, some (.presence (s.presenceMessage r)))
    | some (.inl e) =>
      match e.auto, e.message with
      | true, .claim i _ =>
        match s.autoSlot i.toNat with
        | some f => (s, some (.queued e.order (.claim i (BitVec.ofNat 8 f))))
        | none => chooseReady fuel ((s.removeEntry e.order).tell e .noRoom)
      | _, m => (s, some (.queued e.order m))

/-- What a control field comes to at this station (R8, R12): the field as judged, and the own message where this station
drove the field to its end. -/
def State.arbitrate (s : State) (own : Option Sent) (others : Option (BitVec 187)) (readable : Bool) :
    Field × Option Sent :=
  let judged (f : Option (Nat × Message)) : Field :=
    match f with
    | some (n, m) => if readable then .passed n m else .failed
    | none => .failed
  match own, others with
  | none, none => (.empty, none)
  | none, some w => (judged (judgeField w), none)
  | some m, none => (judged (some (s.number, m.message)), some m)
  | some m, some w =>
    let value := arbitrationValue s.number m.message
    if value < fieldArbitration w then (judged (some (s.number, m.message)), some m)
    else if fieldArbitration w < value then (judged (judgeField w), none)
    else if fieldBits s.number m.message = w then (judged (some (s.number, m.message)), some m)
    else (.failed, some m)

/-- The veto that a station taking part drives for a field (R13, R169). -/
def State.vetoFor (s : State) (f : Field) : Veto :=
  if s.member.station.takesPart then
    match f with
    | .failed => .failedCheck
    | .passed n (.notePart target index total _) =>
      if target.toNat = s.number ∧ s.note.box.accepts n index.toNat total.toNat = false then .refusedNote
      else .none
    | _ => .none
  else .none

/-- The control field of the frame (R8, R11 to R14). A station not on the line reads none. No effect unless a frame has
just started. -/
def State.controlField (s : State) (others : Option (BitVec 187)) (readable : Bool) : State :=
  if s.line.phase = .started then
    if s.member.station.onLine then
      let (chosen, own) := if s.member.station.takesPart then s.chooseReady 16 else (s, none)
      let (f, sent) := chosen.arbitrate own others readable
      { chosen with line.field := f, line.sent := sent, line.vetoing := chosen.vetoFor f,
                    line.phase := .fieldPassed }
    else { s with line.phase := .fieldPassed }
  else s

/-! ## The tail (R13 to R18, R34) -/

/-- The self-veto run count at a tail (R17). -/
def LineInterface.selfVetoAtTail (l : LineInterface) : Nat :=
  if l.vetoing = .failedCheck then l.selfVeto + 1
  else if l.field = .failed then l.selfVeto
  else 0

/-- A listener's undamaged-frame count and completeness at a tail (R34). -/
def State.listenAtTail (s : State) (vetoed : Bool) : State :=
  if s.member.station = .listening then
    if s.line.field = .failed then
      let counted := { s with member.undamaged := 0 }
      if vetoed then counted else { counted with tables := counted.tables.restartCompleteness }
    else { s with member.undamaged := min 12800 (s.member.undamaged + 1) }
  else s

/-- Change a queue entry by its order of entry. -/
def State.onEntry (s : State) (order : Nat) (f : QueueEntry → QueueEntry) : State :=
  { s with line.queue := s.line.queue.map (fun e => if e.order = order then f e else e) }

/-- An entry is held for a number of frames. -/
def QueueEntry.holdFor (e : QueueEntry) (n : Nat) : QueueEntry := { e with hold := n, ready := n == 0 }

/-- The serial of the record. -/
def State.serial (s : State) : BitVec 32 :=
  match s.startUp.record with
  | some r => r.serial
  | none => 0

/-- A vetoed JOIN (R16, R40): the next value of the backoff sequence, or SILENCED after the eighth veto. -/
def State.joinVetoed (s : State) (e : QueueEntry) : State :=
  if 8 ≤ e.vetoes then s.goTo .silenced .joinFailed
  else
    let drawn := (Config.joinBackoff s.serial s.member.backoff).toNat
    ({ s with member.backoff := s.member.backoff + 1 }).onEntry e.order (fun e => e.holdFor drawn)

/-- A message is abandoned after its 32nd veto (R16); an abandoned LEAVE returns the station to MEMBER (R43). -/
def State.abandon (s : State) (e : QueueEntry) : State :=
  let told := (s.removeEntry e.order).tell e .abandoned
  if e.message = .leave ∧ told.member.station = .leaving then told.goTo .member .abandoned else told

/-- The own message of a frame is vetoed (R16). -/
def State.ownVetoed (s : State) : State :=
  match s.line.sent with
  | some (.queued order _) =>
    match s.line.queue.find? (fun e => e.order == order) with
    | none => s
    | some e =>
      let counted := s.onEntry order (fun e => { e with vetoes := e.vetoes + 1 })
      let now : QueueEntry := { e with vetoes := e.vetoes + 1 }
      match e.message with
      | .join .. => counted.joinVetoed now
      | .notePart .. =>
        if 32 ≤ now.vetoes then counted.abandon now else counted.onEntry order (fun e => e.holdFor 64)
      | _ => if 32 ≤ now.vetoes then counted.abandon now else counted
  | _ => s

/-- The frame is complete: waiting messages move into the queue (R1, R18). -/
def State.closeFrame (s : State) : State :=
  let moved := s.moveWaiting
  { moved with line.phase := .over, line.field := .unseen, line.sent := none, line.vetoing := .none }

/-- The end of the tail of a frame (R14): `message` is what takes effect unless the tail carried a veto, or this
station, listening, could not read the field. -/
def State.tail (s : State) (message : Option (Nat × Message)) (veto : Bool) : State :=
  if s.line.phase = .unread then { s with line.phase := .over }
  else if s.member.station.onLine then
    let vetoed := veto || s.vetoes
    let counted := ({ s with line.selfVeto := s.line.selfVetoAtTail }).listenAtTail vetoed
    let settled :=
      if vetoed then counted.ownVetoed
      else if s.line.field = .failed then counted
      else match message with
        | some (sender, m) => counted.takeEffect sender m
        | none => counted
    settled.closeFrame
  else s.closeFrame

/-- The tail of a frame whose field is as this station judged it (R14). No effect where no frame is under way. -/
def State.tailEnd (s : State) (veto : Bool) : State :=
  match s.line.phase, s.line.field with
  | .over, _ => s
  | _, .passed sender m => s.tail (some (sender, m)) veto
  | _, _ => s.tail none veto

/-- A message takes effect at the end of a tail without a veto (R14). -/
def State.messageEffect (s : State) (sender : Nat) (m : Message) : State := s.tail (some (sender, m)) false

/-! ## Counts that run out on the line side -/

/-- The self-veto run count has reached 32 (R17, R41). -/
def State.selfVetoDue (s : State) : State :=
  if s.member.station.takesPart && decide (32 ≤ s.line.selfVeto) then s.goTo .silenced .selfVeto else s

/-- A listener may leave LISTENING (R36): at the end of a tail, with the count at 12,800 and every entry COMPLETE. -/
def State.listenEnds (s : State) : Bool :=
  s.member.station == .listening && s.member.undamaged == 12800 && s.tables.allComplete && s.line.phase == .over

/-- The end of listening (R36). -/
def State.listenEnd (s : State) : State :=
  match s.startUp.record with
  | none => s
  | some r =>
    if s.listenEnds then
      if (s.tables.station r.station).present then s.goTo .detached .numberTaken
      else if zoneSetOf r.zones &&& s.tables.zonesPresent ≠ 0 then s.goTo .detached .zoneTaken
      else (s.send (newEntry (joinMessage r) .membership false none)).goTo .joining .ready
    else s

/-- An entry's age has reached 8,192 (R25): it is removed, and the station itself moves if it is its own (R27). -/
def State.agedOut (s : State) (n : Nat) : State :=
  if (s.tables.station n).present && decide (8192 ≤ (s.tables.station n).age) then
    let removed := s.removeStation n .agedOut
    if n = s.number then removed.ownRemoved else removed
  else s

/-- A HELD slot whose hold remaining has reached 0 becomes FREE (R47). -/
def State.freeSlot (s : State) (slot : Nat) : State :=
  if s.tables.slots.getD slot .free = .held 0 then { s with tables.slots := s.tables.slots.set slot .free } else s

/-- Send-queue entries whose hold count has reached 0 become ready (R18). -/
def State.readyEntries (s : State) : State :=
  if s.line.queue.any (fun e => !e.ready && e.hold == 0) then
    { s with line.queue := s.line.queue.map (fun e => if e.hold = 0 then { e with ready := true } else e) }
  else s

/-- The presence-due counter has reached 2,048 (R28). -/
def State.presenceFallsDue (s : State) : State :=
  if s.member.station.drives && decide (2048 ≤ s.line.presenceCounter) then { s with line.presenceDue := true } else s

/-- The silence count has run out (R41). -/
def State.silenceEnded (s : State) : State :=
  if s.member.station = .silenced ∧ s.member.silenceCount = 0 then s.goTo .listening .silenceEnded else s

/-- The call unit's retry count has reached 0 (R160): it looks again. -/
def State.uplinkRetry (s : State) : State :=
  if s.call.retryArmed && s.call.retry == 0 then ({ s with call.retryArmed := false }).lookAtUplink else s

/-- The line becomes silent (R6): the follower goes to FREE_RUN. -/
def State.lineSilent (s : State) : State :=
  if decide (64 ≤ s.line.silentCount) && !s.line.silent then
    let silent := { s with line.silent := true }
    if s.follower.state = .freeRun then silent else silent.follow .freeRun .silentLine
  else s

end Sys2Proof.Machine
end

