-- ==== Sys2Proof/Machine/Ports.lean ====
section
/-! DEFINITION. The port block (chapter 4): the input pairs, the elastic buffer of the decoder port, the slips and the quality
blocks. -/

namespace Sys2Proof.Machine

/-! ## Quality (R76) -/

/-- The worse of two qualities. -/
def worseQuality (a b : Quality) : Quality := if qualityCode a < qualityCode b then b else a

/-- One more local sample counts towards the quality block, with the mark of what was handed. -/
def Ports.countRead (p : Ports) (mark : Quality) : Ports :=
  { p with blockReads := p.blockReads + 1, blockWorst := worseQuality p.blockWorst mark }

/-- Block counting restarts at 0 (R76). -/
def Ports.restartBlock (p : Ports) : Ports := { p with blockReads := 0, blockWorst := .good }

/-! ## The decoder port (R73 to R75, R77) -/

/-- A sample arrives from the decoder (R73, R77): it joins the buffer, or is discarded at a full one; the buffer resumes
reading at fill 32. -/
def Ports.arrive (p : Ports) (x : DecoderSample) : Ports :=
  let heard := { p with arrivalGap := 0, nextLost := 64 }
  if 64 ≤ p.buffer.length then { heard with blockWorst := .lost }
  else
    let added := { heard with buffer := p.buffer ++ [x] }
    if p.reading = false ∧ 32 ≤ p.buffer.length + 1 then
      ({ added with reading := true, slipGuard := 64, lastHanded := none }).restartBlock
    else added

/-- A sample marked missing is handed on (R73). -/
def Ports.handMissing (p : Ports) : Ports := ({ p with digital := none }).countRead .lost

/-- A sample is handed on. -/
def Ports.handOn (p : Ports) (x : DecoderSample) : Ports :=
  ({ p with digital := some x.sample, lastHanded := some x }).countRead x.quality

/-- A slip changes the slip balance, which is kept between -257 and +257 (R75). -/
def Ports.slip (p : Ports) (by' : Int) : Ports :=
  { p with slipGuard := 0, balance := max (-257) (min 257 (p.balance + by')) }

/-- A read that is not a slip (R74). -/
def Ports.countGuard (p : Ports) : Ports := { p with slipGuard := min 64 (p.slipGuard + 1) }

/-- The read of a local sample (R73, R74), with the slip notice it gives: +1, -1, or 0 for none. -/
def Ports.read (p : Ports) : Ports × Int :=
  if p.reading then
    match p.buffer with
    | [] => (({ p with reading := false }).handMissing, 0)
    | x :: rest =>
      if p.buffer.length < 8 ∧ 64 ≤ p.slipGuard then
        match p.lastHanded with
        | some y => ((p.slip 1).handOn y, 1)
        | none => ((p.slip 1).handMissing, 1)
      else if 56 < p.buffer.length ∧ 64 ≤ p.slipGuard then
        match rest with
        | y :: more => (({ p with buffer := more }.slip (-1)).handOn y, -1)
        | [] => (p, 0)
      else (({ p with buffer := rest }.countGuard).handOn x, 0)
  else (p.handMissing, 0)

/-- One local sample of the port block (R72, R73, R77): the inputs are taken, the decoder buffer is read, the arrival gap
rises. -/
def Ports.sample (p : Ports) (i : InputSamples) : Ports × Int :=
  { p with inputs := [i.in0, i.in1, i.in2, i.in3], arrivalGap := p.arrivalGap + 1 }.read

/-- Whether a slip balance is beyond its limit (R75). -/
def Ports.beyondLimit (p : Ports) : Bool := decide (256 < p.balance.natAbs)

/-- The port block on entry into DORMANT (R73, R75). -/
def Ports.enterDormant (p : Ports) : Ports := { p with buffer := [], reading := false, balance := 0 }

end Sys2Proof.Machine
end

