-- ==== Sys2Proof/Machine/ZoneAudio.lean ====
section
/-! DEFINITION. The zone mixer's work at a local sample (chapter 6): ramps, zone sums, output paths and the ALIGN requests. -/

namespace Sys2Proof.Machine

/-! ## Ramps and sums (R108, R109) -/

/-- The ramps of a zone take one step (R108). -/
def Zone.stepRamps (v : Zone) : Zone :=
  { v with routes := v.routes.map (fun e => { e with ramp := e.ramp.advance }),
           position := { v.position with ramp := v.position.ramp.advance } }

/-- A sample handed as not valid, or not handed, counts as zero (R109). -/
def validSample (h : Option (Bool × Sample)) : Sample :=
  match h with
  | some (true, x) => x
  | _ => 0

/-- What a stream gives to the left and right of a zone (R109). -/
def State.streamStereo (s : State) (x : Nat) : Stereo :=
  let left := validSample (s.handed x 0)
  match (s.tables.entry x).parameters with
  | some p => if p.channels = 1 then { left := left, right := left }
              else { left := left, right := validSample (s.handed x 1) }
  | none => .zero

/-- What plays in a zone: each stream's samples with their gain (R109, R110). -/
def State.zoneTerms (s : State) (v : Zone) : List (Stereo × Gain) :=
  let entries := (v.routes.filter (fun e => e.state != .waiting)).map (fun e =>
    (s.streamStereo e.stream, e.ramp.current))
  match v.position.state, v.position.downlink with
  | .live, some x =>
    let sample := validSample (s.handed x 0)
    entries ++ [({ left := sample, right := sample }, v.position.ramp.current)]
  | _, _ => entries

/-- The mix of stereo terms. -/
def mixStereo (terms : List (Stereo × Gain)) : Stereo :=
  { left := mixSamples (terms.map (fun t => (t.1.left, t.2))),
    right := mixSamples (terms.map (fun t => (t.1.right, t.2))) }

/-- Every zone's ramps take a step and its sum is formed (R108, R109). That the sum takes the gains after the step is the model's
choice (log 71). -/
def State.mixZones (s : State) : State :=
  { s with mixer.zones := s.mixer.zones.map (fun v =>
      let stepped := v.stepRamps
      { stepped with sum := mixStereo (s.zoneTerms stepped) }) }

/-! ## Output paths (R113 to R115) -/

/-- The positions of an output pair's ring (R113). -/
def alignPositions : Nat := 2560

/-- The zone place an output pair belongs to, with its delay and trim (R71). -/
def State.assigned (s : State) (pair : Nat) : Option (Nat × OutputPair) :=
  (s.definitions.zipIdx.filterMap (fun d =>
    (d.1.pairs.find? (fun o => o.pair == pair)).map (fun o => (d.2, o)))).head?

/-- An output path. -/
def State.path (s : State) (pair : Nat) : OutputPath :=
  s.mixer.paths.getD pair { ring := .cleared 0, held := [] }

/-- A sample multiplied by the output gate's gain (R69). -/
def gated (gain : Nat) (x : Sample) : Sample := limit24 (roundDiv (x.toInt * gain) 480)

/-- What a pair emits: the sample played, by its trim and by the gate (R69, R113). -/
def emitted (trim gain : Nat) (x : Stereo) : Stereo :=
  let trimmed := mixStereo [(x, attenuation trim)]
  { left := gated gain trimmed.left, right := gated gain trimmed.right }

/-- The position an output path plays while its write position is w (R113). -/
def playedPosition (w delay : Nat) : Nat := back alignPositions w (48 + delay : Nat)

/-- Give an output pair its sample. -/
def State.emit (s : State) (pair : Nat) (x : Stereo) : State :=
  { s with ports.outputs := s.ports.outputs.set pair x }

/-- One local sample of an output path (R71, R113): the zone's sum is written, the sample due is played. -/
def State.playPair (s : State) (pair : Nat) : State :=
  match s.assigned pair with
  | none => s.emit pair .zero
  | some (z, o) =>
    let path := s.path pair
    let written := path.ring.push alignPositions (s.zone z).sum
    let q := playedPosition path.ring.write o.delay
    let x := readHeld path.held written q pair s.localCount
    let kept := stillHeld path.held (q :: following alignPositions q 16)
    (s.onPath pair (fun p => { p with ring := written, held := kept })).emit pair
      (emitted o.trim s.follower.gain x)

/-- An ALIGN burst of a pair (R113, R114). -/
def State.alignBurst (s : State) (access : Access) (pair group : Nat) (right : Bool)
    (data : List (Nat × Sample)) (purpose : Purpose) : State :=
  s.request (burst .align access (stereoWord (20 * pair) group right) data (s.deadlineIn 8) purpose)

/-- The writes of a pair's turn (R114, R115). -/
def State.alignWrites (s : State) (pair : Nat) : State :=
  match (s.path pair).ring.whole with
  | none => s
  | some (g, samples) =>
    let marked := s.onPath pair (fun p => { p with ring := p.ring.writeRequested g })
    let left := marked.alignBurst .write pair g false (wholeSet (samples.map (fun x => x.left)))
      (.alignWrite pair g false)
    left.alignBurst .write pair g true (wholeSet (samples.map (fun x => x.right))) (.alignWrite pair g true)

/-- The groups whose first position a path plays within the next 16 local samples, in order (R114). -/
def groupsDue (q : Nat) : List Nat :=
  ((following alignPositions q 16).filter (fun p => p % 8 == 0)).map (fun p => p / 8)

/-- The groups that fall due as holes ahead of the next read: silence is played for them (R115). -/
def holesDue (r : Ring) : List Nat → List Nat
  | [] => []
  | g :: rest => if r.hole g then g :: holesDue r rest else []

/-- The read of a pair's turn (R114, R115): the next group not yet requested, unless it is a hole. -/
def State.alignReads (s : State) (pair delay : Nat) : State :=
  let path := s.path pair
  -- the ring has already moved on: the sample played last stands one before the next write position
  let q := playedPosition (back alignPositions path.ring.write 1) delay
  let open' := (groupsDue q).filter (fun g => !(path.held.any (fun h => h.group == g)))
  let holes := holesDue path.ring open'
  let silent := holes.map (fun g => ({ group := g, left := .silent, right := .silent } : HeldGroup))
  let passed := s.onPath pair (fun p => { p with held := p.held ++ silent })
  match open'.drop holes.length with
  | [] => passed
  | g :: _ =>
    let asked := passed.onPath pair (fun p => { p with held := p.held ++ [HeldGroup.requested g] })
    (asked.alignBurst .read pair g false [] (.alignRead pair g false)).alignBurst .read pair g true []
      (.alignRead pair g true)

/-- The turn of the pair whose number is the round position (R114). -/
def State.alignTurn (s : State) : State :=
  let turn :=
    match s.assigned s.mixer.round with
    | some (_, o) => (s.alignWrites s.mixer.round).alignReads s.mixer.round o.delay
    | none => s
  { turn with mixer.round := (s.mixer.round + 1) % 8 }

/-- One local sample of the output paths (R113, R114). -/
def State.playPairs (s : State) : State := (forEach 6 (fun p acc => acc.playPair p) s).alignTurn

end Sys2Proof.Machine
end

