-- ==== Sys2Proof/Machine/Clips.lean ====
section
/-! DEFINITION. The clip table, the play list and the announce source (R118 to R126). -/

namespace Sys2Proof.Machine

/-! ## The clip table (R118 to R122) -/

/-- A clip table entry. -/
def State.clip (s : State) (i : Nat) : Clip := s.announce.clips.getD i .none

/-- Change a clip table entry. -/
def State.onClip (s : State) (i : Nat) (f : Clip → Clip) : State :=
  { s with announce.clips := s.announce.clips.modify i f }

/-- The state of a clip whose words are spoken for (R119, R122). -/
def ClipState.holdsWords : ClipState → Bool
  | .loading | .ready | .locked => true
  | _ => false

/-- The banks that a clip lies in (R118): those of the client rows of its words. -/
def Store.banksOfClip (st : Store) (c : Clip) : List Nat :=
  (List.range ((c.offset + c.length - 1) / 256 + 1 - c.offset / 256)).filterMap (fun k =>
    (placeRow (st.regionsOf .clip) (c.offset / 256 + k)).map (fun place => place.1))

/-- Discard the load buffer where it holds a clip's samples. -/
def State.dropBuffer (s : State) (i : Nat) : State :=
  if s.announce.bufferClip = some i then { s with announce.buffer := [], announce.bufferClip := none } else s

/-- A play ends: its place becomes free, and PLAY_DONE is raised for a host-started play with a cause (R126). -/
def State.endPlay (s : State) (place : Nat) (cause : Option Cause) : State :=
  match s.announce.plays.getD place none with
  | none => s
  | some p =>
    let freed := { s with announce.plays := s.announce.plays.set place none }
    match p.starter, cause with
    | .host, some c => raise .playDone [place, p.clip] (some c) freed
    | _, _ => freed

/-- End every play with a property. -/
def State.endPlays (s : State) (p : Play → Bool) (cause : Option Cause) : State :=
  forEach 4 (fun place acc =>
    match acc.announce.plays.getD place none with
    | some play => if p play then acc.endPlay place cause else acc
    | none => acc) s

/-- A clip goes to INVALID with a cause: CLIP_LOST, and its plays end (R122). -/
def State.loseClip (s : State) (i : Nat) (cause : Cause) : State :=
  let lost := (s.dropBuffer i).onClip i (fun c => { c with state := .invalid, received := 0, written := 0 })
  (raise .clipLost [i] (some cause) lost).endPlays (fun p => p.clip == i) (some .clipInvalid)

/-- A bank loss notice (R92, R122): every clip that lies in the bank and holds words goes to INVALID. -/
def State.bankLost (s : State) (bank : Nat) : State :=
  forEach 32 (fun i acc =>
    let c := acc.clip i
    if c.state.holdsWords && (acc.store.banksOfClip c).contains bank then acc.loseClip i .bankLost else acc) s

/-- Every LOADING clip goes to EMPTY and the load buffer is emptied (R122). -/
def State.emptyLoads (s : State) : State :=
  { s with announce.clips := s.announce.clips.map (fun c => if c.state = .loading then .none else c),
           announce.buffer := [], announce.bufferClip := none }

/-- Whether a clip's last word lies at or beyond the CLIP space (R122). -/
def Store.beyondSpace (st : Store) (c : Clip) : Bool := decide (st.spaceOf .clip ≤ c.offset + c.length - 1)

/-- Whether the new CLIP space is held against a clip (R122): READY, LOCKED or INVALID. -/
def ClipState.heldAgainstSpace (c : ClipState) : Bool := c.playable || c == .invalid

/-- A content report at the end of a RESET LINE reset or a WAKE (R96, R122): LOADING clips are emptied, then READY, LOCKED and
INVALID clips that no longer fit, and READY and LOCKED clips in banks outside the report, go to INVALID. -/
def State.contentReport (s : State) (report : Nat → Bool) : State :=
  let emptied := s.emptyLoads
  let fitted := forEach 32 (fun i acc =>
    let c := acc.clip i
    if c.state.heldAgainstSpace && acc.store.beyondSpace c then acc.loseClip i .notRetained else acc) emptied
  forEach 32 (fun i acc =>
    let c := acc.clip i
    if c.state.playable && (acc.store.banksOfClip c).any (fun b => !report b) then acc.loseClip i .notRetained
    else acc) fitted

/-! ## Plays (R124 to R126) -/

/-- The sample a play sounds now: from the words read, silence for a gap and for a group it could not request (R125);
a read not yet delivered leaves it open (log 14). -/
def Play.sounding (p : Play) (place count : Nat) : Sample :=
  match p.groups.find? (fun g => g.repetition == p.done && g.group == p.position / 8) with
  | none => 0
  | some g =>
    match g.part with
    | .words samples => samples.getD (p.position % 8) 0
    | .silent => 0
    | .awaited => (Config.undelivered (10 + place) count).left

/-- A play after it has sounded its sample: on to the next, with groups released whose last sample has sounded. -/
def Play.moveOn (p : Play) (length : Nat) : Play :=
  let released := if (p.position + 1) % 8 = 0 ∨ p.position + 1 = length then
      p.groups.filter (fun g => !(g.repetition == p.done && g.group == p.position / 8))
    else p.groups
  if p.position + 1 < length then { p with position := p.position + 1, groups := released, wait := 1 }
  else if p.done + 1 < p.repeats then { p with position := 0, done := p.done + 1, groups := released, wait := 1 }
  else { p with groups := released, finished := true }

/-- One local sample of a play (R125): its sample, if it sounds one, and the play after it. -/
def Play.step (p : Play) (length place count : Nat) : Play × Option Sample :=
  if p.finished then (p, none)
  else if 1 < p.wait then ({ p with wait := p.wait - 1 }, none)
  else (p.moveOn length, some (p.sounding place count))

/-- The groups whose first sample a play sounds within the next 16 local samples: repetition, group and the local samples
until then, in play order (R125). -/
def Play.groupsAhead (p : Play) (length : Nat) : List (Nat × Nat × Nat) :=
  (List.range 16).filterMap (fun k =>
    let due := k + 1
    let t := p.position + (due - p.wait)
    if p.finished || decide (due < p.wait) || decide (length = 0) then none
    else if p.done + t / length < p.repeats ∧ t % length % 8 = 0 then
      some (p.done + t / length, t % length / 8, due)
    else none)

/-- A play requests one group, if it has not yet requested it and holds fewer than 3 (R125). -/
def State.requestGroup (s : State) (place : Nat) (offset repetition group due : Nat) : State :=
  match s.announce.plays.getD place none with
  | none => s
  | some p =>
    if p.groups.any (fun g => g.repetition == repetition && g.group == group) || decide (3 ≤ p.groups.length) then s
    else
      let asked : Play :=
        { p with groups := p.groups ++ [{ repetition := repetition, group := group, part := .awaited }] }
      ({ s with announce.plays := s.announce.plays.set place (some asked) }).request
        (burst .playback .read (offset + 8 * group) [] (s.deadlineIn due - 1) (.clipRead p.serial repetition group))

/-- The requests of a play at a local sample (R125). -/
def State.requestGroups (s : State) (place : Nat) : State :=
  match s.announce.plays.getD place none with
  | none => s
  | some p =>
    let c := s.clip p.clip
    (p.groupsAhead c.length).foldl (fun acc g => acc.requestGroup place c.offset g.1 g.2.1 g.2.2) s

/-- Start a play in the lowest free place (R124): none where the clip cannot be played or the list is full. It requests its
first groups at the local sample at which it starts (R125). -/
def State.startPlay (s : State) (clip level repeats : Nat) (starter : Starter) : Option (Nat × State) :=
  if (s.clip clip).state.playable then
    match s.announce.plays.findIdx? (fun p => p.isNone) with
    | none => none
    | some place =>
      let play : Play :=
        { clip := clip, level := level, repeats := repeats, done := 0, position := 0, starter := starter,
          groups := [], wait := 16, finished := false, serial := s.announce.nextPlay }
      let listed := { s with announce.plays := s.announce.plays.set place (some play),
                             announce.nextPlay := s.announce.nextPlay + 1 }
      some (place, listed.requestGroups place)
  else none

/-- The plays sound their samples and the announce source gives their sum (R126). -/
def State.soundPlays (s : State) : State :=
  let steps := s.announce.plays.zipIdx.map (fun p =>
    p.1.map (fun play => (play.step (s.clip play.clip).length p.2 s.localCount, play.level)))
  let terms := steps.filterMap (fun step => step.bind (fun x => x.1.2.map (fun v => (v, attenuation x.2))))
  { s with announce.plays := steps.map (fun step => step.map (fun x => x.1.1)),
           announce.out := mixSamples terms }

/-- One local sample of the announce unit (R125, R126): every play sounds, which releases the groups it has done with, and then
the plays make their requests in the order of their places. Both orders are the model's choice (log 72). -/
def State.announceSample (s : State) : State := forEach 4 (fun place acc => acc.requestGroups place) s.soundPlays

/-- A play that has sounded the last sample of its last repetition leaves the list (R126). -/
def State.playCompleted (s : State) (place : Nat) : State :=
  match s.announce.plays.getD place none with
  | some p => if p.finished then s.endPlay place (some .completed) else s
  | none => s

end Sys2Proof.Machine
end

