-- ==== Sys2Proof/Machine/Cadence.lean ====
section
/-! DEFINITION. The cadence unit (R127 to R132): expiry, triggers, firing and stopping. -/

namespace Sys2Proof.Machine

/-- A cadence channel. -/
def State.channel (s : State) (c : Nat) : CadenceChannel := s.announce.channels.getD c .reset

/-- Change a cadence channel. -/
def State.onChannel (s : State) (c : Nat) (f : CadenceChannel → CadenceChannel) : State :=
  { s with announce.channels := s.announce.channels.modify c f }

/-- Whether a channel is a follower of a leader. -/
def CadenceChannel.follows (c : CadenceChannel) (leader : Nat) : Bool := c.role == .follower leader

/-- The followers of a leader, in ascending channel number. -/
def State.followersOf (s : State) (leader : Nat) : List Nat :=
  (List.range 8).filter (fun c => (s.channel c).follows leader)

/-- Change every follower of a leader. -/
def State.onFollowers (s : State) (leader : Nat) (f : CadenceChannel → CadenceChannel) : State :=
  { s with announce.channels := s.announce.channels.map (fun c => if c.follows leader then f c else c) }

/-- The staged values move into the active fields of a leader and its followers (R128, R129). -/
def State.loadStaged (s : State) (leader : Nat) : State :=
  (s.onChannel leader (fun c =>
    { c with activePeriod := c.stagedPeriod, activeRepetitions := c.stagedRepetitions })).onFollowers leader
    (fun c => { c with activeDelay := c.stagedDelay, activeClip := c.stagedClip })

/-- A triggered follower counts its active delay (R130); a count of 0 fires at once. -/
def CadenceChannel.triggered (c : CadenceChannel) : CadenceChannel :=
  { c with remaining := c.activeDelay, counting := true }

/-- Whether a RUNNING leader's time to expiry has reached 0. -/
def CadenceChannel.expires (c : CadenceChannel) : Bool := c.role == .leader && c.running && c.time == 0

/-- A COUNTING follower whose count is 0 fires and goes to IDLE (R130): it starts a play of its active clip, or sets its
missed mark. -/
def State.fire (s : State) (c : Nat) : State :=
  let k := s.channel c
  match k.role with
  | .follower _ =>
    if k.counting && k.remaining == 0 then
      let idle := s.onChannel c (fun k => { k with counting := false })
      match idle.startPlay k.activeClip k.level 1 (.follower c) with
      | some (_, started) => started
      | none => idle.onChannel c (fun k => { k with missed := true })
    else s
  | _ => s

/-- A follower fires unless its leader expires in the same local sample: the expiry triggers it anew (R130). -/
def State.followerFires (s : State) (c : Nat) : State :=
  match (s.channel c).role with
  | .follower leader => if (s.channel leader).expires then s else s.fire c
  | _ => s

/-- The followers of a leader that count 0 fire, in ascending channel number. -/
def State.fireFollowers (s : State) (leader : Nat) : State :=
  (s.followersOf leader).foldl (fun acc c => acc.fire c) s

/-- A repetition is counted, and the leader runs on or stops (R129 step 3). The time to expiry of a leader that stops here
stays 0: the model's choice (log 60). -/
def State.countRepetition (s : State) (c : Nat) : State :=
  let counted := s.onChannel c (fun k => { k with done := min 255 (k.done + 1) })
  let k := counted.channel c
  if k.activeRepetitions ≠ 0 ∧ k.activeRepetitions ≤ k.done then
    raise .cadenceDone [c] none (counted.onChannel c (fun k => { k with running := false }))
  else counted.onChannel c (fun k => { k with time := k.activePeriod })

/-- A leader that expires loads the staged values and triggers its followers (R129 steps 1 and 2); a follower of delay 0 then
counts 0. -/
def State.triggerFollowers (s : State) (c : Nat) : State := (s.loadStaged c).onFollowers c CadenceChannel.triggered

/-- The expiry of a leader in the order of R129: followers of delay 0 fire before the repetition is counted. -/
def State.cadenceExpiry (s : State) (c : Nat) : State :=
  if (s.channel c).expires then ((s.triggerFollowers c).fireFollowers c).countRepetition c else s

/-- Everything due in the cadence unit at one local sample: every leader that expires triggers its followers, then the
followers that count 0 fire in ascending channel number, then the repetitions are counted (R129, R130). -/
def State.cadencePass (s : State) : State :=
  let due := (List.range 8).filter (fun c => (s.channel c).expires)
  let triggered := due.foldl (fun acc c => acc.triggerFollowers c) s
  due.foldl (fun acc c => acc.countRepetition c) (forEach 8 (fun c acc => acc.fire c) triggered)

/-- One local sample of a cadence channel (R129, R130). -/
def CadenceChannel.count (c : CadenceChannel) : CadenceChannel :=
  match c.role with
  | .leader => if c.running then { c with time := c.time - 1 } else c
  | .follower _ => if c.counting then { c with remaining := c.remaining - 1 } else c
  | .off => c

/-- One local sample of the cadence unit. -/
def State.cadenceSample (s : State) : State :=
  { s with announce.channels := s.announce.channels.map CadenceChannel.count }

/-! ## Cadence Set, Start and Stop (R127, R128, R131) -/

/-- The role that a set-up gives a channel, where its values are within Table 7-4 (R127 check 1). -/
def State.roleWanted (s : State) (c : Nat) : CadenceSetup → Option CadenceRole
  | .off => some .off
  | .leader period _ trigger =>
    if 48 ≤ period.toNat ∧ period.toNat ≤ 480000 ∧ trigger.toNat ≤ 1 then some .leader else none
  | .follower leader delay clip level =>
    if leader.toNat ≤ 7 ∧ leader.toNat ≠ c ∧ (s.channel leader.toNat).role = .leader ∧ delay.toNat ≤ 479999
        ∧ clip.toNat ≤ 31 ∧ level.toNat ≤ 63 then some (.follower leader.toNat) else none
  | .other _ => none

/-- Whether a channel takes part in a running cadence (R127 check 2). -/
def State.takesPartInCadence (s : State) (c : Nat) : Bool :=
  match (s.channel c).role with
  | .leader => (s.channel c).running
  | .follower l => (s.channel l).running || (s.channel c).counting
  | .off => false

/-- A channel given a role (R127): made OFF it keeps no fields; made a LEADER it is STOPPED; made a FOLLOWER it is IDLE
with its missed mark clear. -/
def CadenceChannel.become (k : CadenceChannel) (role : CadenceRole) : CadenceChannel :=
  if k.role = role then k
  else match role with
    | .off => .reset
    | .leader => { k with role := .leader, running := false }
    | .follower l => { k with role := .follower l, counting := false, missed := false }

/-- The staged fields, the trigger-at-start flag and the level that a set-up writes (R127). -/
def CadenceChannel.stage (k : CadenceChannel) : CadenceSetup → CadenceChannel
  | .leader period repetitions trigger =>
    { k with stagedPeriod := period.toNat, stagedRepetitions := repetitions.toNat, trigger := trigger == 1 }
  | .follower _ delay clip level =>
    { k with stagedDelay := delay.toNat, stagedClip := clip.toNat, level := level.toNat }
  | _ => k

/-- Cadence Set (R127): the state after it, or the refusal. -/
def State.cadenceSet (s : State) (c : Nat) (setup : CadenceSetup) : State × Status :=
  if 7 < c then (s, .badParameter)
  else match s.roleWanted c setup with
    | none => (s, .badParameter)
    | some role =>
      if (s.channel c).role ≠ role ∧ s.takesPartInCadence c then (s, .wrongState)
      else if (s.channel c).role = .leader ∧ role ≠ .leader ∧ (s.followersOf c).isEmpty = false then (s, .wrongState)
      else (s.onChannel c (fun k => (k.become role).stage setup), .ok)

/-- Cadence Start (R128). -/
def State.cadenceStart (s : State) (c : Nat) : State × Status :=
  if 7 < c then (s, .badParameter)
  else if (s.channel c).role ≠ .leader ∨ (s.channel c).running then (s, .wrongState)
  else
    let loaded := s.loadStaged c
    let started := (loaded.onChannel c (fun k => { k with done := 0, time := k.activePeriod, running := true }))
      |>.onFollowers c (fun k => { k with missed := false })
    if (s.channel c).trigger then ((started.onFollowers c CadenceChannel.triggered).fireFollowers c, .ok)
    else (started, .ok)

/-- Cadence Stop (R131). -/
def State.cadenceStop (s : State) (c : Nat) : State × Status :=
  if 7 < c then (s, .badParameter)
  else if (s.channel c).role = .leader ∧ (s.channel c).running then
    let started := s.followersOf c
    let stopped := s.onChannel c (fun k => { k with running := false })
    let idle := stopped.onFollowers c (fun k => { k with counting := false, remaining := 0 })
    (idle.endPlays (fun p => match p.starter with
      | .follower f => started.contains f
      | .host => false) none, .ok)
  else (s, .wrongState)

/-- The cadence unit on entry into DORMANT (R132). -/
def State.stopCadences (s : State) : State :=
  let stop (c : CadenceChannel) : CadenceChannel := { c with running := false, counting := false }
  { s with announce.channels := s.announce.channels.map stop }

end Sys2Proof.Machine
end

