-- ==== Sys2Proof/Machine/BlendEngine.lean ====
section
/-! DEFINITION. The blend engine (chapter 8): the analogue delay line and its taps, the output, the quality runs, the correlator
and the crossfades. -/

namespace Sys2Proof.Machine

/-! ## Delays (R133, R134) -/

/-- The nominal delay of the record. -/
def State.nominalDelay (s : State) : Nat :=
  match s.startUp.record with
  | some r => r.nominalDelay
  | none => 0

/-- The length of the ring in positions: 128 for each row of the BLEND space (R133). -/
def State.blendLength (s : State) : Nat := s.store.rowsOf .blend * 128

/-- The effective delay: the nominal delay, the alignment correction and the slip balance (R134). -/
def State.effectiveDelay (s : State) : Int := s.nominalDelay + s.blend.correction + s.ports.balance

/-- The delay of the correlation tap (R134). -/
def State.correlationDelay (s : State) : Int := (s.nominalDelay : Int) - 2048 + s.ports.balance

/-- Whether the ring is long enough to enable the engine (R133). -/
def State.blendFits (s : State) : Bool := decide (0 < s.blendLength ∧ s.nominalDelay + 2368 ≤ s.blendLength)

/-! ## States (R136, R140) -/

/-- A change of blend state (R140, R149): both runs become 0 and BLEND_CHANGED is raised. -/
def State.goBlend (s : State) (new : BlendState) (cause : Cause) : State :=
  raise .blendChanged [blendCode new] (some cause)
    { s with blend.state := new, blend.goodRun := 0, blend.poorRun := 0 }

/-- A fresh tap of the engine. -/
def Blend.freshTap (b : Blend) : Tap := { serial := b.nextTap, held := [] }

/-- The main tap starts afresh: what it held is discarded. -/
def Blend.renewMain (b : Blend) : Blend := { b with main := b.freshTap, nextTap := b.nextTap + 1 }

/-- The correlation tap ends and its history is discarded. -/
def Blend.endCorrelator (b : Blend) : Blend := { b with correlator := .stopped }

/-- The correlator starts with an empty history (R142). -/
def Blend.startCorrelator (b : Blend) : Blend :=
  { b with correlator := { phase := .priming, done := 0, analogue := [], digital := [], tap := b.freshTap },
           nextTap := b.nextTap + 1 }

/-- The ring is cleared: every hole mark set, write position and fill count 0 (R133). -/
def Blend.clearRing (b : Blend) : Blend := { b with ring := .cleared (b.ring.serial + 1), fill := 0 }

/-- To TO_ANALOGUE with a cause and fall rate (R145, R146). -/
def State.fallBack (s : State) (cause : Cause) (fast : Bool) : State :=
  ({ s with blend.fast := fast }).goBlend .toAnalogue cause

/-! ## Quality (R140, R141, R142, R145 to R147) -/

/-- The runs after a quality is handed (R140). -/
def Blend.countQuality (b : Blend) (q : Quality) : Blend :=
  match q with
  | .good => { b with goodRun := min 8 (b.goodRun + 1), poorRun := 0 }
  | .poor => { b with poorRun := min 2 (b.poorRun + 1), goodRun := 0 }
  | .lost => { b with goodRun := 0, poorRun := 0 }

/-- A LOST quality marks the alignment not valid outside IDLE and FILLING (R140). -/
def Blend.distrust (b : Blend) (q : Quality) : Blend :=
  if q = .lost ∧ b.state ≠ .idle ∧ b.state ≠ .filling then { b with valid := false } else b

/-- What a state does at a quality handed to the engine, the runs counted. -/
def State.reactToQuality (s : State) (q : Quality) : State :=
  match s.blend.state with
  | .analogue =>
    if s.blend.goodRun = 8 then
      if s.blend.valid then s.goBlend .toDigital .goodRun
      else ({ s with blend := s.blend.startCorrelator }).goBlend .aligning .goodRun
    else s
  | .aligning =>
    if q = .good then s else ({ s with blend := s.blend.endCorrelator }).goBlend .analogue .abandoned
  | .toDigital =>
    match q with
    | .good => s
    | .poor => s.fallBack .poor false
    | .lost => s.fallBack .lost true
  | .digital =>
    if q = .lost then s.fallBack .lost true
    else if s.blend.poorRun = 2 then s.fallBack .poor false
    else s
  | .toAnalogue => if q = .lost then { s with blend.fast := true } else s
  | _ => s

/-- A quality is handed to the engine (R140). -/
def State.handQuality (s : State) (q : Quality) : State :=
  ({ s with blend := (s.blend.countQuality q).distrust q }).reactToQuality q

/-- A quality block has ended (R76): it is handed on and the next begins. -/
def State.qualityBlock (s : State) : State :=
  if 1024 ≤ s.ports.blockReads then
    let q := s.ports.blockWorst
    let ports := { s.ports.restartBlock with lastQuality := q }
    ({ s with ports := ports }).handQuality q
  else s

/-- The arrival gap has reached 64, or risen by a further 1,024 (R77): a LOST indication, and block counting restarts. -/
def State.arrivalGap (s : State) : State :=
  if s.ports.nextLost ≤ s.ports.arrivalGap then
    let ports := { s.ports.restartBlock with nextLost := s.ports.nextLost + 1024 }
    ({ s with ports := ports }).handQuality .lost
  else s

/-! ## Slip notices (R134, R145 to R148) -/

/-- The old tap's delay follows a slip that changed the balance (R134). -/
def Blend.moveOldTap (b : Blend) (by' : Int) : Blend :=
  { b with crossfade := b.crossfade.map (fun x => { x with delay := x.delay + by' }) }

/-- A slip notice that leaves the balance beyond its limit (R145 to R148). -/
def State.slipLimit (s : State) : State :=
  let distrusted := { s with blend.valid := false }
  match s.blend.state with
  | .toDigital => distrusted.fallBack .slipLimit false
  | .digital => distrusted.fallBack .slipLimit false
  | .toAnalogue => distrusted
  | .analogue => distrusted
  | .lockout => distrusted
  | _ => s

/-- A slip notice reaches the engine (R134, R145 to R148), with the balance as it was before it. -/
def State.slipNotice (s : State) (before : Int) : State :=
  let moved := { s with blend := s.blend.moveOldTap (s.ports.balance - before) }
  if s.ports.beyondLimit then moved.slipLimit else moved

/-! ## One local sample (R133 to R136, R142, R143) -/

/-- The mix fraction and the programme gain take a step (R139, R145, R147). -/
def Blend.stepGains (b : Blend) : Blend :=
  let mix := match b.state with
    | .toDigital => min 2400 (b.mix + 1)
    | .toAnalogue => b.mix - (if b.fast then 50 else 1)
    | _ => b.mix
  let gain := match b.state with
    | .idle => 0
    | .filling => 0
    | _ => min 480 (b.gain + 1)
  { b with mix := mix, gain := gain,
           crossfade := b.crossfade.map (fun x => { x with weight := min 480 (x.weight + 1) }) }

/-- One channel of the output (R136): the analogue path, a mix of old and main tap in a crossfade, against the digital
path, under the programme gain. -/
def blendChannel (gain mix weight : Nat) (old main digital : Sample) : Sample :=
  let analogue : Int := (480 - weight : Nat) * old.toInt + weight * main.toInt
  limit24 (roundDiv (gain * ((2400 - mix : Nat) * analogue + mix * 480 * digital.toInt)) (480 * 480 * 2400))

/-- The sample of a tap at a delay, while the write position is w (R134, R135). -/
def State.readTap (s : State) (t : Tap) (w : Nat) (delay : Int) (reader : Nat) : Stereo :=
  readHeld t.held s.blend.ring (back s.blendLength w delay) reader s.localCount

/-- A tap that has read a position keeps what it will still read (R135). -/
def Tap.passing (t : Tap) (length w : Nat) (delay : Int) : Tap :=
  let q := back length w delay
  { t with held := stillHeld t.held (q :: following length q 24) }

/-- The sum of both sides: twice the mean that the correlator takes (R142). -/
def stereoSum (x : Stereo) : Int := x.left.toInt + x.right.toInt

/-- The analogue samples that a result can call for: 4,096 candidates over a window, 64 samples before (R142). -/
def historyKept : Nat := 12352

/-- One local sample of the correlator (R142). -/
def Correlator.step (c : Correlator) (analogue digital : Int) : Correlator :=
  match c.phase with
  | .notRunning => c
  | .priming => { c with analogue := (analogue :: c.analogue).take historyKept, done := c.done + 1 }
  | .window =>
    let taken := { c with analogue := (analogue :: c.analogue).take historyKept,
                          digital := digital :: c.digital, done := c.done + 1 }
    if 8192 ≤ taken.done then { taken with phase := .forming, done := 0 } else taken
  | .forming => { c with analogue := (analogue :: c.analogue).take historyKept, done := c.done + 1 }

/-- The digital sample handed at the latest local sample; a missing one counts as zero (R136, R142). -/
def State.digitalSample (s : State) : Stereo := s.ports.digital.getD .zero

/-- The samples of a local sample: ring written, taps read, output formed, correlator fed (R133 to R136, R142). -/
def State.blendWork (s : State) : State :=
  let w := s.blend.ring.write
  let length := s.blendLength
  let written := { s with blend.ring := s.blend.ring.push length (s.ports.inputs.getD 0 .zero),
                          blend.fill := min length (s.blend.fill + 1) }
  let stepped := { written with blend := written.blend.stepGains }
  let b := stepped.blend
  let main := stepped.readTap b.main w s.effectiveDelay 6
  let (weight, old) := match b.crossfade with
    | some x => (x.weight, stepped.readTap x.old w x.delay 7)
    | none => (480, .zero)
  let digital := s.digitalSample
  let out : Stereo :=
    { left := blendChannel b.gain b.mix weight old.left main.left digital.left,
      right := blendChannel b.gain b.mix weight old.right main.right digital.right }
  let heard := stereoSum (stepped.readTap b.correlator.tap w s.correlationDelay 8)
  let correlator := b.correlator.step heard (stereoSum digital)
  let crossfade := b.crossfade.map (fun x => { x with old := x.old.passing length w x.delay })
  let kept : Blend :=
    { b with out := out
             main := b.main.passing length w s.effectiveDelay
             crossfade := crossfade
             correlator := { correlator with tap := correlator.tap.passing length w s.correlationDelay } }
  { stepped with blend := kept }

/-! ## Requests (R133, R135) -/

/-- A BLEND burst of one side of a group. -/
def State.blendBurst (s : State) (access : Access) (group : Nat) (right : Bool) (data : List (Nat × Sample))
    (purpose : Purpose) : State :=
  s.request (burst .blend access (stereoWord 0 group right) data (s.deadlineIn 8) purpose)

/-- The writes at BLEND round position 0 (R133). -/
def State.blendWrites (s : State) : State :=
  match s.blend.ring.whole with
  | none => s
  | some (g, samples) =>
    let n := s.blend.ring.serial
    let marked := { s with blend.ring := s.blend.ring.writeRequested g }
    let left := marked.blendBurst .write g false (wholeSet (samples.map (fun x => x.left))) (.blendWrite n g false)
    left.blendBurst .write g true (wholeSet (samples.map (fun x => x.right))) (.blendWrite n g true)

/-- The groups a tap asks for at its turn, the ring having moved on by one position (R135). -/
def State.blendWants (s : State) (t : Tap) (delay : Int) : List Nat :=
  let q := back s.blendLength s.blend.ring.write (delay + 1)
  tapWants t.held s.blend.ring (following s.blendLength q 24)

/-- The read bursts of groups for a tap. -/
def State.blendReads (s : State) (tap : Nat) (groups : List Nat) : State :=
  groups.foldl (fun acc g =>
    (acc.blendBurst .read g false [] (.blendRead tap g false)).blendBurst .read g true [] (.blendRead tap g true)) s

/-- A tap with groups it has requested. -/
def Tap.asking (t : Tap) (groups : List Nat) : Tap := { t with held := t.held ++ groups.map HeldGroup.requested }

/-- The requests of the BLEND round position (R133, R135). -/
def State.blendTurn (s : State) : State :=
  match s.blend.round with
  | 0 => s.blendWrites
  | 2 =>
    let groups := s.blendWants s.blend.main s.effectiveDelay
    ({ s with blend.main := s.blend.main.asking groups }).blendReads s.blend.main.serial groups
  | 4 =>
    match s.blend.crossfade with
    | none => s
    | some x =>
      let groups := s.blendWants x.old x.delay
      ({ s with blend.crossfade := some { x with old := x.old.asking groups } }).blendReads x.old.serial groups
  | 6 =>
    if s.blend.correlator.phase = .notRunning then s
    else
      let tap := s.blend.correlator.tap
      let groups := s.blendWants tap s.correlationDelay
      ({ s with blend.correlator.tap := tap.asking groups }).blendReads tap.serial groups
  | _ => s

/-- One local sample of the blend engine (R133 to R136): in IDLE nothing but the round position moves. -/
def State.blendSample (s : State) : State :=
  let worked :=
    if s.blend.state = .idle ∨ s.blendLength = 0 then { s with blend.out := .zero } else s.blendWork.blendTurn
  { worked with blend.round := (s.blend.round + 1) % 8 }

/-! ## The result of an attempt (R142 to R144) -/

/-- A candidate's sum of products with the digital window, and its own sum of squares. -/
structure Score where
  product : Int
  energy : Int
  deriving DecidableEq, Repr, Inhabited

/-- The score of candidate j (from 0 for -2,048 to 4,095 for +2,047), at the time the result is formed: each digital mean meets the
sample that entered the history 2,048 + j places before the newest of its own local sample. That a slip since that sample was read
does not change the place is the model's choice (log 80). -/
def Correlator.score (c : Correlator) (j : Nat) : Score :=
  (c.digital.zip (c.analogue.drop (64 + j))).foldl (fun acc p =>
    { product := acc.product + p.1 * p.2, energy := acc.energy + p.2 * p.2 }) { product := 0, energy := 0 }

/-- The sum of squares of the digital window. -/
def Correlator.digitalEnergy (c : Correlator) : Int := c.digital.foldl (fun acc d => acc + d * d) 0

/-- The square of a normalised correlation with its sign, times the digital energy, as numerator and denominator: 0 where
a sum of squares is 0 (R142). -/
def Score.signedSquare (digital : Int) (x : Score) : Int × Int :=
  if digital = 0 ∨ x.energy = 0 then (0, 1) else (x.product.sign * x.product * x.product, x.energy)

/-- Whether one normalised correlation is higher than another. -/
def Score.higher (digital : Int) (x y : Score) : Bool :=
  let a := x.signedSquare digital
  let b := y.signedSquare digital
  decide (b.1 * a.2 < a.1 * b.2)

/-- The peak: the candidate of highest normalised correlation, the lowest where several share it (R142). -/
def peakOf (digital : Int) (scores : List Score) : Nat × Score :=
  scores.zipIdx.foldl (fun best p => if Score.higher digital p.1 best.2 then (p.2, p.1) else best)
    (0, scores.headD { product := 0, energy := 0 })

/-- Whether the normalised correlation is at least 0.6 (R142). -/
def Score.strong (digital : Int) (x : Score) : Bool :=
  decide (0 < digital ∧ 0 < x.energy ∧ 0 < x.product ∧ 9 * digital * x.energy ≤ 25 * x.product * x.product)

/-- Whether a strong peak's normalised correlation is above another's by at least 0.1 (R142): of x - y ≥ 0.1 with y above 0, the
squares 0.2 x ≤ x² - y² + 0.01 and again. -/
def Score.clears (digital : Int) (peak y : Score) : Bool :=
  if y.product ≤ 0 ∨ y.energy = 0 then true
  else
    let p := peak.product * peak.product * y.energy
    let q := y.product * y.product * peak.energy
    let m := digital * peak.energy * y.energy
    let r := 100 * p + m - 100 * q
    decide (0 ≤ r ∧ 400 * p * m ≤ r * r)

/-- The result of an attempt (R142): the peak where the agreement is clear. -/
def Correlator.result (c : Correlator) : Option Int :=
  let digital := c.digitalEnergy
  let scores := (List.range 4096).map c.score
  let (j, peak) := peakOf digital scores
  let clear := scores.zipIdx.all (fun p =>
    decide ((p.2 : Int) - j ≤ 16 ∧ (j : Int) - p.2 ≤ 16) || Score.clears digital peak p.1)
  if Score.strong digital peak && clear then some ((j : Int) - 2048) else none

/-- An attempt's window begins with the digital sample of this local sample (R142; ch 8.7). -/
def State.beginWindow (s : State) : State :=
  { s with blend.correlator.phase := .window, blend.correlator.done := 1,
           blend.correlator.digital := [stereoSum s.digitalSample] }

/-- Priming is done (R142). -/
def State.primingDone (s : State) : State :=
  if s.blend.correlator.phase = .priming ∧ 4096 ≤ s.blend.correlator.done then s.beginWindow else s

/-- A FOUND result (R143): the correction takes in the slip balance, the old tap begins where the main tap was, the
engine goes to TO_DIGITAL. The old tap keeps the groups that the main tap held or had requested, and the main tap begins with
none: the model's choice (log 63). -/
def State.found (s : State) (candidate correction : Int) : State :=
  let old : Crossfade := { old := s.blend.main, delay := s.effectiveDelay, weight := 0 }
  let b := (s.blend.renewMain).endCorrelator
  let aligned : Blend :=
    { b with crossfade := some old, correction := correction, valid := true, attempts := 0,
             last := .found candidate correction }
  ({ s with blend := aligned, ports.balance := 0 }).goBlend .toDigital .found

/-- A NOT_FOUND result (R144). -/
def State.notFound (s : State) : State :=
  let counted := { s with blend.attempts := s.blend.attempts + 1, blend.last := .notFound }
  if 3 ≤ counted.blend.attempts then
    let locked := ({ counted with blend := counted.blend.endCorrelator }).goBlend .lockout .notFound
    raise .blendAlignFailed [counted.blend.attempts] none locked
  else counted.beginWindow

/-- The result of an attempt is formed (R142 to R144). -/
def State.correlationResult (s : State) : State :=
  if s.blend.correlator.phase = .forming ∧ 64 ≤ s.blend.correlator.done then
    match s.blend.correlator.result with
    | some j =>
      let correction := j + s.ports.balance
      if -2048 ≤ correction ∧ correction ≤ 2047 then s.found j correction else s.notFound
    | none => s.notFound
  else s

/-- The weight of a tap crossfade has reached 1: the old tap stops (R143). -/
def State.crossfadeEnd (s : State) : State :=
  match s.blend.crossfade with
  | some x => if 480 ≤ x.weight then { s with blend.crossfade := none } else s
  | none => s

/-! ## Other ends of states (R139, R145, R147) -/

/-- The fill count has reached the effective delay in FILLING (R139). -/
def State.filled (s : State) : State :=
  if s.blend.state = .filling ∧ s.effectiveDelay ≤ s.blend.fill then s.goBlend .analogue .filled else s

/-- The mix fraction has reached 1 in TO_DIGITAL (R145). -/
def State.toDigitalComplete (s : State) : State :=
  if s.blend.state = .toDigital ∧ 2400 ≤ s.blend.mix then s.goBlend .digital .complete else s

/-- The mix fraction has reached 0 in TO_ANALOGUE (R147). -/
def State.toAnalogueComplete (s : State) : State :=
  if s.blend.state = .toAnalogue ∧ s.blend.mix = 0 then
    ({ s with blend.fast := false }).goBlend .analogue .complete
  else s

/-! ## Requests of the host and dormancy (R136 to R138) -/

/-- An enable in IDLE (R137): refused where the ring is too short. -/
def State.enableFromIdle (s : State) : State × Status :=
  if s.blendFits then
    let b := s.blend.clearRing.renewMain
    (({ s with blend := { b with attempts := 0 }, ports.balance := 0 }).goBlend .filling .enabled, .ok)
  else (s, .wrongState)

/-- Blend Enable (R137). -/
def State.blendEnable (s : State) : State × Status :=
  match s.blend.state with
  | .idle => s.enableFromIdle
  | .lockout => (({ s with blend.attempts := 0 }).goBlend .analogue .enabled, .ok)
  | _ => (s, .ok)

/-- Every tap and the correlator end with their requests, the output is silent and nothing is aligned (R137, R138). The last
result stands: the model's choice (log 73). -/
def Blend.endTaps (b : Blend) : Blend :=
  let ended := b.renewMain.endCorrelator
  { ended with crossfade := none, mix := 0, gain := 0, correction := 0, valid := false, out := .zero }

/-- Blend Disable (R137). -/
def State.blendDisable (s : State) : State :=
  if s.blend.state = .idle then s else ({ s with blend := s.blend.endTaps }).goBlend .idle .disabled

/-- Tuned (R138): refused in IDLE. -/
def State.tuned (s : State) : State × Status :=
  if s.blend.state = .idle then (s, .wrongState)
  else
    let b := s.blend.endTaps.clearRing
    (({ s with blend := { b with attempts := 0, fast := false }, ports.balance := 0 }).goBlend .filling .tuned, .ok)

/-- The enable of the record's autostart flag at the end of a reset (R137). -/
def State.autostart (s : State) : State :=
  match s.startUp.record with
  | some r => if r.autostart && s.blend.state == .idle then s.enableFromIdle.1 else s
  | none => s

/-- The engine on entry into DORMANT (R136): idle, with the values of a reset, no event. The last result stands (log 73). -/
def Blend.enterDormant (b : Blend) : Blend :=
  { Blend.reset with ring := .cleared (b.ring.serial + 1), nextTap := b.nextTap + 1,
                     main := { serial := b.nextTap, held := [] }, round := b.round, last := b.last }

end Sys2Proof.Machine
end

