-- ==== Sys2Proof/Machine/CallAudio.lean ====
section
/-! DEFINITION. The echo canceller's work on samples (R162 to R166): microphone sum, reference history, echo estimate, uplink,
adaptation, search and blocks. -/

namespace Sys2Proof.Machine

/-! ## Samples in (R162, R163) -/

/-- The microphones 0 to 3: the four channels of IN1 and IN2 (R72). -/
def Ports.microphone (p : Ports) (m : Nat) : Sample :=
  match m with
  | 0 => (p.inputs.getD 1 .zero).left
  | 1 => (p.inputs.getD 1 .zero).right
  | 2 => (p.inputs.getD 2 .zero).left
  | _ => (p.inputs.getD 2 .zero).right

/-- The microphone sum (R162): the selected microphones, limited to 24 bits; zero for an empty selection. -/
def State.microphoneSum (s : State) : Sample :=
  let selection : BitVec 4 := match s.inForce with
    | some r => r.microphones
    | none => 0
  limit24 ((List.range 4).foldl (fun acc m =>
    if selection.getLsbD m then acc + (s.ports.microphone m).toInt else acc) 0)

/-- The reference sample of this local sample (R163): zero where it is not valid or not handed. -/
def State.referenceSample (s : State) : Sample :=
  match s.call.servedReference with
  | some x => if (s.tables.entry x).isCarried then validSample (s.handed x 0) else 0
  | none => 0

/-- The positions of the history: the words of the ECHO space (R163). -/
def State.historyLength (s : State) : Nat := s.store.spaceOf .echo

/-- The delay of the read tap (R163). -/
def CallUnit.tapDelay (c : CallUnit) : Int := (c.bulkDelay : Int) + 1023

/-- Whether a position of the history is read as a zero of a hole or a gap (R163, R166). -/
def CallUnit.readsZero (c : CallUnit) (position : Nat) : Bool :=
  match c.tap.held.find? (fun h => h.group == position / 8) with
  | some h => h.left == .silent
  | none => c.history.hole (position / 8)

/-- The longest delay at which a coefficient takes a reference sample: bulk delay 4,800 and coefficient 1,023 (R162, R165). -/
def longestReference : Nat := 5824

/-- The reference is written into the history and the read tap feeds its window (R163). -/
def State.historySample (s : State) : State :=
  let length := s.historyLength
  let w := s.call.history.write
  let written := { s with call.history := s.call.history.push length { left := s.referenceSample, right := 0 },
                          call.references := (s.referenceSample.toInt :: s.call.references).take longestReference }
  let q := back length w s.call.tapDelay
  let x := (readHeld s.call.tap.held written.call.history q 9 s.localCount).left
  let kept := stillHeld s.call.tap.held (q :: following length q 24)
  { written with call.window := (x.toInt :: s.call.window).take 1024,
                 call.windowZeros := (written.call.readsZero q :: s.call.windowZeros).take 1024,
                 call.tap.held := kept }

/-! ## Samples out (R162) -/

/-- The sample that coefficient k multiplies, where w is the position written at this local sample: the k-th newest of the read
tap's window (R163), or the reference sample delayed by the bulk delay plus k, with zero for a hole (R162). Which of the two is
open (log 20). -/
def CallUnit.filterSample (c : CallUnit) (length w k : Nat) : Int :=
  if Config.filterReadsWindow then c.window.getD k 0
  else if c.history.hole (back length w ((c.bulkDelay : Int) + k) / 8) then 0
  else c.references.getD (c.bulkDelay + k) 0

/-- Whether a zero of a hole or a gap feeds the filter at this local sample (R163, R166): one in the read tap's window, or, where
the filter takes its samples at the delays of R162 (log 20), one at those delays. -/
def CallUnit.fedZero (c : CallUnit) (length w : Nat) : Bool :=
  c.windowZeros.any (fun z => z)
    || (!Config.filterReadsWindow
        && (List.range 1024).any (fun k => c.history.hole (back length w ((c.bulkDelay : Int) + k) / 8)))

/-- The echo estimate (R162): every coefficient, in steps of 2^-32, times its sample. -/
def CallUnit.estimate (c : CallUnit) (length w : Nat) : Int :=
  roundDiv ((c.coefficients.zipIdx.map (fun p => p.1 * c.filterSample length w p.2)).sum) gainOne

/-- The fallback gain follows the downlink's liveness (R162), by 480 steps. -/
def State.stepFallback (s : State) : State :=
  let live := s.servedDownlinkLive
  let turned :=
    if live = s.call.downlinkLive then s.call.fallback else s.call.fallback.toTarget (fallbackGain live)
  let stepped := turned.advance
  { s with call.fallback := if stepped.steps = 480 then .at stepped.target else stepped,
           call.downlinkLive := live }

/-- The uplink output by the canceller's state (R162). -/
def State.uplinkOutput (s : State) (microphone : Sample) (estimate : Int) : Sample :=
  match s.call.state with
  | .off => 0
  | .fallback => mixSamples [(microphone, s.call.fallback.current)]
  | _ => limit24 (microphone.toInt - estimate)

/-! ## Adaptation, search and blocks (R165, R166) -/

/-- Whether adaptation is made (R165). -/
def State.adapts (s : State) : Bool :=
  (s.call.state == .converging || s.call.state == .converged) && s.call.searchDone && s.call.freeze == 0
    && s.call.usable

/-- One adaptation of the coefficients (R165); the new values are open (log 17). -/
def CallUnit.adapt (c : CallUnit) (error : Int) : CallUnit :=
  { c with coefficients := c.coefficients.zipIdx.map (fun p => Config.adaptedCoefficient p.2 p.1 c.window error) }

/-- The search copies one sample in eight (R165). -/
def CallUnit.copySample (c : CallUnit) (reference microphone : Int) : CallUnit :=
  if c.state = .converging ∧ c.searchDone = false then
    if c.searchTick = 0 then { c with copies := (reference, microphone) :: c.copies, searchTick := 7 }
    else { c with searchTick := c.searchTick - 1 }
  else c

/-- The energy of a sample. -/
def energyOf (x : Int) : Nat := x.natAbs * x.natAbs

/-- One local sample counts towards the block (R166), where w is the position of the history written at it. -/
def CallUnit.countBlock (c : CallUnit) (length w : Nat) (reference microphone estimate output : Int) : CallUnit :=
  let b := c.block
  let counted : CancellerBlock :=
    { count := b.count + 1
      reference := b.reference + energyOf reference
      microphone := b.microphone + energyOf microphone
      estimate := b.estimate + energyOf estimate
      output := b.output + energyOf output
      unfrozen := b.unfrozen && c.freeze == 0
      whole := b.whole && !c.fedZero length w }
  { c with block := counted }

/-- Usability is tested (R164); in FALLBACK a usable reference brings CONVERGING. -/
def State.testReference (s : State) : State :=
  let tested := { s with call.usable := s.referenceUsable }
  if s.call.state = .fallback ∧ s.referenceUsable then tested.goCanceller .converging .referenceBack else tested

/-- One local sample of a canceller that is not OFF (R162 to R166). -/
def State.cancelSample (s : State) : State :=
  let heard := s.testReference.historySample.stepFallback
  let microphone := heard.call.microphone
  let length := s.historyLength
  let w := s.call.history.write
  let estimate := heard.call.estimate length w
  let out := heard.uplinkOutput microphone estimate
  let reference := heard.referenceSample.toInt
  let counted := (heard.call.countBlock length w reference microphone.toInt estimate out.toInt).copySample
    reference microphone.toInt
  let adapted := if heard.adapts then counted.adapt (microphone.toInt - estimate) else counted
  { heard with call := { adapted with uplink := out, freeze := adapted.freeze - 1 } }

/-! ## Requests (R163) -/

/-- The write at ECHO round position 0. -/
def State.echoWrite (s : State) : State :=
  match s.call.history.whole with
  | none => s
  | some (g, samples) =>
    let n := s.call.history.serial
    let marked := { s with call.history := s.call.history.writeRequested g }
    marked.request (burst .echo .write (g * 8) (wholeSet (samples.map (fun x => x.left))) (s.deadlineIn 8)
      (.echoWrite n g))

/-- The reads at ECHO round position 4. -/
def State.echoReads (s : State) : State :=
  let length := s.historyLength
  let q := back length s.call.history.write (s.call.tapDelay + 1)
  let groups := tapWants s.call.tap.held s.call.history (following length q 24)
  let n := s.call.history.serial
  groups.foldl (fun acc g => acc.request (burst .echo .read (g * 8) [] (s.deadlineIn 8) (.echoRead n g)))
    { s with call.tap.held := s.call.tap.held ++ groups.map HeldGroup.requested }

/-- The requests of the ECHO round position (R163). -/
def State.echoTurn (s : State) : State :=
  if s.call.round = 0 then s.echoWrite else if s.call.round = 4 then s.echoReads else s

/-- One local sample of the call unit (R162, R163): in OFF the microphone sum is formed and the round position moves; no block
is counted there, which is the model's choice (log 65). -/
def State.callSample (s : State) : State :=
  let summed := { s with call.microphone := s.microphoneSum }
  let worked :=
    if s.call.state = .off then { summed with call.uplink := 0, call.freeze := s.call.freeze - 1 }
    else summed.cancelSample.echoTurn
  { worked with call.round := (s.call.round + 1) % 8 }

/-! ## The end of a block (R165, R166) -/

/-- A mean power of -50 dB relative to full scale or more, over the 480 samples of a block (R166, log 19). -/
def loudEnough (energy : Nat) : Bool := decide (480 * (8388608 * 8388608) ≤ energy * 100000)

/-- One energy is at least 6 dB above another: 10^0.6 times, by fifth powers (R166). -/
def sixAbove (x y : Nat) : Bool := decide (1000 * y ^ 5 ≤ x ^ 5)

/-- Whether the far end was active in the block. -/
def CancellerBlock.farEnd (b : CancellerBlock) : Bool := loudEnough b.reference

/-- Whether near-end speech was present in the block. -/
def CancellerBlock.nearEnd (b : CancellerBlock) : Bool := loudEnough b.microphone && sixAbove b.microphone b.estimate

/-- Whether the block is measured. -/
def CallUnit.blockMeasured (c : CallUnit) : Bool :=
  c.block.farEnd && !c.block.nearEnd && c.block.unfrozen && c.block.whole && c.searchDone

/-- Whether a ratio of energies is at least e dB. -/
def ratioAtLeast (x y : Nat) (e : Int) : Bool :=
  if 0 ≤ e then decide (10 ^ e.toNat * y ^ 10 ≤ x ^ 10) else decide (y ^ 10 ≤ x ^ 10 * 10 ^ (-e).toNat)

/-- The whole decibels at or below a ratio of energies, between -20 and 60. -/
def wholeDecibels (x y : Nat) : Int :=
  (List.range 80).foldl (fun (acc : Int) (k : Nat) =>
    if ratioAtLeast x y ((k : Int) - 19) then (k : Int) - 19 else acc) (-20)

/-- A ratio of energies in decibels, as a step of the read-out between -20 and 60 (R166, R167): a ratio between two steps is one of
the two, and which of them is open (log 13). -/
def decibels (x y : Nat) : Int :=
  let e := wholeDecibels x y
  if ratioAtLeast x y e && !ratioAtLeast y x (-e) && Config.roundUp x y then min 60 (e + 1) else e

/-- The ERLE reported for a block, in whole decibels (R166, R167, log 19). -/
def CallUnit.blockErle (c : CallUnit) (count : Nat) : Int :=
  let b := c.block
  if c.blockMeasured ∧ b.microphone ≠ 0 ∧ b.output ≠ 0 then decibels b.microphone b.output
  else max (-20) (min 60 (Config.erleWithoutEnergy b.microphone b.output count))

/-- Whether the ERLE of a measured block is 20 dB or more (R166). -/
def CallUnit.erleHigh (c : CallUnit) (count : Nat) : Bool :=
  if c.block.microphone = 0 ∨ c.block.output = 0 then decide (20 ≤ c.blockErle count)
  else decide (100 * c.block.output ≤ c.block.microphone)

/-- Whether the ERLE of a measured block is below 6 dB (R166). -/
def CallUnit.erleLow (c : CallUnit) (count : Nat) : Bool :=
  if c.block.microphone = 0 ∨ c.block.output = 0 then decide (c.blockErle count < 6)
  else !(sixAbove c.block.microphone c.block.output)

/-- The freeze count rises to 480 if it stood lower (R166). -/
def CallUnit.freezeShort (c : CallUnit) : CallUnit :=
  if c.freeze < 480 then { c with freeze := 480, frozen := true } else c

/-- The search gathers blocks in which the far end is active; with 20 it sets the bulk delay (R165, log 18). -/
def CallUnit.gather (c : CallUnit) : CallUnit :=
  if c.searchDone = false ∧ c.block.farEnd then
    if 19 ≤ c.gathered then
      let delay := 32 + Config.searchPeak c.copies % 4769
      { c with gathered := 20, bulkDelay := max 32 (delay - 64), searchDone := true }
    else { c with gathered := c.gathered + 1 }
  else c

/-- CONVERGING at the end of a block (R165, R166). -/
def State.blockConverging (s : State) : State :=
  let c := s.call
  let run := if c.blockMeasured then (if c.erleHigh s.localCount then c.convergedRun + 1 else 0) else c.convergedRun
  let frozen := if c.block.farEnd && c.block.nearEnd then c.freezeShort else c
  let ran := { s with call := { frozen.gather with convergedRun := run } }
  if 50 ≤ run then ran.goCanceller .converged .erleHigh else ran

/-- CONVERGED at the end of a block (R166). -/
def State.blockConverged (s : State) : State :=
  let c := s.call
  if c.block.farEnd && c.block.nearEnd then s.goCanceller .doubleTalk .nearEnd
  else
    let run := if c.blockMeasured then (if c.erleLow s.localCount then c.lossRun + 1 else 0) else c.lossRun
    let ran := { s with call.lossRun := run }
    if 10 ≤ run then ran.discardCoefficients.goCanceller .converging .erleLow else ran

/-- DOUBLE_TALK at the end of a block (R166). -/
def State.blockDoubleTalk (s : State) : State :=
  let run := if s.call.block.nearEnd then 0 else s.call.quietRun + 1
  let ran := { s with call.quietRun := run }
  if 10 ≤ run then ran.goCanceller .converged .nearEndQuiet else ran

/-- The end of a block of 480 local samples (R166): it is judged, the state reacts, the next block begins. -/
def State.cancellerBlock (s : State) : State :=
  if 480 ≤ s.call.block.count then
    let c := s.call
    let judged : BlockJudgement :=
      { erle := c.blockErle s.localCount, farEnd := c.block.farEnd, nearEnd := c.block.nearEnd,
        measured := c.blockMeasured }
    let noted := { s with call.last := judged }
    let reacted := match c.state with
      | .converging => noted.blockConverging
      | .converged => noted.blockConverged
      | .doubleTalk => noted.blockDoubleTalk
      | _ => noted
    { reacted with call.block := .start }
  else s

/-- The freeze count has reached 0 (R163): adaptation resumes. -/
def State.freezeEnd (s : State) : State :=
  if s.call.frozen ∧ s.call.freeze = 0 then { s with call.frozen := false } else s

/-- The reference has ceased to be usable (R164). -/
def State.referenceLost (s : State) : State :=
  match s.call.state with
  | .off => s
  | .fallback => s
  | _ => if s.call.usable then s else s.goCanceller .fallback .referenceLost

end Sys2Proof.Machine
end

