-- ==== Sys2Proof/Machine/Notes.lean ====
section
/-! DEFINITION. The note unit's counts and the requests to it (chapter 10); what it does with messages stands in Queue.lean,
Station.lean and Messages.lean. -/

namespace Sys2Proof.Machine

/-- A FILLING box whose stall count has reached 512 becomes FREE (R171). -/
def State.noteStall (s : State) : State :=
  match s.note.box with
  | .filling sender _ _ stall _ =>
    if 512 ≤ stall then raise .noteDropped [sender] (some .stalled) { s with note.box := .free } else s
  | _ => s

/-- A FULL box whose expiry count has reached 48,000 becomes FREE (R171). -/
def State.noteExpiry (s : State) : State :=
  match s.note.box with
  | .full sender _ expiry _ =>
    if 48000 ≤ expiry then raise .noteExpired [sender] none { s with note.box := .free } else s
  | _ => s

/-- Whether the outbound buffer is SENDING. -/
def OutboundState.isSending : OutboundState → Bool
  | .sending _ => true
  | _ => false

/-- Put a note into the outbound buffer and hand its part 0 on (R173). -/
def State.beginNote (s : State) (target total : Nat) (data : List Byte) : State :=
  ({ s with note.outbound := { state := .sending 0, target := target, total := total, data := data, lastFailure := s.note.outbound.lastFailure } }).sendPart 0

/-- The bytes that a Note Read returns (R172). -/
def noteBytes (data : List Byte) (total offset count : Nat) : List Byte :=
  ((data.take total).drop offset).take count

/-- The queue entry or waiting message of the note unit's part. -/
def State.partEntry (s : State) : Option QueueEntry :=
  s.outgoing.find? (fun e => e.originator == Originator.noteUnit)

end Sys2Proof.Machine
end

