-- ==== Sys2Proof/Machine/LocalSample.lean ====
section
/-! DEFINITION. One local sample of every block (R65), in the order of log 21, and the refresh debts that are counted in local
samples (R89, R92). -/

namespace Sys2Proof.Machine

/-- The ports at a local sample (R72 to R77): inputs taken, decoder read, the slip notice handed before the sample. -/
def State.portSample (s : State) (i : InputSamples) : State :=
  let before := s.ports.balance
  let (ports, slip) := s.ports.sample i
  let read := { s with ports := ports }
  if slip = 0 then read else read.slipNotice before

/-- One local sample (R65): the ports, the zone mixer with the gate and the output pairs, the announce and cadence units,
the blend engine, the call unit. A DORMANT station takes none (R72, R184). -/
def State.localSample (s : State) (i : InputSamples) : State :=
  if s.member.station = .dormant then s
  else
    let taken := s.portSample i
    let gateStepped := { taken with follower := taken.follower.stepGate }
    let played := gateStepped.mixZones.playPairs
    let worked := played.announceSample.cadenceSample.blendSample.callSample
    { worked with store.refreshTick := worked.store.refreshTick + 1, localCount := worked.localCount + 1 }

/-- A bank whose debt has just reached 16 (R92): REFRESH_OVERDUE and the bank loss notice. -/
def State.overdue (s : State) (bank : Nat) : State := (raise .refreshOverdue [bank] none s).bankLost bank

/-- At every sixth local sample the debts rise (R89, R92). The arbiter acts where the rise makes a bank's refresh urgent; a
debt that only begins an ordinary refresh is none of the events at which it acts (R87). -/
def State.refreshDebtRise (s : State) : State :=
  if 6 ≤ s.store.refreshTick then
    let lost := s.store.reachingOverdue
    let risen := { s with store := { s.store.riseDebts with refreshTick := 0 } }
    let noticed := lost.foldl (fun acc b => acc.overdue b) risen
    if s.store.turnsUrgent then { noticed with store := noticed.store.arbitrate } else noticed
  else s

/-- A decoder sample arrives (R73, R77); a DORMANT station takes none. -/
def State.decoderArrives (s : State) (x : Stereo) (q : Quality) : State :=
  if s.member.station = .dormant then s
  else { s with ports := s.ports.arrive { sample := x, quality := q } }

end Sys2Proof.Machine
end

