-- ==== Sys2Proof/Machine/StartUp.lean ====
section
/-! DEFINITION. The start-up unit (R181, R182), the resets (R183), dormancy and waking (R184, R185). -/

namespace Sys2Proof.Machine

/-! ## The start-up record (R71, R82, R98, R117, R181, R182) -/

/-- Whether no two of a list are equal. -/
def allDistinct (xs : List Nat) : Bool :=
  match xs with
  | [] => true
  | x :: rest => !rest.contains x && allDistinct rest

/-- A zone definition's fields within Table 6-1. -/
def zoneInRange (d : ZoneDefinition) : Bool :=
  decide (d.id ≤ 15) && decide (1 ≤ d.pairs.length ∧ d.pairs.length ≤ 3) && decide (d.duckDepth ≤ 30)
    && d.pairs.all (fun o => decide (o.pair ≤ 5 ∧ o.delay ≤ 2400 ∧ o.trim ≤ 63))

/-- A region's fields within Table 5-3. -/
def regionInRange (g : Region) : Bool :=
  [1, 2, 4, 8].contains g.group && decide (g.firstBank ≤ 7) && g.firstBank % g.group == 0
    && decide (g.firstRow ≤ 511) && decide (g.group ≤ g.rows ∧ g.rows ≤ 4096) && g.rows % g.group == 0
    && decide (g.firstRow + g.rows / g.group ≤ 512)

/-- Whether two regions place a row in the same bank at the same bank row (R82). -/
def regionsMeet (g h : Region) : Bool :=
  decide (g.firstBank < h.firstBank + h.group ∧ h.firstBank < g.firstBank + g.group)
    && decide (g.firstRow < h.firstRow + h.rows / h.group ∧ h.firstRow < g.firstRow + g.rows / g.group)

/-- Whether no two regions of a plan meet. -/
def planDisjoint (regions : List Region) : Bool :=
  match regions with
  | [] => true
  | g :: rest => rest.all (fun h => !regionsMeet g h) && planDisjoint rest

/-- The rows that a nominal delay needs of the BLEND space (R82). -/
def blendRowsNeeded (nominalDelay : Nat) : Nat := (2 * (nominalDelay + 2368) + 255) / 256

/-- The region plan is consistent (R82). -/
def planConsistent (r : StartUpRecord) : Bool :=
  planDisjoint r.regions
    && (r.zones.all (fun d => d.pairs.isEmpty) || decide (120 ≤ rowsOfPlan r.regions .align))
    && (!r.roles.mics || decide (40 ≤ rowsOfPlan r.regions .echo))
    && (!r.roles.tuner || decide (blendRowsNeeded r.nominalDelay ≤ rowsOfPlan r.regions .blend))

/-- The zone definitions are consistent: no id and no output pair is given twice (R71, R98). -/
def zonesConsistent (r : StartUpRecord) : Bool :=
  allDistinct (r.zones.map (fun d => d.id)) && allDistinct (r.zones.flatMap (fun d => d.pairs.map (fun o => o.pair)))

/-- The autonomous routes are consistent (R117). -/
def routesConsistent (r : StartUpRecord) : Bool :=
  r.routes.all (fun t => r.zones.any (fun d => d.id == t.zone))
    && r.zones.all (fun d =>
      let streams := (r.routes.filter (fun t => t.zone == d.id)).map (fun t => t.stream)
      allDistinct streams && decide (streams.length ≤ 6))

/-- A binding's number within Table 3-5. -/
def bindingInRange : Binding → Bool
  | .input p => decide (p ≤ 3)
  | .zoneMix z => decide (z ≤ 15)
  | _ => true

/-- Whether a list of definitions defines a zone as OPEN. -/
def definesOpen (zones : List ZoneDefinition) (id : Nat) : Bool :=
  zones.any (fun d => d.id == id && d.kind == .openZone)

/-- A kind and binding allowed together by Table 3-5 at a station with these zones (R57, R182). -/
def bindingAllowed (zones : List ZoneDefinition) (b : Binding) (k : StreamKind) : Bool :=
  bindingAllows b k && (match b with
    | .zoneMix z => definesOpen zones z
    | _ => true)

/-- An autonomous offer is consistent (R182). -/
def offerConsistent (r : StartUpRecord) (o : AutonomousOffer) : Bool :=
  bindingAllowed r.zones o.binding o.kind
    && (!(o.kind == .voiceDownlink || o.kind == .voiceUplink) || (o.cls == 0 && o.channels == 1))
    && (o.binding != .uplink || r.roles.mics) && (o.binding != .blend || r.roles.tuner)

/-- The fields lie within Table 11-7. -/
def recordInRange (r : StartUpRecord) : Bool :=
  decide (r.station ≤ 15) && decide (r.zones.length ≤ 4) && r.zones.all zoneInRange
    && decide (r.regions.length ≤ 12) && r.regions.all regionInRange
    && decide (24000 ≤ r.nominalDelay ∧ r.nominalDelay ≤ 192000)
    && decide (r.offers.length ≤ 4)
    && r.offers.all (fun o => decide (o.index ≤ 3 ∧ 1 ≤ o.channels ∧ o.channels ≤ 8 ∧ o.cls ≤ 3)
        && bindingInRange o.binding)
    && decide (r.routes.length ≤ 8)
    && r.routes.all (fun t => decide (t.zone ≤ 15 ∧ t.stream ≤ 63 ∧ t.level ≤ 63))

/-- A record is valid (R181). -/
def recordValid (r : StartUpRecord) : Bool :=
  recordInRange r && planConsistent r && zonesConsistent r && routesConsistent r
    && r.offers.all (offerConsistent r) && allDistinct (r.offers.map (fun o => o.index))

/-- Whether the check of a record agrees with every byte before it (R181, Table 11-7; R8). -/
def checkAgrees (head following : List Byte) (check : BitVec 16) : Bool := crcBytes (head ++ following) == check

/-- What the read brought, judged (R181): the check over the bytes as read, the record length, then the fields. -/
def judgeRecord : RecordRead → Option StartUpRecord
  | .read head following check length fields =>
    if checkAgrees head following check && length == following.length then fields.filter recordValid else none
  | .noAcknowledge => none

/-! ## Setting up (R117, R181) -/

/-- Install one autonomous route: class not known, WAITING (R117). -/
def State.installRoute (s : State) (zones : List ZoneDefinition) (t : AutonomousRoute) : State :=
  match zones.findIdx? (fun d => d.id == t.zone) with
  | none => s
  | some z =>
    let e : RouteEntry := { stream := t.stream, cls := none, level := t.level, state := .waiting, ramp := .at 0,
                            age := s.mixer.nextAge }
    ({ s with mixer.nextAge := s.mixer.nextAge + 1 }).onZone z (fun v => { v with routes := placeRoute e v.routes })

/-- Set up the blocks from a valid record, in the order of R181: regions and retained banks, content report, zones and
routes, blend autostart. -/
def State.setUp (s : State) (r : StartUpRecord) : State :=
  let kept := s.store.retains
  let placed := { s with startUp.record := some r, startUp.reading := false, store.regions := r.regions,
                         store.retained := r.retained }
  let judged := placed.contentReport kept
  let routed := r.routes.foldl (fun acc t => acc.installRoute r.zones t) judged
  routed.autostart

/-- The I2C read of the record has ended (R181). No effect where none is under way. -/
def State.recordRead (s : State) (read : RecordRead) : State :=
  if s.startUp.reading then
    match judgeRecord read with
    | some r => (s.setUp r).goTo .listening .startUp
    | none =>
      let failed := { s with startUp.reading := false, startUp.record := none, store.regions := [],
                             store.retained := 0, member.cause := some .configInvalid }
      raise .stationChanged [stationCode .offline] (some .configInvalid)
        (raise .startUpFailed [] (some .configInvalid) failed)
  else s

/-! ## Resets (R94, R183) -/

/-- The event list after a reset: one RESET record with its cause (R183). -/
def resetEvents (cause : Cause) : List EventRecord :=
  [{ kind := .reset, subject := [], cause := some cause, stamp := 0 }]

/-- The announce unit after a reset that keeps the clip table (R118, R120, R124, R132). -/
def Announce.keptClips (a : Announce) : Announce :=
  { Announce.reset with clips := a.clips, loads := a.loads, nextLoad := a.nextLoad, nextPlay := a.nextPlay }

/-- Application of power (R183): nothing is kept; the record is read. The model's own counts and the queue go on. -/
def State.powerOn (s : State) : State :=
  { State.reset with pending := s.pending, localCount := s.localCount, store.lossEvents := s.store.lossEvents }

/-- The retained banks in force: none while no valid record is (R94). -/
def State.storeInForce (s : State) : Store :=
  if s.member.station = .offline then { s.store with retained := 0 } else s.store

/-- Assertion of the reset pin (R94): retention begins and lasts while the pin is held. -/
def State.assertPin (s : State) : State :=
  if s.store.pinHeld then s else { s with store := { s.storeInForce.retain with pinHeld := true } }

/-- A reset that keeps the retained banks and the clip table (R183), with its events. -/
def State.keepingReset (s : State) (cause : Cause) : State :=
  { State.reset with pending := s.pending, localCount := s.localCount, store := s.store.afterReset,
                     announce := s.announce.keptClips, host.events := resetEvents cause }

/-- Release of the reset pin (R183): the record is read afresh. -/
def State.resetLine (s : State) : State := s.assertPin.keepingReset .resetLine

/-- A WAKE (R183, R185): the kept image is set up and the station goes to LISTENING. -/
def State.wake (s : State) (cause : Cause) (stayAwake : Bool) : State :=
  match s.startUp.record with
  | none => s
  | some r =>
    let reset := { s.keepingReset cause with host.stayAwake := stayAwake, host.shifted := s.host.shifted }
    (reset.setUp r).goTo .listening .startUp

/-- A FRAME START seen (R3, R22, R185): it wakes a DORMANT station, which then treats it as seen; the first frame read is the
next whole one (log 40). -/
def State.startSeen (s : State) (inWindow : Bool) : State :=
  if s.member.station = .dormant then
    let seen := (s.wake .wakeStart false).start false false
    { seen with line.phase := .unread }
  else s.start false inWindow

/-! ## Dormancy (R184) -/

/-- Whether the station enters DORMANT now (R184). -/
def State.fallsAsleep (s : State) : Bool :=
  s.member.station != .offline && s.member.station != .dormant && decide (48000 ≤ s.line.silentCount)
    && !s.host.stayAwake

/-- The line interface of a DORMANT station: nothing driven, nothing read. That its lead flag is clear is the model's choice (log
76). -/
def LineInterface.asleep (l : LineInterface) : LineInterface :=
  { l with phase := .over, field := .unseen, sent := none, vetoing := .none, lead := false, lineSamples := [],
           driven := List.replicate 40 none }

/-- The clock follower and the gate on entry into DORMANT (R65, R69). -/
def State.followerAsleep (s : State) : State :=
  let freed := if s.follower.state = .freeRun then s else s.follow .freeRun .dormant
  { freed with follower.gate := .shut, follower.gain := 0 }

/-- The canceller on entry into DORMANT (R161): OFF, its coefficients discarded, and its bulk delay 32 (log 81). -/
def State.cancellerAsleep (s : State) : State :=
  let off := ({ s with call.state := .off, call.served := none, call.servedReference := none }).discardCoefficients
  { off.restartBlocks with call.bulkDelay := 32, call.uplink := 0 }

/-- Entry into DORMANT (R184): each block makes its part, then the events and the response are emptied. -/
def State.enterDormant (s : State) : State :=
  if s.fallsAsleep then
    let gone := s.goTo .dormant .silentLine
    let announced := (gone.emptyLoads).stopCadences
    let silenced := (announced.followerAsleep).cancellerAsleep
    { silenced with
      line := silenced.line.asleep
      store := silenced.store.retain
      announce := { silenced.announce with plays := List.replicate 4 none, out := 0 }
      mixer := { silenced.mixer with zones := List.replicate 4 .reset }
      ports := { silenced.ports.enterDormant with outputs := List.replicate 6 .zero }
      blend := silenced.blend.enterDormant
      note := .reset
      host := { silenced.host with events := [], response := none } }
  else s

end Sys2Proof.Machine
end

