-- ==== Sys2Proof/Machine/Settle.lean ====
section
/-! DEFINITION. What is due: a pass over every row that falls due by itself, and the frames in which commands act (log 1, 6). -/

namespace Sys2Proof.Machine

/-- An autonomous offer's carry retry count has reached 0 (R182): a new AUTO CLAIM in MEMBER while the stream is still
OFFERED. -/
def State.carryRetry (s : State) (i : Nat) : State :=
  let c := s.startUp.carryRetry.getD i { count := 0, armed := false }
  if c.armed && c.count == 0 then
    let spent := { s with startUp.carryRetry := s.startUp.carryRetry.set i { count := 0, armed := false } }
    if s.member.station = .member ∧ (s.tables.entry (s.ownStream i)).isOffered then
      spent.send (newEntry (.claim (BitVec.ofNat 8 i) 0) .startUp true none)
    else spent
  else s

/-- The ramps of a zone that have ended. -/
def State.endRamps (s : State) (z : Nat) : State :=
  ((s.zone z).routes.foldl (fun acc e => acc.endEntryRamp z e.stream) s).endPositionRamp z

/-- What is due on the line side (chapters 1 to 4, 9, 10, 11), in a fixed order (log 1). -/
def State.settleLine (s : State) : State :=
  let aged := forEach 40 (fun i acc => acc.freeSlot i) (forEach 16 (fun n acc => acc.agedOut n) s)
  let counted := aged.readyEntries.presenceFallsDue.noteStall.noteExpiry.uplinkRetry
  let retried := forEach 4 (fun i acc => acc.carryRetry i) counted
  retried.silenceEnded.selfVetoDue.listenEnd.lineSilent.enterDormant

/-- What is due in the blocks that count local samples (chapters 4 to 9), in a fixed order (log 1). -/
def State.settleBlocks (s : State) : State :=
  let played := forEach 4 (fun p acc => acc.playCompleted p) s.refreshDebtRise.cadencePass
  let ramped := forEach 4 (fun z acc => acc.endRamps z) played.endGateRamp
  let blended := ramped.filled.primingDone.correlationResult.crossfadeEnd.toDigitalComplete.toAnalogueComplete
  blended.qualityBlock.arrivalGap.referenceLost.cancellerBlock.freezeEnd

/-- Everything that is due is done (log 1). -/
def State.settle (s : State) : State := s.settleLine.settleBlocks

/-- A command from outside acts: what is due is done first, and a keep-up flag that is set once the timer is expired leads
at once (R3). Nothing acts while the reset pin is held (log 6). -/
def State.act (s : State) (f : State → State) : State :=
  if s.store.pinHeld then s else (f s.settle).keepUpStart

/-- A row that falls due by itself acts: it has no effect unless it is due (log 2). -/
def State.fallDue (s : State) (f : State → State) : State :=
  if s.store.pinHeld then s else (f s).keepUpStart

end Sys2Proof.Machine
end

