-- ==== Sys2Proof/Machine/HostPort.lean ====
section
/-! DEFINITION. The exchange of the host port (R176 to R178) and the results of the requests that read (R177). -/

namespace Sys2Proof.Machine

/-! ## The exchange -/

/-- A transfer shifts out the response held, or an empty one, and leaves the buffer EMPTY (R176). That every transfer is long enough
for the whole response is the model's choice (log 83). -/
def State.shiftOut (s : State) : State :=
  { s with host.shifted := (s.host.response.getD emptyResponse).bytes, host.response := none }

/-- Place a response; the one held is replaced (R176). A response with an error has no results. -/
def State.respond (s : State) (code : Nat) (status : Status) (results : List Byte) : State :=
  { s with host.response := some { code := BitVec.ofNat 8 code, status := status,
                                   results := if status = .ok then results else [] } }

/-- What a request comes to: the state after it, its status and its results. -/
abbrev Answer := State × Status × List Byte

/-- An answer without results. -/
def plain (a : State × Status) : Answer := (a.1, a.2, [])

/-- A refusal. -/
def State.refuse (s : State) (status : Status) : Answer := (s, status, [])

/-- An answer that reads. -/
def State.tellHost (s : State) (results : List Byte) : Answer := (s, .ok, results)

/-- The requests answered in OFFLINE: Get Info, Get Status, Read Events (R178). -/
def answeredOffline (code : Nat) : Bool := code == 1 || code == 2 || code == 40

/-- How a taken request is dealt with, by station state (R178). -/
def State.deal (s : State) (code : Nat) (f : State → Answer) : Answer :=
  match s.member.station with
  | .dormant => s.refuse .dormant
  | .offline => if answeredOffline code then f s else s.refuse .wrongState
  | _ => f s

/-- A transfer that carries a request (R176): the old response goes out, the request is taken, its response is placed. -/
def State.exchange (s : State) (code : Nat) (f : State → Answer) : State :=
  let a := s.shiftOut.deal code f
  a.1.respond code a.2.1 a.2.2

/-- A request with a range check, which comes before everything else (R178). -/
def checked (inRange : Bool) (f : State → Answer) (s : State) : Answer :=
  if inRange then f s else s.refuse .badParameter

/-- The checks of the requests that queue a message (R61): MEMBER, else WRONG_STATE in LEAVING and NOT_MEMBER
elsewhere. -/
def State.asMember (s : State) (f : State → Answer) : Answer :=
  match s.member.station with
  | .member => f s
  | .leaving => s.refuse .wrongState
  | _ => s.refuse .notMember

/-- Queue a host-originated message, refused with QUEUE_FULL where 8 entries are held (R18). -/
def State.queueHost (s : State) (m : Message) (auto : Bool) (companion : Option Binding) : Answer :=
  if s.queueFull then s.refuse .queueFull else ((s.enter (newEntry m .host auto companion)), .ok, [])

/-! ## Items (R177) -/

/-- A gain in steps of 2^-32 as its count of steps of 1/65,536 (R116, R167). -/
def gainBytes (g : Gain) : List Byte := inBytes 3 (roundDiv g 65536).toNat

/-- A fraction as its count of steps of 1/65,536 (R149). -/
def fractionBytes (num den : Nat) : List Byte := inBytes 3 (roundDiv (num * 65536) den).toNat

/-- A cause as an item that may be none (R177, R180). -/
def causeBytes (c : Option Cause) : List Byte := optional 1 (c.map (fun k => causeCode (some k)))

/-- A 24-bit item that may be absent. -/
def optional3 (v : Option Nat) : List Byte := optional 3 v

/-! ## Get Info and Get Status (R78, R97, R179) -/

/-- The FOLLOWER item, Table 4-4. -/
def State.followerItem (s : State) : List Byte :=
  inBytes 1 (followerCode s.follower.state) ++ inBytes 2 s.follower.onTime ++ inBytes 2 (min 65535 s.follower.miss)
    ++ flag s.line.lead ++ inBytes 2 (min 65535 s.line.silentCount)
    ++ inBytes 1 (gateCode s.follower.gate) ++ inBytes 2 s.follower.gain
    ++ inBytes 1 s.ports.buffer.length ++ flag s.ports.reading ++ signed 2 s.ports.balance
    ++ inBytes 1 (qualityCode s.ports.lastQuality) ++ inBytes 2 (min 65535 s.ports.arrivalGap)

/-- The open or opening row of a bank. -/
def BankState.row : BankState → Option Nat
  | .opening r => some r
  | .open r => some r
  | _ => none

/-- The STORE item, Table 5-8. -/
def Store.item (st : Store) : List Byte :=
  ((List.range 8).flatMap (fun b =>
      let k := st.bank b
      inBytes 1 (bankCode k.state) ++ optional 2 k.state.row ++ flag k.burst.isSome ++ inBytes 1 k.debt
        ++ flag k.urgent ++ flag (st.retains b)))
    ++ inBytes 1 st.budget ++ inBytes 1 st.allowance ++ inBytes 2 (st.frames.toNat % 65536)
    ++ (st.queues.flatMap (fun q => inBytes 1 q.length)) ++ (st.gaps.flatMap (fun g => inBytes 2 g))
    ++ inBytes 2 st.overdue
    ++ listed st.regions (fun g => inBytes 1 (clientCode g.client) ++ inBytes 1 g.group ++ inBytes 1 g.firstBank
        ++ inBytes 2 g.firstRow ++ inBytes 2 g.rows)

/-- The ROSTER item (R179): the present entries, by number. -/
def LineTables.rosterItem (t : LineTables) : List Byte :=
  listed ((List.range 16).filter (fun n => (t.station n).present)) (fun n =>
    let e := t.station n
    inBytes 1 n ++ [rolesByte e.roles] ++ inBytes 2 e.zones.toNat ++ inBytes 2 e.privateZones.toNat
      ++ inBytes 5 (t.ownedSlots n).toNat ++ inBytes 2 e.age ++ optional 4 (e.serial.map (fun x => x.toNat)))

/-- The STATION item (R179). -/
def stationItem (r : StartUpRecord) : List Byte :=
  inBytes 1 r.station ++ inBytes 4 r.serial.toNat ++ [rolesByte r.roles]

/-- The ZONES item (R179). -/
def zonesItem (r : StartUpRecord) : List Byte :=
  listed r.zones (fun d => inBytes 1 d.id ++ inBytes 1 (zoneKindCode d.kind))

/-- Whether an item of Get Info is in the information set (R179): selected, and not left out while OFFLINE. -/
def State.gives (s : State) (selection : Byte) (item : Nat) : Bool :=
  selection.getLsbD item && (s.inForce.isSome || item == 1 || item == 2 || item == 5)

/-- An item of Get Info, in the order of the selection set: STATION, STATE, FOLLOWER, ROSTER, ZONES, STORE. While no record is
in force no bank is retained (R94, R97). -/
def State.infoItem (s : State) (item : Nat) : List Byte :=
  match item, s.inForce with
  | 0, some r => stationItem r
  | 1, _ => inBytes 1 (stationCode s.member.station) ++ causeBytes s.member.cause
  | 2, _ => s.followerItem
  | 3, some _ => s.tables.rosterItem
  | 4, some r => zonesItem r
  | 5, _ => s.storeInForce.item
  | _, _ => []

/-- The results of Get Info (R179). -/
def State.infoResults (s : State) (selection : Byte) : List Byte :=
  let given := (List.range 6).filter (s.gives selection)
  inBytes 1 (given.foldl (fun acc i => acc + 2 ^ i) 0) ++ given.flatMap s.infoItem

/-- The results of Get Status (R179). -/
def State.statusResults (s : State) : List Byte :=
  inBytes 1 (stationCode s.member.station) ++ causeBytes s.member.cause ++ flag s.line.lead ++ flag s.keepUp
    ++ flag s.host.stayAwake ++ inBytes 2 s.member.undamaged ++ inBytes 1 s.tables.completeEntries
    ++ inBytes 1 s.line.queue.length ++ inBytes 1 s.host.events.length

/-! ## Directory, slots, zones (R64, R116) -/

/-- The binding record of an own stream id; absent for another. -/
def State.bindingItem (s : State) (x : Nat) : List Byte :=
  match (if x / 4 = s.number then s.line.bindings.getD (x % 4) none else none) with
  | some b => bindingBytes b
  | none => [255, 255]

/-- A directory entry as Read Directory returns it (R64). -/
def State.directoryItem (s : State) (x : Nat) : List Byte :=
  let e := s.tables.entry x
  let p := e.parameters
  inBytes 1 e.code ++ optional 1 (p.map (fun p => kindCode p.kind)) ++ optional 1 (p.map (fun p => p.channels))
    ++ optional 1 (p.map (fun p => p.cls))
    ++ optional 1 (match e with
        | .carried _ f => some f
        | _ => none)
    ++ s.bindingItem x

/-- The results of Read Directory (R64): it stops after stream id 63. -/
def State.directoryResults (s : State) (first count : Nat) : List Byte :=
  listed ((List.range 64).filter (fun x => decide (first ≤ x ∧ x < first + count))) s.directoryItem

/-- A slot as Read Slots returns it (R64). -/
def slotItem (e : Slot) : List Byte :=
  match e with
  | .free => [0, 255, 255]
  | .owned x => [1] ++ inBytes 1 x ++ [255]
  | .held n => [2, 255] ++ inBytes 1 n

/-- The results of Read Slots (R64). -/
def LineTables.slotResults (t : LineTables) : List Byte := t.slots.flatMap slotItem

/-- A route entry as Read Zone returns it (Table 6-3). -/
def routeItem (e : RouteEntry) : List Byte :=
  inBytes 1 e.stream ++ optional 1 e.cls ++ inBytes 1 e.level ++ inBytes 1 (routeStateCode e.state)
    ++ gainBytes e.ramp.current ++ gainBytes e.ramp.target

/-- An output pair as Read Zone returns it (Table 6-3). -/
def State.pathItem (s : State) (o : OutputPair) : List Byte :=
  let r := (s.path o.pair).ring
  inBytes 1 o.pair ++ inBytes 2 o.delay ++ inBytes 1 o.trim ++ inBytes 2 r.write ++ inBytes 2 (320 - r.clean.length)

/-- A zone definition as Read Zone returns it (Table 6-1). -/
def definitionItem (d : ZoneDefinition) : List Byte :=
  inBytes 1 d.id ++ inBytes 1 (zoneKindCode d.kind)
    ++ listed d.pairs (fun o => inBytes 1 o.pair ++ inBytes 2 o.delay ++ inBytes 1 o.trim)
    ++ inBytes 1 d.duckDepth ++ inBytes 1 (policyCode d.policy1) ++ inBytes 1 (policyCode d.policy2)
    ++ inBytes 1 (policyCode d.policy3)

/-- The results of Read Zone for the zone at a place (R116, Table 6-3). -/
def State.zoneResults (s : State) (z : Nat) (d : ZoneDefinition) : List Byte :=
  let v := s.zone z
  definitionItem d ++ optional 1 v.dominant ++ listed v.routes routeItem
    ++ inBytes 1 (positionCode v.position.state) ++ optional 1 v.position.downlink ++ optional 1 v.position.record
    ++ gainBytes v.position.ramp.current ++ listed d.pairs s.pathItem

/-! ## Clips and cadences (R123, R132) -/

/-- A clip as Clip Status returns it (R123). -/
def State.clipItem (s : State) (i : Nat) : List Byte :=
  let c := s.clip i
  let there (v : Nat) : Option Nat := if c.state = .empty then none else some v
  let loading (v : Nat) : Option Nat := if c.state = .loading then some v else none
  inBytes 1 (clipCode c.state) ++ optional3 (there c.offset) ++ optional3 (there c.length)
    ++ optional3 (loading c.received) ++ optional3 (loading c.written)
    ++ inBytes 1 (s.announce.plays.filter (fun p => match p with
        | some play => play.clip == i
        | none => false)).length

/-- The results of Clip Status (R123): it stops after clip 31. -/
def State.clipResults (s : State) (first count : Nat) : List Byte :=
  listed ((List.range 32).filter (fun i => decide (first ≤ i ∧ i < first + count))) s.clipItem

/-- A value of a role's field, absent for another role. -/
def whenRole (role : Bool) (width v : Nat) : List Byte := optional width (if role then some v else none)

/-- A flag as a number. -/
def flagNumber (b : Bool) : Nat := if b then 1 else 0

/-- The results of Read Cadence (R132, Table 7-4). -/
def State.cadenceResults (s : State) (c : Nat) : List Byte :=
  let k := s.channel c
  let leads := k.role == .leader
  let (role, leader) := match k.role with
    | .off => (0, none)
    | .leader => (1, none)
    | .follower l => (2, some l)
  let follows := leader.isSome
  inBytes 1 role ++ optional 1 leader
    ++ whenRole leads 3 k.activePeriod ++ whenRole leads 3 k.stagedPeriod
    ++ whenRole leads 1 k.activeRepetitions ++ whenRole leads 1 k.stagedRepetitions ++ whenRole leads 1 k.done
    ++ whenRole leads 3 k.time ++ whenRole leads 1 (flagNumber k.trigger) ++ whenRole leads 1 (flagNumber k.running)
    ++ whenRole follows 3 k.activeDelay ++ whenRole follows 3 k.stagedDelay
    ++ whenRole follows 1 k.activeClip ++ whenRole follows 1 k.stagedClip ++ whenRole follows 1 k.level
    ++ whenRole follows 3 k.remaining ++ whenRole follows 1 (flagNumber k.counting)
    ++ whenRole follows 1 (flagNumber k.missed)
    ++ whenRole leads 1 ((s.followersOf c).foldl (fun acc f => acc + 2 ^ f) 0)

/-! ## Radio and calls (R149, R158, R167) -/

/-- The last result of the correlator (R177, Table 8-3): none is all ones; FOUND and NOT_FOUND go by their places in R142. -/
def CorrelationOutcome.item : CorrelationOutcome → List Byte
  | .none => [255, 255, 255, 255, 255]
  | .found j d => [0] ++ signed 2 j ++ signed 2 d
  | .notFound => [1, 255, 255, 255, 255]

/-- The results of Read Blend (R149, Table 8-3). A correlator that does not run has done 0 local samples (log 23). -/
def State.blendResults (s : State) : List Byte :=
  let b := s.blend
  inBytes 1 (blendCode b.state) ++ fractionBytes b.mix 2400 ++ fractionBytes b.gain 480 ++ flag b.fast
    ++ inBytes 3 s.nominalDelay ++ signed 2 b.correction ++ flag b.valid ++ signed 2 s.ports.balance
    ++ signed 3 s.effectiveDelay ++ inBytes 3 s.blendLength ++ inBytes 3 b.fill
    ++ (match b.crossfade with
        | some x => fractionBytes x.weight 480 ++ signed 3 x.delay
        | none => List.replicate 6 255)
    ++ inBytes 1 b.attempts ++ inBytes 1 (correlatorCode b.correlator.phase) ++ inBytes 2 b.correlator.done
    ++ b.last.item ++ inBytes 1 b.goodRun ++ inBytes 1 b.poorRun
    ++ inBytes 3 (s.blendLength / 8 - b.ring.clean.length)

/-- A call record as Read Calls returns it (R158). -/
def State.callItem (s : State) (j : Nat) : List Byte :=
  let c := s.tables.call j
  inBytes 1 (callCode c.state) ++ optional 1 c.owner ++ optional 1 c.downlink ++ optional 1 c.uplink
    ++ optional 1 c.reference ++ optional 1 c.mic ++ inBytes 2 c.zones.toNat
    ++ flag (c.owner == some s.number) ++ flag (c.mic == some s.number)

/-- The results of Read Canceller (R167, Table 9-6). -/
def State.cancellerResults (s : State) : List Byte :=
  let c := s.call
  inBytes 1 (cancellerCode c.state) ++ optional 1 c.served ++ optional 1 c.servedReference
    ++ flag s.referenceUsable ++ inBytes 1 (min 48 c.notValidRun)
    ++ flag c.searchDone ++ optional 1 (if c.searchDone then none else some c.gathered)
    ++ inBytes 2 c.bulkDelay ++ inBytes 2 c.freeze
    ++ signed 1 c.last.erle ++ flag c.last.farEnd ++ flag c.last.nearEnd ++ flag c.last.measured
    ++ inBytes 1 c.convergedRun ++ inBytes 1 c.lossRun ++ inBytes 1 c.quietRun ++ gainBytes c.fallback.current
    ++ optional 1 s.demandedUplink ++ optional 1 (s.demandedUplink.map (fun u => (s.tables.entry u).code))
    ++ flag (s.hasOutgoing .callUnit (fun _ => true)) ++ inBytes 1 c.retry
    ++ inBytes 3 s.historyLength ++ inBytes 3 (s.historyLength / 8 - c.history.clean.length)

/-! ## Notes (R175) -/

/-- The inbound box as Note Status returns it. -/
def NoteBox.item : NoteBox → List Byte
  | .free => [0, 255, 255, 255, 255, 255, 255, 255, 255]
  | .filling sender total next stall _ =>
    [1] ++ inBytes 1 sender ++ inBytes 2 total ++ inBytes 1 next ++ inBytes 2 stall ++ [255, 255]
  | .full sender total expiry _ => [2] ++ inBytes 1 sender ++ inBytes 2 total ++ [255, 255, 255] ++ inBytes 2 expiry

/-- The code of a state of the outbound buffer, with its part. -/
def OutboundState.codes : OutboundState → Nat × Option Nat
  | .idle => (0, none)
  | .sending k => (1, some k)
  | .done => (2, none)
  | .failed => (3, none)

/-- The results of Note Status (R175). The cause of the last failure is returned in every state of the buffer. That target and
total length are absent in IDLE, and veto count and hold count outside SENDING, is the model's choice (log 82). -/
def State.noteResults (s : State) : List Byte :=
  let o := s.note.outbound
  let (code, part) := o.state.codes
  let there (v : Nat) : Option Nat := if code = 0 then none else some v
  s.note.box.item ++ inBytes 1 code ++ optional 1 (there o.target) ++ optional 2 (there o.total) ++ optional 1 part
    ++ optional 1 (s.partEntry.map (fun e => e.vetoes)) ++ optional 1 (s.partEntry.map (fun e => e.hold))
    ++ causeBytes o.lastFailure

end Sys2Proof.Machine
end

