-- ==== Sys2Proof/Machine/StationRequests.lean ====
section
/-! DEFINITION. The commands of the host port (Table 11-4), areas Station, Streams, Zones and Events, with transfers that carry no
request to be taken (R176). -/

namespace Sys2Proof.Machine

/-- A request of the host with its code: what is due is done, the transfer shifts out the old response, the request is
dealt with and its response placed (R176). -/
def State.hostCommand (s : State) (code : Nat) (f : State → Answer) : Host.Outcome State Fault Refusal :=
  .next (s.act (fun t => t.exchange code f))

/-! ## Station (R43, R44, R179, R185) -/

/-- Get Info (R179). The selection set has members 0 to 5 (log 35). -/
def execGetInfo (selection : Byte) (s : State) : Host.Outcome State Fault Refusal :=
  s.hostCommand 1 (checked (decide (selection.toNat < 64)) (fun t => t.tellHost (t.infoResults selection)))

/-- Get Status (R179). -/
def execGetStatus (s : State) : Host.Outcome State Fault Refusal :=
  s.hostCommand 2 (fun t => t.tellHost t.statusResults)

/-- The LEAVE is queued and the station goes to LEAVING (R43). -/
def State.leaveLine (s : State) : Answer :=
  if s.queueFull then s.refuse .queueFull
  else ((s.enter (newEntry .leave .host false none)).goTo .leaving .leaveRequested, .ok, [])

/-- Leave Line (R43). -/
def execLeaveLine (s : State) : Host.Outcome State Fault Refusal :=
  s.hostCommand 3 (fun t => t.asMember State.leaveLine)

/-- Rejoin (R44). -/
def State.rejoin (s : State) : Answer :=
  match s.member.station with
  | .detached => (s.goTo .listening .rejoin, .ok, [])
  | .silenced => (s.goTo .listening .rejoin, .ok, [])
  | _ => s.refuse .wrongState

/-- Rejoin (R44). -/
def execRejoin (s : State) : Host.Outcome State Fault Refusal := s.hostCommand 4 State.rejoin

/-- A flag parameter is 0 or 1 (R177, log 35). -/
def flagInRange (b : Byte) : Bool := decide (b.toNat ≤ 1)

/-- Stay Awake (R179). -/
def execStayAwake (flag : Byte) (s : State) : Host.Outcome State Fault Refusal :=
  s.hostCommand 5 (checked (flagInRange flag) (fun t => ({ t with host.stayAwake := flag == 1 }, .ok, [])))

/-- The Wake request (R178, R185): it is the one request that DORMANT takes. -/
def State.wakeRequest (s : State) (flag : Byte) : State :=
  match s.member.station with
  | .dormant =>
    if flagInRange flag then (s.wake .wakeRequest (flag == 1)).respond 6 .ok [] else s.respond 6 .badParameter []
  | .offline => s.respond 6 .wrongState []
  | _ => s.respond 6 (if flagInRange flag then .wrongState else .badParameter) []

/-- Wake (R185). -/
def execWake (flag : Byte) (s : State) : Host.Outcome State Fault Refusal :=
  .next (s.act (fun t => t.shiftOut.wakeRequest flag))

/-! ## Streams (R57, R61 to R64) -/

/-- The parameters of Offer Stream within their ranges (R61). -/
def offerInRange (index kind channels cls : Byte) : Bool :=
  decide (index.toNat ≤ 3) && decide (kind.toNat ≤ 4) && decide (1 ≤ channels.toNat ∧ channels.toNat ≤ 8)
    && decide (cls.toNat ≤ 3)

/-- Offer Stream in MEMBER: the binding is checked, then the OFFER is queued with its companion (R57, R61). -/
def State.offerOwn (s : State) (index kind channels cls : Byte) (b : Binding) : Answer :=
  match kindOf kind.toNat with
  | none => s.refuse .badParameter
  | some k =>
    if bindingAllowed s.definitions b k then s.queueHost (.offer index kind channels cls) false (some b)
    else s.refuse .badBinding

/-- Offer Stream (R61). -/
def execOfferStream (index kind channels cls binding bindingNumber : Byte) (s : State) :
    Host.Outcome State Fault Refusal :=
  s.hostCommand 7 (checked (offerInRange index kind channels cls && (bindingOf binding bindingNumber).isSome)
    (fun t => t.asMember (fun u =>
      u.offerOwn index kind channels cls ((bindingOf binding bindingNumber).getD .blend))))

/-- Whether an AUTO claim of an own stream finds no run now (R62). -/
def State.autoHasNoRoom (s : State) (i : Nat) : Bool :=
  match s.tables.entry (s.ownStream i) with
  | .offered p => (s.tables.chooseRun p.channels p.cls).isNone
  | _ => false

/-- Carry Stream in MEMBER (R62): 255 is AUTO (R177). -/
def State.carryOwn (s : State) (index first : Byte) : Answer :=
  if first = 255 then
    if s.autoHasNoRoom index.toNat then s.refuse .noRoom else s.queueHost (.claim index 0) true none
  else s.queueHost (.claim index first) false none

/-- Carry Stream (R62). -/
def execCarryStream (index first : Byte) (s : State) : Host.Outcome State Fault Refusal :=
  s.hostCommand 8 (checked (decide (index.toNat ≤ 3) && (decide (first.toNat ≤ 39) || first == 255))
    (fun t => t.asMember (fun u => u.carryOwn index first)))

/-- Drop Stream (R63). -/
def execDropStream (index : Byte) (s : State) : Host.Outcome State Fault Refusal :=
  s.hostCommand 9 (checked (decide (index.toNat ≤ 3))
    (fun t => t.asMember (fun u => u.queueHost (.release index) false none)))

/-- Withdraw Stream (R63). -/
def execWithdrawStream (index : Byte) (s : State) : Host.Outcome State Fault Refusal :=
  s.hostCommand 10 (checked (decide (index.toNat ≤ 3))
    (fun t => t.asMember (fun u => u.queueHost (.withdraw index) false none)))

/-- Read Directory (R64). -/
def execReadDirectory (first count : Byte) (s : State) : Host.Outcome State Fault Refusal :=
  s.hostCommand 11 (checked (decide (first.toNat ≤ 63) && decide (1 ≤ count.toNat ∧ count.toNat ≤ 64))
    (fun t => t.tellHost (t.directoryResults first.toNat count.toNat)))

/-- Read Slots (R64). -/
def execReadSlots (s : State) : Host.Outcome State Fault Refusal :=
  s.hostCommand 12 (fun t => t.tellHost t.tables.slotResults)

/-! ## Zones (R104, R116) -/

/-- The Route request (R104): judged at once for an own zone, queued for another station's, NO_ZONE elsewhere. -/
def State.routeRequest (s : State) (zone stream action level : Byte) : Answer :=
  match s.ownZone zone.toNat with
  | some z =>
    let (judged, verdict) := s.judgeRoute z stream.toNat action.toNat level.toNat
    (judged, .ok, inBytes 1 verdict.code)
  | none =>
    if inSet s.tables.zonesPresent zone.toNat then
      s.asMember (fun u => u.queueHost (.route zone stream action level) false none)
    else s.refuse .noZone

/-- Route (R104). -/
def execRoute (zone stream action level : Byte) (s : State) : Host.Outcome State Fault Refusal :=
  s.hostCommand 13 (checked (Message.route zone stream action level).inRange
    (fun t => t.routeRequest zone stream action level))

/-- The Read Zone request (R116): NO_ZONE for a zone id that is not an own one. -/
def State.readZone (s : State) (zone : Byte) : Answer :=
  match s.ownZone zone.toNat with
  | none => s.refuse .noZone
  | some z =>
    match s.definitions[z]? with
    | some d => s.tellHost (s.zoneResults z d)
    | none => s.refuse .noZone

/-- Read Zone (R116). -/
def execReadZone (zone : Byte) (s : State) : Host.Outcome State Fault Refusal :=
  s.hostCommand 14 (fun t => t.readZone zone)

/-! ## Events (R180) -/

/-- Read Events removes the up to 4 oldest records and returns them (R180). -/
def State.readEvents (s : State) : Answer :=
  ({ s with host.events := s.host.events.drop 4 }).tellHost (listed (s.host.events.take 4) eventBytes)

/-- Read Events (R180). -/
def execReadEvents (s : State) : Host.Outcome State Fault Refusal := s.hostCommand 40 State.readEvents

/-! ## Transfers without a request to be taken (R176) -/

/-- A transfer with request code 0 (R176): the response held is shifted out and nothing is taken. -/
def execTransferForReading (s : State) : Host.Outcome State Fault Refusal :=
  .next (s.act State.shiftOut)

/-- Whether a parameter length is what the request of a code needs, from its parameters (R177). A Cadence Set with a role outside
Table 7-4 needs the channel and the role alone (log 35). -/
def lengthMatches (code : Nat) (p : List Byte) : Bool :=
  match code with
  | 1 => p.length == 1 | 2 => p.length == 0 | 3 => p.length == 0 | 4 => p.length == 0
  | 5 => p.length == 1 | 6 => p.length == 1 | 7 => p.length == 6 | 8 => p.length == 2
  | 9 => p.length == 1 | 10 => p.length == 1 | 11 => p.length == 2 | 12 => p.length == 0
  | 13 => p.length == 4 | 14 => p.length == 1 | 15 => p.length == 7
  | 16 => p.length == 2 + 3 * (p.getD 1 0).toNat
  | 17 => p.length == 1 | 18 => p.length == 1 | 19 => p.length == 2 | 20 => p.length == 3
  | 21 => p.length == (match (p.getD 1 0).toNat with
      | 1 => 7
      | 2 => 8
      | _ => 2)
  | 22 => p.length == 1 | 23 => p.length == 1 | 24 => p.length == 1
  | 25 => p.length == 0 | 26 => p.length == 0 | 27 => p.length == 0 | 28 => p.length == 0
  | 29 => p.length == 4 | 30 => p.length == 4 | 31 => p.length == 1 | 32 => p.length == 1
  | 33 => p.length == 3 | 34 => p.length == 1 | 35 => p.length == 0 | 36 => p.length == 0
  | 37 => p.length == 3 + (p.getD 1 0).toNat * 256 + (p.getD 2 0).toNat
  | 38 => p.length == 2 | 39 => p.length == 0 | 40 => p.length == 0
  | _ => false

/-- What a transfer's bytes come to (R176): nothing where the code is 0 or the request is good, else the refusal. -/
def judgeTransfer (bytes : List Byte) : Option Status :=
  let code := (bytes.headD 0).toNat
  let n := (bytes.getD 1 0).toNat * 256 + (bytes.getD 2 0).toNat
  if bytes.isEmpty then some .badCheck
  else if code = 0 then none
  else if bytes.length < 5 + n then some .badCheck
  else if (bytes.drop (3 + n)).take 2 ≠ inBytes 2 (crcBytes (bytes.take (3 + n))).toNat then some .badCheck
  else if lengthMatches code ((bytes.drop 3).take n) then none
  else some .badRequest

/-- A transfer whose request is refused (R176): the refusal is placed and nothing else changes. The answer names the code as
it came in, 0 where none came (log 24). -/
def State.refuseTransfer (s : State) (bytes : List Byte) (status : Status) : State :=
  s.shiftOut.respond (bytes.headD 0).toNat status []

end Sys2Proof.Machine
end

