-- ==== Sys2Proof/Machine/BlockRequests.lean ====
section
/-! DEFINITION. The commands of the host port (Table 11-4), areas Clips and cadences, Radio, Calls and Notes. -/

namespace Sys2Proof.Machine

/-! ## Clips (R119 to R121, R123, R124) -/

/-- A clip number within its range. -/
def clipInRange (clip : Byte) : Bool := decide (clip.toNat ≤ 31)

/-- Whether a clip is in use: a play names it (R118). -/
def State.clipInUse (s : State) (i : Nat) : Bool :=
  s.announce.plays.any (fun p => match p with
    | some play => play.clip == i
    | none => false)

/-- Whether some of the words from an offset are words of another clip that holds words (R119). -/
def State.overlaps (s : State) (i offset length : Nat) : Bool :=
  (List.range 32).any (fun k =>
    let c := s.clip k
    k != i && c.state.holdsWords && decide (offset < c.offset + c.length ∧ c.offset < offset + length))

/-- Clip Load Begin, judged in R119's order. -/
def State.clipLoadBegin (s : State) (i offset length : Nat) : State × Status :=
  if 31 < i ∨ length = 0 ∨ 192000 < length ∨ offset % 8 ≠ 0 ∨ s.store.spaceOf .clip ≤ offset + length - 1 then
    (s, .badParameter)
  else if (s.clip i).state = .locked then (s, .locked)
  else if s.clipInUse i then (s, .busy)
  else if s.overlaps i offset length then (s, .overlap)
  else
    let c : Clip := { state := .loading, offset := offset, length := length, received := 0, written := 0 }
    let begun := (s.dropBuffer i).onClip i (fun _ => c)
    ({ begun with announce.loads := s.announce.loads.set i s.announce.nextLoad,
                  announce.nextLoad := s.announce.nextLoad + 1 }, .ok)

/-- Clip Load Begin (R119). -/
def execClipLoadBegin (clip : Byte) (offset length : BitVec 24) (s : State) : Host.Outcome State Fault Refusal :=
  s.hostCommand 15 (fun t => plain (t.clipLoadBegin clip.toNat offset.toNat length.toNat))

/-- Clip Data, judged in R120's order. -/
def State.clipData (s : State) (i : Nat) (samples : List Sample) : State × Status :=
  let c := s.clip i
  if 31 < i ∨ samples.isEmpty ∨ 64 < samples.length
      ∨ (c.state = .loading ∧ c.length < c.received + samples.length) then (s, .badParameter)
  else if c.state ≠ .loading then (s, .wrongState)
  else if 4 ≤ (s.store.queue .loading).length ∨ (s.announce.bufferClip.isSome ∧ s.announce.bufferClip ≠ some i)
      ∨ 128 < s.announce.buffer.length + samples.length then (s, .busy)
  else
    let joined := { s with announce.buffer := s.announce.buffer ++ samples, announce.bufferClip := some i }
    ((joined.onClip i (fun c => { c with received := c.received + samples.length })).feedLoader, .ok)

/-- Clip Data (R120). -/
def execClipData (clip : Byte) (samples : List Sample) (s : State) : Host.Outcome State Fault Refusal :=
  s.hostCommand 16 (fun t => plain (t.clipData clip.toNat samples))

/-- Clip Load End (R121). -/
def State.clipLoadEnd (s : State) (i : Nat) : State × Status :=
  let c := s.clip i
  if c.state ≠ .loading then (s, .wrongState)
  else if c.received < c.length then (s, .short)
  else if c.written ≠ c.length then (s, .busy)
  else (s.onClip i (fun c => { c with state := .ready, received := 0, written := 0 }), .ok)

/-- Clip Load End (R121). -/
def execClipLoadEnd (clip : Byte) (s : State) : Host.Outcome State Fault Refusal :=
  s.hostCommand 17 (checked (clipInRange clip) (fun t => plain (t.clipLoadEnd clip.toNat)))

/-- Clip Lock (R121). -/
def State.clipLock (s : State) (i : Nat) : State × Status :=
  if (s.clip i).state = .ready then (s.onClip i (fun c => { c with state := .locked }), .ok) else (s, .wrongState)

/-- Clip Lock (R121). -/
def execClipLock (clip : Byte) (s : State) : Host.Outcome State Fault Refusal :=
  s.hostCommand 18 (checked (clipInRange clip) (fun t => plain (t.clipLock clip.toNat)))

/-- Clip Status (R123). -/
def execClipStatus (first count : Byte) (s : State) : Host.Outcome State Fault Refusal :=
  s.hostCommand 19 (checked (clipInRange first && decide (1 ≤ count.toNat ∧ count.toNat ≤ 32))
    (fun t => t.tellHost (t.clipResults first.toNat count.toNat)))

/-- The Play request (R124): OK returns the place. -/
def State.playRequest (s : State) (clip level repeats : Nat) : Answer :=
  if (s.clip clip).state.playable = false then s.refuse .wrongState
  else match s.startPlay clip level repeats .host with
    | some (place, started) => (started, .ok, inBytes 1 place)
    | none => s.refuse .playsFull

/-- Play (R124). -/
def execPlay (clip level repeats : Byte) (s : State) : Host.Outcome State Fault Refusal :=
  s.hostCommand 20 (checked (clipInRange clip && decide (level.toNat ≤ 63) && decide (1 ≤ repeats.toNat))
    (fun t => t.playRequest clip.toNat level.toNat repeats.toNat))

/-! ## Cadences (R127, R128, R131, R132) -/

/-- Cadence Set (R127). -/
def execCadenceSet (channel : Byte) (setup : CadenceSetup) (s : State) : Host.Outcome State Fault Refusal :=
  s.hostCommand 21 (fun t => plain (t.cadenceSet channel.toNat setup))

/-- Cadence Start (R128). -/
def execCadenceStart (channel : Byte) (s : State) : Host.Outcome State Fault Refusal :=
  s.hostCommand 22 (fun t => plain (t.cadenceStart channel.toNat))

/-- Cadence Stop (R131). -/
def execCadenceStop (channel : Byte) (s : State) : Host.Outcome State Fault Refusal :=
  s.hostCommand 23 (fun t => plain (t.cadenceStop channel.toNat))

/-- Read Cadence (R132). -/
def execReadCadence (channel : Byte) (s : State) : Host.Outcome State Fault Refusal :=
  s.hostCommand 24 (checked (decide (channel.toNat ≤ 7)) (fun t => t.tellHost (t.cadenceResults channel.toNat)))

/-! ## Radio (R137, R138, R149) -/

/-- Blend Enable (R137). -/
def execBlendEnable (s : State) : Host.Outcome State Fault Refusal :=
  s.hostCommand 25 (fun t => plain t.blendEnable)

/-- Blend Disable (R137). -/
def execBlendDisable (s : State) : Host.Outcome State Fault Refusal :=
  s.hostCommand 26 (fun t => (t.blendDisable, .ok, []))

/-- Tuned (R138). -/
def execTuned (s : State) : Host.Outcome State Fault Refusal := s.hostCommand 27 (fun t => plain t.tuned)

/-- Read Blend (R149). -/
def execReadBlend (s : State) : Host.Outcome State Fault Refusal :=
  s.hostCommand 28 (fun t => t.tellHost t.blendResults)

/-! ## Calls (R157, R158, R167) -/

/-- The fields of a CALL that uses none (R157). -/
def noCallFields : CallFields := { downlink := 255, uplink := 255, reference := 255, mic := 255, zones := 0 }

/-- A call id within its range. -/
def callInRange (id : Byte) : Bool := decide (id.toNat ≤ 1)

/-- A call request (R157): its CALL is queued in MEMBER. -/
def callRequest (inRange : Bool) (id action : Byte) (fields : State → CallFields) : State → Answer :=
  checked inRange (fun t => t.asMember (fun u => u.queueHost (.call id action (fields u)) false none))

/-- Call Ring (R157): the downlink is the own stream of the local index. -/
def execCallRing (id index : Byte) (zones : ZoneSet) (s : State) : Host.Outcome State Fault Refusal :=
  s.hostCommand 29 (callRequest (callInRange id && decide (index.toNat ≤ 3)) id 0
    (fun t => { noCallFields with downlink := BitVec.ofNat 8 (t.ownStream index.toNat), zones := zones }))

/-- Call Answer (R157): the uplink is the mic station's stream of the local index. -/
def execCallAnswer (id mic index reference : Byte) (s : State) : Host.Outcome State Fault Refusal :=
  s.hostCommand 30 (callRequest
    (callInRange id && decide (mic.toNat ≤ 15) && decide (index.toNat ≤ 3) && streamOrNone reference) id 1
    (fun _ => { noCallFields with uplink := BitVec.ofNat 8 (mic.toNat * 4 + index.toNat), reference := reference,
                                  mic := mic }))

/-- Call Hold (R157). -/
def execCallHold (id : Byte) (s : State) : Host.Outcome State Fault Refusal :=
  s.hostCommand 31 (callRequest (callInRange id) id 2 (fun _ => noCallFields))

/-- Call Resume (R157). -/
def execCallResume (id : Byte) (s : State) : Host.Outcome State Fault Refusal :=
  s.hostCommand 32 (callRequest (callInRange id) id 3 (fun _ => noCallFields))

/-- Call Zones (R157). -/
def execCallZones (id : Byte) (zones : ZoneSet) (s : State) : Host.Outcome State Fault Refusal :=
  s.hostCommand 33 (callRequest (callInRange id) id 4 (fun _ => { noCallFields with zones := zones }))

/-- Call End (R157). -/
def execCallEnd (id : Byte) (s : State) : Host.Outcome State Fault Refusal :=
  s.hostCommand 34 (callRequest (callInRange id) id 5 (fun _ => noCallFields))

/-- Read Calls (R158). -/
def execReadCalls (s : State) : Host.Outcome State Fault Refusal :=
  s.hostCommand 35 (fun t => t.tellHost (t.callItem 0 ++ t.callItem 1))

/-- Read Canceller (R167). -/
def execReadCanceller (s : State) : Host.Outcome State Fault Refusal :=
  s.hostCommand 36 (fun t => t.tellHost t.cancellerResults)

/-! ## Notes (R172, R173, R175) -/

/-- Whether a station may be sent a note (R173): another, present, with the ATTENDED role. -/
def State.takesNotes (s : State) (target : Nat) : Bool :=
  target != s.number && (s.tables.station target).present && (s.tables.station target).roles.attended

/-- Note Send in MEMBER (R173). -/
def State.noteRequest (s : State) (target total : Nat) (data : List Byte) : Answer :=
  if s.takesNotes target = false then s.refuse .noStation
  else if s.note.outbound.state.isSending then s.refuse .busy
  else (s.beginNote target total data, .ok, [])

/-- Note Send (R173). Data that are not as many bytes as the total length says make a request of the wrong length
(R176, log 35). -/
def execNoteSend (target : Byte) (total : BitVec 16) (data : List Byte) (s : State) :
    Host.Outcome State Fault Refusal :=
  if data.length = total.toNat then
    s.hostCommand 37 (checked (decide (target.toNat ≤ 15) && decide (1 ≤ total.toNat ∧ total.toNat ≤ 256))
      (fun t => t.asMember (fun u => u.noteRequest target.toNat total.toNat data)))
  else .next (s.act (fun t => t.shiftOut.respond 37 .badRequest []))

/-- Note Read (R172): the box becomes FREE with its last byte. -/
def State.noteRead (s : State) (offset count : Nat) : Answer :=
  match s.note.box with
  | .full sender total _ data =>
    if total ≤ offset then s.refuse .badParameter
    else
      let results := inBytes 1 sender ++ inBytes 2 total
        ++ listed (noteBytes data total offset count) (fun b => [b])
      let left := if total ≤ offset + count then { s with note.box := .free } else s
      (left, .ok, results)
  | _ => s.refuse .wrongState

/-- Note Read (R172). -/
def execNoteRead (offset count : Byte) (s : State) : Host.Outcome State Fault Refusal :=
  s.hostCommand 38 (checked (decide (1 ≤ count.toNat ∧ count.toNat ≤ 64))
    (fun t => t.noteRead offset.toNat count.toNat))

/-- Note Status (R175). -/
def execNoteStatus (s : State) : Host.Outcome State Fault Refusal :=
  s.hostCommand 39 (fun t => t.tellHost t.noteResults)

end Sys2Proof.Machine
end

