-- ==== Sys2Proof/Machine/Transfers.lean ====
section
/-! DEFINITION. Transfers by their bytes (R176, R177, Table 11-1): the request that the parameter bytes spell, and the refusal of
a transfer that spells none. -/

namespace Sys2Proof.Machine

/-! ## Parameters from bytes (R177) -/

/-- A number from its bytes, most significant first (R177). -/
def numberOf (bytes : List Byte) : Nat := bytes.foldl (fun acc b => acc * 256 + b.toNat) 0

/-- One byte of the parameters. -/
def byteAt (p : List Byte) (i : Nat) : Byte := p.getD i 0

/-- An item of two bytes of the parameters: a number or a zone set. -/
def wordAt (p : List Byte) (i : Nat) : BitVec 16 := BitVec.ofNat 16 (numberOf ((p.drop i).take 2))

/-- An item of three bytes of the parameters: a number or a sample. -/
def tripleAt (p : List Byte) (i : Nat) : BitVec 24 := BitVec.ofNat 24 (numberOf ((p.drop i).take 3))

/-- The samples of Clip Data, after the clip and their count (R177). -/
def samplesOf (p : List Byte) : List Sample :=
  (List.range (byteAt p 1).toNat).map (fun k => tripleAt p (2 + 3 * k))

/-- What Cadence Set carries beside the channel, by the role (R127, R177). -/
def setupOf (p : List Byte) : CadenceSetup :=
  match (byteAt p 1).toNat with
  | 0 => .off
  | 1 => .leader (tripleAt p 2) (byteAt p 5) (byteAt p 6)
  | 2 => .follower (byteAt p 2) (tripleAt p 3) (byteAt p 6) (byteAt p 7)
  | _ => .other (byteAt p 1)

/-- The request of a code with its parameters, item by item in the order its rule names them (R177, Table 11-4). -/
def requestOf (code : Nat) (p : List Byte) : Option Instr :=
  match code with
  | 1 => some (.getInfo (byteAt p 0))
  | 2 => some .getStatus
  | 3 => some .leaveLine
  | 4 => some .rejoin
  | 5 => some (.stayAwake (byteAt p 0))
  | 6 => some (.wake (byteAt p 0))
  | 7 => some (.offerStream (byteAt p 0) (byteAt p 1) (byteAt p 2) (byteAt p 3) (byteAt p 4) (byteAt p 5))
  | 8 => some (.carryStream (byteAt p 0) (byteAt p 1))
  | 9 => some (.dropStream (byteAt p 0))
  | 10 => some (.withdrawStream (byteAt p 0))
  | 11 => some (.readDirectory (byteAt p 0) (byteAt p 1))
  | 12 => some .readSlots
  | 13 => some (.route (byteAt p 0) (byteAt p 1) (byteAt p 2) (byteAt p 3))
  | 14 => some (.readZone (byteAt p 0))
  | 15 => some (.clipLoadBegin (byteAt p 0) (tripleAt p 1) (tripleAt p 4))
  | 16 => some (.clipData (byteAt p 0) (samplesOf p))
  | 17 => some (.clipLoadEnd (byteAt p 0))
  | 18 => some (.clipLock (byteAt p 0))
  | 19 => some (.clipStatus (byteAt p 0) (byteAt p 1))
  | 20 => some (.play (byteAt p 0) (byteAt p 1) (byteAt p 2))
  | 21 => some (.cadenceSet (byteAt p 0) (setupOf p))
  | 22 => some (.cadenceStart (byteAt p 0))
  | 23 => some (.cadenceStop (byteAt p 0))
  | 24 => some (.readCadence (byteAt p 0))
  | 25 => some .blendEnable
  | 26 => some .blendDisable
  | 27 => some .tuned
  | 28 => some .readBlend
  | 29 => some (.callRing (byteAt p 0) (byteAt p 1) (wordAt p 2))
  | 30 => some (.callAnswer (byteAt p 0) (byteAt p 1) (byteAt p 2) (byteAt p 3))
  | 31 => some (.callHold (byteAt p 0))
  | 32 => some (.callResume (byteAt p 0))
  | 33 => some (.callZones (byteAt p 0) (wordAt p 1))
  | 34 => some (.callEnd (byteAt p 0))
  | 35 => some .readCalls
  | 36 => some .readCanceller
  | 37 => some (.noteSend (byteAt p 0) (wordAt p 1) (p.drop 3))
  | 38 => some (.noteRead (byteAt p 0) (byteAt p 1))
  | 39 => some .noteStatus
  | 40 => some .readEvents
  | _ => none

/-! ## Requests taken (R176) -/

/-- A request that came in by its bytes is taken as its own command says; anything else is a transfer for reading. -/
def takeRequest (i : Instr) (s : State) : Host.Outcome State Fault Refusal :=
  match i with
  | .getInfo selection => execGetInfo selection s
  | .getStatus => execGetStatus s
  | .leaveLine => execLeaveLine s
  | .rejoin => execRejoin s
  | .stayAwake flag => execStayAwake flag s
  | .wake flag => execWake flag s
  | .offerStream index kind channels cls binding number => execOfferStream index kind channels cls binding number s
  | .carryStream index first => execCarryStream index first s
  | .dropStream index => execDropStream index s
  | .withdrawStream index => execWithdrawStream index s
  | .readDirectory first count => execReadDirectory first count s
  | .readSlots => execReadSlots s
  | .route zone stream action level => execRoute zone stream action level s
  | .readZone zone => execReadZone zone s
  | .clipLoadBegin clip offset length => execClipLoadBegin clip offset length s
  | .clipData clip samples => execClipData clip samples s
  | .clipLoadEnd clip => execClipLoadEnd clip s
  | .clipLock clip => execClipLock clip s
  | .clipStatus first count => execClipStatus first count s
  | .play clip level repeats => execPlay clip level repeats s
  | .cadenceSet channel setup => execCadenceSet channel setup s
  | .cadenceStart channel => execCadenceStart channel s
  | .cadenceStop channel => execCadenceStop channel s
  | .readCadence channel => execReadCadence channel s
  | .blendEnable => execBlendEnable s
  | .blendDisable => execBlendDisable s
  | .tuned => execTuned s
  | .readBlend => execReadBlend s
  | .callRing id index zones => execCallRing id index zones s
  | .callAnswer id mic index reference => execCallAnswer id mic index reference s
  | .callHold id => execCallHold id s
  | .callResume id => execCallResume id s
  | .callZones id zones => execCallZones id zones s
  | .callEnd id => execCallEnd id s
  | .readCalls => execReadCalls s
  | .readCanceller => execReadCanceller s
  | .noteSend target total data => execNoteSend target total data s
  | .noteRead offset count => execNoteRead offset count s
  | .noteStatus => execNoteStatus s
  | .readEvents => execReadEvents s
  | _ => execTransferForReading s

/-- The request that a transfer's bytes spell (Table 11-1); none for a code of 0. -/
def transferRequest (bytes : List Byte) : Option Instr :=
  requestOf (bytes.headD 0).toNat ((bytes.drop 3).take (numberOf ((bytes.drop 1).take 2)))

/-- BAD_TRANSFER (R176): a transfer by its bytes. One that fails its checks is refused; one that passes them spells a request,
which is taken, or code 0, which only reads. -/
def execBadTransfer (bytes : List Byte) (s : State) : Host.Outcome State Fault Refusal :=
  match judgeTransfer bytes, transferRequest bytes with
  | some status, _ => .next (s.act (fun t => t.refuseTransfer bytes status))
  | none, some i => takeRequest i s
  | none, none => execTransferForReading s

end Sys2Proof.Machine
end

