-- ==== Sys2Proof/Machine/LineCommands.lean ====
section
/-! DEFINITION. The commands of the line (chapters 1 and 2): frame starts, the parts of a frame, messages that take effect, and
the rows that fall due on the line side. -/

namespace Sys2Proof.Machine

/-! ## Frame starts and the parts of a frame -/

/-- FRAME_START: a start is seen on the line (R3 to R6, R185). -/
def execFrameStart (inWindow : Bool) (s : State) : Host.Outcome State Fault Refusal :=
  .next (s.act (fun t => t.startSeen inWindow))

/-- LEAD_START: one frame period has passed since the last start (R3). -/
def execLeadStart (s : State) : Host.Outcome State Fault Refusal := .next (s.act State.leadStart)

/-- FRAME_TIMER_EXPIRY: the frame timer expires (R3, R66). -/
def execFrameTimerExpiry (s : State) : Host.Outcome State Fault Refusal := .next (s.act State.expireTimer)

/-- MISSING_START: a further frame period with the timer expired (R66). -/
def execMissingStart (s : State) : Host.Outcome State Fault Refusal := .next (s.act State.missFurther)

/-- CONTROL_FIELD: the control field of the frame passes (R8, R11 to R13). -/
def execControlField (others : Option (BitVec 187)) (readable : Bool) (s : State) :
    Host.Outcome State Fault Refusal :=
  .next (s.act (fun t => t.controlField others readable))

/-- AUDIO_SLOTS: the audio slots of the frame pass (R20, R21). -/
def execAudioSlots (reads : List SlotRead) (s : State) : Host.Outcome State Fault Refusal :=
  .next (s.act (fun t => t.audioSlots reads))

/-- TAIL_END: the tail of the frame passes (R14). -/
def execTailEnd (veto : Bool) (s : State) : Host.Outcome State Fault Refusal :=
  .next (s.act (fun t => t.tailEnd veto))

/-! ## Messages that take effect (R14) -/

/-- A message of a sender takes effect at the end of a tail. -/
def State.messageCommand (s : State) (sender : Fin 16) (m : Message) : Host.Outcome State Fault Refusal :=
  .next (s.act (fun t => t.messageEffect sender.val m))

/-- JOIN (R37 to R39). -/
def execJoin (sender : Fin 16) (roles : Byte) (zones privateZones : ZoneSet) (serial : BitVec 32) (s : State) :
    Host.Outcome State Fault Refusal :=
  s.messageCommand sender (.join roles zones privateZones serial)

/-- PRESENCE (R30 to R32). -/
def execPresence (sender : Fin 16) (roles : Byte) (zones privateZones : ZoneSet) (owned : SlotSet)
    (descriptor : Descriptor) (s : State) : Host.Outcome State Fault Refusal :=
  s.messageCommand sender (.presence roles zones privateZones owned descriptor)

/-- LEAVE (R43). -/
def execLeave (sender : Fin 16) (s : State) : Host.Outcome State Fault Refusal := s.messageCommand sender .leave

/-- OFFER (R49). -/
def execOffer (sender : Fin 16) (index kind channels cls : Byte) (s : State) : Host.Outcome State Fault Refusal :=
  s.messageCommand sender (.offer index kind channels cls)

/-- WITHDRAW (R52). -/
def execWithdraw (sender : Fin 16) (index : Byte) (s : State) : Host.Outcome State Fault Refusal :=
  s.messageCommand sender (.withdraw index)

/-- CLAIM (R50). -/
def execClaim (sender : Fin 16) (index first : Byte) (s : State) : Host.Outcome State Fault Refusal :=
  s.messageCommand sender (.claim index first)

/-- RELEASE (R51). -/
def execRelease (sender : Fin 16) (index : Byte) (s : State) : Host.Outcome State Fault Refusal :=
  s.messageCommand sender (.release index)

/-- ROUTE with action ADD (R102, R105). -/
def execAdd (sender : Fin 16) (zone stream level : Byte) (s : State) : Host.Outcome State Fault Refusal :=
  s.messageCommand sender (.route zone stream 0 level)

/-- ROUTE with action SET_LEVEL (R103, R105). -/
def execSetLevel (sender : Fin 16) (zone stream level : Byte) (s : State) : Host.Outcome State Fault Refusal :=
  s.messageCommand sender (.route zone stream 1 level)

/-- ROUTE with action REMOVE (R103, R105). -/
def execRemove (sender : Fin 16) (zone stream level : Byte) (s : State) : Host.Outcome State Fault Refusal :=
  s.messageCommand sender (.route zone stream 2 level)

/-- ROUTE_ANSWER (R106). -/
def execRouteAnswer (sender : Fin 16) (requester zone stream verdict : Byte) (s : State) :
    Host.Outcome State Fault Refusal :=
  s.messageCommand sender (.routeAnswer requester zone stream verdict)

/-- CALL with action RING (R152). -/
def execRing (sender : Fin 16) (id : Byte) (fields : CallFields) (s : State) : Host.Outcome State Fault Refusal :=
  s.messageCommand sender (.call id 0 fields)

/-- CALL with action ANSWER (R153). -/
def execAnswer (sender : Fin 16) (id : Byte) (fields : CallFields) (s : State) : Host.Outcome State Fault Refusal :=
  s.messageCommand sender (.call id 1 fields)

/-- CALL with action HOLD (R154). -/
def execHold (sender : Fin 16) (id : Byte) (fields : CallFields) (s : State) : Host.Outcome State Fault Refusal :=
  s.messageCommand sender (.call id 2 fields)

/-- CALL with action RESUME (R154). -/
def execResume (sender : Fin 16) (id : Byte) (fields : CallFields) (s : State) : Host.Outcome State Fault Refusal :=
  s.messageCommand sender (.call id 3 fields)

/-- CALL with action ZONES (R155). -/
def execZones (sender : Fin 16) (id : Byte) (fields : CallFields) (s : State) : Host.Outcome State Fault Refusal :=
  s.messageCommand sender (.call id 4 fields)

/-- CALL with action END (R154). -/
def execEndCall (sender : Fin 16) (id : Byte) (fields : CallFields) (s : State) : Host.Outcome State Fault Refusal :=
  s.messageCommand sender (.call id 5 fields)

/-- NOTE_PART (R170). -/
def execNotePart (sender : Fin 16) (target index : Byte) (total : BitVec 16) (data : BitVec 128) (s : State) :
    Host.Outcome State Fault Refusal :=
  s.messageCommand sender (.notePart target index total data)

/-! ## Rows that fall due on the line side -/

/-- SILENT_LINE (R6, R67). -/
def execSilentLine (s : State) : Host.Outcome State Fault Refusal := .next (s.fallDue State.lineSilent)

/-- DORMANCY_ENTRY (R184). -/
def execDormancyEntry (s : State) : Host.Outcome State Fault Refusal := .next (s.fallDue State.enterDormant)

/-- SELF_VETO (R17, R41). -/
def execSelfVeto (s : State) : Host.Outcome State Fault Refusal := .next (s.fallDue State.selfVetoDue)

/-- LISTEN_END (R36). -/
def execListenEnd (s : State) : Host.Outcome State Fault Refusal := .next (s.fallDue State.listenEnd)

/-- AGED_OUT (R25 to R27). -/
def execAgedOut (station : Fin 16) (s : State) : Host.Outcome State Fault Refusal :=
  .next (s.fallDue (fun t => t.agedOut station.val))

/-- HOLD_EXPIRY (R47). -/
def execHoldExpiry (slot : Fin 40) (s : State) : Host.Outcome State Fault Refusal :=
  .next (s.fallDue (fun t => t.freeSlot slot.val))

/-- QUEUE_HOLD_EXPIRY (R18). -/
def execQueueHoldExpiry (s : State) : Host.Outcome State Fault Refusal := .next (s.fallDue State.readyEntries)

/-- PRESENCE_DUE (R28). -/
def execPresenceDue (s : State) : Host.Outcome State Fault Refusal := .next (s.fallDue State.presenceFallsDue)

/-- SILENCE_ENDED (R41). -/
def execSilenceEnded (s : State) : Host.Outcome State Fault Refusal := .next (s.fallDue State.silenceEnded)

/-- NOTE_STALL (R171). -/
def execNoteStall (s : State) : Host.Outcome State Fault Refusal := .next (s.fallDue State.noteStall)

/-- NOTE_EXPIRY (R171). -/
def execNoteExpiry (s : State) : Host.Outcome State Fault Refusal := .next (s.fallDue State.noteExpiry)

/-- UPLINK_RETRY (R160). -/
def execUplinkRetry (s : State) : Host.Outcome State Fault Refusal := .next (s.fallDue State.uplinkRetry)

/-- CARRY_RETRY (R182). -/
def execCarryRetry (index : Fin 4) (s : State) : Host.Outcome State Fault Refusal :=
  .next (s.fallDue (fun t => t.carryRetry index.val))

end Sys2Proof.Machine
end

