-- ==== Sys2Proof/Machine/BlockCommands.lean ====
section
/-! DEFINITION. The commands of the resets, of the local sample, of the sample store, and the rows that fall due in the blocks
that count local samples. -/

namespace Sys2Proof.Machine

/-! ## Resets and start-up (R94, R181, R183) -/

/-- POWER_ON (R183). -/
def execPowerOn (s : State) : Host.Outcome State Fault Refusal := .next s.powerOn

/-- RESET_PIN_ASSERTED (R94). That what is due is not done before it, unlike before every other command from outside, is the
model's choice (log 79). -/
def execResetPinAsserted (s : State) : Host.Outcome State Fault Refusal := .next s.assertPin

/-- RESET_LINE (R183). An assertion that was not sent is taken as part of it (log 38). -/
def execResetLine (s : State) : Host.Outcome State Fault Refusal := .next s.resetLine

/-- START_UP_RECORD_READ (R181). -/
def execStartUpRecordRead (read : RecordRead) (s : State) : Host.Outcome State Fault Refusal :=
  .next (s.act (fun t => t.recordRead read))

/-! ## Local samples and the decoder (R65, R73) -/

/-- LOCAL_SAMPLE (R65). -/
def execLocalSample (inputs : InputSamples) (s : State) : Host.Outcome State Fault Refusal :=
  .next (s.act (fun t => t.localSample inputs))

/-- DECODER_ARRIVAL (R73). -/
def execDecoderArrival (sample : Stereo) (quality : Quality) (s : State) : Host.Outcome State Fault Refusal :=
  .next (s.act (fun t => t.decoderArrives sample quality))

/-! ## The sample store (R80) -/

/-- OPEN_COMPLETE (Table 5-2). -/
def execOpenComplete (bank : Fin 8) (s : State) : Host.Outcome State Fault Refusal :=
  .next (s.act (fun t => { t with store := t.store.completeOpen bank.val }))

/-- BURST_COMPLETE (Table 5-2, R85). -/
def execBurstComplete (bank : Fin 8) (s : State) : Host.Outcome State Fault Refusal :=
  .next (s.act (fun t => t.burstComplete bank.val))

/-- CLOSE_COMPLETE (Table 5-2). -/
def execCloseComplete (bank : Fin 8) (s : State) : Host.Outcome State Fault Refusal :=
  .next (s.act (fun t => { t with store := t.store.completeClose bank.val }))

/-- REFRESH_COMPLETE (Table 5-2, R89). -/
def execRefreshComplete (bank : Fin 8) (s : State) : Host.Outcome State Fault Refusal :=
  .next (s.act (fun t => { t with store := t.store.completeRefresh bank.val }))

/-- REFRESH_DEBT_RISE (R89, R92). -/
def execRefreshDebtRise (s : State) : Host.Outcome State Fault Refusal := .next (s.fallDue State.refreshDebtRise)

/-! ## Ports and ramps (R69, R76, R77, R108) -/

/-- ARRIVAL_GAP (R77). -/
def execArrivalGap (s : State) : Host.Outcome State Fault Refusal := .next (s.fallDue State.arrivalGap)

/-- QUALITY_BLOCK (R76). -/
def execQualityBlock (s : State) : Host.Outcome State Fault Refusal := .next (s.fallDue State.qualityBlock)

/-- GATE_RAMP_END (R69). -/
def execGateRampEnd (s : State) : Host.Outcome State Fault Refusal := .next (s.fallDue State.endGateRamp)

/-- RAMP_END (R108). -/
def execRampEnd (zone : Fin 4) (ramp : RampOf) (s : State) : Host.Outcome State Fault Refusal :=
  .next (s.fallDue (fun t => t.endRamp zone.val ramp))

/-! ## The blend engine (R139, R142 to R147) -/

/-- FILLED (R139). -/
def execFilled (s : State) : Host.Outcome State Fault Refusal := .next (s.fallDue State.filled)

/-- PRIMING_DONE (R142). -/
def execPrimingDone (s : State) : Host.Outcome State Fault Refusal := .next (s.fallDue State.primingDone)

/-- CORRELATION_RESULT (R142 to R144). -/
def execCorrelationResult (s : State) : Host.Outcome State Fault Refusal := .next (s.fallDue State.correlationResult)

/-- TAP_CROSSFADE_END (R143). -/
def execTapCrossfadeEnd (s : State) : Host.Outcome State Fault Refusal := .next (s.fallDue State.crossfadeEnd)

/-- TO_DIGITAL_COMPLETE (R145). -/
def execToDigitalComplete (s : State) : Host.Outcome State Fault Refusal := .next (s.fallDue State.toDigitalComplete)

/-- TO_ANALOGUE_COMPLETE (R147). -/
def execToAnalogueComplete (s : State) : Host.Outcome State Fault Refusal :=
  .next (s.fallDue State.toAnalogueComplete)

/-! ## The canceller (R163, R164, R166) -/

/-- CANCELLER_BLOCK (R166). -/
def execCancellerBlock (s : State) : Host.Outcome State Fault Refusal := .next (s.fallDue State.cancellerBlock)

/-- FREEZE_END (R163). -/
def execFreezeEnd (s : State) : Host.Outcome State Fault Refusal := .next (s.fallDue State.freezeEnd)

/-- REFERENCE_LOST (R164). -/
def execReferenceLost (s : State) : Host.Outcome State Fault Refusal := .next (s.fallDue State.referenceLost)

/-! ## Cadences and plays (R126, R129, R130) -/

/-- CADENCE_EXPIRY (R129). -/
def execCadenceExpiry (channel : Fin 8) (s : State) : Host.Outcome State Fault Refusal :=
  .next (s.fallDue (fun t => t.cadenceExpiry channel.val))

/-- FOLLOWER_FIRE (R130). -/
def execFollowerFire (channel : Fin 8) (s : State) : Host.Outcome State Fault Refusal :=
  .next (s.fallDue (fun t => t.followerFires channel.val))

/-- PLAY_COMPLETED (R126). -/
def execPlayCompleted (place : Fin 4) (s : State) : Host.Outcome State Fault Refusal :=
  .next (s.fallDue (fun t => t.playCompleted place.val))

end Sys2Proof.Machine
end

