-- ==== Sys2Proof/Machine/Dispatch.lean ====
section
/-! DEFINITION. The meaning of every command: one arm for each constructor of Instr. -/

namespace Sys2Proof.Machine

/-- The effect of a command on everything but the queue. -/
def exec (i : Instr) (s : State) : Host.Outcome State Fault Refusal :=
  match i with
  | .powerOn => Sys2Proof.Machine.execPowerOn s
  | .resetPinAsserted => Sys2Proof.Machine.execResetPinAsserted s
  | .resetLine => Sys2Proof.Machine.execResetLine s
  | .startUpRecordRead read => Sys2Proof.Machine.execStartUpRecordRead read s
  | .frameStart inWindow => Sys2Proof.Machine.execFrameStart inWindow s
  | .leadStart => Sys2Proof.Machine.execLeadStart s
  | .frameTimerExpiry => Sys2Proof.Machine.execFrameTimerExpiry s
  | .missingStart => Sys2Proof.Machine.execMissingStart s
  | .silentLine => Sys2Proof.Machine.execSilentLine s
  | .dormancyEntry => Sys2Proof.Machine.execDormancyEntry s
  | .controlField others readable => Sys2Proof.Machine.execControlField others readable s
  | .audioSlots reads => Sys2Proof.Machine.execAudioSlots reads s
  | .tailEnd veto => Sys2Proof.Machine.execTailEnd veto s
  | .selfVeto => Sys2Proof.Machine.execSelfVeto s
  | .listenEnd => Sys2Proof.Machine.execListenEnd s
  | .join sender roles zones privateZones serial => Sys2Proof.Machine.execJoin sender roles zones privateZones serial s
  | .presence sender roles zones privateZones owned descriptor => Sys2Proof.Machine.execPresence sender roles zones privateZones owned descriptor s
  | .leave sender => Sys2Proof.Machine.execLeave sender s
  | .offer sender index kind channels cls => Sys2Proof.Machine.execOffer sender index kind channels cls s
  | .withdraw sender index => Sys2Proof.Machine.execWithdraw sender index s
  | .claim sender index first => Sys2Proof.Machine.execClaim sender index first s
  | .release sender index => Sys2Proof.Machine.execRelease sender index s
  | .add sender zone stream level => Sys2Proof.Machine.execAdd sender zone stream level s
  | .setLevel sender zone stream level => Sys2Proof.Machine.execSetLevel sender zone stream level s
  | .remove sender zone stream level => Sys2Proof.Machine.execRemove sender zone stream level s
  | .routeAnswer sender requester zone stream verdict => Sys2Proof.Machine.execRouteAnswer sender requester zone stream verdict s
  | .ring sender id fields => Sys2Proof.Machine.execRing sender id fields s
  | .answer sender id fields => Sys2Proof.Machine.execAnswer sender id fields s
  | .hold sender id fields => Sys2Proof.Machine.execHold sender id fields s
  | .resume sender id fields => Sys2Proof.Machine.execResume sender id fields s
  | .zones sender id fields => Sys2Proof.Machine.execZones sender id fields s
  | .endCall sender id fields => Sys2Proof.Machine.execEndCall sender id fields s
  | .notePart sender target index total data => Sys2Proof.Machine.execNotePart sender target index total data s
  | .agedOut station => Sys2Proof.Machine.execAgedOut station s
  | .holdExpiry slot => Sys2Proof.Machine.execHoldExpiry slot s
  | .queueHoldExpiry => Sys2Proof.Machine.execQueueHoldExpiry s
  | .presenceDue => Sys2Proof.Machine.execPresenceDue s
  | .silenceEnded => Sys2Proof.Machine.execSilenceEnded s
  | .noteStall => Sys2Proof.Machine.execNoteStall s
  | .noteExpiry => Sys2Proof.Machine.execNoteExpiry s
  | .uplinkRetry => Sys2Proof.Machine.execUplinkRetry s
  | .carryRetry index => Sys2Proof.Machine.execCarryRetry index s
  | .localSample inputs => Sys2Proof.Machine.execLocalSample inputs s
  | .decoderArrival sample quality => Sys2Proof.Machine.execDecoderArrival sample quality s
  | .arrivalGap => Sys2Proof.Machine.execArrivalGap s
  | .qualityBlock => Sys2Proof.Machine.execQualityBlock s
  | .gateRampEnd => Sys2Proof.Machine.execGateRampEnd s
  | .rampEnd zone ramp => Sys2Proof.Machine.execRampEnd zone ramp s
  | .refreshDebtRise => Sys2Proof.Machine.execRefreshDebtRise s
  | .openComplete bank => Sys2Proof.Machine.execOpenComplete bank s
  | .burstComplete bank => Sys2Proof.Machine.execBurstComplete bank s
  | .closeComplete bank => Sys2Proof.Machine.execCloseComplete bank s
  | .refreshComplete bank => Sys2Proof.Machine.execRefreshComplete bank s
  | .filled => Sys2Proof.Machine.execFilled s
  | .primingDone => Sys2Proof.Machine.execPrimingDone s
  | .correlationResult => Sys2Proof.Machine.execCorrelationResult s
  | .tapCrossfadeEnd => Sys2Proof.Machine.execTapCrossfadeEnd s
  | .toDigitalComplete => Sys2Proof.Machine.execToDigitalComplete s
  | .toAnalogueComplete => Sys2Proof.Machine.execToAnalogueComplete s
  | .cancellerBlock => Sys2Proof.Machine.execCancellerBlock s
  | .freezeEnd => Sys2Proof.Machine.execFreezeEnd s
  | .referenceLost => Sys2Proof.Machine.execReferenceLost s
  | .cadenceExpiry channel => Sys2Proof.Machine.execCadenceExpiry channel s
  | .followerFire channel => Sys2Proof.Machine.execFollowerFire channel s
  | .playCompleted place => Sys2Proof.Machine.execPlayCompleted place s
  | .transferForReading => Sys2Proof.Machine.execTransferForReading s
  | .getInfo selection => Sys2Proof.Machine.execGetInfo selection s
  | .getStatus => Sys2Proof.Machine.execGetStatus s
  | .leaveLine => Sys2Proof.Machine.execLeaveLine s
  | .rejoin => Sys2Proof.Machine.execRejoin s
  | .stayAwake flag => Sys2Proof.Machine.execStayAwake flag s
  | .wake flag => Sys2Proof.Machine.execWake flag s
  | .offerStream index kind channels cls binding bindingNumber => Sys2Proof.Machine.execOfferStream index kind channels cls binding bindingNumber s
  | .carryStream index first => Sys2Proof.Machine.execCarryStream index first s
  | .dropStream index => Sys2Proof.Machine.execDropStream index s
  | .withdrawStream index => Sys2Proof.Machine.execWithdrawStream index s
  | .readDirectory first count => Sys2Proof.Machine.execReadDirectory first count s
  | .readSlots => Sys2Proof.Machine.execReadSlots s
  | .route zone stream action level => Sys2Proof.Machine.execRoute zone stream action level s
  | .readZone zone => Sys2Proof.Machine.execReadZone zone s
  | .clipLoadBegin clip offset length => Sys2Proof.Machine.execClipLoadBegin clip offset length s
  | .clipData clip samples => Sys2Proof.Machine.execClipData clip samples s
  | .clipLoadEnd clip => Sys2Proof.Machine.execClipLoadEnd clip s
  | .clipLock clip => Sys2Proof.Machine.execClipLock clip s
  | .clipStatus first count => Sys2Proof.Machine.execClipStatus first count s
  | .play clip level repeats => Sys2Proof.Machine.execPlay clip level repeats s
  | .cadenceSet channel setup => Sys2Proof.Machine.execCadenceSet channel setup s
  | .cadenceStart channel => Sys2Proof.Machine.execCadenceStart channel s
  | .cadenceStop channel => Sys2Proof.Machine.execCadenceStop channel s
  | .readCadence channel => Sys2Proof.Machine.execReadCadence channel s
  | .blendEnable => Sys2Proof.Machine.execBlendEnable s
  | .blendDisable => Sys2Proof.Machine.execBlendDisable s
  | .tuned => Sys2Proof.Machine.execTuned s
  | .readBlend => Sys2Proof.Machine.execReadBlend s
  | .callRing id index zones => Sys2Proof.Machine.execCallRing id index zones s
  | .callAnswer id mic index reference => Sys2Proof.Machine.execCallAnswer id mic index reference s
  | .callHold id => Sys2Proof.Machine.execCallHold id s
  | .callResume id => Sys2Proof.Machine.execCallResume id s
  | .callZones id zones => Sys2Proof.Machine.execCallZones id zones s
  | .callEnd id => Sys2Proof.Machine.execCallEnd id s
  | .readCalls => Sys2Proof.Machine.execReadCalls s
  | .readCanceller => Sys2Proof.Machine.execReadCanceller s
  | .noteSend target total data => Sys2Proof.Machine.execNoteSend target total data s
  | .noteRead offset count => Sys2Proof.Machine.execNoteRead offset count s
  | .noteStatus => Sys2Proof.Machine.execNoteStatus s
  | .readEvents => Sys2Proof.Machine.execReadEvents s
  | .badTransfer bytes => Sys2Proof.Machine.execBadTransfer bytes s

end Sys2Proof.Machine
end

