-- ==== Sys2Proof/Safety.lean ====
section
/-! DEFINITION. Words for statements about the block: when a command acts, what a request's answer is, which blocks a
command leaves alone, and the invariants that every step keeps. -/

namespace Sys2Proof.Machine

/-! ## When a command acts -/

/-- The reset pin is released: commands from outside act (R94). -/
def State.released (s : State) : Prop := s.store.pinHeld = false

/-- The station deals with requests in the ordinary way (R178): it is neither DORMANT nor OFFLINE. -/
def State.takesRequests (s : State) : Prop := s.member.station ≠ .dormant ∧ s.member.station ≠ .offline

/-- The station hands messages that take effect on to its blocks (R14): on the line, no frame cut off from reading, the
field read, no veto of its own. -/
def State.hears (s : State) : Prop :=
  s.member.station.onLine = true ∧ s.line.phase ≠ .unread ∧ s.line.field ≠ .failed ∧ s.line.vetoing = .none

/-- The station drove no message in this frame, so none that takes effect is its own (R14). -/
def State.droveNothing (s : State) : Prop := s.line.sent = none

/-! ## The answer to a request (R176) -/

/-- The transfer has shifted out the response held, or an empty one, and the answer to its request is held. That it shifts out the
whole of it is the model's choice (log 83). -/
def State.answered (s : State) (code : Nat) (status : Status) (results : List Byte) : State :=
  { s with host := { s.host with
      shifted := (s.host.response.getD emptyResponse).bytes
      response := some { code := BitVec.ofNat 8 code, status := status, results := results } } }

/-- The code of a request row, Table 11-4; none for the rows that are no request. -/
def requestCode : Instr → Option Nat
  | .getInfo _ => some 1 | .getStatus => some 2 | .leaveLine => some 3 | .rejoin => some 4 | .stayAwake _ => some 5
  | .wake _ => some 6 | .offerStream .. => some 7 | .carryStream .. => some 8 | .dropStream _ => some 9
  | .withdrawStream _ => some 10 | .readDirectory .. => some 11 | .readSlots => some 12 | .route .. => some 13
  | .readZone _ => some 14 | .clipLoadBegin .. => some 15 | .clipData .. => some 16 | .clipLoadEnd _ => some 17
  | .clipLock _ => some 18 | .clipStatus .. => some 19 | .play .. => some 20 | .cadenceSet .. => some 21
  | .cadenceStart _ => some 22 | .cadenceStop _ => some 23 | .readCadence _ => some 24 | .blendEnable => some 25
  | .blendDisable => some 26 | .tuned => some 27 | .readBlend => some 28 | .callRing .. => some 29
  | .callAnswer .. => some 30 | .callHold _ => some 31 | .callResume _ => some 32 | .callZones .. => some 33
  | .callEnd _ => some 34 | .readCalls => some 35 | .readCanceller => some 36 | .noteSend .. => some 37
  | .noteRead .. => some 38 | .noteStatus => some 39 | .readEvents => some 40
  | _ => none

/-- The verdict code of a routing action at the owner of a zone (R102, R103, Table 1-5). -/
def State.routeCode (s : State) (z x action : Nat) : Nat :=
  let held := (s.zone z).routes.any (fun e => e.stream == x)
  match action, (s.tables.entry x).parameters with
  | 0, none => 1
  | 0, some p => if p.kind = .voiceDownlink then 2 else if held then 0 else if 6 ≤ (s.zone z).routes.length then 3 else 0
  | _, _ => if held then 0 else 1

/-! ## Zones (chapter 6) -/

/-- A class is the dominant class of a zone (R107): 0 with a LIVE call position, else the lowest class among its LIVE entries. -/
def Zone.dominatedBy (v : Zone) (top : Nat) : Prop :=
  if v.position.state = .live then top = 0
  else (∃ e, e ∈ v.routes ∧ e.state = .live ∧ e.cls = some top)
    ∧ ∀ e c, e ∈ v.routes → e.state = .live → e.cls = some c → top ≤ c

/-- The policy that a definition gives for a class of 1 to 3 (Table 6-1). -/
def duckPolicyFor (d : ZoneDefinition) (c : Nat) : DuckPolicy :=
  if c = 1 then d.policy1 else if c = 2 then d.policy2 else d.policy3

/-- A gain is the target gain of an entry of a zone (R107): 0 where it is LEAVING; its level where its class is not known or no
dominant class is lower in number; else by the policy of its class. -/
def targetFor (d : ZoneDefinition) (v : Zone) (e : RouteEntry) (g : Gain) : Prop :=
  (e.state = .leaving → g = 0)
    ∧ (e.state ≠ .leaving → (∀ c top, e.cls = some c → v.dominatedBy top → c ≤ top) → g = attenuation e.level)
    ∧ ∀ c top, e.state ≠ .leaving → e.cls = some c → c ≤ 3 → v.dominatedBy top → top < c →
        (duckPolicyFor d c = .mix → g = attenuation e.level)
        ∧ (duckPolicyFor d c = .duck → g = attenuation (e.level + d.duckDepth))
        ∧ (duckPolicyFor d c = .mute → g = 0)

/-- The ramp of an entry after its target was computed afresh (R107, R108): a WAITING entry stands at 0 with its target kept up to
date; another keeps its ramp where the target is the same as before, and else begins a ramp from the gain as it stands. -/
def rampAimed (state : RouteState) (r q : Ramp) (g : Gain) : Prop :=
  (state = .waiting → q.current = 0 ∧ q.running = false ∧ q.target = g)
    ∧ (state ≠ .waiting → g = r.target → q = r)
    ∧ (state ≠ .waiting → g ≠ r.target → r.current ≠ g →
        q = { start := r.current, target := g, current := r.current, steps := 0, running := true })
    ∧ (state ≠ .waiting → g ≠ r.target → r.current = g → q.current = g ∧ q.running = false ∧ q.target = g)

/-- Zone w is zone v with every target gain computed afresh (R107): each entry keeps its place, stream, class, level and state, and
the call position stands. -/
def zoneAimed (d : ZoneDefinition) (v w : Zone) : Prop :=
  w = { v with routes := w.routes } ∧ w.routes.length = v.routes.length
    ∧ ∀ (k : Nat) (e : RouteEntry), v.routes[k]? = some e →
        ∃ q g, w.routes[k]? = some { e with ramp := q } ∧ targetFor d v e g ∧ rampAimed e.state e.ramp q g

/-- An entry stands at its place in a list (R99): behind every entry of its class and of the classes before it, an unknown class
after every known one. -/
def placedIn (e : RouteEntry) (others routes : List RouteEntry) : Prop :=
  let rank (f : RouteEntry) : Nat := f.cls.getD 4
  ∃ before behind, others = before ++ behind ∧ routes = before ++ e :: behind ∧ (∀ f, f ∈ before → rank f ≤ rank e)
    ∧ ∀ f, behind.head? = some f → rank e < rank f

/-- A stream can be heard in this station's zones (R100, R110): the station is MEMBER and the stream CARRIED in its directory. -/
def State.hearsStream (s : State) (x : Nat) : Prop := s.member.station = .member ∧ (s.tables.entry x).isCarried = true

/-- What the test of R100 makes of an entry, where its stream can be heard or not: LIVE with its gain starting from 0, WAITING with
gain 0 at once, or, LEAVING and not to be heard, gone. -/
def entryTested (heard : Prop) (e : RouteEntry) (r : Option RouteEntry) : Prop :=
  (heard → e.state = .waiting → r = some { e with state := .live, ramp := .at 0 })
    ∧ (heard → e.state ≠ .waiting → r = some e)
    ∧ (¬heard → e.state = .live → r = some { e with state := .waiting, ramp := .at 0 })
    ∧ (¬heard → e.state = .waiting → r = some e)
    ∧ (¬heard → e.state = .leaving → r = none)

/-- The entries of a list after the test of R100 of those whose streams are in question: every other entry stands, and none changes
its place among the rest. -/
def routesTested (u : State) (asked : Nat → Prop) (before after : List RouteEntry) : Prop :=
  ∃ f : RouteEntry → Option RouteEntry, after = before.filterMap f
    ∧ ∀ e, (asked e.stream → entryTested (u.hearsStream e.stream) e (f e)) ∧ (¬asked e.stream → f e = some e)

/-- A call record fills the call position of a zone (R110): it is RINGING or ACTIVE with the zone in its set, a RINGING one in an
OPEN zone alone; the ACTIVE one goes first, then the lower call id. -/
def LineTables.fills (t : LineTables) (d : ZoneDefinition) (j : Nat) : Prop :=
  let active (k : Nat) : Prop := k < 2 ∧ (t.call k).state = .active ∧ inSet (t.call k).zones d.id = true
  let ringing (k : Nat) : Prop :=
    k < 2 ∧ d.kind = .openZone ∧ (t.call k).state = .ringing ∧ inSet (t.call k).zones d.id = true
  (active j ∧ ∀ k, k < j → ¬active k) ∨ (ringing j ∧ (∀ k, ¬active k) ∧ ∀ k, k < j → ¬ringing k)

/-- A call position after its selection was taken afresh (R110, R111): EMPTY, or with the downlink of the record that fills it, LIVE
while that can be heard. It keeps its gain where neither state nor downlink changes; else it ramps from 0 to 1 where it is LIVE,
and stands at 0 where it is not. -/
def State.positionTaken (u : State) (d : ZoneDefinition) (p q : CallPosition) : Prop :=
  let same := q.state = p.state ∧ q.downlink = p.downlink
  ((∀ j x, u.tables.fills d j → (u.tables.call j).downlink ≠ some x) → q.state = .empty ∧ q.downlink = none)
    ∧ (∀ j x, u.tables.fills d j → (u.tables.call j).downlink = some x → q.downlink = some x
        ∧ (u.hearsStream x → q.state = .live) ∧ (¬u.hearsStream x → q.state = .waiting))
    ∧ (same → q.ramp = p.ramp)
    ∧ (¬same → q.state = .live → q.ramp = { start := 0, target := gainOne, current := 0, steps := 0, running := true })
    ∧ (¬same → q.state ≠ .live → q.ramp.current = 0 ∧ q.ramp.running = false)

/-- A step raises an event at the host (R180): it is among those that join the event list, in their order. -/
def State.raises (s u : State) (k : EventKind) (subject : List Nat) (cause : Option Cause) : Prop :=
  ∃ records : List EventRecord, u.host.events = records.foldl (fun events r => addEvent r events) s.host.events
    ∧ { kind := k, subject := subject, cause := cause, stamp := s.tables.frameCount.setWidth 16 } ∈ records

/-- What a stream notice makes of the route list of a zone before its entries are tested (R101, R99): a VOICE_DOWNLINK leaves the
list; a stream that comes from NONE gives its entry its class, at the place of that class. -/
def classTaken (x : Nat) (before after : StreamEntry) (routes taken : List RouteEntry) : Prop :=
  let others := routes.filter (fun e => e.stream != x)
  match after.parameters with
  | none => taken = routes
  | some p =>
    (p.kind = .voiceDownlink → taken = others)
      ∧ (p.kind ≠ .voiceDownlink →
        (before ≠ .none ∨ holdsRoute x routes = false → taken = routes)
        ∧ (before = .none → ∀ e, routes.find? (fun e => e.stream == x) = some e →
          (e.cls = some p.cls → taken = routes) ∧ (e.cls ≠ some p.cls → placedIn { e with cls := some p.cls } others taken)))

/-- The zones of a station after a change of one stream (R53, R100, R101, R107, R110), with the events of a station with a host:
ROUTE_DROPPED where an entry left as a VOICE_DOWNLINK, STREAM_LOST where a zone lost a stream that played (log 59),
CALL_POSITION_CHANGED where a call position changed but for leaving MEMBER. `cause` is that of the notice. -/
def State.zonesNoticed (s u : State) (x : Nat) (cause : Cause) : Prop :=
  let left := (s.tables.entry x).isCarried = true ∧ (u.tables.entry x).isCarried = false
  ∀ z d, z < 4 → z < s.mixer.zones.length → s.definitions[z]? = some d →
    let v := s.zone z
    ∃ taken tested q,
      classTaken x (s.tables.entry x) (u.tables.entry x) v.routes taken
      ∧ routesTested u (fun y => y = x) taken tested
      ∧ u.positionTaken d v.position q
      ∧ zoneAimed d { v with routes := tested, position := q } (u.zone z)
      ∧ (s.hasHost = true →
          (holdsRoute x v.routes = true → (∃ p, (u.tables.entry x).parameters = some p ∧ p.kind = .voiceDownlink) →
            s.raises u .routeDropped [d.id, x] (some .privateStream))
          ∧ (left → s.member.station = .member →
            (∃ e, e ∈ v.routes ∧ e.stream = x ∧ e.state = .live)
              ∨ (v.position.state = .live ∧ v.position.downlink = some x ∧ q.state = .waiting ∧ q.downlink = some x) →
            s.raises u .streamLost [d.id, x] (some cause))
          ∧ (s.member.station = .member → ¬(q.state = v.position.state ∧ q.downlink = v.position.downlink) →
            s.raises u .callPositionChanged [d.id] (some (positionCause q.state))))

/-- The zones of a station after a change of station state or of the call records (R100, R107, R110, R111): at a change of state
every entry is tested, and at a change of the records none. -/
def State.zonesTaken (s u : State) (tested : Bool) : Prop :=
  ∀ z d, z < 4 → z < s.mixer.zones.length → s.definitions[z]? = some d →
    let v := s.zone z
    ∃ routes q, routesTested u (fun _ => tested = true) v.routes routes ∧ u.positionTaken d v.position q
      ∧ zoneAimed d { v with routes := routes, position := q } (u.zone z)
      ∧ (s.hasHost = true → tested = false → s.member.station = .member →
          ¬(q.state = v.position.state ∧ q.downlink = v.position.downlink) →
          s.raises u .callPositionChanged [d.id] (some (positionCause q.state)))

/-- What a routing action that its owner takes does to a zone (R102, R103): ADD enters the stream at its place with gain 0, ADD and
SET_LEVEL set the level of an entry held and call it back at its place, REMOVE drops an entry or lets it ramp out; every other
entry keeps its place, class, level and state, and every target is computed afresh (R107). No other zone changes. -/
def State.routeTaken (s u : State) (z x action level : Nat) : Prop :=
  let v := s.zone z
  let held := holdsRoute x v.routes = true
  let standing : RouteState := if s.member.station = .member ∧ (s.tables.entry x).isCarried = true then .live else .waiting
  (∀ y, y ≠ z → u.zone y = s.zone y)
    ∧ ∀ d, s.definitions[z]? = some d →
      (action = 0 → ¬held → ∀ p, (s.tables.entry x).parameters = some p → ∃ age routes,
        placedIn { stream := x, cls := some p.cls, level := level, state := standing, ramp := .at 0, age := age } v.routes routes
        ∧ zoneAimed d { v with routes := routes } (u.zone z))
      ∧ (action ≤ 1 → held → zoneAimed d { v with routes := v.routes.map (fun e =>
          if e.stream = x then { e with level := level, state := if e.state = .leaving then standing else e.state } else e) }
          (u.zone z))
      ∧ (action = 2 → ∀ e, v.routes.find? (fun e => e.stream == x) = some e →
        (e.state = .waiting ∨ (e.state = .live ∧ e.ramp.current = 0) →
          zoneAimed d { v with routes := v.routes.filter (fun e => e.stream != x) } (u.zone z))
        ∧ (e.state = .live → e.ramp.current ≠ 0 →
          zoneAimed d { v with routes := v.routes.map (fun e => if e.stream = x then { e with state := .leaving } else e) }
            (u.zone z))
        ∧ (e.state = .leaving → u.mixer = s.mixer))

/-- The blend state after a quality is handed to the engine (R141, R142, R145 to R147), by the runs and the alignment as they
stood. -/
def blendAfterQuality (b : Blend) (q : Quality) : BlendState :=
  match b.state, q with
  | .analogue, .good => if 7 ≤ b.goodRun then (if b.valid then .toDigital else .aligning) else .analogue
  | .aligning, .poor => .analogue
  | .aligning, .lost => .analogue
  | .toDigital, .poor => .toAnalogue
  | .toDigital, .lost => .toAnalogue
  | .digital, .poor => if 1 ≤ b.poorRun then .toAnalogue else .digital
  | .digital, .lost => .toAnalogue
  | state, _ => state

/-- The cause of the change of blend state that a quality brings (R141, R142, R145, R146, Table 8-2). -/
def blendCauseAfter (b : Blend) (q : Quality) : Cause :=
  match b.state, q with
  | .analogue, _ => .goodRun
  | .aligning, _ => .abandoned
  | _, .lost => .lost
  | _, _ => .poor

/-- The host port after an event with its subject and cause (R180), raised in a state. -/
def State.eventRaised (s : State) (k : EventKind) (subject : List Nat) (cause : Option Cause) : HostPort :=
  if s.hasHost then
    { s.host with events := addEvent { kind := k, subject := subject, cause := cause,
                                       stamp := s.tables.frameCount.setWidth 16 } s.host.events }
  else s.host

/-- The state in which the blend engine has gone on to a blend state (R140): both runs 0 and BLEND_CHANGED raised. -/
def State.blendGoes (s : State) (b : Blend) (new : BlendState) (cause : Cause) : State :=
  { s with blend := { b with state := new, goodRun := 0, poorRun := 0 },
           host := s.eventRaised .blendChanged [blendCode new] (some cause) }

/-- The parameters of a request that are in range whatever the state (R61 to R64, R104, R119 to R124, R157, R172, R173, R179);
a request whose ranges depend on the state counts here by the others alone. -/
def requestInRange : Instr → Prop
  | .getInfo selection => selection.toNat < 64
  | .stayAwake flag => flag.toNat ≤ 1
  | .offerStream index kind channels cls binding number => index.toNat ≤ 3 ∧ kind.toNat ≤ 4 ∧ 1 ≤ channels.toNat
      ∧ channels.toNat ≤ 8 ∧ cls.toNat ≤ 3 ∧ ∃ b, bindingOf binding number = some b
  | .carryStream index first => index.toNat ≤ 3 ∧ (first.toNat ≤ 39 ∨ first = 255)
  | .dropStream index => index.toNat ≤ 3
  | .withdrawStream index => index.toNat ≤ 3
  | .readDirectory first count => first.toNat ≤ 63 ∧ 1 ≤ count.toNat ∧ count.toNat ≤ 64
  | .route zone stream action level => zone.toNat ≤ 15 ∧ stream.toNat ≤ 63 ∧ action.toNat ≤ 2 ∧ level.toNat ≤ 63
  | .clipLoadBegin clip offset length => clip.toNat ≤ 31 ∧ 1 ≤ length.toNat ∧ length.toNat ≤ 192000 ∧ offset.toNat % 8 = 0
  | .clipData clip samples => clip.toNat ≤ 31 ∧ 1 ≤ samples.length ∧ samples.length ≤ 64
  | .clipLoadEnd clip => clip.toNat ≤ 31
  | .clipLock clip => clip.toNat ≤ 31
  | .clipStatus first count => first.toNat ≤ 31 ∧ 1 ≤ count.toNat ∧ count.toNat ≤ 32
  | .play clip level repeats => clip.toNat ≤ 31 ∧ level.toNat ≤ 63 ∧ 1 ≤ repeats.toNat
  | .cadenceSet channel _ => channel.toNat ≤ 7
  | .cadenceStart channel => channel.toNat ≤ 7
  | .cadenceStop channel => channel.toNat ≤ 7
  | .readCadence channel => channel.toNat ≤ 7
  | .callRing id index _ => id.toNat ≤ 1 ∧ index.toNat ≤ 3
  | .callAnswer id mic index reference => id.toNat ≤ 1 ∧ mic.toNat ≤ 15 ∧ index.toNat ≤ 3
      ∧ (reference.toNat ≤ 63 ∨ reference = 255)
  | .callHold id => id.toNat ≤ 1
  | .callResume id => id.toNat ≤ 1
  | .callZones id _ => id.toNat ≤ 1
  | .callEnd id => id.toNat ≤ 1
  | .noteSend target total _ => target.toNat ≤ 15 ∧ 1 ≤ total.toNat ∧ total.toNat ≤ 256
  | .noteRead _ count => 1 ≤ count.toNat ∧ count.toNat ≤ 64
  | _ => True

/-- The fields of a CALL that a request gives no value: 255 and no zones (R157). -/
def emptyCallFields : CallFields := { downlink := 255, uplink := 255, reference := 255, mic := 255, zones := 0 }

/-- The message that a request queues in MEMBER, with its AUTO mark and companion (R57, R61 to R63, R157). -/
def State.requestMessage (t : State) : Instr → Option (Message × Bool × Option Binding)
  | .offerStream index kind channels cls binding number =>
    (bindingOf binding number).map (fun b => (.offer index kind channels cls, false, some b))
  | .carryStream index first => if first = 255 then some (.claim index 0, true, none) else some (.claim index first, false, none)
  | .dropStream index => some (.release index, false, none)
  | .withdrawStream index => some (.withdraw index, false, none)
  | .callRing id index zones => some (.call id 0 { emptyCallFields with
      downlink := BitVec.ofNat 8 (t.number * 4 + index.toNat), zones := zones }, false, none)
  | .callAnswer id mic index reference => some (.call id 1 { emptyCallFields with
      uplink := BitVec.ofNat 8 (mic.toNat * 4 + index.toNat), reference := reference, mic := mic }, false, none)
  | .callHold id => some (.call id 2 emptyCallFields, false, none)
  | .callResume id => some (.call id 3 emptyCallFields, false, none)
  | .callZones id zones => some (.call id 4 { emptyCallFields with zones := zones }, false, none)
  | .callEnd id => some (.call id 5 emptyCallFields, false, none)
  | _ => none

/-- The state in which a message of the host has joined the send queue (R18). -/
def State.hostQueued (t : State) (m : Message) (auto : Bool) (companion : Option Binding) : State :=
  let e : QueueEntry := { message := m, originator := .host, auto := auto, companion := companion, vetoes := 0, hold := 0,
                          ready := true, order := t.line.nextOrder }
  { t with line := { t.line with queue := placeEntry e t.line.queue, nextOrder := t.line.nextOrder + 1 } }

/-- The role that a set-up asks for (R127). -/
def setupRole : CadenceSetup → CadenceRole
  | .leader .. => .leader
  | .follower l .. => .follower l.toNat
  | _ => .off

/-- A set-up whose values are within Table 7-4, for a channel (R127 check 1). -/
def State.setupFits (t : State) (c : Nat) : CadenceSetup → Prop
  | .off => True
  | .leader period _ trigger => 48 ≤ period.toNat ∧ period.toNat ≤ 480000 ∧ trigger.toNat ≤ 1
  | .follower l delay clip level => l.toNat ≤ 7 ∧ l.toNat ≠ c ∧ (t.channel l.toNat).role = .leader
      ∧ delay.toNat ≤ 479999 ∧ clip.toNat ≤ 31 ∧ level.toNat ≤ 63
  | .other _ => False

/-- A channel that takes part in a running cadence (R127 check 2): a RUNNING leader, a follower of one, or a COUNTING
follower. -/
def State.takesPart (t : State) (c : Nat) : Prop :=
  ((t.channel c).role = .leader ∧ (t.channel c).running = true)
    ∨ ∃ l, (t.channel c).role = .follower l ∧ ((t.channel l).running = true ∨ (t.channel c).counting = true)

/-- A channel that a set-up has been written to (R127): the staged fields, the level and the trigger flag; in a new role it
is OFF with no fields, STOPPED, or IDLE with its missed mark clear. -/
def setUpChannel (k : CadenceChannel) : CadenceSetup → CadenceChannel
  | .leader period repetitions trigger =>
    { k with role := .leader, running := k.running && k.role == .leader, stagedPeriod := period.toNat,
             stagedRepetitions := repetitions.toNat, trigger := trigger == 1 }
  | .follower l delay clip level =>
    { k with role := .follower l.toNat, counting := k.counting && k.role == .follower l.toNat,
             missed := k.missed && k.role == .follower l.toNat, stagedDelay := delay.toNat, stagedClip := clip.toNat,
             level := level.toNat }
  | _ => if k.role = .off then k else .reset

/-- A play without the groups it holds. -/
def Play.bare (p : Play) : Play := { p with groups := [] }

/-- A place holds a play that has just begun (R124, R125): from its first sample, which sounds 16 local samples later. -/
def State.playBegun (u : State) (place clip level repeats : Nat) (starter : Starter) : Prop :=
  ∃ p, u.announce.plays.getD place none = some p ∧ p.clip = clip ∧ p.level = level ∧ p.repeats = repeats ∧ p.starter = starter
    ∧ p.done = 0 ∧ p.position = 0 ∧ p.wait = 16 ∧ p.finished = false

/-- How many places of the play list below a number are free. -/
def State.freeBelow (s : State) (n : Nat) : Nat :=
  ((List.range n).filter (fun p => (s.announce.plays.getD p none).isNone)).length

/-- How many followers of a leader below a channel number fire at once and find their clip playable (R130): those whose staged
delay is 0. -/
def State.soundingBelow (s : State) (leader n : Nat) : Nat :=
  ((List.range n).filter (fun f => (s.channel f).role == .follower leader && (s.channel f).stagedDelay == 0
    && (s.clip (s.channel f).stagedClip).state.playable)).length

/-- The followers of a leader whose staged delay is 0 are triggered and fire at once (R129, R130), in ascending channel number: each
starts a play of its staged clip in the lowest place still free, or sets its missed mark, where the clip cannot be played or no
place is left. `missed` gives the marks as they stood. Every play in the list stays, and every other free place stays free. -/
def State.zeroDelaysFire (s u : State) (leader : Nat) (missed : Nat → Bool) : Prop :=
  (∀ f, f < 8 → (s.channel f).role = .follower leader → (s.channel f).stagedDelay = 0 →
    let k := s.channel f
    let fired (mark : Bool) : CadenceChannel := { k with activeDelay := 0, activeClip := k.stagedClip, remaining := 0
                                                         counting := false, missed := mark }
    let sounds := (s.clip k.stagedClip).state.playable = true ∧ s.soundingBelow leader f < s.freeBelow 4
    (sounds → u.channel f = fired (missed f)
      ∧ ∃ place, place < 4 ∧ s.announce.plays.getD place none = none ∧ s.freeBelow place = s.soundingBelow leader f
        ∧ u.playBegun place k.stagedClip k.level 1 (.follower f))
    ∧ (¬sounds → u.channel f = fired true))
  ∧ (∀ place p, s.announce.plays.getD place none = some p → (u.announce.plays.getD place none).map Play.bare = some p.bare)
  ∧ ∀ place, place < 4 → s.announce.plays.getD place none = none → s.soundingBelow leader 8 ≤ s.freeBelow place →
      u.announce.plays.getD place none = none

/-- What a receiver makes of a control field that others drove (R8). -/
def heardField (others : Option (BitVec 187)) (readable : Bool) : Field :=
  match others with
  | none => .empty
  | some w =>
    match judgeField w with
    | some (n, m) => if readable then .passed n m else .failed
    | none => .failed

/-- Whether a part is one that the inbound box accepts from a sender (R169). -/
def State.acceptsPart (t : State) (sender index total : Nat) : Prop :=
  1 ≤ total ∧ total ≤ 256 ∧ index ≤ (total - 1) / 16
    ∧ match t.note.box with
      | .free => index = 0
      | .filling from' length next _ _ => from' = sender ∧ (index = 0 ∨ (index = next ∧ total = length))
      | .full .. => False

/-- A run of c FREE slots from f that ends at or below a last slot (R55). -/
def State.freeRun (t : State) (last c f : Nat) : Prop :=
  f + c ≤ last + 1 ∧ ∀ i, i < c → t.tables.slots.getD (f + i) (.held 0) = .free

/-- The first slot that automatic choice gives a stream (R55): the lowest run in slots 0 to 37; for class 0 else the lowest in
slots 0 to 39. -/
def State.choosesRun (t : State) (p : StreamParameters) (f : Nat) : Prop :=
  (t.freeRun 37 p.channels f ∧ ∀ g, g < f → ¬t.freeRun 37 p.channels g)
    ∨ ((∀ g, ¬t.freeRun 37 p.channels g) ∧ p.cls = 0 ∧ t.freeRun 39 p.channels f
      ∧ ∀ g, g < f → ¬t.freeRun 39 p.channels g)

/-- No run exists for a stream (R55). -/
def State.noRunFor (t : State) (p : StreamParameters) : Prop :=
  (∀ g, ¬t.freeRun 37 p.channels g) ∧ (p.cls = 0 → ∀ g, ¬t.freeRun 39 p.channels g)

/-- The STREAM descriptor of the own local index i, as the own directory holds the stream (R29, Table 1-5). -/
def State.describesStream (t : State) (i : Nat) (d : Descriptor) : Prop :=
  match t.tables.entry (t.number * 4 + i) with
  | .none => d = .stream (BitVec.ofNat 8 i) 0 0 0 0 0
  | .offered p => d = .stream (BitVec.ofNat 8 i) 1 (BitVec.ofNat 8 (kindCode p.kind)) (BitVec.ofNat 8 p.channels)
      (BitVec.ofNat 8 p.cls) 255
  | .carried p f => d = .stream (BitVec.ofNat 8 i) 2 (BitVec.ofNat 8 (kindCode p.kind)) (BitVec.ofNat 8 p.channels)
      (BitVec.ofNat 8 p.cls) (BitVec.ofNat 8 f)

/-- The descriptor that the next presence message carries (R29): that of the stream the pointer names, or of the lowest call
record from the pointer on that the station owns, or of stream 0 where it owns none. -/
def State.nextDescribed (t : State) (d : Descriptor) : Prop :=
  let owns (j : Nat) : Prop := (t.tables.call j).owner = some t.number
  (∀ i, t.member.pointer = .stream i → t.describesStream i d)
    ∧ ∀ k, t.member.pointer = .callFrom k →
      (∀ j, j < 2 → k ≤ j → owns j → (∀ l, k ≤ l → l < j → ¬owns l) → d = callDescriptor j (t.tables.call j))
        ∧ ((∀ j, j < 2 → k ≤ j → ¬owns j) → t.describesStream 0 d)

/-- What stands ready when a control field begins (R11, R29, R54, R55): the first queued message whose hold has run out, an AUTO
claim with its first slot chosen, or a due presence message where that has the lower class. -/
def State.standsReady (t : State) (sent : Sent) : Prop :=
  let first := t.line.queue.find? (fun e => e.ready)
  (∃ e, first = some e ∧ e.auto = false ∧ (t.line.presenceDue = true → e.message.cls ≤ 1)
      ∧ sent = .queued e.order e.message)
    ∨ (∃ e i g f, first = some e ∧ e.auto = true ∧ e.message = .claim i g ∧ t.line.presenceDue = false
      ∧ sent = .queued e.order (.claim i (BitVec.ofNat 8 f))
      ∧ ((∃ p, t.tables.entry (t.number * 4 + i.toNat) = .offered p ∧ t.choosesRun p f)
        ∨ ((∀ p, t.tables.entry (t.number * 4 + i.toNat) ≠ .offered p) ∧ f = 0)))
    ∨ (∃ r d, t.line.presenceDue = true ∧ t.startUp.record = some r ∧ (∀ e, first = some e → 1 < e.message.cls)
      ∧ t.nextDescribed d ∧ sent = .presence (.presence (rolesByte r.roles) (zoneSetOf r.zones) (privateSetOf r.zones)
          (t.tables.ownedSlots r.station) d))

/-- The messages that the start-up unit queues at the entry into MEMBER from JOINING, each with its AUTO mark and companion (R182):
in order of local index the OFFER of an autonomous offer and, where it is to be carried, its AUTO CLAIM straight after it. -/
def offerMessages (r : StartUpRecord) : List (Message × Bool × Option Binding) :=
  (List.range 4).flatMap (fun i => (r.offers.filter (fun o => o.index == i)).flatMap (fun o =>
    (.offer (BitVec.ofNat 8 i) (BitVec.ofNat 8 (kindCode o.kind)) (BitVec.ofNat 8 o.channels) (BitVec.ofNat 8 o.cls), false,
        some o.binding)
      :: if o.carry then [(.claim (BitVec.ofNat 8 i) 0, true, none)] else []))

/-! ## The start-up record (R181) -/

/-- A region with its fields within Table 5-3. -/
def regionFits (g : Region) : Prop :=
  g.group ∈ [1, 2, 4, 8] ∧ g.firstBank ≤ 7 ∧ g.group ∣ g.firstBank ∧ g.firstRow ≤ 511 ∧ g.group ≤ g.rows ∧ g.rows ≤ 4096
    ∧ g.group ∣ g.rows ∧ g.firstRow + g.rows / g.group ≤ 512

/-- A region places one of its rows in a bank at a bank row (R81). -/
def regionPlaces (g : Region) (bank row : Nat) : Prop :=
  ∃ k, k < g.rows ∧ bank = g.firstBank + k % g.group ∧ row = g.firstRow + k / g.group

/-- The rows of a client's space under a region plan (R81). -/
def spaceRows (regions : List Region) (c : Client) : Nat :=
  ((regions.filter (fun g => g.client == c)).map (fun g => g.rows)).sum

/-- A region plan that is consistent (R82). -/
def planFits (r : StartUpRecord) : Prop :=
  (∀ g, g ∈ r.regions → regionFits g)
    ∧ r.regions.Pairwise (fun g h => ∀ bank row, ¬(regionPlaces g bank row ∧ regionPlaces h bank row))
    ∧ ((∃ d, d ∈ r.zones ∧ d.pairs ≠ []) → 120 ≤ spaceRows r.regions .align)
    ∧ (r.roles.mics = true → 40 ≤ spaceRows r.regions .echo)
    ∧ (r.roles.tuner = true → 2 * (r.nominalDelay + 2368) ≤ 256 * spaceRows r.regions .blend)

/-- Zone definitions within Table 6-1, no id and no output pair given twice (R71, R98). -/
def zonesFit (r : StartUpRecord) : Prop :=
  (∀ d, d ∈ r.zones → d.id ≤ 15 ∧ 1 ≤ d.pairs.length ∧ d.pairs.length ≤ 3 ∧ d.duckDepth ≤ 30
      ∧ ∀ o, o ∈ d.pairs → o.pair ≤ 5 ∧ o.delay ≤ 2400 ∧ o.trim ≤ 63)
    ∧ r.zones.Pairwise (fun d e => d.id ≠ e.id)
    ∧ (r.zones.flatMap (fun d => d.pairs)).Pairwise (fun o q => o.pair ≠ q.pair)

/-- Autonomous routes to defined zones, no stream twice in a zone and no more than six to a zone (R117). -/
def routesFit (r : StartUpRecord) : Prop :=
  (∀ t, t ∈ r.routes → t.zone ≤ 15 ∧ t.stream ≤ 63 ∧ t.level ≤ 63 ∧ ∃ d, d ∈ r.zones ∧ d.id = t.zone)
    ∧ r.routes.Pairwise (fun t v => ¬(t.zone = v.zone ∧ t.stream = v.stream))
    ∧ ∀ z, (r.routes.filter (fun t => t.zone == z)).length ≤ 6

/-- An autonomous offer whose binding and kind go together by Table 3-5 and that the station's zones and roles allow (R182). -/
def offerFits (r : StartUpRecord) (o : AutonomousOffer) : Prop :=
  o.index ≤ 3 ∧ 1 ≤ o.channels ∧ o.channels ≤ 8 ∧ o.cls ≤ 3
    ∧ (match o.binding with
      | .input p => p ≤ 3 ∧ (o.kind = .programme ∨ o.kind = .voiceDownlink)
      | .blend => o.kind = .programme ∧ r.roles.tuner = true
      | .announce => o.kind = .announce
      | .uplink => o.kind = .voiceUplink ∧ r.roles.mics = true
      | .zoneMix z => z ≤ 15 ∧ o.kind = .reference ∧ ∃ d, d ∈ r.zones ∧ d.id = z ∧ d.kind = .openZone)
    ∧ (o.kind = .voiceDownlink ∨ o.kind = .voiceUplink → o.cls = 0 ∧ o.channels = 1)

/-- The fields of a record that R181 takes as valid (Table 11-7, R71, R82, R98, R117, R182). -/
def recordFits (r : StartUpRecord) : Prop :=
  r.station ≤ 15 ∧ r.zones.length ≤ 4 ∧ r.regions.length ≤ 12 ∧ 24000 ≤ r.nominalDelay ∧ r.nominalDelay ≤ 192000
    ∧ r.offers.length ≤ 4 ∧ r.routes.length ≤ 8 ∧ planFits r ∧ zonesFit r ∧ routesFit r
    ∧ (∀ o, o ∈ r.offers → offerFits r o) ∧ r.offers.Pairwise (fun o p => o.index ≠ p.index)

/-! ## The sample store (chapter 5) -/

/-- The head of a queue claims a row of a bank (R86): its burst has not begun. -/
def Store.claims (st : Store) (q : QueueId) (bank row : Nat) : Prop :=
  ∃ r rest word, st.queue q = r :: rest ∧ st.inFlight q = false ∧ st.named r = some (bank, row, word)

/-- The next step of a queue's head takes an opening (Table 5-6, R91): its bank is IDLE and its refresh not urgent. -/
def Store.wantsOpening (st : Store) (q : QueueId) : Bool :=
  match st.queue q with
  | [] => false
  | r :: _ => !st.inFlight q && (match st.named r with
    | some (b, _, _) => decide ((st.bank b).state = .idle ∧ (st.bank b).debt < 8)
    | none => false)

/-- How many of the heads of the first queues, the most urgent first, take an opening in their next step (R86). -/
def Store.openingsOf (st : Store) (queues : Nat) : Nat :=
  ((allQueues.filter (fun q => decide (q.place < queues))).filter st.wantsOpening).length

/-- How many IDLE banks have a property. -/
def Store.idleBanks (st : Store) (p : Nat → Bool) : Nat :=
  ((List.range 8).filter (fun b => decide ((st.bank b).state = .idle) && p b)).length

/-- A bank's refresh comes before another bank's (R87): by highest debt, then by lowest number. -/
def Store.refreshedBefore (st : Store) (c b : Nat) : Bool :=
  decide ((st.bank b).debt < (st.bank c).debt ∨ ((st.bank c).debt = (st.bank b).debt ∧ c < b))

/-- At most one step on a bank (Table 5-2, R87): a row opened or a refresh begun on an IDLE bank, a close or a burst begun on an
OPEN one without a burst. -/
def bankStep (k n : Bank) : Prop :=
  n = k
    ∨ (k.state = .idle ∧ ((∃ r, n = { k with state := .opening r }) ∨ n = { k with state := .refreshing }))
    ∨ ((∃ r, k.state = .open r) ∧ k.burst = none ∧ (n = { k with state := .closing } ∨ ∃ q, n = { k with burst := some q }))

/-- Whether a request's deadline frame is at or below a store frame count, across its return to 0 (R85). -/
def Request.reached (r : Request) (count : BitVec 32) : Bool :=
  match r.deadline with
  | some d => decide ((d - count).toInt ≤ 0)
  | none => false

/-- The requests that the next store frame boundary withdraws (R85): their deadline is reached and their burst has not begun. -/
def Store.lapsed (st : Store) : List Request :=
  allQueues.flatMap (fun q =>
    (if st.inFlight q then (st.queue q).drop 1 else st.queue q).filter (fun r => r.reached (st.frames + 1)))

/-- The gap counts after one more gap of a request (R93): its client's count rises by one, held at 65,535. -/
def countGap (gaps : List Nat) (r : Request) : List Nat :=
  gaps.modify (clientCode r.queue.client) (fun n => min 65535 (n + 1))

/-- What a store frame boundary makes of the store before the arbiter acts (R84, R85): the count, the budget and the allowance;
requests whose deadline is reached are withdrawn as gaps, or marked late with their burst in flight; every other request waits. -/
def Store.boundary (st m : Store) : Prop :=
  m = { st with frames := st.frames + 1, budget := 6, allowance := 2, queues := m.queues, gaps := m.gaps }
    ∧ m.gaps = st.lapsed.foldl countGap st.gaps
    ∧ ∀ q, (st.inFlight q = false → m.queue q = (st.queue q).filter (fun r => !r.reached (st.frames + 1)))
      ∧ (∀ r rest, st.inFlight q = true → st.queue q = r :: rest →
          m.queue q = { r with late := r.late || r.reached (st.frames + 1) }
            :: rest.filter (fun r => !r.reached (st.frames + 1)))

/-- A clip lies in a bank (R118): one of its words is in a row of the CLIP space that the bank holds. -/
def State.clipLiesIn (s : State) (i bank : Nat) : Prop :=
  ∃ w row, (s.clip i).offset ≤ w ∧ w < (s.clip i).offset + (s.clip i).length
    ∧ placeRow (s.store.regionsOf .clip) (w / 256) = some (bank, row)

/-- A clip that holds words lies in a bank whose debt reaches 16 at the next rise (R92, R122). -/
def State.clipOverdue (s : State) (i : Nat) : Prop :=
  (s.clip i).state.holdsWords = true ∧ ∃ b, b < 8 ∧ (s.store.bank b).debt = 15 ∧ s.clipLiesIn i b

/-- A request becomes a gap (R93, R115, R125, R135, R163): its client's count rises, STORE_GAP is raised, no bank and no other
request changes. Nothing else changes for a write of ALIGN, BLEND or CLIP; an ECHO gap sets the freeze count. -/
def State.gapOf (s u : State) (r : Request) (cause : Cause) : Prop :=
  u.store = { s.store with gaps := countGap s.store.gaps r }
    ∧ u.host = s.eventRaised .storeGap [clientCode r.queue.client, accessCode r.access] (some cause)
    ∧ match r.purpose with
      | .alignWrite .. | .blendWrite .. | .clipWrite .. => u = { s with store := u.store, host := u.host }
      | .alignRead .. => u = { s with store := u.store, host := u.host, mixer := u.mixer }
      | .blendRead .. => u = { s with store := u.store, host := u.host, blend := u.blend }
      | .clipRead .. => u = { s with store := u.store, host := u.host, announce := u.announce }
      | .echoWrite .. | .echoRead .. => u = { s with store := u.store, host := u.host, call := u.call }
          ∧ u.call.freeze = 4800 ∧ u.call.frozen = true

/-! ## Samples (chapters 6 to 9) -/

/-- A sum of samples times gains as a sample (R109): gains are steps of 2^-32 (log 12), the direction of rounding is open (log
13), and the value is limited to 24 bits. -/
def mixed (total : Int) : Sample := limit24 (roundDiv total gainOne)

/-- A ramp one local sample later (R108): a running one has taken one of its 480 equal steps. -/
def rampStepped (r q : Ramp) : Prop :=
  (r.running = true → r.steps < 480 →
      q = { r with steps := r.steps + 1, current := (r.start * (480 - (r.steps + 1)) + r.target * (r.steps + 1)) / 480 })
    ∧ (r.running = false ∨ 480 ≤ r.steps → q = r)

/-- The sample of a channel of a stream as last handed: zero where it is not valid or was not handed (R2, R109). -/
def State.lastHanded (s : State) (x channel : Nat) : Sample :=
  match s.handed x channel with
  | some (true, y) => y
  | _ => 0

/-- What a stream gives to one side of a zone (R109): channel 1 to the right where it has two or more, else channel 0. -/
def State.sideSample (s : State) (x : Nat) (right : Bool) : Sample :=
  match (s.tables.entry x).parameters with
  | some p => s.lastHanded x (if right && p.channels != 1 then 1 else 0)
  | none => 0

/-- What plays on one side of a zone: LIVE and LEAVING entries at their gains, and a LIVE call position (R109, R110). -/
def State.zoneTotal (s : State) (v : Zone) (right : Bool) : Int :=
  ((v.routes.filter (fun e => e.state != .waiting)).map (fun e =>
      (s.sideSample e.stream right).toInt * e.ramp.current)).sum
    + match v.position.state, v.position.downlink with
      | .live, some x => (s.lastHanded x 0).toInt * v.position.ramp.current
      | _, _ => 0

/-- The position of a ring that lies a delay behind the write position (R113, R134, R163). -/
def behind (length write : Nat) (delay : Int) : Nat := (((write : Int) - delay) % (length : Int)).toNat

/-- What a path or tap hears at a position (R115, R135, R163): the words it holds, silence for a gap and for a hole. Where no read
has delivered it is open (log 14). -/
def heardAt (held : List HeldGroup) (r : Ring) (position reader count : Nat) : Stereo :=
  match held.find? (fun h => h.group == position / 8) with
  | none => if position / 8 ∈ r.clean then Config.undelivered reader count else .zero
  | some h =>
    if h.left = .silent ∨ h.right = .silent then .zero
    else match h.left, h.right with
      | .words l, .words m => { left := l.getD (position % 8) 0, right := m.getD (position % 8) 0 }
      | _, _ => Config.undelivered reader count

/-- The sample that a play sounds (R125): from its words, silence for a gap and for a group not held; open where the read has not
delivered (log 14). -/
def playSample (p : Play) (place count : Nat) : Sample :=
  match p.groups.find? (fun g => g.repetition == p.done && g.group == p.position / 8) with
  | none => 0
  | some g =>
    match g.part with
    | .words samples => samples.getD (p.position % 8) 0
    | .silent => 0
    | .awaited => (Config.undelivered (10 + place) count).left

/-- What the play in a place adds to the announce source, by its level (R126): nothing before its wait of 16 local samples is over
(R125). -/
def State.playAdds (s : State) (place : Nat) : Int :=
  match s.announce.plays.getD place none with
  | some p => if p.finished = false ∧ p.wait ≤ 1 then (playSample p place s.localCount).toInt * attenuation p.level else 0
  | none => 0

/-- A play after it has sounded a sample of a clip (R125): on to the next, to the next repetition, or done. -/
def playMoved (p q : Play) (length : Nat) : Prop :=
  q.clip = p.clip ∧ q.level = p.level ∧ q.repeats = p.repeats ∧ q.starter = p.starter
    ∧ (p.position + 1 < length → q.position = p.position + 1 ∧ q.done = p.done ∧ q.wait = 1 ∧ q.finished = false)
    ∧ (length ≤ p.position + 1 → p.done + 1 < p.repeats →
        q.position = 0 ∧ q.done = p.done + 1 ∧ q.wait = 1 ∧ q.finished = false)
    ∧ (length ≤ p.position + 1 → p.repeats ≤ p.done + 1 → q.finished = true)

/-- The decoder read of a local sample makes no slip (R74). -/
def Ports.keepsStep (p : Ports) : Prop :=
  p.reading = false ∨ p.buffer = [] ∨ p.slipGuard < 64 ∨ (8 ≤ p.buffer.length ∧ p.buffer.length ≤ 56)

/-- One side of the blend output (R136, R143, R147): the analogue path, old and main tap by the weight of a crossfade, and the
digital path by the mix fraction in steps of 1/2400, all by the programme gain in steps of 1/480. The direction of rounding is
open (log 13). -/
def blendSide (gain mix weight : Nat) (old main digital : Sample) : Sample :=
  let analogue : Int := (480 - weight : Nat) * old.toInt + weight * main.toInt
  limit24 (roundDiv (gain * ((2400 - mix : Nat) * analogue + mix * 480 * digital.toInt)) (480 * 480 * 2400))

/-- The microphones of the record in force, added up (R72, R162): the four channels of IN1 and IN2. -/
def State.microphonesTotal (s : State) (i : InputSamples) : Int :=
  let chosen (m : Nat) (x : Sample) : Int := match s.inForce with
    | some r => if r.microphones.getLsbD m then x.toInt else 0
    | none => 0
  chosen 0 i.in1.left + chosen 1 i.in1.right + chosen 2 i.in2.left + chosen 3 i.in2.right

/-- The reference sample of the canceller (R163): channel 0 of the served reference while it is CARRIED. -/
def State.referenceNow (s : State) : Sample :=
  match s.call.servedReference with
  | some x => if (s.tables.entry x).isCarried then s.lastHanded x 0 else 0
  | none => 0

/-- The canceller's reference is usable (R164). -/
def State.hearsReference (s : State) : Prop :=
  ∃ j x, s.call.served = some j ∧ (s.tables.call j).reference = some x ∧ s.member.station = .member
    ∧ (s.tables.entry x).isCarried = true ∧ s.call.notValidRun < 48

/-- The downlink of the record that the canceller serves is live (R162). -/
def State.hearsDownlink (s : State) : Prop :=
  ∃ j x, s.call.served = some j ∧ (s.tables.call j).downlink = some x ∧ (s.tables.entry x).isCarried = true

/-- The echo estimate (R162): coefficient k, in steps of 2^-32, times its sample, added up over k from 0 to 1,023. -/
def echoOf (coefficients : List Int) (sample : Nat → Int) : Int :=
  roundDiv ((List.range 1024).map (fun k => coefficients.getD k 0 * sample k)).sum gainOne

/-- The fallback gain one local sample later (R162): towards its value for the downlink as it is now, by 480 steps from where it
stands. -/
def fallbackStepped (g h : Ramp) (before now : Bool) : Prop :=
  let value := if now then attenuation 12 else gainOne
  (now = before → ∃ r, rampStepped g r ∧ h = if r.steps = 480 then .at r.target else r)
    ∧ (now ≠ before → g.current = value → h = .at value)
    ∧ (now ≠ before → g.current ≠ value →
        rampStepped { start := g.current, target := value, current := g.current, steps := 0, running := true } h)

/-- Whether a command is a reset: the rows that act while the reset pin is held. -/
def isReset : Instr → Bool
  | .powerOn => true
  | .resetPinAsserted => true
  | .resetLine => true
  | _ => false

/-! ## Frames: blocks a command leaves alone -/

/-- The blocks that count local samples, the store and the start-up unit stand as they were. -/
def State.sameAudio (s u : State) : Prop :=
  u.follower = s.follower ∧ u.ports = s.ports ∧ u.store = s.store ∧ u.announce = s.announce ∧ u.blend = s.blend
    ∧ u.localCount = s.localCount

/-- The line side stands as it was: line interface, line tables, station state, note unit, start-up unit. -/
def State.sameLine (s u : State) : Prop :=
  u.line = s.line ∧ u.tables = s.tables ∧ u.member = s.member ∧ u.note = s.note ∧ u.startUp = s.startUp

/-! ## Invariants -/

/-- The words of the store keep their canonical form (log 25). -/
def State.memoryCanonical (s : State) : Prop := s.store.memory.wf = true

/-- The gate agrees with its gain (R69): OPEN at gain 1, SHUT at gain 0, never above 1. -/
def State.gateLaw (s : State) : Prop :=
  s.follower.gain ≤ 480
    ∧ (s.follower.gate = .open → s.follower.gain = 480)
    ∧ (s.follower.gate = .shut → s.follower.gain = 0)
    ∧ (s.follower.state = .locked ↔ (s.follower.gate = .open ∨ s.follower.gate = .opening))

/-- Every queued message entered before the next one will (the order of entry is the model's own count), and no message of the
host waits (R18). -/
def State.orderLaw (s : State) : Prop :=
  (∀ e, e ∈ s.line.queue → e.order < s.line.nextOrder) ∧ ∀ e, e ∈ s.line.waiting → e.originator ≠ .host

/-- A stream is OFFERED or CARRIED only while its station's entry is present (R45). -/
def State.directoryLaw (s : State) : Prop :=
  ∀ x, x < 64 → s.tables.entry x ≠ .none → (s.tables.station (x / 4)).present = true

/-- At most one call record is ACTIVE (R150). -/
def State.oneActiveCall (s : State) : Prop :=
  ¬((s.tables.call 0).state = .active ∧ (s.tables.call 1).state = .active)

/-- The send queue holds at most 8 entries (R18), in order of class. -/
def State.queueLaw (s : State) : Prop :=
  s.line.queue.length ≤ 8 ∧ s.line.queue.Pairwise (fun e f => e.message.cls ≤ f.message.cls)

/-- The tables have their fixed sizes: 16 stations, 64 streams, 40 slots, 2 call records (chapters 1, 2, 3, 9). -/
def State.tableSizes (s : State) : Prop :=
  s.tables.roster.length = 16 ∧ s.tables.directory.length = 64 ∧ s.tables.slots.length = 40 ∧ s.tables.calls.length = 2

/-- The tables of the blocks have their fixed sizes, and a staged period lies at 48 local samples or more (Table 7-4). -/
def State.fixedSizes (s : State) : Prop :=
  s.tableSizes ∧ s.line.bindings.length = 4 ∧ s.store.banks.length = 8 ∧ s.store.queues.length = 5
    ∧ s.mixer.zones.length = 4 ∧ s.mixer.paths.length = 6 ∧ s.announce.clips.length = 32
    ∧ s.announce.plays.length = 4 ∧ s.announce.channels.length = 8
    ∧ ∀ k, k ∈ s.announce.channels → 48 ≤ k.stagedPeriod

end Sys2Proof.Machine
end

