-- ==== Sys2Proof/WellFormed.lean ====
section
/-! DEFINITION. Well-formed commands: the few conditions on operands that their types do not already say. -/

namespace Sys2Proof

/-- A command is well formed: a frame has forty audio slots (R1); the count of a list of samples is one byte
(R177); Note Send carries as many bytes as its total length says (R177); a transfer carries at most a request of
272 parameter bytes with its header and check (Table 11-1). -/
def Instr.wellFormed : Instr → Bool
  | .audioSlots reads => reads.length == 40
  | .clipData _ samples => decide (samples.length ≤ 255)
  | .noteSend _ total data => data.length == total.toNat
  | .badTransfer bytes => decide (bytes.length ≤ 277)
  | _ => true

end Sys2Proof
end

