-- ==== Sys2Proof/Certificates/Slice0/Obligations.lean ====
section
/-! DEFINITION. The statements for the provers, by the numbered rules of the spec. -/

open Sys2Proof Sys2Proof.Machine

/-- A step takes the command at the front of the queue and runs it with the queue's rest; on an empty queue the block idles (log
3). -/
def Obligations.StepRunsTheFrontCommand : Prop :=
  ∀ (c : Instr) (rest : List Instr) (s : State),
    step (s.withPending (c :: rest)) = exec c (s.withPending rest)
      ∧ step (s.withPending []) = .next (s.withPending [])

/-- Every command completes in every state. That it leaves the queue of waiting commands alone is the model's choice (log 3): the
queue is no state of the spec. -/
def Obligations.EveryCommandCompletes : Prop :=
  ∀ (c : Instr) (s : State), ∃ u, exec c s = .next u ∧ u.pending = s.pending

/-- While the reset pin is held no command but a reset changes anything (R94, log 6). -/
def Obligations.HeldPinStopsCommands : Prop :=
  ∀ (c : Instr) (s : State), isReset c = false → s.store.pinHeld = true → exec c s = .next s

/-- What every other command ends with (R3): a station whose frame timer is expired and that may lead emits a start at once, and
nothing more happens in any other case. So no command leaves an expired timer beside a set keep-up flag in a station that may
lead. That it does so too where the flag was set before the station came into such a state is the model's choice (log 67). -/
def Obligations.AnExpiredTimerLeadsAtOnce : Prop :=
  (∀ u : State, u.line.timerExpired = false ∨ u.keepUp = false ∨ u.member.station.onLine = false →
      u.keepUpStart = u)
    ∧ (∀ u : State, u.line.timerExpired = true → u.keepUp = true → u.member.station.onLine = true →
      u.keepUpStart.line.lead = true ∧ u.keepUpStart.line.timerExpired = false ∧ u.keepUpStart.line.silentCount = 0
        ∧ u.keepUpStart.tables.frameCount = u.tables.frameCount + 1)
    ∧ (∀ (c : Instr) (s v : State), isReset c = false → s.released → exec c s = .next v →
      v.line.timerExpired = true → v.keepUp = false ∨ v.member.station.onLine = false)

/-- The keep-up flag (R7): set while any of its reasons holds, and clear whenever none does, as the state stands at that moment.
It acts through the frame timer alone: while it is clear the station emits no start, whether the timer expires, has expired or the
period ends, and before the expiry no flag makes it emit one at once. -/
def Obligations.KeepUpFlagFollowsItsReasons : Prop :=
  ∀ s : State,
    (s.keepUp = true ↔
      s.line.queue ≠ [] ∨ s.line.presenceDue = true
        ∨ (∃ x, x / 4 = s.number ∧ (s.tables.entry x).isCarried = true)
        ∨ (∃ c, c ∈ s.tables.calls ∧ c.state ≠ .none)
        ∨ s.host.stayAwake = true
        ∨ ((s.member.station = .listening ∨ s.member.station = .joining)
          ∧ ∃ r, s.startUp.record = some r ∧ r.offers ≠ []))
    ∧ (s.keepUp = false →
        s.keepUpStart = s ∧ s.leadStart = s ∧ (s.expireTimer = s ∨ s.expireTimer = s.missStart))
    ∧ (s.line.timerExpired = false → s.keepUpStart = s)

/-- A POWER_ON command leaves the machine as State.reset has it; the model's own queue and counters go on (R183, log 9).
State.reset holds the values after reset that chapters 1 to 11 give; that the model's own queue of commands is empty then is its
choice (log 9). -/
def Obligations.ResetHoldsTheSpecifiedValues : Prop :=
  let r := State.reset
  (∀ s : State, exec .powerOn s = .next { r with
    pending := s.pending, localCount := s.localCount
    store := { r.store with lossEvents := s.store.lossEvents } })
    ∧ r.pending = [] ∧ r.member.station = .offline ∧ r.startUp.reading = true
    ∧ r.line.lead = false ∧ r.line.silentCount = 0 ∧ r.line.queue = [] ∧ r.line.waiting = [] ∧ r.line.selfVeto = 0
    ∧ r.line.presenceCounter = 0 ∧ (∀ i, i < 4 → r.line.bindings.getD i none = none)
    ∧ r.tables.frameCount = 0 ∧ (∀ n, n < 16 → r.tables.station n = .absent)
    ∧ (∀ x, x < 64 → r.tables.entry x = .none) ∧ (∀ i, i < 40 → r.tables.slots.getD i (.held 0) = .free)
    ∧ (∀ j, j < 2 → (r.tables.call j).state = .none)
    ∧ r.follower.state = .freeRun ∧ r.follower.rate = .nominal ∧ r.follower.gate = .shut ∧ r.follower.gain = 0
    ∧ r.ports.buffer = [] ∧ r.ports.reading = false ∧ r.ports.balance = 0
    ∧ (∀ b, b < 8 → (r.store.bank b).state = .idle ∧ (r.store.bank b).debt = 0)
    ∧ (∀ q, (r.store.queue q) = []) ∧ (∀ a, r.store.memory.read a = 0)
    ∧ (∀ z, z < 4 → (r.zone z).routes = [] ∧ (r.zone z).position.state = .empty)
    ∧ (∀ i, i < 32 → (r.clip i).state = .empty) ∧ (∀ p, p < 4 → r.announce.plays.getD p none = none)
    ∧ (∀ c, c < 8 → (r.channel c).role = .off)
    ∧ r.blend.state = .idle ∧ r.blend.valid = false ∧ r.blend.attempts = 0
    ∧ r.call.state = .off ∧ r.call.searchDone = false ∧ r.call.retry = 0
    ∧ r.note.box = .free ∧ r.note.outbound.state = .idle
    ∧ r.host.response = none ∧ r.host.stayAwake = false
    ∧ r.host.events = [{ kind := .reset, subject := [], cause := some .powerOn, stamp := 0 }]

/-- The reset pin and retention (R94, R95, R183). Its assertion puts the retained banks into retention: with no burst in flight
their words stand and every other word reads zero; every bank is IDLE, every request queue empty, and nothing outside the sample
store changes. While OFFLINE no bank counts as retained. Its release ends a RESET LINE reset: the words that retention kept and
the clip table stand, the record is read afresh, and the other blocks are as a POWER-ON reset leaves them. That a refresh debt
rise already due when the pin is asserted is dropped is the model's choice (log 79). -/
def Obligations.ResetLineKeepsRetainedContents : Prop :=
  (∀ s : State, s.released → (∀ q, s.store.inFlight q = false) →
    ∃ u, exec .resetPinAsserted s = .next u
      ∧ u.store.pinHeld = true ∧ u.store.retention = true
      ∧ (∀ b, b < 8 → (u.store.bank b).state = .idle ∧ (u.store.bank b).burst = none) ∧ (∀ q, u.store.queue q = [])
      ∧ (∀ a, u.store.memory.read a =
          if s.member.station ≠ .offline ∧ s.store.retained.getLsbD (a / 131072) = true then s.store.memory.read a
          else 0)
      ∧ u.host = s.host ∧ u.announce = s.announce ∧ u.mixer = s.mixer ∧ u.blend = s.blend ∧ u.call = s.call
      ∧ u.follower = s.follower ∧ u.ports = s.ports ∧ State.sameLine s u)
  ∧ ∀ s : State, s.store.pinHeld = true →
    ∃ u, exec .resetLine s = .next u
      ∧ u.store.memory = s.store.memory ∧ u.announce.clips = s.announce.clips
      ∧ u.store.pinHeld = false ∧ u.store.retention = false ∧ u.startUp = State.reset.startUp
      ∧ u.announce.plays = State.reset.announce.plays ∧ u.announce.channels = State.reset.announce.channels
      ∧ u.line = State.reset.line ∧ u.tables = State.reset.tables ∧ u.member = State.reset.member
      ∧ u.follower = State.reset.follower ∧ u.ports = State.reset.ports ∧ u.mixer = State.reset.mixer
      ∧ u.blend = State.reset.blend ∧ u.call = State.reset.call ∧ u.note = State.reset.note
      ∧ u.host.response = none ∧ u.host.stayAwake = false
      ∧ u.host.events = [{ kind := .reset, subject := [], cause := some .resetLine, stamp := 0 }]

/-- Automatic slot choice (R55): for an OFFERED stream the lowest FREE run in slots 0 to 37; where there is none and the class is
0, the lowest in slots 0 to 39; else none exists. A run so found passes R50 against the same table. -/
def Obligations.AutomaticChoiceTakesTheLowestRun : Prop :=
  ∀ (s : State) (p : StreamParameters), 1 ≤ p.channels →
    (∀ f, s.tables.chooseRun p.channels p.cls = some f ↔ s.choosesRun p f)
    ∧ (s.tables.chooseRun p.channels p.cls = none ↔ s.noRunFor p)
    ∧ (∀ x f, s.tables.entry x = .offered p → s.choosesRun p f → (s.tables.claim x f).2 = .taken)

/-- The start-up record is read and judged (R181). It is valid where the memory acknowledges, the check is the CRC-16 of every
byte before it, as many bytes follow the record length as it says, and the fields are those that recordFits lists (Table 11-7,
R71, R82, R98, R117, R182); that a false record length is a field outside Table 11-7 is log 34, the model's choice. A valid record
is kept and sets up the blocks: regions and retained banks, clips by the content report (R122), zone definitions and autonomous
routes (R98, R117), the blend autostart (R137); the station goes to LISTENING with cause START_UP. An invalid one leaves the
station OFFLINE with cause CONFIG_INVALID and its two events, without regions or retained banks. That START_UP_FAILED has the
cause CONFIG_INVALID and comes before STATION_CHANGED is logs 49 and 22. A read that is not under way brings nothing (log 2), and
what is due is done first (log 1): the model's choices. -/
def Obligations.StartUpRecordIsJudged : Prop :=
  judgeRecord .noAcknowledge = none
  ∧ (∀ head following check length fields r,
      judgeRecord (.read head following check length fields) = some r
        ↔ fields = some r ∧ crcBytes (head ++ following) = check ∧ length = following.length ∧ recordFits r)
  ∧ ∀ (read : RecordRead) (s : State), s.released →
    let t := s.settle
    (t.startUp.reading = false → exec (.startUpRecordRead read) s = .next t.keepUpStart)
    ∧ (t.startUp.reading = true → t.member.station = .offline → ∃ u : State,
        exec (.startUpRecordRead read) s = .next u.keepUpStart ∧ u.startUp.reading = false
        ∧ u.startUp.record = judgeRecord read
        ∧ u.store.memory = t.store.memory ∧ u.follower = t.follower ∧ u.host.response = t.host.response
        ∧ (judgeRecord read = none →
            u.member.station = .offline ∧ u.member.cause = some .configInvalid
            ∧ u.store.regions = [] ∧ u.store.retained = 0 ∧ u.tables = t.tables
            ∧ u.announce = t.announce ∧ u.mixer = t.mixer ∧ u.blend = t.blend
            ∧ (let event (k : EventKind) (subject : List Nat) : EventRecord :=
                { kind := k, subject := subject, cause := some .configInvalid
                  stamp := t.tables.frameCount.setWidth 16 }
              u.host.events = addEvent (event .stationChanged [stationCode .offline])
                (addEvent (event .startUpFailed []) t.host.events)))
        ∧ ∀ r, judgeRecord read = some r →
            u.member.station = .listening ∧ u.member.cause = some .startUp
            ∧ u.store.regions = r.regions ∧ u.store.retained = r.retained ∧ u.definitions = r.zones
            ∧ (∀ n, u.tables.station n = .absent) ∧ (∀ x, u.tables.entry x = .none)
            ∧ ((∀ z, (t.zone z).routes = []) → t.mixer.zones.length = 4 → ∀ z d, r.zones[z]? = some d →
                (u.zone z).routes.map (fun e => (e.stream, e.level, e.cls, e.state, e.ramp.current))
                  = (r.routes.filter (fun v => v.zone == d.id)).map (fun v => (v.stream, v.level, none, .waiting, 0)))
            ∧ (∀ i, i < 32 → let c := t.clip i
                let kept := c.offset + c.length - 1 < 256 * spaceRows r.regions .clip
                  ∧ ∀ w b row k, c.offset ≤ w → w < c.offset + c.length → u.store.locate .clip w = some (b, row, k) →
                    t.store.retained.getLsbD b = true
                (c.state = .loading → u.clip i = .none)
                ∧ (c.state = .ready ∨ c.state = .locked → 1 ≤ c.length →
                    (kept → u.clip i = c) ∧ (¬kept → u.clip i = { c with state := .invalid, received := 0, written := 0 }))
                ∧ (c.state = .invalid → (u.clip i).state = .invalid)
                ∧ (c.state = .empty → u.clip i = c))
            ∧ (t.blend.state = .idle →
                let fits := r.nominalDelay + 2368 ≤ 128 * spaceRows r.regions .blend
                (r.autostart = true → fits → u.blend.state = .filling ∧ u.blend.fill = 0 ∧ u.blend.attempts = 0)
                ∧ (r.autostart = false ∨ ¬fits → u.blend = t.blend)))

/-- A FRAME_START that is seen begins a frame (R1, R3 to R6, R18, R25, R28, R47): the frame timer is reloaded, the silent line
ends, the lead flag is clear, the frame count and the ages rise, hold counts fall. The directory, the call records, the station
state, the self-veto run count, the undamaged count and the contents of the queue stand. A start before the audio slots of the
frame under way cuts that frame short, and its slots are handed as not valid with sample zero (R5). A start wakes a DORMANT
station (R22, R183, R185): it holds only what its record says, has the event RESET with cause WAKE_START first in its event list,
counts this start as its first frame, and reads nothing before the next whole frame (log 40). That frame count, timer and ages
move in OFFLINE too is log 7, and that what is due is done first is log 1: both the model's choices. -/
def Obligations.AStartSeenBeginsAFrame : Prop :=
  ∀ (inWindow : Bool) (s : State), s.released →
    let t := s.settle
    let cutShort := t.line.phase = .started ∨ t.line.phase = .fieldPassed
    (t.member.station ≠ .dormant → ∃ u : State, exec (.frameStart inWindow) s = .next u
      ∧ u.line.timerExpired = false ∧ u.line.silentCount = 0 ∧ u.line.silent = false ∧ u.line.lead = false
      ∧ u.line.phase = .started ∧ u.line.field = .unseen ∧ u.line.sent = none ∧ u.line.vetoing = .none
      ∧ u.line.queue = t.line.queue.map (fun e => { e with hold := e.hold - 1 }) ∧ u.line.waiting = t.line.waiting
      ∧ u.line.bindings = t.line.bindings ∧ u.line.selfVeto = t.line.selfVeto
      ∧ u.line.presenceCounter =
          (if t.member.station = .member ∨ t.member.station = .leaving then t.line.presenceCounter + 1
           else t.line.presenceCounter)
      ∧ (cutShort → t.member.station = .member → ∀ x p f i, x < 64 → t.tables.entry x = .carried p f →
          i < t.channelsTaken x p.channels → u.handed x i = some (false, 0))
      ∧ (cutShort → t.member.station ≠ .member → u.line.lineSamples = [])
      ∧ (¬cutShort → u.line.lineSamples = t.line.lineSamples)
      ∧ u.tables.frameCount = t.tables.frameCount + 1
      ∧ (∀ n, (t.tables.station n).present = true →
          u.tables.station n = { t.tables.station n with age := (t.tables.station n).age + 1 })
      ∧ (∀ n, (t.tables.station n).present = false → u.tables.station n = t.tables.station n)
      ∧ (∀ i, u.tables.slots.getD i .free =
          (match t.tables.slots.getD i .free with
           | .held k => .held (k - 1)
           | e => e))
      ∧ u.tables.directory = t.tables.directory ∧ u.tables.calls = t.tables.calls
      ∧ u.member.station = t.member.station ∧ u.member.cause = t.member.cause
      ∧ u.member.undamaged = t.member.undamaged
      ∧ u.note.outbound = t.note.outbound ∧ u.store.memory = t.store.memory)
    ∧ ∀ r, t.member.station = .dormant → t.startUp.record = some r → ∃ u : State,
        exec (.frameStart inWindow) s = .next u
        ∧ u.member.station = .listening ∧ u.member.cause = some .startUp
        ∧ u.host.events.head? = some { kind := .reset, subject := [], cause := some .wakeStart, stamp := 0 }
        ∧ u.host.response = none ∧ u.host.stayAwake = false
        ∧ u.startUp.record = some r ∧ u.startUp.reading = false ∧ u.store.regions = r.regions
        ∧ u.store.retained = r.retained ∧ u.tables.frameCount = 1
        ∧ (∀ n, u.tables.station n = .absent) ∧ (∀ x, u.tables.entry x = .none) ∧ (∀ j, u.tables.call j = .none)
        ∧ (∀ i, i < 40 → u.tables.slots.getD i (.held 0) = .free)
        ∧ u.line.phase = .unread ∧ u.line.timerExpired = false ∧ u.line.silentCount = 0 ∧ u.line.lead = false
        ∧ u.line.queue = [] ∧ u.line.waiting = [] ∧ u.follower.state = .pulling ∧ u.follower.onTime = 0
        ∧ u.follower.miss = 0 ∧ u.store.memory = t.store.memory

/-- The station leads (R3, R4): with its keep-up flag set, in a state that may emit starts and with its timer running, a frame
period without a start makes it emit one, at LEAD_START as at the expiry. Its lead flag is then set. What is due is done first:
the model's choice (log 1). -/
def Obligations.AKeptUpLineIsLed : Prop :=
  ∀ (c : Instr) (s : State), c = .leadStart ∨ c = .frameTimerExpiry → s.released →
    let t := s.settle
    t.keepUp = true → t.member.station.onLine = true → t.line.timerExpired = false →
    ∃ u : State, exec c s = .next u ∧ u.line.lead = true ∧ u.line.timerExpired = false ∧ u.line.silentCount = 0
      ∧ u.line.phase = .started ∧ u.tables.frameCount = t.tables.frameCount + 1
      ∧ u.tables.directory = t.tables.directory ∧ u.tables.calls = t.tables.calls
      ∧ u.member.station = t.member.station

/-- A start is missing (R3, R6, R41): with no reason to lead the timer expires, nothing is emitted, and the silent-line count
rises, once at the expiry and once at each further frame period; a SILENCED station counts its silence down with it. That both
counts move by one at each of these rows is log 8, that they move in OFFLINE is log 7, and that what is due is done first is log
1: the model's choices. The line tables stand still. (The follower's miss run is FollowerJudgesEveryStart.) -/
def Obligations.MissingStartsAreCounted : Prop :=
  ∀ (c : Instr) (s : State), s.released →
    let t := s.settle
    t.member.station ≠ .dormant → (t.keepUp = false ∨ t.member.station.onLine = false) →
    (c = .frameTimerExpiry ∧ t.line.timerExpired = false ∨ c = .missingStart ∧ t.line.timerExpired = true) →
    ∃ u : State, exec c s = .next u.keepUpStart
      ∧ u.line = { t.line with timerExpired := true, silentCount := t.line.silentCount + 1 }
      ∧ u.tables = t.tables ∧ u.member.station = t.member.station
      ∧ u.member.silenceCount =
          (if t.member.station = .silenced then t.member.silenceCount - 1 else t.member.silenceCount)

/-- The follower judges every start (R66, R67), with the gate at a change of its state (R69): a start seen is on time inside the
window alone (the operand, log 29) with no frame cut short and the timer running, a start emitted is always on time, and a missing
start is none. The first start of FREE_RUN is neither; a missing start leaves FREE_RUN as it is. A change of state makes both runs
0 and raises FOLLOWER_CHANGED, where the station has a host and the list room. What is due is done first: the model's choice (log
1). -/
def Obligations.FollowerJudgesEveryStart : Prop :=
  ∀ (c : Instr) (s : State), s.released →
    let t := s.settle
    let f := t.follower
    let leads := t.keepUp = true ∧ t.member.station.onLine = true
    let seen (onTime : Bool) := ∃ w, c = .frameStart w
      ∧ onTime = (w && !t.line.phase.isOpen && !t.line.timerExpired)
    let emitted := (c = .leadStart ∨ c = .frameTimerExpiry) ∧ leads ∧ t.line.timerExpired = false
    let missing := ¬leads ∧ (c = .frameTimerExpiry ∧ t.line.timerExpired = false
      ∨ c = .missingStart ∧ t.line.timerExpired = true)
    let judged (onTime : Bool) := seen onTime ∨ emitted ∧ onTime = true ∨ missing ∧ onTime = false
    let changes (cause : Cause) (u : State) := u.follower.onTime = 0 ∧ u.follower.miss = 0 ∧ u.follower.gain = f.gain
      ∧ (t.hasHost = true → t.host.events.length < 31 →
          { kind := .followerChanged, subject := [followerCode u.follower.state], cause := some cause,
            stamp := u.tables.frameCount.setWidth 16 } ∈ u.host.events)
    t.member.station ≠ .dormant → ∀ onTime, judged onTime → ∃ v u : State, exec c s = .next v
      ∧ v = u.keepUpStart ∧ (¬missing → v = u)
      ∧ (f.state = .freeRun → missing → u.follower = f)
      ∧ (f.state = .freeRun → ¬missing → u.follower = { f with state := .pulling, onTime := 0, miss := 0
                                                               rate := .towardsLine } ∧ changes .startSeen u)
      ∧ (f.state = .pulling → onTime = true → f.onTime < 255 →
          u.follower = { f with onTime := f.onTime + 1, miss := 0 })
      ∧ (f.state = .pulling → onTime = true → 255 ≤ f.onTime →
          u.follower.state = .locked ∧ u.follower.rate = .matched ∧ changes .settled u
            ∧ (f.gate = .shut ∨ f.gate = .closing → u.follower.gate = .opening))
      ∧ (f.state = .pulling → onTime = false → u.follower = { f with onTime := 0, miss := f.miss + 1 })
      ∧ (f.state = .locked → onTime = true → u.follower = { f with onTime := min 256 (f.onTime + 1), miss := 0 })
      ∧ (f.state = .locked → onTime = false → f.miss < 3 → u.follower = { f with onTime := 0, miss := f.miss + 1 })
      ∧ (f.state = .locked → onTime = false → 3 ≤ f.miss →
          u.follower.state = .pulling ∧ u.follower.rate = .towardsLine ∧ changes .startsMissed u
            ∧ (f.gate = .open ∨ f.gate = .opening → u.follower.gate = .closing))

/-- The line becomes silent (R6, R67): at a silent-line count of 64 the follower goes to FREE_RUN from PULLING and LOCKED, with
the rate it has, and an open gate begins to close. A row that is not due does nothing: the model's choice (log 2). -/
def Obligations.ASilentLineFreesTheFollower : Prop :=
  ∀ s : State, s.released →
    (s.line.silentCount < 64 ∨ s.line.silent = true → exec .silentLine s = .next s.keepUpStart)
    ∧ (64 ≤ s.line.silentCount → s.line.silent = false → ∃ u : State, exec .silentLine s = .next u.keepUpStart
        ∧ u.line = { s.line with silent := true } ∧ u.follower.state = .freeRun
        ∧ u.follower.rate = s.follower.rate ∧ u.follower.gain = s.follower.gain
        ∧ (s.follower.state ≠ .freeRun → u.follower.onTime = 0 ∧ u.follower.miss = 0)
        ∧ (s.follower.state = .locked → s.follower.gate = .open ∨ s.follower.gate = .opening →
            u.follower.gate = .closing)
        ∧ u.tables = s.tables ∧ u.member = s.member ∧ u.store = s.store ∧ u.mixer = s.mixer ∧ u.blend = s.blend
        ∧ u.call = s.call ∧ u.announce = s.announce ∧ u.ports = s.ports ∧ u.note = s.note)

/-- The station falls asleep (R184): at a silent-line count of 48,000 with the stay-awake flag clear it enters DORMANT with
cause SILENT_LINE, and every block makes its part. Among them: a LOADING clip goes to EMPTY with the load buffer, and every
other clip stands (R122); every cadence channel stops (R132); the words of the retained banks stand, and with no burst in flight
every other word reads zero (R95); the canceller's coefficients are discarded (R161). That the lead flag is clear then is log 76
(no rule names it there), that the discarded bulk delay is 32 is log 81, and that a row that is not due does nothing is log 2:
the model's choices. -/
def Obligations.DormancyEntryEmptiesTheBlocks : Prop :=
  ∀ s : State, s.released →
    (s.line.silentCount < 48000 ∨ s.host.stayAwake = true ∨ s.member.station = .offline
        ∨ s.member.station = .dormant → exec .dormancyEntry s = .next s.keepUpStart)
    ∧ (48000 ≤ s.line.silentCount → s.host.stayAwake = false → s.member.station ≠ .offline →
        s.member.station ≠ .dormant →
        s.member.station.takesPart = true ∨ (s.line.queue = [] ∧ s.line.waiting = []) →
        ∃ u : State, exec .dormancyEntry s = .next u
        ∧ u.member.station = .dormant ∧ u.member.cause = some .silentLine
        ∧ u.line.queue = [] ∧ u.line.waiting = [] ∧ u.line.lead = false
        ∧ (∀ n, u.tables.station n = .absent) ∧ (∀ x, u.tables.entry x = .none)
        ∧ (∀ i, u.tables.slots.getD i .free = .free) ∧ (∀ j, u.tables.call j = .none)
        ∧ u.tables.frameCount = s.tables.frameCount
        ∧ u.store.retention = true ∧ (∀ q, u.store.queue q = [])
        ∧ (∀ b, b < 8 → (u.store.bank b).state = .idle ∧ (u.store.bank b).burst = none)
        ∧ ((∀ q, s.store.inFlight q = false) → ∀ a, u.store.memory.read a =
            if s.store.retained.getLsbD (a / 131072) = true then s.store.memory.read a else 0)
        ∧ (∀ i, u.clip i = if (s.clip i).state = .loading then .none else s.clip i)
        ∧ u.announce.buffer = [] ∧ u.announce.bufferClip = none
        ∧ (∀ c, u.channel c = { s.channel c with running := false, counting := false })
        ∧ (∀ p, u.announce.plays.getD p none = none)
        ∧ (∀ z, (u.zone z).routes = [] ∧ (u.zone z).position.state = .empty)
        ∧ u.follower.state = .freeRun ∧ u.follower.gate = .shut ∧ u.follower.gain = 0
        ∧ u.ports.buffer = [] ∧ u.ports.reading = false ∧ u.ports.balance = 0
        ∧ (∀ p, u.ports.outputs.getD p .zero = .zero)
        ∧ u.blend.state = .idle ∧ u.call.state = .off ∧ u.call.served = none
        ∧ u.call.coefficients = List.replicate 1024 0 ∧ u.call.searchDone = false ∧ u.call.bulkDelay = 32
        ∧ u.note.box = .free ∧ u.note.outbound.state = .idle
        ∧ u.host.events = [] ∧ u.host.response = none ∧ u.startUp.record = s.startUp.record)

/-- A station that drives nothing judges what others drove (R8) and vetoes it in two cases alone (R13), while it is in JOINING,
MEMBER or LEAVING: the field fails its check, or it is a NOTE_PART for this station that its inbound box does not accept (R169).
An empty field and every other field that passed lead to no veto, and a station in any other state never vetoes. Where what is due
has been done first, in the order of log 1. -/
def Obligations.AReceiverJudgesTheControlField : Prop :=
  ∀ (others : Option (BitVec 187)) (readable : Bool) (s : State), s.released →
    let t := s.settle
    let field := heardField others readable
    let speaks := t.member.station = .joining ∨ t.member.station = .member ∨ t.member.station = .leaving
    t.line.phase = .started → t.member.station.onLine = true →
    t.member.station.takesPart = false ∨ t.candidate = none →
    ∃ veto, exec (.controlField others readable) s
        = .next ({ t with line := { t.line with field := field, sent := none, vetoing := veto,
                                                phase := .fieldPassed } }).keepUpStart
      ∧ (¬speaks → veto = .none)
      ∧ (field = .empty → veto = .none)
      ∧ (field = .failed → speaks → veto = .failedCheck)
      ∧ (∀ n m, field = .passed n m →
          (∀ target index total data, m = .notePart target index total data → target.toNat ≠ t.number) → veto = .none)
      ∧ (∀ n target index total data, field = .passed n (.notePart target index total data) → target.toNat = t.number →
          speaks →
          (t.acceptsPart n index.toNat total.toNat → veto = .none)
          ∧ (¬t.acceptsPart n index.toNat total.toNat → veto = .refusedNote))

/-- Arbitration (R11, R12, R29, R54 to R56). A station that takes part and has a message ready drives it: alone it passes; against
a higher arbitration value it wins and passes; against a lower value it loses and the other field is judged; against an equal
value both drive on, and the field passes where every bit agrees and fails its check otherwise. Nothing but the line interface
changes. An AUTO claim of the host for which no run exists is removed unsent with NO_ROOM, and the next message that R11 chooses
takes its place in the same control field. What is due has been done first, in the order of log 1. -/
def Obligations.TheLowestArbitrationValueWins : Prop :=
  ∀ (others : Option (BitVec 187)) (s : State), s.released →
    let t := s.settle
    t.line.phase = .started → t.member.station.takesPart = true →
    (∀ sent, t.standsReady sent →
      ∃ u : State, exec (.controlField others true) s = .next u.keepUpStart ∧ u.line.phase = .fieldPassed
        ∧ (others = none → u.line.field = .passed t.number sent.message ∧ u.line.sent = some sent)
        ∧ (∀ w, others = some w → arbitrationValue t.number sent.message < fieldArbitration w →
            u.line.field = .passed t.number sent.message ∧ u.line.sent = some sent)
        ∧ (∀ w, others = some w → fieldArbitration w < arbitrationValue t.number sent.message →
            u.line.field = heardField others true ∧ u.line.sent = none)
        ∧ (∀ w, others = some w → fieldArbitration w = arbitrationValue t.number sent.message →
            (w = fieldBits t.number sent.message →
              u.line.field = .passed t.number sent.message ∧ u.line.sent = some sent)
            ∧ (w ≠ fieldBits t.number sent.message →
              u.line.field = .failed ∧ u.line.sent = some sent ∧ u.line.vetoing = .failedCheck))
        ∧ u.line.queue = t.line.queue ∧ u.line.waiting = t.line.waiting ∧ u.line.presenceDue = t.line.presenceDue
        ∧ u.tables = t.tables ∧ u.member = t.member ∧ u.mixer = t.mixer
        ∧ u.call = t.call ∧ u.note = t.note ∧ u.host = t.host ∧ u.startUp = t.startUp ∧ State.sameAudio t u)
    ∧ (∀ e i g p, t.line.queue.find? (fun e => e.ready) = some e → e.auto = true → e.originator = .host →
        e.message = .claim i g → t.line.presenceDue = false → t.tables.entry (t.number * 4 + i.toNat) = .offered p →
        t.noRunFor p →
        let rest := t.line.queue.filter (fun d => d.order != e.order)
        (rest.find? (fun e => e.ready) = none ∨ ∃ d, rest.find? (fun e => e.ready) = some d ∧ d.auto = false) →
        ∃ u : State, exec (.controlField others true) s = .next u.keepUpStart ∧ u.line.queue = rest
          ∧ u.host = t.eventRaised .lineOutcome [6, i.toNat] (some .noRoom) ∧ u.tables = t.tables ∧ u.member = t.member
          ∧ (rest.find? (fun e => e.ready) = none → u.line.field = heardField others true ∧ u.line.sent = none)
          ∧ (∀ d, rest.find? (fun e => e.ready) = some d → others = none →
              u.line.field = .passed t.number d.message ∧ u.line.sent = some (.queued d.order d.message)))

/-- The audio slots of a frame (R2, R20, R21, R59, R60). A slot whose check bit disagrees, or which nobody drove, is judged not
valid, with the sample zero. A station in MEMBER or LEAVING drives the slots that its own CARRIED streams own, each with the valid
mark set and the check bit that makes the ones even, and nobody else's; it drives none in any other state. What it drives is the
most recent sample of the stream's source: INPUT, BLEND and ZONE_MIX have two channels, of which a one-channel stream takes half
the sum and a wider one channels 0 and 1 with zero above; ANNOUNCE and UPLINK give their one sample to every channel; no binding
gives zero. A station in MEMBER hands the channels that its users take of each CARRIED stream; another station hands nothing. The
rounding of the half sum is the free value of log 13; the table is the one that stands at this row (log 69), and what is due is
done first (log 1): the model's choices. -/
def Obligations.SlotsAreDrivenAndHanded : Prop :=
  (∀ r : SlotRead, (r.valid = false ∨ r.check ≠ slotCheck r.sample r.valid → judgeSlot r = (false, 0))
      ∧ (r.valid = true → r.check = slotCheck r.sample r.valid → judgeSlot r = (true, r.sample)))
  ∧ (∀ (x : Sample) (valid : Bool), slotCheck x valid
      = decide ((((List.range 24).filter (fun k => x.getLsbD k)).length + (if valid then 1 else 0)) % 2 = 1))
  ∧ ∀ (reads : List SlotRead) (s : State), s.released →
    let t := s.settle
    let slot (v : Sample) : Option SlotRead := some { sample := v, valid := true, check := slotCheck v true }
    let half (x : Stereo) : Sample := limit24 (roundDiv (x.left.toInt + x.right.toInt) 2)
    let source (b : Binding) (y : Stereo) : Prop := match b with
      | .input pair => y = t.ports.inputs.getD pair .zero
      | .blend => y = t.blend.out
      | .zoneMix id => ∃ z, t.ownZone id = some z ∧ y = (t.zone z).sum
      | _ => False
    let single (b : Binding) (y : Sample) : Prop := b = .announce ∧ y = t.announce.out ∨ b = .uplink ∧ y = t.call.uplink
    t.line.phase = .started ∨ t.line.phase = .fieldPassed →
    ∃ u : State, exec (.audioSlots reads) s = .next u.keepUpStart ∧ u.line.phase = .slotsPassed
      ∧ (∀ i x p f, i < 40 → t.tables.slots.getD i .free = .owned x → t.tables.entry x = .carried p f →
          t.member.station = .member ∨ t.member.station = .leaving → x / 4 = t.number →
          (t.line.bindings.getD (x % 4) none = none → u.line.driven.getD i none = slot 0)
          ∧ (∀ b y, t.line.bindings.getD (x % 4) none = some b → single b y → u.line.driven.getD i none = slot y)
          ∧ (∀ b y, t.line.bindings.getD (x % 4) none = some b → source b y →
              (p.channels = 1 → u.line.driven.getD i none = slot (half y))
              ∧ (p.channels ≠ 1 → i = f → u.line.driven.getD i none = slot y.left)
              ∧ (p.channels ≠ 1 → i = f + 1 → u.line.driven.getD i none = slot y.right)
              ∧ (p.channels ≠ 1 → f + 2 ≤ i → u.line.driven.getD i none = slot 0)))
      ∧ (t.member.station ≠ .member → t.member.station ≠ .leaving → ∀ i, u.line.driven.getD i none = none)
      ∧ (∀ i x, i < 40 → t.tables.slots.getD i .free = .owned x → x / 4 ≠ t.number →
          u.line.driven.getD i none = none)
      ∧ (∀ i k, i < 40 → t.tables.slots.getD i .free = .free ∨ t.tables.slots.getD i .free = .held k →
          u.line.driven.getD i none = none)
      ∧ (∀ x p f i, x < 64 → t.member.station = .member → t.tables.entry x = .carried p f →
          i < t.channelsTaken x p.channels → u.handed x i = some (judgeSlot (reads.getD (f + i) unreadSlot)))
      ∧ (∀ x channels, (t.routed x = true → t.channelsTaken x channels = min channels 2)
          ∧ (t.routed x = false → t.calledFor x = true → t.channelsTaken x channels = 1)
          ∧ (t.routed x = false → t.calledFor x = false → t.channelsTaken x channels = 0))
      ∧ (t.member.station ≠ .member → ∀ x i, u.handed x i = none)
      ∧ u.line.queue = t.line.queue ∧ u.tables = t.tables ∧ u.member = t.member ∧ u.mixer = t.mixer ∧ u.note = t.note
      ∧ u.host = t.host ∧ u.startUp = t.startUp ∧ State.sameAudio t u

/-- The tail decides (R13 to R18, R34, R40, R43). Once the frame is over it does nothing (log 5). Without a veto the message of a
field that passed takes effect, as its own row says (log 5); a veto, this station's own among them, keeps it from taking effect.
The self-veto run count and a listener's undamaged count move, a listener's completeness restarts after an unvetoed damaged frame,
and waiting messages move into the queue. A vetoed own message stays with one veto more: a JOIN is held for the next value of the
backoff sequence, a note part for 64 frames; the eighth veto of a JOIN silences the station, and the 32nd of any other message but
PRESENCE abandons it. An own message of the host that takes effect leaves the queue, the host's other messages keep their places,
and LINE_OUTCOME with the verdict is the last event (R15; JOIN and LEAVE, which move the station too, are in JoinIsJudged and
LeaveRemovesTheSender). What is due is done first (log 1): the model's choice, as log 5 is. -/
def Obligations.TheTailDecides : Prop :=
  ∀ (s : State), s.released →
    let t := s.settle
    let room := 8 - t.line.queue.length
    let standing (u : State) : Prop := u.tables = t.tables ∧ u.member.station = t.member.station ∧ u.mixer = t.mixer
      ∧ u.call = t.call ∧ u.note = t.note ∧ u.host = t.host ∧ u.startUp = t.startUp ∧ State.sameAudio t u
    (t.line.phase = .over → ∀ veto, exec (.tailEnd veto) s = .next t.keepUpStart)
    ∧ (∀ (n : Fin 16) (m : Message), t.line.phase ≠ .over → t.line.field = .passed n.val m →
        exec (.tailEnd false) s = s.messageCommand n m)
    ∧ (t.line.vetoing ≠ .none → exec (.tailEnd false) s = exec (.tailEnd true) s)
    ∧ (∀ (n : Fin 16) (m : Message) (o : Nat) (e : QueueEntry), t.hears → t.orderLaw → n.val = t.number →
        t.line.sent = some (.queued o m) → t.line.queue.find? (fun e => e.order == o) = some e → e.originator = .host →
        m.kindCode ≠ 1 → m ≠ .leave → ∃ u : State, s.messageCommand n m = .next u.keepUpStart
          ∧ u.line.queue.filter (fun d => d.originator == .host)
              = t.line.queue.filter (fun d => d.originator == .host && d.order != o)
          ∧ (t.hasHost = true → ∃ earlier, u.host.events = addEvent
              { kind := .lineOutcome, subject := e.message.subject, cause := some (t.judge n.val m).2
                stamp := t.tables.frameCount.setWidth 16 } earlier))
    ∧ (∀ veto : Bool, t.line.phase ≠ .over → t.line.phase ≠ .unread → t.member.station.onLine = true →
        (t.line.sent = none ∨ ∃ m, t.line.sent = some (.presence m)) →
        (veto = true ∨ t.line.vetoing ≠ .none ∨ t.line.field = .failed ∨ t.line.field = .empty) →
        let damaged := t.member.station = .listening ∧ t.line.field = .failed
        let restarts := damaged ∧ veto = false ∧ t.line.vetoing = .none
        ∃ u : State, exec (.tailEnd veto) s = .next u.keepUpStart ∧ u.line.phase = .over
          ∧ u.line.selfVeto = (if t.line.vetoing = .failedCheck then t.line.selfVeto + 1
              else if t.line.field = .failed then t.line.selfVeto else 0)
          ∧ (damaged → u.member.undamaged = 0)
          ∧ (t.member.station = .listening → t.line.field ≠ .failed →
              u.member.undamaged = min 12800 (t.member.undamaged + 1))
          ∧ (t.member.station ≠ .listening → u.member.undamaged = t.member.undamaged)
          ∧ (restarts → u.tables = { t.tables with
              roster := t.tables.roster.map (fun e => { e with completeness := .none }) })
          ∧ (¬restarts → u.tables = t.tables)
          ∧ u.line.presenceDue = t.line.presenceDue ∧ u.line.presenceCounter = t.line.presenceCounter
          ∧ u.member.pointer = t.member.pointer ∧ u.line.waiting = t.line.waiting.drop room
          ∧ u.line.queue.length = t.line.queue.length + min room t.line.waiting.length
          ∧ (∀ e, e ∈ t.line.queue → e ∈ u.line.queue)
          ∧ (∀ e, e ∈ t.line.waiting.take room → ∃ o, { e with order := o } ∈ u.line.queue)
          ∧ u.member.station = t.member.station ∧ u.mixer = t.mixer ∧ u.call = t.call ∧ u.note = t.note
          ∧ u.host = t.host ∧ u.startUp = t.startUp ∧ State.sameAudio t u)
    ∧ ∀ e o m, t.line.phase ≠ .over → t.line.phase ≠ .unread → t.member.station.takesPart = true →
        t.line.sent = some (.queued o m) → t.line.queue.find? (fun e => e.order == o) = some e → t.line.waiting = [] →
        let revised (f : QueueEntry → QueueEntry) := t.line.queue.map (fun d => if d.order = o then f d else d)
        let rest := t.line.queue.filter (fun d => d.order != o)
        let n := (Config.joinBackoff t.serial t.member.backoff).toNat
        let becomes (p : State → Prop) : Prop := ∃ u : State, exec (.tailEnd true) s = .next u.keepUpStart ∧ p u
        (e.message.kindCode ≠ 1 → e.message.kindCode ≠ 11 → e.vetoes < 31 → becomes (fun u =>
            u.line.queue = revised (fun d => { d with vetoes := d.vetoes + 1 }) ∧ standing u))
        ∧ (e.message.kindCode = 1 → e.vetoes < 7 → n ≤ 255 ∧ becomes (fun u =>
            u.line.queue = revised (fun d => { d with vetoes := d.vetoes + 1, hold := n, ready := n == 0 })
              ∧ u.member.backoff = t.member.backoff + 1 ∧ standing u))
        ∧ (e.message.kindCode = 1 → 7 ≤ e.vetoes → becomes (fun u =>
            u.member.station = .silenced ∧ u.member.cause = some .joinFailed ∧ u.member.silenceCount = 1024
              ∧ u.line.queue = [] ∧ u.line.waiting = [] ∧ u.tables = t.tables.cleared ∧ State.sameAudio t u))
        ∧ (e.message.kindCode = 11 → e.vetoes < 31 → becomes (fun u =>
            u.line.queue = revised (fun d => { d with vetoes := d.vetoes + 1, hold := 64, ready := false })
              ∧ standing u))
        ∧ (e.message.kindCode = 11 → 31 ≤ e.vetoes → e.originator = .noteUnit →
            ∀ k, t.note.outbound.state = .sending k → becomes (fun u =>
              u.line.queue = rest ∧ u.note.outbound.state = .failed ∧ u.note.outbound.lastFailure = some .vetoed
                ∧ u.host = t.eventRaised .noteUndelivered [t.note.outbound.target] (some .vetoed)
                ∧ u.tables = t.tables ∧ u.member.station = t.member.station ∧ State.sameAudio t u))
        ∧ (e.message.kindCode ≠ 1 → e.message.kindCode ≠ 11 → e.message ≠ .leave → 31 ≤ e.vetoes →
            e.originator = .host → becomes (fun u =>
              u.line.queue = rest ∧ u.host = t.eventRaised .lineOutcome e.message.subject (some .abandoned)
                ∧ u.tables = t.tables ∧ u.member.station = t.member.station ∧ u.note = t.note ∧ u.mixer = t.mixer
                ∧ u.call = t.call ∧ State.sameAudio t u))
        ∧ (e.message = .leave → 31 ≤ e.vetoes → e.originator = .host → t.member.station = .leaving → becomes (fun u =>
              u.line.queue = rest ∧ u.member.station = .member ∧ u.member.cause = some .abandoned
                ∧ u.tables = t.tables ∧ State.sameAudio t u))

/-- A JOIN takes effect (R37 to R39). It is TAKEN where its fields are in range, the number is absent and no zone of it is in the
roster: the entry becomes present and COMPLETE with what the JOIN declares. Any other verdict changes no table. The station whose
own JOIN it is goes to MEMBER, or to DETACHED with the verdict as cause, with its presence-due counter at 0 (R28); in MEMBER every
zone tests its entries, takes its call position and every target afresh (R100, R107, R110), and, coming from JOINING with no other
message queued, it queues the autonomous offers with their claims in order of local index (R182). A JOIN under the station's own
number and a foreign serial that it did not drive sends it to DETACHED. Any other station keeps its state. What
is due is done first: the model's choice (log 1). -/
def Obligations.JoinIsJudged : Prop :=
  ∀ (sender : Fin 16) (roles : Byte) (zones privateZones : ZoneSet) (serial : BitVec 32) (s : State), s.released →
    let t := s.settle
    let m := Message.join roles zones privateZones serial
    let inRange := roles.toNat ≤ 15 ∧ privateZones &&& ~~~zones = 0
    let taken := inRange ∧ (t.tables.station sender.val).present = false ∧ zones &&& t.tables.zonesPresent = 0
    let joined : RosterEntry := { present := true, roles := rolesOf roles, zones := zones, privateZones := privateZones,
                                  age := 0, serial := some serial, completeness := .complete, marks := [] }
    let foreign := sender.val = t.number ∧ (∃ r, t.startUp.record = some r ∧ r.serial ≠ serial)
    t.hears → t.tableSizes → ∃ u : State, exec (.join sender roles zones privateZones serial) s = .next u.keepUpStart
      ∧ (t.isOwn sender.val m = false → ¬foreign →
          u.member.station = t.member.station
          ∧ u.tables.directory = t.tables.directory ∧ u.tables.slots = t.tables.slots ∧ u.tables.calls = t.tables.calls
          ∧ (taken → u.tables.station sender.val = joined)
          ∧ (¬taken → u.tables.station sender.val = { t.tables.station sender.val with age := 0 })
          ∧ (∀ n, n ≠ sender.val → u.tables.station n = t.tables.station n))
      ∧ (t.isOwn sender.val m = true → taken →
          u.member.station = .member ∧ u.member.cause = some .joined ∧ u.tables.station sender.val = joined
          ∧ u.tables.directory = t.tables.directory ∧ u.tables.slots = t.tables.slots ∧ u.tables.calls = t.tables.calls
          ∧ t.zonesTaken u true
          ∧ (∀ r e, t.member.station = .joining → t.startUp.record = some r → r.offers.length ≤ 4 → t.line.queue = [e] →
              t.line.waiting = [] → e.originator = .membership → t.line.sent = some (.queued e.order m) →
              u.line.queue.map (fun d => (d.message, d.auto, d.companion)) = offerMessages r
                ∧ ∀ d, d ∈ u.line.queue → d.originator = .startUp))
      ∧ (t.isOwn sender.val m = true → u.line.presenceCounter = 0)
      ∧ (t.isOwn sender.val m = true → ¬taken →
          u.member.station = .detached
          ∧ (¬inRange → u.member.cause = some .badField)
          ∧ (inRange → (t.tables.station sender.val).present = true → u.member.cause = some .numberTaken)
          ∧ (inRange → (t.tables.station sender.val).present = false → u.member.cause = some .zoneTaken))
      ∧ (t.isOwn sender.val m = false → foreign →
          u.member.station = .detached ∧ u.member.cause = some .numberTaken)
      ∧ State.sameAudio t u

/-- A PRESENCE takes effect (R30 to R32). From an absent sender, or with a field out of range (R10 of section 1.3; for an
unknown descriptor type log 32, the model's choice), it changes no table at a station that is not LISTENING, but for the age.
Otherwise the sender's entry is present with what the message declares, and the descriptor is applied: a stream goes to NONE,
OFFERED or CARRIED as described, unless no stream could be so; a call record becomes as described, and the other one HELD if
both were ACTIVE. What is due is done first: the model's choice (log 1). That the first slot of an OFFERED descriptor is not
judged is log 68. A PRESENCE that the station itself sent sets its presence-due counter to 0 and moves the descriptor pointer on
(R28, R29); any other leaves both. Where it changes one stream and no call record, every zone follows (R100, R101, R107, R110).
(What an own stream displaces and the call marks of a listener have no clause here.) -/
def Obligations.PresenceIsApplied : Prop :=
  ∀ (sender : Fin 16) (roles : Byte) (zones privateZones : ZoneSet) (owned : SlotSet) (d : Descriptor) (s : State),
    s.released →
    let t := s.settle
    let m := Message.presence roles zones privateZones owned d
    let inRange := m.inRange = true
    let present := (t.tables.station sender.val).present = true
    t.hears → t.tableSizes →
    ∃ u : State, exec (.presence sender roles zones privateZones owned d) s = .next u.keepUpStart
      ∧ u.member.station = t.member.station ∧ u.tables.frameCount = t.tables.frameCount ∧ State.sameAudio t u
      ∧ (t.isOwn sender.val m = false → u.line.presenceCounter = t.line.presenceCounter
          ∧ u.line.presenceDue = t.line.presenceDue ∧ u.member.pointer = t.member.pointer)
      ∧ (sender.val = t.number → t.line.sent = some (.presence m) →
          u.line.presenceCounter = 0 ∧ u.line.presenceDue = false
          ∧ (∀ i st k c l f, d = .stream i st k c l f →
              (∀ j, t.member.pointer = .callFrom j → u.member.pointer = .stream 1)
              ∧ (∀ j, t.member.pointer = .stream j → i.toNat < 3 → u.member.pointer = .stream (i.toNat + 1))
              ∧ (∀ j, t.member.pointer = .stream j → i.toNat = 3 → u.member.pointer = .callFrom 0))
          ∧ (∀ j st dl ul rf mic z, d = .call j st dl ul rf mic z →
              (j.toNat = 0 → u.member.pointer = .callFrom 1) ∧ (j.toNat = 1 → u.member.pointer = .stream 0)))
      ∧ (∀ x, x < 64 → (t.tables.entry x).code ≠ (u.tables.entry x).code →
          (∀ y, y ≠ x → u.tables.entry y = t.tables.entry y) → u.tables.calls = t.tables.calls →
          t.zonesNoticed u x .presence)
      ∧ (¬inRange ∨ (¬present ∧ t.member.station ≠ .listening) →
          u.tables = t.tables.onStation sender.val (fun e => { e with age := 0 }))
      ∧ (inRange → present ∨ t.member.station = .listening →
          (u.tables.station sender.val).present = true ∧ (u.tables.station sender.val).roles = rolesOf roles
          ∧ (u.tables.station sender.val).zones = zones ∧ (u.tables.station sender.val).privateZones = privateZones
          ∧ (u.tables.station sender.val).age = 0
          ∧ (∀ n, n ≠ sender.val → (u.tables.station n).present = (t.tables.station n).present
              ∧ (u.tables.station n).age = (t.tables.station n).age)
          ∧ (∀ i k c l f, d = .stream i 0 k c l f → u.tables.entry (sender.val * 4 + i.toNat) = .none)
          ∧ (∀ i k c l f kind, d = .stream i 1 k c l f → kindOf k.toNat = some kind →
              impossibleDescriptor 1 kind c.toNat l.toNat f = false →
              u.tables.entry (sender.val * 4 + i.toNat)
                = .offered { kind := kind, channels := c.toNat, cls := l.toNat })
          ∧ (∀ i k c l f kind, d = .stream i 2 k c l f → kindOf k.toNat = some kind →
              impossibleDescriptor 2 kind c.toNat l.toNat f = false →
              u.tables.entry (sender.val * 4 + i.toNat)
                  = .carried { kind := kind, channels := c.toNat, cls := l.toNat } f.toNat
              ∧ ∀ j, j < c.toNat → u.tables.slots.getD (f.toNat + j) .free = .owned (sender.val * 4 + i.toNat))
          ∧ (∀ i k c l f kind st, d = .stream i st k c l f → st ≠ 0 → kindOf k.toNat = some kind →
              impossibleDescriptor st.toNat kind c.toNat l.toNat f = true →
              u.tables.directory = t.tables.directory ∧ u.tables.slots = t.tables.slots)
          ∧ (∀ j st dl ul rf mic z, d = .call j st dl ul rf mic z → st ≠ 0 →
              u.tables.call j.toNat = { state := callStateOf st.toNat, owner := some sender.val
                                        downlink := presentByte dl, uplink := presentByte ul
                                        reference := presentByte rf, mic := presentByte mic, zones := z }
              ∧ u.tables.directory = t.tables.directory ∧ u.tables.slots = t.tables.slots
              ∧ (st = 2 → (t.tables.call (1 - j.toNat)).state = .active →
                  u.tables.call (1 - j.toNat) = { t.tables.call (1 - j.toNat) with state := .held }))
          ∧ (∀ j dl ul rf mic z, d = .call j 0 dl ul rf mic z → u.tables.call j.toNat = .none))

/-- A LEAVE takes effect (R26, R27, R43). A present sender is removed: its entry becomes absent, its streams go to NONE and their
slots become HELD, its call records go to NONE, and a record that named it as mic station loses uplink, reference and mic station.
An absent sender changes nothing. The sender itself goes to DETACHED with cause LEFT. That a LEAVE under the own number which this
station did not drive removes the own entry, and a MEMBER goes to LISTENING by it, is log 51, and what is due is done first by log
1: the model's choices. -/
def Obligations.LeaveRemovesTheSender : Prop :=
  ∀ (sender : Fin 16) (s : State), s.released →
    let t := s.settle
    t.hears → t.tableSizes → ∃ u : State, exec (.leave sender) s = .next u.keepUpStart ∧ State.sameAudio t u
      ∧ (t.isOwn sender.val .leave = true →
          u.member.station = .detached ∧ u.member.cause = some .left ∧ u.tables = t.tables.cleared)
      ∧ (t.isOwn sender.val .leave = false → sender.val ≠ t.number → u.member.station = t.member.station
          ∧ ((t.tables.station sender.val).present = false →
              u.tables = t.tables.onStation sender.val (fun e => { e with age := 0 }))
          ∧ ((t.tables.station sender.val).present = true →
              u.tables.station sender.val = .absent
              ∧ (∀ n, n ≠ sender.val → u.tables.station n = t.tables.station n)
              ∧ (∀ i, i < 4 → u.tables.entry (sender.val * 4 + i) = .none)
              ∧ (∀ x, x / 4 ≠ sender.val → u.tables.entry x = t.tables.entry x)
              ∧ (∀ i x, t.tables.slots.getD i .free = .owned x → x / 4 = sender.val →
                  u.tables.slots.getD i .free = .held 64)
              ∧ (∀ i, (∀ x, t.tables.slots.getD i .free = .owned x → x / 4 ≠ sender.val) →
                  u.tables.slots.getD i .free = t.tables.slots.getD i .free)
              ∧ (∀ j, (t.tables.call j).owner = some sender.val → u.tables.call j = .none)
              ∧ (∀ j, (t.tables.call j).owner ≠ some sender.val → (t.tables.call j).mic = some sender.val →
                  (u.tables.call j).state = (t.tables.call j).state ∧ (u.tables.call j).uplink = none
                  ∧ (u.tables.call j).reference = none ∧ (u.tables.call j).mic = none)))
      ∧ (t.isOwn sender.val .leave = false → sender.val = t.number → (t.tables.station sender.val).present = true →
          (t.member.station = .member → u.member.station = .listening ∧ u.member.cause = some .agedOut)
          ∧ (t.member.station = .leaving → u.member.station = .detached ∧ u.member.cause = some .left))

/-- An OFFER takes effect (R49, with the order of R48). A stream that comes from NONE is noticed by every zone (R53, R101), and
the companion of the station's own OFFER is placed in its binding record then and then alone (R58). What is due is done first:
the model's choice (log 1). -/
def Obligations.OfferIsJudged : Prop :=
  ∀ (sender : Fin 16) (index kind channels cls : Byte) (s : State), s.released →
    let t := s.settle
    let x := sender.val * 4 + index.toNat
    let verdict := (t.judge sender.val (.offer index kind channels cls)).2
    t.hears → t.tableSizes →
    ∃ u : State, exec (.offer sender index kind channels cls) s = .next u.keepUpStart
      ∧ u.member.station = t.member.station ∧ State.sameAudio t u
      ∧ u.tables.slots = t.tables.slots ∧ u.tables.calls = t.tables.calls
      ∧ (∀ n, n ≠ sender.val → u.tables.station n = t.tables.station n)
      ∧ u.tables.station sender.val = { t.tables.station sender.val with age := 0 }
      ∧ (∀ y, y ≠ x → u.tables.entry y = t.tables.entry y)
      ∧ (verdict = .taken → t.tables.entry x = .none → t.zonesNoticed u x .offer)
      ∧ (t.line.bindings.length = 4 → t.orderLaw →
          let placed (b : Binding) : Prop := sender.val = t.number ∧ verdict = .taken ∧ t.tables.entry x = .none
            ∧ ∃ o e, t.line.sent = some (.queued o (.offer index kind channels cls))
              ∧ t.line.queue.find? (fun e => e.order == o) = some e ∧ e.message = .offer index kind channels cls
              ∧ e.companion = some b
          (∀ b, placed b → u.line.bindings.getD index.toNat none = some b)
          ∧ ∀ i, i < 4 → u.tables.entry (t.number * 4 + i) ≠ .none → (i = index.toNat → ∀ b, ¬placed b) →
              (∀ o q, t.line.sent = some (.queued o q) → q = .offer index kind channels cls →
                ∀ e, t.line.queue.find? (fun e => e.order == o) = some e → e.message = q) →
              u.line.bindings.getD i none = t.line.bindings.getD i none)
      ∧ (Message.inRange (.offer index kind channels cls) = false →
          verdict = .badField ∧ u.tables.entry x = t.tables.entry x)
      ∧ (Message.inRange (.offer index kind channels cls) = true → (t.tables.station sender.val).present = false →
          verdict = .notPresent ∧ u.tables.entry x = t.tables.entry x)
      ∧ (Message.inRange (.offer index kind channels cls) = true → (t.tables.station sender.val).present = true →
          ∀ k, kindOf kind.toNat = some k →
          let p : StreamParameters := { kind := k, channels := channels.toNat, cls := cls.toNat }
          let voice := k = .voiceDownlink ∨ k = .voiceUplink
          (voice → cls ≠ 0 ∨ channels ≠ 1 → verdict = .badClass ∧ u.tables.entry x = t.tables.entry x)
          ∧ ((voice → cls = 0 ∧ channels = 1) →
              (t.tables.entry x = .none → verdict = .taken ∧ u.tables.entry x = .offered p)
              ∧ (∀ q f, t.tables.entry x = .offered q ∨ t.tables.entry x = .carried q f →
                  u.tables.entry x = t.tables.entry x ∧ (q = p → verdict = .taken) ∧ (q ≠ p → verdict = .inUse))))

/-- A CLAIM takes effect (R50, with the order of R48): the first check that fails gives the verdict and nothing changes; when
every check passes, the slots of the run become OWNED and the stream CARRIED, and every zone notices it: its entry becomes LIVE
at gain 0 where the station is MEMBER, and every target is taken afresh (R100, R101, R107, R110). What is due is done first: the
model's choice (log 1). -/
def Obligations.ClaimIsJudgedInOrder : Prop :=
  ∀ (sender : Fin 16) (index first : Byte) (s : State), s.released →
    let t := s.settle
    let x := sender.val * 4 + index.toNat
    let f := first.toNat
    let verdict := (t.judge sender.val (.claim index first)).2
    let inRange := index.toNat ≤ 3 ∧ f ≤ 39
    let present := (t.tables.station sender.val).present = true
    let runFree (c : Nat) := ∀ i, i < c → t.tables.slots.getD (f + i) (.held 0) = .free
    t.hears → t.tableSizes → ∃ u : State, exec (.claim sender index first) s = .next u.keepUpStart
      ∧ u.member.station = t.member.station ∧ State.sameAudio t u ∧ u.tables.calls = t.tables.calls
      ∧ (∀ n, n ≠ sender.val → u.tables.station n = t.tables.station n)
      ∧ u.tables.station sender.val = { t.tables.station sender.val with age := 0 }
      ∧ (verdict ≠ .taken → u.tables.directory = t.tables.directory ∧ u.tables.slots = t.tables.slots)
      ∧ (¬inRange → verdict = .badField)
      ∧ (inRange → ¬present → verdict = .notPresent)
      ∧ (inRange → present → t.tables.entry x = .none → verdict = .notOffered)
      ∧ (inRange → present → ∀ q g, t.tables.entry x = .carried q g → verdict = .alreadyCarried)
      ∧ (inRange → present → ∀ p, t.tables.entry x = .offered p →
          (39 < f + p.channels - 1 → verdict = .outOfRange)
          ∧ (f + p.channels - 1 ≤ 39 → ¬runFree p.channels → verdict = .slotBusy)
          ∧ (f + p.channels - 1 ≤ 39 → runFree p.channels → 38 ≤ f + p.channels - 1 → p.cls ≠ 0 → verdict = .callSlot)
          ∧ (f + p.channels - 1 ≤ 39 → runFree p.channels → f + p.channels - 1 < 38 ∨ p.cls = 0 →
              verdict = .taken ∧ u.tables.entry x = .carried p f
              ∧ (∀ y, y ≠ x → u.tables.entry y = t.tables.entry y)
              ∧ (∀ i, i < p.channels → f + i ≤ 39 → u.tables.slots.getD (f + i) .free = .owned x)
              ∧ (∀ i, i < f ∨ f + p.channels ≤ i → u.tables.slots.getD i .free = t.tables.slots.getD i .free)
              ∧ t.zonesNoticed u x .claim))

/-- A RELEASE takes effect (R51, with the order of R48). Every zone notices it: its entry becomes WAITING at gain 0 without a
ramp, a zone that lost a stream that played tells the host by STREAM_LOST, and every target is taken afresh (R100, R101, R107,
R110; log 59). What is due is done first: the model's choice (log 1). -/
def Obligations.ReleaseHoldsTheSlots : Prop :=
  ∀ (sender : Fin 16) (index : Byte) (s : State), s.released →
    let t := s.settle
    let x := sender.val * 4 + index.toNat
    let verdict := (t.judge sender.val (.release index)).2
    t.hears → t.tableSizes →
    (index.toNat ≤ 3 → (t.tables.station sender.val).present = true →
    ∃ u : State, exec (.release sender index) s = .next u.keepUpStart
      ∧ u.member.station = t.member.station ∧ State.sameAudio t u ∧ u.tables.calls = t.tables.calls
      ∧ (∀ y, y ≠ x → u.tables.entry y = t.tables.entry y)
      ∧ (∀ p f, t.tables.entry x = .carried p f →
          verdict = .taken ∧ u.tables.entry x = .offered p
          ∧ (∀ i, t.tables.slots.getD i .free = .owned x →
              u.tables.slots.getD i .free = .held 64 ∧ u.drivenInto i = none)
          ∧ (∀ i, t.tables.slots.getD i .free ≠ .owned x →
              u.tables.slots.getD i .free = t.tables.slots.getD i .free)
          ∧ (∀ reads l, l ∈ u.readStreams reads → l.stream ≠ x) ∧ t.zonesNoticed u x .release)
      ∧ ((∀ p f, t.tables.entry x ≠ .carried p f) →
          verdict = .notCarried ∧ u.tables.directory = t.tables.directory ∧ u.tables.slots = t.tables.slots))
    ∧ (3 < index.toNat ∨ (t.tables.station sender.val).present = false →
      ∃ u : State, exec (.release sender index) s = .next u.keepUpStart
        ∧ verdict = (if index.toNat ≤ 3 then .notPresent else .badField)
        ∧ u.tables = t.tables.onStation sender.val (fun e => { e with age := 0 })
        ∧ u.member.station = t.member.station ∧ State.sameAudio t u)

/-- A WITHDRAW takes effect (R52, with the order of R48); a record that names the stream loses that field (R156). Every zone
notices the end of the stream, here where no call record names it (R100, R101, R107, R110; log 59). What is due is done first:
the model's choice (log 1). -/
def Obligations.WithdrawEndsTheStream : Prop :=
  ∀ (sender : Fin 16) (index : Byte) (s : State), s.released →
    let t := s.settle
    let x := sender.val * 4 + index.toNat
    let verdict := (t.judge sender.val (.withdraw index)).2
    t.hears → t.tableSizes →
    (index.toNat ≤ 3 → (t.tables.station sender.val).present = true →
    ∃ u : State, exec (.withdraw sender index) s = .next u.keepUpStart
      ∧ u.member.station = t.member.station ∧ State.sameAudio t u
      ∧ (∀ y, y ≠ x → u.tables.entry y = t.tables.entry y)
      ∧ (t.tables.entry x ≠ .none →
          verdict = .taken ∧ u.tables.entry x = .none
          ∧ (∀ i, t.tables.slots.getD i .free = .owned x → u.tables.slots.getD i .free = .held 64)
          ∧ (∀ i, t.tables.slots.getD i .free ≠ .owned x →
              u.tables.slots.getD i .free = t.tables.slots.getD i .free)
          ∧ (∀ j, (u.tables.call j).state = (t.tables.call j).state
              ∧ ((t.tables.call j).downlink = some x → (u.tables.call j).downlink = none)
              ∧ ((t.tables.call j).uplink = some x → (u.tables.call j).uplink = none)
              ∧ ((t.tables.call j).reference = some x → (u.tables.call j).reference = none))
          ∧ (u.tables.calls = t.tables.calls → t.zonesNoticed u x .withdraw))
      ∧ (t.tables.entry x = .none →
          verdict = .notOffered ∧ u.tables.directory = t.tables.directory ∧ u.tables.slots = t.tables.slots
          ∧ u.tables.calls = t.tables.calls))
    ∧ (3 < index.toNat ∨ (t.tables.station sender.val).present = false →
      ∃ u : State, exec (.withdraw sender index) s = .next u.keepUpStart
        ∧ verdict = (if index.toNat ≤ 3 then .notPresent else .badField)
        ∧ u.tables = t.tables.onStation sender.val (fun e => { e with age := 0 })
        ∧ u.member.station = t.member.station ∧ State.sameAudio t u)

/-- A ROUTE takes effect (R102, R103, R105): ADD, SET_LEVEL and REMOVE are judged by the station that owns the zone, in MEMBER
or LEAVING, and by no other; it sends a ROUTE_ANSWER with the verdict. A refused action changes no zone, and a taken one only
the zone it names: the entry stands at its place (R99), every other entry keeps its place, class, level and state, and the
zone's dominant class and every target gain are computed afresh, with a ramp begun where the target changed (R107, R108). That
REMOVE of a LIVE entry at gain 0 removes it at once is log 30, and what is due is done first by log 1: the model's choices. (A
frame in which this station drove its own message has no clause here.) -/
def Obligations.RoutesAreJudgedByTheOwner : Prop :=
  ∀ (sender : Fin 16) (zone stream level : Byte) (c : Instr) (a : Nat) (s : State),
    (c, a) ∈ [(Instr.add sender zone stream level, 0), (.setLevel sender zone stream level, 1),
      (.remove sender zone stream level, 2)] → s.released →
    let t := s.settle
    let x := stream.toNat
    let inRange := zone.toNat ≤ 15 ∧ x ≤ 63 ∧ level.toNat ≤ 63
    t.hears → t.droveNothing → ∃ u : State, exec c s = .next u.keepUpStart
      ∧ u.member.station = t.member.station ∧ State.sameAudio t u ∧ u.note = t.note
      ∧ u.tables.directory = t.tables.directory ∧ u.tables.slots = t.tables.slots ∧ u.tables.calls = t.tables.calls
      ∧ (t.member.station.drives = false ∨ t.ownZone zone.toNat = none → u.mixer = t.mixer)
      ∧ ∀ z, t.member.station.drives = true → t.ownZone zone.toNat = some z → z < t.mixer.zones.length →
          let code := if inRange then t.routeCode z x a else 4
          (∃ e, e ∈ u.line.queue ++ u.line.waiting ∧ e.originator = .zoneMixer
            ∧ e.message = .routeAnswer (BitVec.ofNat 8 sender.val) zone stream (BitVec.ofNat 8 code))
          ∧ (code ≠ 0 → u.mixer = t.mixer)
          ∧ (code = 0 → t.routeTaken u z x a level.toNat)

/-- A ROUTE_ANSWER takes effect (R106): the station named in it tells its host, if it has one; every other station, and every
station where a field is out of range, does nothing but set the sender's age to 0 (R25). A frame in which the station drove a
queued message that is not the zone mixer's is left out. What is due is done first: the model's choice (log 1). -/
def Obligations.ARouteAnswerTellsItsRequester : Prop :=
  ∀ (sender : Fin 16) (requester zone stream verdict : Byte) (s : State), s.released →
    let t := s.settle
    let inRange := requester.toNat ≤ 15 ∧ zone.toNat ≤ 15 ∧ stream.toNat ≤ 63 ∧ verdict.toNat ≤ 4
    let event : EventRecord := { kind := .routeAnswer, subject := [zone.toNat, stream.toNat]
                                 cause := [Cause.taken, .noStream, .privateStream, .zoneFull, .badField][verdict.toNat]?
                                 stamp := t.tables.frameCount.setWidth 16 }
    t.hears →
    (∀ o m e, t.line.sent = some (.queued o m) → t.line.queue.find? (fun e => e.order == o) = some e →
      e.originator = .zoneMixer) →
    ∃ u : State, exec (.routeAnswer sender requester zone stream verdict) s = .next u.keepUpStart
      ∧ u.tables = t.tables.onStation sender.val (fun e => { e with age := 0 })
      ∧ u.member.station = t.member.station ∧ State.sameAudio t u ∧ u.mixer = t.mixer ∧ u.call = t.call ∧ u.note = t.note
      ∧ (requester.toNat = t.number ∧ inRange ∧ t.hasHost = true → u.host.events = addEvent event t.host.events)
      ∧ (requester.toNat ≠ t.number ∨ ¬inRange ∨ t.hasHost = false → u.host = t.host)

/-- A CALL takes effect (R151, Table 9-3): the checks that every action shares, in their order. An action that is not TAKEN
changes no record, and no action changes the directory or the slots. Where a record changed, every zone takes its call position
afresh, with its ramp and CALL_POSITION_CHANGED, and every target (R107, R110, R111). What is due is done first: the model's
choice (log 1). -/
def Obligations.CallActionsAreCheckedInOrder : Prop :=
  ∀ (sender : Fin 16) (id : Byte) (f : CallFields) (c : Instr) (a : Byte) (s : State),
    (c, a) ∈ [(Instr.ring sender id f, 0), (.answer sender id f, 1), (.hold sender id f, 2), (.resume sender id f, 3),
      (.zones sender id f, 4), (.endCall sender id f, 5)] → s.released →
    let t := s.settle
    let record := t.tables.call id.toNat
    let verdict := (t.judge sender.val (.call id a f)).2
    let inRange := (Message.call id a f).inRange = true
    let present := (t.tables.station sender.val).present = true
    let allowed := match a with
      | 0 => record.state = .none
      | 1 => record.state = .ringing ∨ record.state = .active
      | 2 => record.state = .active
      | 3 => record.state = .held
      | _ => record.state ≠ .none
    t.hears → t.tableSizes → ∃ u : State, exec c s = .next u.keepUpStart
      ∧ u.member.station = t.member.station ∧ State.sameAudio t u
      ∧ u.tables.directory = t.tables.directory ∧ u.tables.slots = t.tables.slots
      ∧ (∀ n, n ≠ sender.val → u.tables.station n = t.tables.station n)
      ∧ (verdict ≠ .taken → u.tables.calls = t.tables.calls)
      ∧ (u.tables.calls ≠ t.tables.calls → t.zonesTaken u false)
      ∧ (¬inRange → verdict = .badField)
      ∧ (inRange → ¬present → verdict = .notPresent)
      ∧ (inRange → present → record.state ≠ .none → record.owner ≠ some sender.val → verdict = .notOwner)
      ∧ (inRange → present → record.state = .none ∨ record.owner = some sender.val → ¬allowed → verdict = .callState)

/-- RING and ANSWER (R152, R153, with R150): what each checks beyond the shared checks, in order, and what it makes of its
record. A record that was ACTIVE beside the answered one becomes HELD. Where a record changed, every zone takes the record that
fills its call position afresh, with its ramp from 0 and CALL_POSITION_CHANGED (R110, R111). What is due is done first: the
model's choice (log 1). -/
def Obligations.RingAndAnswerFollowTheirChecks : Prop :=
  ∀ (sender : Fin 16) (id : Byte) (f : CallFields) (s : State), s.released →
    let t := s.settle
    let j := id.toNat
    let record := t.tables.call j
    let present := (t.tables.station sender.val).present = true
    let is (field : Option Nat) (of : Nat → Prop) (kind : StreamKind) : Prop :=
      ∃ x p, field = some x ∧ of x ∧ (t.tables.entry x).parameters = some p ∧ p.kind = kind
    let outside := f.zones &&& ~~~t.tables.zonesPresent ≠ 0
    t.hears → t.tableSizes →
    ((Message.call id 0 f).inRange = true → present → record.state = .none →
      let verdict := (t.judge sender.val (.call id 0 f)).2
      let downlink := is (presentByte f.downlink) (fun x => x / 4 = sender.val) .voiceDownlink
      ∃ u : State, exec (.ring sender id f) s = .next u.keepUpStart
        ∧ (∀ i, i ≠ j → u.tables.call i = t.tables.call i)
        ∧ (u.tables.calls ≠ t.tables.calls → t.zonesTaken u false)
        ∧ (¬downlink → verdict = .badDownlink)
        ∧ (downlink → f.zones = 0 ∨ outside → verdict = .noZones)
        ∧ (downlink → f.zones ≠ 0 → ¬outside → f.zones &&& t.tables.privateZonesPresent ≠ 0 → verdict = .privateZone)
        ∧ (downlink → f.zones ≠ 0 → ¬outside → f.zones &&& t.tables.privateZonesPresent = 0 →
            verdict = .taken ∧ u.tables.call j = { state := .ringing, owner := some sender.val
                                                   downlink := presentByte f.downlink, uplink := none
                                                   reference := none, mic := none, zones := f.zones }))
    ∧ ((Message.call id 1 f).inRange = true → present → record.owner = some sender.val →
      record.state = .ringing ∨ record.state = .active →
      let verdict := (t.judge sender.val (.call id 1 f)).2
      let downlink := ∃ x, record.downlink = some x ∧ t.tables.entry x ≠ .none
      let mic := ∃ m, presentByte f.mic = some m ∧ (t.tables.station m).present = true
        ∧ (t.tables.station m).roles.mics = true
      let uplink := is (presentByte f.uplink) (fun x => presentByte f.mic = some (x / 4)) .voiceUplink
      let reference := presentByte f.reference = none ∨ is (presentByte f.reference) (fun _ => True) .reference
      ∃ u : State, exec (.answer sender id f) s = .next u.keepUpStart
        ∧ (u.tables.calls ≠ t.tables.calls → t.zonesTaken u false)
        ∧ (¬downlink → verdict = .badDownlink)
        ∧ (downlink → ¬mic → verdict = .noMic)
        ∧ (downlink → mic → ¬uplink → verdict = .badUplink)
        ∧ (downlink → mic → uplink → ¬reference → verdict = .badReference)
        ∧ (downlink → mic → uplink → reference →
            verdict = .taken
            ∧ u.tables.call j = { record with state := .active, uplink := presentByte f.uplink
                                              reference := presentByte f.reference, mic := presentByte f.mic }
            ∧ ((t.tables.call (1 - j)).state = .active →
                u.tables.call (1 - j) = { t.tables.call (1 - j) with state := .held })
            ∧ ((t.tables.call (1 - j)).state ≠ .active → u.tables.call (1 - j) = t.tables.call (1 - j))))

/-- HOLD, RESUME, ZONES and END from the owner of a record (R154, R155, with R150). Where a record changed, every zone takes the
record that fills its call position afresh, empties it where none does, and raises CALL_POSITION_CHANGED (R110, R111). What is due
is done first: the model's choice (log 1). -/
def Obligations.HoldResumeZonesAndEnd : Prop :=
  ∀ (sender : Fin 16) (id : Byte) (f : CallFields) (s : State), s.released →
    let t := s.settle
    let j := id.toNat
    let record := t.tables.call j
    let other := t.tables.call (1 - j)
    let outside := f.zones &&& ~~~t.tables.zonesPresent ≠ 0
    let secluded := f.zones &&& t.tables.privateZonesPresent ≠ 0
    let zones (u : State) : Prop := u.tables.calls ≠ t.tables.calls → t.zonesTaken u false
    t.hears → t.tableSizes → (t.tables.station sender.val).present = true → record.owner = some sender.val →
    (∀ a : Byte, a.toNat ≤ 5 → (Message.call id a f).inRange = true) →
    (record.state = .active → ∃ u : State, exec (.hold sender id f) s = .next u.keepUpStart
      ∧ u.tables.call j = { record with state := .held } ∧ u.tables.call (1 - j) = other ∧ zones u)
    ∧ (record.state = .held → ∃ u : State, exec (.resume sender id f) s = .next u.keepUpStart
      ∧ u.tables.call j = { record with state := .active } ∧ zones u
      ∧ (other.state = .active → u.tables.call (1 - j) = { other with state := .held })
      ∧ (other.state ≠ .active → u.tables.call (1 - j) = other))
    ∧ (record.state ≠ .none → ∃ u : State, exec (.zones sender id f) s = .next u.keepUpStart
      ∧ u.tables.call (1 - j) = other ∧ zones u
      ∧ (outside → u.tables.call j = record)
      ∧ (record.state = .ringing → f.zones = 0 ∨ secluded → u.tables.call j = record)
      ∧ (¬outside → record.state = .ringing → f.zones ≠ 0 → ¬secluded → u.tables.call j = { record with zones := f.zones })
      ∧ (¬outside → record.state ≠ .ringing → u.tables.call j = { record with zones := f.zones }))
    ∧ (record.state ≠ .none → ∃ u : State, exec (.endCall sender id f) s = .next u.keepUpStart
      ∧ u.tables.call j = .none ∧ u.tables.call (1 - j) = other ∧ zones u)

/-- A NOTE_PART takes effect (R168 to R170): at its target, while that station takes part and its box accepts the part, the part
is written; the last part fills the box. Elsewhere, and for any other part, the box stands. What is due is done first: the model's
choice (log 1). -/
def Obligations.ANotePartFillsTheBox : Prop :=
  ∀ (sender : Fin 16) (target index : Byte) (total : BitVec 16) (data : BitVec 128) (s : State), s.released →
    let t := s.settle
    let i := index.toNat
    let n := total.toNat
    let mine := t.member.station.takesPart = true ∧ target.toNat = t.number
    let inForm := 1 ≤ n ∧ n ≤ 256 ∧ i ≤ (n - 1) / 16
    let old : List Byte := match t.note.box with
      | .filling _ _ _ _ bytes => bytes
      | _ => []
    let accepted := inForm ∧ match t.note.box with
      | .free => i = 0
      | .filling from' length next _ _ => from' = sender.val ∧ (i = 0 ∨ (i = next ∧ n = length))
      | .full .. => False
    t.hears → ∃ u : State, exec (.notePart sender target index total data) s = .next u.keepUpStart
      ∧ u.tables = t.tables.onStation sender.val (fun e => { e with age := 0 })
      ∧ u.member.station = t.member.station ∧ State.sameAudio t u ∧ u.mixer = t.mixer
      ∧ (¬(mine ∧ accepted) → u.note.box = t.note.box)
      ∧ (mine ∧ accepted → i < (n - 1) / 16 → ∃ bytes, u.note.box = .filling sender.val n (i + 1) 0 bytes
          ∧ (i = 0 → bytes = dataBytes data) ∧ (i ≠ 0 → bytes = (old.take (16 * i) ++ dataBytes data).take n))
      ∧ (mine ∧ accepted → i = (n - 1) / 16 → ∃ bytes, u.note.box = .full sender.val n 0 bytes
          ∧ (i = 0 → bytes = (dataBytes data).take n) ∧ (i ≠ 0 → bytes = (old.take (16 * i) ++ dataBytes data).take n)
          ∧ (t.droveNothing → t.hasHost = true →
              u.host.events = addEvent { kind := .noteArrived, subject := [sender.val, n - 1], cause := none
                                         stamp := t.tables.frameCount.setWidth 16 } t.host.events))

/-- The station's own moves that fall due: SELF_VETO (R17, R41), SILENCE_ENDED (R41) and LISTEN_END (R36). At a change of state
every zone tests its entries and takes its call position and its targets afresh (R100, R107, R110). A row that is not due does
nothing: the model's choice (log 2). -/
def Obligations.StationMovesFallDue : Prop :=
  ∀ s : State, s.released →
    (s.member.station.takesPart = false ∨ s.line.selfVeto < 32 → exec .selfVeto s = .next s.keepUpStart)
    ∧ (s.member.station.takesPart = true → 32 ≤ s.line.selfVeto → ∃ u : State, exec .selfVeto s = .next u
        ∧ u.member.station = .silenced ∧ u.member.cause = some .selfVeto ∧ u.member.silenceCount = 1024
        ∧ u.line.selfVeto = 0 ∧ u.line.queue = [] ∧ u.line.waiting = [] ∧ u.tables = s.tables.cleared
        ∧ s.zonesTaken u true ∧ State.sameAudio s u)
    ∧ (s.member.station ≠ .silenced ∨ s.member.silenceCount ≠ 0 → exec .silenceEnded s = .next s.keepUpStart)
    ∧ (s.member.station = .silenced → s.member.silenceCount = 0 → ∃ u : State,
        exec .silenceEnded s = .next u.keepUpStart
        ∧ u.member.station = .listening ∧ u.member.cause = some .silenceEnded ∧ u.member.undamaged = 0
        ∧ u.member.backoff = 0 ∧ u.tables = s.tables.cleared ∧ s.zonesTaken u true ∧ State.sameAudio s u)
    ∧ (let due := s.member.station = .listening ∧ s.member.undamaged = 12800 ∧ s.line.phase = .over
          ∧ (∀ e, e ∈ s.tables.roster → e.present = true → e.completeness = .complete)
      (¬due → exec .listenEnd s = .next s.keepUpStart)
      ∧ (∀ r, due → s.startUp.record = some r → ∃ u : State, exec .listenEnd s = .next u.keepUpStart
          ∧ State.sameAudio s u
          ∧ ((s.tables.station r.station).present = true →
              u.member.station = .detached ∧ u.member.cause = some .numberTaken)
          ∧ ((s.tables.station r.station).present = false → zoneSetOf r.zones &&& s.tables.zonesPresent ≠ 0 →
              u.member.station = .detached ∧ u.member.cause = some .zoneTaken)
          ∧ ((s.tables.station r.station).present = false → zoneSetOf r.zones &&& s.tables.zonesPresent = 0 →
              u.member.station = .joining ∧ u.member.cause = some .ready ∧ u.tables = s.tables
              ∧ ∃ e, e ∈ u.line.queue ++ u.line.waiting ∧ e.originator = .membership
                ∧ e.message = .join (rolesByte r.roles) (zoneSetOf r.zones) (privateSetOf r.zones) r.serial)))

/-- A HELD slot whose hold has run out becomes FREE (R47), an entry of the queue whose hold has run out becomes ready (R18), and a
presence-due counter at 2,048 makes a presence message due (R28). Nothing else changes, and a row that is not due does nothing:
the model's choice (log 2). -/
def Obligations.HoldsAndCountersRunOut : Prop :=
  ∀ s : State, s.released →
    (∀ i : Fin 40,
      (s.tables.slots.getD i.val .free = .held 0 →
        exec (.holdExpiry i) s
          = .next ({ s with tables := { s.tables with slots := s.tables.slots.set i.val .free } }).keepUpStart)
      ∧ (s.tables.slots.getD i.val .free ≠ .held 0 → exec (.holdExpiry i) s = .next s.keepUpStart))
    ∧ exec .queueHoldExpiry s
        = .next ({ s with line := { s.line with
            queue := s.line.queue.map (fun (e : QueueEntry) => if e.hold = 0 then { e with ready := true } else e) } }).keepUpStart
    ∧ (s.member.station = .member ∨ s.member.station = .leaving → 2048 ≤ s.line.presenceCounter →
        exec .presenceDue s = .next ({ s with line := { s.line with presenceDue := true } }).keepUpStart)
    ∧ (¬(s.member.station = .member ∨ s.member.station = .leaving) ∨ s.line.presenceCounter < 2048 →
        exec .presenceDue s = .next s.keepUpStart)

/-- A present entry whose age has reached 8,192 is removed (R25, R26): its streams end, their slots become HELD, its call records
go to NONE. A station in MEMBER or LEAVING that finds its own entry removed moves (R27); in any other state the entry of its
number is removed as another's. A row that is not due does nothing: the model's choice (log 2). -/
def Obligations.AnAgedStationIsRemoved : Prop :=
  ∀ (n : Fin 16) (s : State), s.released → s.tableSizes →
    let due := (s.tables.station n.val).present = true ∧ 8192 ≤ (s.tables.station n.val).age
    (¬due → exec (.agedOut n) s = .next s.keepUpStart)
    ∧ (due → ∃ u : State, exec (.agedOut n) s = .next u.keepUpStart ∧ State.sameAudio s u
        ∧ (n.val ≠ s.number ∨ s.member.station ≠ .member ∧ s.member.station ≠ .leaving →
            u.member.station = s.member.station
            ∧ u.tables.station n.val = .absent ∧ (∀ m, m ≠ n.val → u.tables.station m = s.tables.station m)
            ∧ (∀ x, u.tables.entry x = if x / 4 = n.val then .none else s.tables.entry x)
            ∧ (∀ i x, s.tables.slots.getD i .free = .owned x → x / 4 = n.val →
                u.tables.slots.getD i .free = .held 64)
            ∧ (∀ i, (∀ x, s.tables.slots.getD i .free = .owned x → x / 4 ≠ n.val) →
                u.tables.slots.getD i .free = s.tables.slots.getD i .free)
            ∧ (∀ j, (s.tables.call j).owner = some n.val → u.tables.call j = .none)
            ∧ (∀ j, (s.tables.call j).owner ≠ some n.val → (s.tables.call j).mic = some n.val →
                (u.tables.call j).state = (s.tables.call j).state ∧ (u.tables.call j).uplink = none
                ∧ (u.tables.call j).reference = none ∧ (u.tables.call j).mic = none))
        ∧ (n.val = s.number → s.member.station = .member →
            u.member.station = .listening ∧ u.member.cause = some .agedOut ∧ u.tables = s.tables.cleared)
        ∧ (n.val = s.number → s.member.station = .leaving →
            u.member.station = .detached ∧ u.member.cause = some .left ∧ u.tables = s.tables.cleared))

/-- The note box empties (R171) and the retry counts run out (R160, R182): a FILLING box at a stall count of 512 and a FULL box at
an expiry count of 48,000 become FREE with their events; the call unit and the start-up unit claim again. A row that is not due
does nothing: the model's choice (log 2). -/
def Obligations.NoteCountsAndRetriesRunOut : Prop :=
  ∀ s : State, s.released →
    let freed := { s.note with box := .free }
    let with' (k : EventKind) (sender : Nat) (c : Option Cause) : HostPort := if s.hasHost then
        { s.host with events := addEvent { kind := k, subject := [sender], cause := c
                                           stamp := s.tables.frameCount.setWidth 16 } s.host.events } else s.host
    (∀ sender total next stall data, s.note.box = .filling sender total next stall data →
      (512 ≤ stall → exec .noteStall s
        = .next ({ s with note := freed, host := with' .noteDropped sender (some .stalled) }).keepUpStart)
      ∧ (stall < 512 → exec .noteStall s = .next s.keepUpStart) ∧ exec .noteExpiry s = .next s.keepUpStart)
    ∧ (∀ sender total expiry data, s.note.box = .full sender total expiry data →
      (48000 ≤ expiry → exec .noteExpiry s
        = .next ({ s with note := freed, host := with' .noteExpired sender none }).keepUpStart)
      ∧ (expiry < 48000 → exec .noteExpiry s = .next s.keepUpStart) ∧ exec .noteStall s = .next s.keepUpStart)
    ∧ (s.call.retryArmed = false ∨ s.call.retry ≠ 0 → exec .uplinkRetry s = .next s.keepUpStart)
    ∧ (∀ x p, s.call.retryArmed = true → s.call.retry = 0 → s.member.station.drives = true →
        s.demandedUplink = some x → s.tables.entry x = .offered p → x / 4 = s.number →
        s.hasOutgoing .callUnit Message.isClaim = false → s.line.queue.length < 8 →
        ∃ u : State, exec .uplinkRetry s = .next u.keepUpStart ∧ u.call.retryArmed = false ∧ u.tables = s.tables
          ∧ ∃ e, e ∈ u.line.queue ++ u.line.waiting ∧ e.originator = .callUnit ∧ e.auto = true
            ∧ e.message = .claim (BitVec.ofNat 8 (x % 4)) 0)
    ∧ ∀ i : Fin 4, let c := s.startUp.carryRetry.getD i.val { count := 0, armed := false }
      (c.armed = false ∨ c.count ≠ 0 → exec (.carryRetry i) s = .next s.keepUpStart)
      ∧ (c.armed = true → c.count = 0 → ∃ u : State, exec (.carryRetry i) s = .next u.keepUpStart
          ∧ u.startUp.carryRetry = s.startUp.carryRetry.set i.val { count := 0, armed := false } ∧ u.tables = s.tables
          ∧ ((s.member.station ≠ .member ∨ (s.tables.entry (s.number * 4 + i.val)).isOffered = false) →
              u.line = s.line)
          ∧ (∀ p, s.member.station = .member → s.tables.entry (s.number * 4 + i.val) = .offered p →
              ∃ e, e ∈ u.line.queue ++ u.line.waiting ∧ e.originator = .startUp ∧ e.auto = true
                ∧ e.message = .claim (BitVec.ofNat 8 i.val) 0))

/-- One local sample (R65, R69, R71 to R77, R108, R109, R113, R129, R130): the inputs are taken, the decoder buffer is read or
slips, the quality block counts one sample more and keeps the worst mark handed, LOST for a missing sample (R76), the gate
moves, every cadence channel counts, the rounds of the store's clients move on; every ramp takes its step, every zone forms its
sum, and every output pair writes its ring and emits: zero where it belongs to no zone, else the sample due at its delay by its
trim and the gate's gain, silence for a hole or a gap (R115). The line side stands. A DORMANT station takes no local sample. The
order of the blocks (log 21), every ramp's step before the sums (log 71), the gain in steps of 2^-32 (log 12), the direction of
rounding (log 13), what no read has delivered (log 14) and what falls due first (log 1) are the model's. (What plays, the blend
engine and the canceller do at it is in CadencesAndPlaysFallDue, BlendMovesAndResults and TheCancellerJudgesItsBlocks.) -/
def Obligations.ALocalSampleMovesTheBlocks : Prop :=
  ∀ (i : InputSamples) (s : State), s.released →
    let t := s.settle
    let p := t.ports
    let counts (u : State) (q : Quality) : Prop :=
      qualityCode u.ports.blockWorst = max (qualityCode p.blockWorst) (qualityCode q)
    (t.member.station = .dormant → exec (.localSample i) s = .next t.keepUpStart)
    ∧ (t.member.station ≠ .dormant → ∃ u : State, exec (.localSample i) s = .next u.keepUpStart
      ∧ State.sameLine t u ∧ u.announce.clips = t.announce.clips ∧ u.store.regions = t.store.regions
      ∧ u.ports.inputs = [i.in0, i.in1, i.in2, i.in3] ∧ u.ports.arrivalGap = p.arrivalGap + 1
      ∧ u.localCount = t.localCount + 1 ∧ u.store.refreshTick = t.store.refreshTick + 1
      ∧ u.mixer.round = (t.mixer.round + 1) % 8 ∧ u.blend.round = (t.blend.round + 1) % 8
      ∧ u.call.round = (t.call.round + 1) % 8
      ∧ (p.reading = false → u.ports.digital = none ∧ u.ports.buffer = p.buffer ∧ u.ports.balance = p.balance)
      ∧ (p.reading = true → p.buffer = [] → u.ports.reading = false ∧ u.ports.digital = none
          ∧ u.ports.balance = p.balance)
      ∧ u.ports.blockReads = p.blockReads + 1
      ∧ (p.reading = false ∨ p.buffer = [] → counts u .lost)
      ∧ (∀ x rest, p.reading = true → p.buffer = x :: rest →
          (p.slipGuard < 64 ∨ 8 ≤ p.buffer.length ∧ p.buffer.length ≤ 56 →
            u.ports.buffer = rest ∧ u.ports.digital = some x.sample ∧ u.ports.balance = p.balance
            ∧ u.ports.slipGuard = min 64 (p.slipGuard + 1) ∧ counts u x.quality)
          ∧ (p.buffer.length < 8 → 64 ≤ p.slipGuard →
            u.ports.buffer = p.buffer ∧ u.ports.digital = p.lastHanded.map (fun y => y.sample)
            ∧ counts u ((p.lastHanded.map (fun y => y.quality)).getD .lost)
            ∧ u.ports.slipGuard = 0 ∧ u.ports.balance = max (-257) (min 257 (p.balance + 1)))
          ∧ (∀ y more, 56 < p.buffer.length → 64 ≤ p.slipGuard → rest = y :: more →
            u.ports.buffer = more ∧ u.ports.digital = some y.sample ∧ counts u y.quality
            ∧ u.ports.slipGuard = 0 ∧ u.ports.balance = max (-257) (min 257 (p.balance - 1))))
      ∧ (t.follower.gate = .closing → u.follower = { t.follower with gain := t.follower.gain - 10 })
      ∧ (t.follower.gate = .opening → u.follower = { t.follower with gain := min 480 (t.follower.gain + 1) })
      ∧ (t.follower.gate = .open ∨ t.follower.gate = .shut → u.follower = t.follower)
      ∧ (∀ c, (t.channel c).role = .leader → (t.channel c).running = true →
          u.channel c = { t.channel c with time := (t.channel c).time - 1 })
      ∧ (∀ c l, (t.channel c).role = .follower l → (t.channel c).counting = true →
          u.channel c = { t.channel c with remaining := (t.channel c).remaining - 1 })
      ∧ (t.blend.state = .idle → u.blend.out = .zero)
      ∧ (t.call.state = .off → u.call.uplink = 0)
      ∧ (∀ z, z < t.mixer.zones.length →
          let v := t.zone z
          let n := u.zone z
          n.routes.length = v.routes.length
          ∧ (∀ (k : Nat) (e : RouteEntry), v.routes[k]? = some e → ∃ r, n.routes[k]? = some { e with ramp := r } ∧ rampStepped e.ramp r)
          ∧ (∃ r, n.position = { v.position with ramp := r } ∧ rampStepped v.position.ramp r)
          ∧ n.sum = { left := mixed (t.zoneTotal n false), right := mixed (t.zoneTotal n true) }
          ∧ ((∀ e, e ∈ v.routes → e.state = .waiting) → v.position.state ≠ .live → n.sum = .zero))
      ∧ (p.outputs.length = 6 → t.mixer.paths.length = 6 →
          (∀ q, q < 6 → (∀ d o, d ∈ t.definitions → o ∈ d.pairs → o.pair ≠ q) → u.ports.outputs.getD q .zero = .zero)
          ∧ ∀ z d o, t.definitions[z]? = some d → o ∈ d.pairs → o.pair < 6 →
            (t.definitions.flatMap (fun e => e.pairs)).Pairwise (fun a b => a.pair ≠ b.pair) →
            let path := t.path o.pair
            let w := path.ring.write
            let x := heardAt path.held path.ring (behind 2560 w (48 + o.delay)) o.pair t.localCount
            let out (y : Sample) : Sample :=
              limit24 (roundDiv ((mixed (y.toInt * attenuation o.trim)).toInt * u.follower.gain) 480)
            u.ports.outputs.getD o.pair .zero = { left := out x.left, right := out x.right }
            ∧ (u.path o.pair).ring.write = (w + 1) % 2560
            ∧ ((w + 1) % 8 ≠ 0 → (u.path o.pair).ring.current = path.ring.current ++ [(u.zone z).sum])))

/-- The decoder port and quality (R73, R76, R77, R140 to R147): an arriving sample joins the elastic buffer, which begins to
read at fill 32 and discards at fill 64; the end of a quality block and an arrival gap hand a quality to the blend engine, which
moves as R141, R142 and R145 to R147 say. Where its state stands the good and the poor run count on (R140); a change of state
makes both 0 (log 43) and raises BLEND_CHANGED with the cause of Table 8-2. The correlator starts with an empty history on entry
into ALIGNING and stops where ALIGNING is left. A row that is not due does nothing (log 2), and what is due is done first (log
1): the model's choices. -/
def Obligations.DecoderSamplesAndQuality : Prop :=
  (∀ (x : Stereo) (q : Quality) (s : State), s.released →
    let t := s.settle
    let p := t.ports
    (t.member.station = .dormant → exec (.decoderArrival x q) s = .next t.keepUpStart)
    ∧ (t.member.station ≠ .dormant → ∃ r : Ports, exec (.decoderArrival x q) s = .next ({ t with ports := r }).keepUpStart
      ∧ r.arrivalGap = 0 ∧ r.nextLost = 64
      ∧ (64 ≤ p.buffer.length → r.buffer = p.buffer ∧ r.blockWorst = .lost ∧ r.reading = p.reading)
      ∧ (p.buffer.length < 64 → r.buffer = p.buffer ++ [{ sample := x, quality := q }])
      ∧ (p.reading = false → p.buffer.length + 1 < 32 → r.reading = false)
      ∧ (p.reading = false → p.buffer.length < 64 → 32 ≤ p.buffer.length + 1 →
          r.reading = true ∧ r.slipGuard = 64 ∧ r.blockReads = 0 ∧ r.lastHanded = none)
      ∧ (p.reading = true → r.reading = true)))
  ∧ ∀ s : State, s.released →
    (s.ports.blockReads < 1024 → exec .qualityBlock s = .next s.keepUpStart)
    ∧ (s.ports.arrivalGap < s.ports.nextLost → exec .arrivalGap s = .next s.keepUpStart)
    ∧ ∀ (c : Instr) (q : Quality),
      c = .qualityBlock ∧ 1024 ≤ s.ports.blockReads ∧ q = s.ports.blockWorst
        ∨ c = .arrivalGap ∧ s.ports.nextLost ≤ s.ports.arrivalGap ∧ q = .lost →
      ∃ u : State, exec c s = .next u.keepUpStart
        ∧ u.blend.state = blendAfterQuality s.blend q ∧ u.ports.blockReads = 0 ∧ u.ports.blockWorst = .good
        ∧ u.ports.buffer = s.ports.buffer ∧ State.sameLine s u ∧ u.store = s.store ∧ u.mixer = s.mixer ∧ u.call = s.call
        ∧ u.announce = s.announce ∧ u.follower = s.follower
        ∧ (c = .qualityBlock → u.ports.lastQuality = q)
        ∧ (c = .arrivalGap → u.ports.nextLost = s.ports.nextLost + 1024)
        ∧ (u.blend.state ≠ s.blend.state → u.blend.goodRun = 0 ∧ u.blend.poorRun = 0
            ∧ u.host = s.eventRaised .blendChanged [blendCode u.blend.state] (some (blendCauseAfter s.blend q)))
        ∧ (u.blend.state = s.blend.state → u.host = s.host
            ∧ u.blend.goodRun = (if q = .good then min 8 (s.blend.goodRun + 1) else 0)
            ∧ u.blend.poorRun = (if q = .poor then min 2 (s.blend.poorRun + 1) else 0))
        ∧ (u.blend.state = .aligning → s.blend.state ≠ .aligning →
            u.blend.correlator.phase = .priming ∧ u.blend.correlator.done = 0 ∧ u.blend.correlator.analogue = [])
        ∧ (s.blend.state = .aligning → u.blend.state ≠ .aligning → u.blend.correlator.phase = .notRunning)
        ∧ (q = .lost → s.blend.state ≠ .idle → s.blend.state ≠ .filling → u.blend.valid = false)
        ∧ (q = .lost → s.blend.state = .digital ∨ s.blend.state = .toDigital ∨ s.blend.state = .toAnalogue →
            u.blend.fast = true)
        ∧ (q = .poor → s.blend.state = .toDigital ∨ s.blend.state = .digital ∧ 1 ≤ s.blend.poorRun →
            u.blend.fast = false)

/-- The banks of the sample store (R80, R86 to R91, Table 5-2, Table 5-6): what the completions of an opening, a close and a
refresh make of their bank before the arbiter acts, and what the arbiter does. It moves no word and no debt, gives at most one
step to a bank, and does nothing in retention. It goes by the order of R86: urgent refreshes by debt and number, and no head
acts on their banks (R91); then the heads of ECHO, ALIGN, BLEND and CLIP playback, each of which has its next step where no more
urgent head claims its bank and the openings of the more urgent claimants leave one for it; then ordinary refreshes by debt and
number within the allowance (R90); then the CLIP loading head. With the budget spent a row hit goes ahead of heads that claim
another row of its bank (R87, R88). At every sixth local sample every debt rises by one, up to 16; where the rise makes no
refresh urgent, no bank begins an operation at it (R87). A bank whose debt reaches 16 raises REFRESH_OVERDUE and gives a bank
loss notice (R92): every LOADING, READY and LOCKED clip that lies in it becomes INVALID, the load buffer of such a clip is
emptied, CLIP_LOST is raised and its plays end, those of the host with PLAY_DONE; every other clip and play stands (R122, R126).
A completion of no operation, and a rise before the sixth local sample, do nothing (log 2), and what is due is done before a
completion (log 1): the model's choices. -/
def Obligations.BanksCompleteAndTheArbiterActs : Prop :=
  (∀ (b : Fin 8) (s : State), s.released →
    let t := s.settle
    let k := t.store.bank b.val
    let becomes (f : Bank → Bank) := { t with store := (t.store.onBank b.val f).arbitrate }
    (∀ r, k.state = .opening r → exec (.openComplete b) s
      = .next (becomes (fun k => { k with state := .open r })).keepUpStart)
    ∧ ((∀ r, k.state ≠ .opening r) → exec (.openComplete b) s = .next t.keepUpStart)
    ∧ (k.state = .closing → exec (.closeComplete b) s
      = .next (becomes (fun k => { k with state := .idle })).keepUpStart)
    ∧ (k.state ≠ .closing → exec (.closeComplete b) s = .next t.keepUpStart)
    ∧ (k.state = .refreshing → exec (.refreshComplete b) s = .next (becomes (fun k =>
        { k with state := .idle, debt := k.debt - 1, nextRefresh := (k.nextRefresh + 1) % 512 })).keepUpStart)
    ∧ (k.state ≠ .refreshing → exec (.refreshComplete b) s = .next t.keepUpStart))
  ∧ (∀ s : State, s.released →
    (s.store.refreshTick < 6 → exec .refreshDebtRise s = .next s.keepUpStart)
    ∧ (6 ≤ s.store.refreshTick → s.store.banks.length = 8 → ∃ u : State,
        exec .refreshDebtRise s = .next u.keepUpStart
        ∧ u.store.refreshTick = 0 ∧ u.store.memory = s.store.memory
        ∧ (∀ b, b < 8 → (u.store.bank b).debt = min 16 ((s.store.bank b).debt + 1))
        ∧ (∀ b, b < 8 → (s.store.bank b).debt = 15 → ∃ e, (u.store.bank b).loss = some e)
        ∧ (∀ b, b < 8 → (s.store.bank b).debt ≠ 15 → (u.store.bank b).loss = (s.store.bank b).loss)
        ∧ ((∀ b, b < 8 → (s.store.bank b).debt ≠ 7) → u.store.budget = s.store.budget
            ∧ ∀ b, b < 8 → (u.store.bank b).state = (s.store.bank b).state)
        ∧ (∀ b, b < 8 → (s.store.bank b).debt = 15 → s.hasHost = true → s.raises u .refreshOverdue [b] none)
        ∧ (s.announce.clips.length = 32 → ∀ i, i < 32 → 1 ≤ (s.clip i).length →
            (s.clipOverdue i → u.clip i = { s.clip i with state := .invalid, received := 0, written := 0 }
              ∧ (s.announce.bufferClip = some i → u.announce.buffer = [] ∧ u.announce.bufferClip = none)
              ∧ (s.hasHost = true → s.raises u .clipLost [i] (some .bankLost)))
            ∧ (¬s.clipOverdue i → u.clip i = s.clip i))
        ∧ (s.announce.clips.length = 32 → ∀ place p, place < 4 → s.announce.plays.getD place none = some p →
            1 ≤ (s.clip p.clip).length →
            (s.clipOverdue p.clip → u.announce.plays.getD place none = none
              ∧ (p.starter = .host → s.hasHost = true → s.raises u .playDone [place, p.clip] (some .clipInvalid)))
            ∧ (¬s.clipOverdue p.clip → u.announce.plays.getD place none = some p))
        ∧ u.announce.channels = s.announce.channels
        ∧ State.sameLine s u ∧ u.ports = s.ports ∧ u.follower = s.follower ∧ u.mixer = s.mixer ∧ u.blend = s.blend
        ∧ u.call = s.call))
  ∧ ∀ st : Store,
    st.arbitrate.memory = st.memory ∧ st.arbitrate.queues = st.queues ∧ st.arbitrate.frames = st.frames
    ∧ (st.retention = true → st.arbitrate = st)
    ∧ st.arbitrate.budget ≤ st.budget ∧ st.arbitrate.allowance ≤ st.allowance
    ∧ ∀ b, (st.arbitrate.bank b).debt = (st.bank b).debt
      ∧ (st.arbitrate.bank b ≠ st.bank b →
          (st.bank b).state = .idle ∨ ((∃ r, (st.bank b).state = .open r) ∧ (st.bank b).burst = none))
      ∧ (st.budget = 0 → (st.bank b).state = .idle → st.arbitrate.bank b = st.bank b)
      ∧ (st.retention = false → st.banks.length = 8 → b < 8 →
        let k := st.bank b
        let n := st.arbitrate.bank b
        let urgent (c : Nat) : Bool := decide (8 ≤ (st.bank c).debt)
        let owes (c : Nat) : Bool := decide (1 ≤ (st.bank c).debt ∧ (st.bank c).debt < 8)
        let spent (queues : Nat) : Nat := st.idleBanks urgent + st.openingsOf queues
        let before (c : Nat) : Bool := st.refreshedBefore c b
        bankStep k n
        ∧ (8 ≤ k.debt → n.burst = k.burst
          ∧ (∀ r, k.state = .open r → k.burst = none → n.state = .closing)
          ∧ (k.state = .idle → st.idleBanks (fun c => urgent c && before c) < st.budget → n.state = .refreshing)
          ∧ (k.state = .idle → st.budget ≤ st.idleBanks (fun c => urgent c && before c) → n.state = .idle))
        ∧ (k.debt < 8 → ∀ q row, st.claims q b row →
          let refreshes := if q = .loading then min st.allowance (st.idleBanks owes) else 0
          ((∀ p other, p.place < q.place → ¬st.claims p b other) →
            (k.state = .open row → k.burst = none → n.state = .open row ∧ n.burst = some q)
            ∧ (∀ r, k.state = .open r → r ≠ row → k.burst = none → spent q.place + refreshes < st.budget →
                n.state = .closing ∧ n.burst = none)
            ∧ (k.state = .idle → (q = .loading → k.debt = 0) → spent q.place + refreshes < st.budget →
                n.state = .opening row))
          ∧ (st.budget = 0 → (∀ p other, p.place < q.place → st.claims p b other → other ≠ row) →
              k.state = .open row → k.burst = none → n.state = .open row ∧ n.burst = some q))
        ∧ (1 ≤ k.debt → k.debt < 8 → k.state = .idle → (∀ p row, p ≠ .loading → ¬st.claims p b row) →
            spent 4 + st.idleBanks (fun c => owes c && before c) < st.budget →
            st.idleBanks (fun c => owes c && before c) < st.allowance → n.state = .refreshing)
        ∧ (k.debt < 8 → st.allowance = 0 → n.state = .refreshing → k.state = .refreshing))

/-- Bursts, requests and store frames (R79, R80, R83 to R85, R93). A burst completes: a read changes no word, a write lands the
words of its write set and no other, the head leaves its queue, a bank with close after is CLOSING, and a late burst is a gap. A
request arrives: with a client without a region nothing happens, with a full queue or a deadline reached it is a gap, and
otherwise it stands last in its queue, where the arbiter acts if it is the head. At each boundary (a start seen, emitted or
missing) the count rises, the budget is 6 and the allowance 2, overdue requests are gaps, and the arbiter acts. That a full queue
comes before a deadline reached is log 22; a completion on a bank without a burst does nothing (log 2), and what is due is done
first (log 1): the model's choices. -/
def Obligations.ABurstMovesItsWords : Prop :=
  (∀ (b : Fin 8) (s : State), s.released →
    let t := s.settle
    ((t.store.bank b.val).burst = none → exec (.burstComplete b) s = .next t.keepUpStart)
    ∧ ∀ q r rest, (t.store.bank b.val).burst = some q → t.store.queue q = r :: rest → t.memoryCanonical →
      t.store.queues.length = 5 → t.store.banks.length = 8 → ∃ u : State,
        exec (.burstComplete b) s = .next u.keepUpStart
        ∧ (r.access = .read → u.store.memory = t.store.memory)
        ∧ (r.access = .write → ∀ a, t.store.address r = some a →
            (∀ x, (∀ d, d ∈ r.data → d.1 < r.words → x ≠ a + d.1) →
              u.store.memory.read x = t.store.memory.read x)
            ∧ (∀ d, d ∈ r.data → d.1 < r.words → (∀ e, e ∈ r.data → e.1 = d.1 → e = d) →
                u.store.memory.read (a + d.1) = d.2))
        ∧ (∀ p, p ≠ .loading → u.store.queue p = if p = q then rest else t.store.queue p)
        ∧ (∃ more, u.store.queue .loading = (if q = .loading then rest else t.store.queue .loading) ++ more)
        ∧ (r.closeAfter = true → (u.store.bank b.val).state = .closing)
        ∧ (r.late = false → u.store.gaps = t.store.gaps ∧ u.host = t.host)
        ∧ (r.late = true → ∃ m x : State, State.gapOf m x r .deadline ∧ m = { t with store := m.store }
            ∧ m.store.gaps = t.store.gaps ∧ u.store.gaps = x.store.gaps ∧ u.host = x.host ∧ u.mixer = x.mixer
            ∧ u.blend = x.blend ∧ u.call = x.call ∧ u.announce.plays = x.announce.plays)
        ∧ State.sameLine t u ∧ u.ports = t.ports ∧ u.follower = t.follower)
  ∧ (∀ (s : State) (r : Request), s.store.queues.length = 5 →
    let held := s.store.queue r.queue
    (s.store.spaceOf r.queue.client = 0 → s.request r = s)
    ∧ (s.store.spaceOf r.queue.client ≠ 0 →
      (4 ≤ held.length → s.gapOf (s.request r) r .queueFull)
      ∧ (held.length < 4 → r.reached s.store.frames = true → s.gapOf (s.request r) r .deadline)
      ∧ (held.length < 4 → r.reached s.store.frames = false → ∃ m : Store,
          m = { s.store with queues := m.queues } ∧ m.queue r.queue = held ++ [r]
          ∧ (∀ q, q ≠ r.queue → m.queue q = s.store.queue q)
          ∧ s.request r = { s with store := if held = [] then m.arbitrate else m })))
  ∧ ∀ (c : Instr) (s : State), s.released →
    let t := s.settle
    let leads := t.keepUp = true ∧ t.member.station.onLine = true
    let seen := ∃ w, c = .frameStart w
    let emitted := (c = .leadStart ∨ c = .frameTimerExpiry) ∧ leads ∧ t.line.timerExpired = false
    let missing := ¬leads ∧ (c = .frameTimerExpiry ∧ t.line.timerExpired = false
      ∨ c = .missingStart ∧ t.line.timerExpired = true)
    t.member.station ≠ .dormant → seen ∨ emitted ∨ missing → t.store.queues.length = 5 →
      ∃ (m : Store) (u v : State), exec c s = .next v ∧ v = u.keepUpStart ∧ (¬missing → v = u)
        ∧ t.store.boundary m ∧ u.store = m.arbitrate
        ∧ (t.hasHost = true → t.host.events.length + 1 + t.store.lapsed.length ≤ 31 → ∀ r, r ∈ t.store.lapsed →
            { kind := .storeGap, subject := [clientCode r.queue.client, accessCode r.access], cause := some .deadline,
              stamp := u.tables.frameCount.setWidth 16 } ∈ u.host.events)

/-- A ramp ends (R69, R108): the gate becomes SHUT at gain 0 and OPEN at gain 1; an entry's or a call position's ramp stops
after its 480 steps, its zone otherwise as it was; an entry that was LEAVING leaves its zone, whose other entries keep their
places, with every target computed afresh (R103, R107). That the 480th step ends a ramp by its row is log 30, and that a row
that is not due does nothing is log 2: the model's choices. -/
def Obligations.RampsEnd : Prop :=
  ∀ s : State, s.released →
    (s.follower.gate = .closing → s.follower.gain = 0 →
      exec .gateRampEnd s = .next ({ s with follower := { s.follower with gate := .shut } }).keepUpStart)
    ∧ (s.follower.gate = .opening → 480 ≤ s.follower.gain →
      exec .gateRampEnd s = .next ({ s with follower := { s.follower with gate := .open } }).keepUpStart)
    ∧ (s.follower.gate = .open ∨ s.follower.gate = .shut ∨ (s.follower.gate = .closing ∧ s.follower.gain ≠ 0)
        ∨ (s.follower.gate = .opening ∧ s.follower.gain < 480) → exec .gateRampEnd s = .next s.keepUpStart)
    ∧ ∀ (z : Fin 4), z.val < s.mixer.zones.length →
      (∀ p, p = (s.zone z.val).position →
        (p.ramp.running = true → p.ramp.steps = 480 → ∃ u : State,
          exec (.rampEnd z .callPosition) s = .next u.keepUpStart
          ∧ (u.zone z.val).position = { p with ramp := { p.ramp with running := false } }
          ∧ (u.zone z.val).routes = (s.zone z.val).routes ∧ (∀ y, y ≠ z.val → u.zone y = s.zone y)
          ∧ State.sameLine s u ∧ State.sameAudio s u)
        ∧ (p.ramp.running = false ∨ p.ramp.steps ≠ 480 →
          exec (.rampEnd z .callPosition) s = .next s.keepUpStart))
      ∧ (∀ (x : Fin 64) e, (s.zone z.val).routes.find? (fun e => e.stream == x.val) = some e →
        (e.ramp.running = false ∨ e.ramp.steps ≠ 480 → exec (.rampEnd z (.entry x)) s = .next s.keepUpStart)
        ∧ (e.ramp.running = true → e.ramp.steps = 480 → ∃ u : State,
            exec (.rampEnd z (.entry x)) s = .next u.keepUpStart
            ∧ (∀ y, y ≠ z.val → u.zone y = s.zone y) ∧ State.sameLine s u ∧ State.sameAudio s u
            ∧ (e.state = .leaving → ∀ d, s.definitions[z.val]? = some d → zoneAimed d { s.zone z.val with
                routes := (s.zone z.val).routes.filter (fun f => f.stream != x.val) } (u.zone z.val))
            ∧ (e.state ≠ .leaving → u.zone z.val = { s.zone z.val with routes := (s.zone z.val).routes.map (fun f =>
                if f.stream = x.val then { f with ramp := { f.ramp with running := false } } else f) })))

/-- The blend engine's own moves (R139, R142 to R145, R147): the end of FILLING, of a crossfade between taps, of a mix up or
down, of priming, and the result of an attempt; and its work at a local sample (R133, R134, R136, R139, R143, R145, R147): a
slip moves the taps with the balance, and one that leaves the balance beyond its limit marks the alignment not valid and sends
TO_DIGITAL and DIGITAL to TO_ANALOGUE at the NORMAL rate (SLIP_LIMIT), while ALIGNING and FILLING take no notice (R145 to R148);
the ring is written, the mix fraction, the programme gain and the weight of a crossfade take their steps, and the output is
formed of the taps at their delays and the digital sample. In IDLE the output is zero. A row that is not due does nothing (log
2), the window begins with the sample at hand (log 42), BLEND_CHANGED comes before BLEND_ALIGN_FAILED (log 22), at FOUND the old
tap keeps what the main tap held and the main tap begins with nothing (log 63), what falls due comes before the local sample
(log 1), the direction of rounding is open (log 13), and so is a sample that no read has delivered (log 14): the model's
choices. -/
def Obligations.BlendMovesAndResults : Prop :=
  ∀ s : State, s.released →
    let b := s.blend
    let k := b.correlator
    let delay : Int := s.nominalDelay + b.correction + s.ports.balance
    let x := s.ports.digital.getD .zero
    let windowed : Correlator := { k with phase := .window, done := 1, digital := [x.left.toInt + x.right.toInt] }
    (b.state = .filling → delay ≤ b.fill → exec .filled s = .next (s.blendGoes b .analogue .filled).keepUpStart)
    ∧ (b.state ≠ .filling ∨ b.fill < delay → exec .filled s = .next s.keepUpStart)
    ∧ (b.state = .toDigital → 2400 ≤ b.mix →
        exec .toDigitalComplete s = .next (s.blendGoes b .digital .complete).keepUpStart)
    ∧ (b.state ≠ .toDigital ∨ b.mix < 2400 → exec .toDigitalComplete s = .next s.keepUpStart)
    ∧ (b.state = .toAnalogue → b.mix = 0 →
        exec .toAnalogueComplete s = .next (s.blendGoes { b with fast := false } .analogue .complete).keepUpStart)
    ∧ (b.state ≠ .toAnalogue ∨ b.mix ≠ 0 → exec .toAnalogueComplete s = .next s.keepUpStart)
    ∧ (∀ f, b.crossfade = some f → 480 ≤ f.weight →
        exec .tapCrossfadeEnd s = .next ({ s with blend := { b with crossfade := none } }).keepUpStart)
    ∧ (∀ f, b.crossfade = some f → f.weight < 480 → exec .tapCrossfadeEnd s = .next s.keepUpStart)
    ∧ (b.crossfade = none → exec .tapCrossfadeEnd s = .next s.keepUpStart)
    ∧ (k.phase = .priming → 4096 ≤ k.done →
        exec .primingDone s = .next ({ s with blend := { b with correlator := windowed } }).keepUpStart)
    ∧ (k.phase ≠ .priming ∨ k.done < 4096 → exec .primingDone s = .next s.keepUpStart)
    ∧ (k.phase ≠ .forming ∨ k.done < 64 → exec .correlationResult s = .next s.keepUpStart)
    ∧ (k.phase = .forming → 64 ≤ k.done →
        (∀ j, k.result = some j → -2048 ≤ j + s.ports.balance → j + s.ports.balance ≤ 2047 → ∃ u : State,
          exec .correlationResult s = .next u.keepUpStart
          ∧ u.blend.state = .toDigital ∧ u.blend.correction = j + s.ports.balance ∧ u.blend.valid = true
          ∧ u.blend.attempts = 0 ∧ u.blend.last = .found j (j + s.ports.balance) ∧ u.blend.mix = b.mix
          ∧ u.blend.crossfade = some { old := b.main, delay := delay, weight := 0 } ∧ u.blend.main.held = []
          ∧ u.blend.correlator.phase = .notRunning ∧ u.ports = { s.ports with balance := 0 }
          ∧ u.host = s.eventRaised .blendChanged [blendCode .toDigital] (some .found)
          ∧ State.sameLine s u ∧ u.store = s.store ∧ u.mixer = s.mixer ∧ u.announce = s.announce ∧ u.call = s.call)
        ∧ (k.result = none ∨ (∃ j, k.result = some j ∧ ¬(-2048 ≤ j + s.ports.balance ∧ j + s.ports.balance ≤ 2047)) →
          let missed := { b with attempts := b.attempts + 1, last := .notFound }
          (b.attempts < 2 → exec .correlationResult s
            = .next ({ s with blend := { missed with correlator := windowed } }).keepUpStart)
          ∧ (2 ≤ b.attempts → ∃ u : State, exec .correlationResult s = .next u.keepUpStart
              ∧ u.blend.state = .lockout ∧ u.blend.attempts = b.attempts + 1 ∧ u.blend.last = .notFound
              ∧ u.blend.correlator.phase = .notRunning ∧ u.blend.valid = b.valid ∧ u.blend.correction = b.correction
              ∧ u.host = ({ s with host := s.eventRaised .blendChanged [blendCode .lockout] (some .notFound) }).eventRaised
                  .blendAlignFailed [b.attempts + 1] none
              ∧ u.ports = s.ports ∧ State.sameLine s u ∧ u.store = s.store ∧ u.mixer = s.mixer
              ∧ u.announce = s.announce ∧ u.call = s.call)))
    ∧ (∀ i : InputSamples,
      let t := s.settle
      let b := t.blend
      let length := t.blendLength
      let w := b.ring.write
      t.member.station ≠ .dormant → ∃ u : State, exec (.localSample i) s = .next u.keepUpStart
        ∧ (b.state = .idle ∨ length = 0 → u.blend.out = .zero)
        ∧ (b.state ≠ .idle → 0 < length → ∃ state fast,
          let beyond := ¬t.ports.keepsStep ∧ 256 < u.ports.balance.natAbs
          let falls := beyond ∧ (b.state = .toDigital ∨ b.state = .digital)
          let mix := if state = .toDigital then min 2400 (b.mix + 1)
            else if state = .toAnalogue then b.mix - (if fast then 50 else 1) else b.mix
          let gain := if b.state = .filling then 0 else min 480 (b.gain + 1)
          let delay : Int := t.nominalDelay + b.correction + u.ports.balance
          let main := heardAt b.main.held b.ring (behind length w delay) 6 t.localCount
          let digital := u.ports.digital.getD .zero
          let out (weight : Nat) (old : Stereo) : Stereo :=
            { left := blendSide gain mix weight old.left main.left digital.left
              right := blendSide gain mix weight old.right main.right digital.right }
          (falls → state = .toAnalogue ∧ fast = false ∧ u.blend.goodRun = 0 ∧ u.blend.poorRun = 0
            ∧ (t.hasHost = true → t.raises u .blendChanged [blendCode .toAnalogue] (some .slipLimit)))
          ∧ (¬falls → state = b.state ∧ fast = b.fast ∧ u.blend.goodRun = b.goodRun ∧ u.blend.poorRun = b.poorRun)
          ∧ (beyond → b.state ≠ .aligning → b.state ≠ .filling → u.blend.valid = false)
          ∧ (¬beyond ∨ b.state = .aligning ∨ b.state = .filling → u.blend.valid = b.valid)
          ∧ u.blend.state = state ∧ u.blend.fast = fast ∧ u.blend.correction = b.correction
          ∧ u.blend.mix = mix ∧ u.blend.gain = gain ∧ u.blend.ring.write = (w + 1) % length
          ∧ u.blend.fill = min length (b.fill + 1)
          ∧ (b.crossfade = none → u.blend.crossfade = none ∧ u.blend.out = out 480 .zero)
          ∧ ∀ f, b.crossfade = some f → ∃ g, u.blend.crossfade = some g ∧ g.weight = min 480 (f.weight + 1)
            ∧ g.delay = f.delay + (u.ports.balance - t.ports.balance)
            ∧ u.blend.out = out g.weight (heardAt f.old.held b.ring (behind length w g.delay) 7 t.localCount)))

/-- The canceller at the end of a block of 480 local samples, at the end of a freeze and when its reference ceases to be usable
(R163 to R166, Table 9-5); and at a local sample (R162 to R166): the microphone sum is formed, the reference is written into the
history and read back at its delay, the uplink is the microphone sum by the fallback gain or less the echo estimate, a block
counts one sample more with its energies, whole while no zero of a hole or a gap feeds the filter (R166), and the freeze count
falls by one in every state, unless an ECHO request of this local sample is a gap, which sets it to 4,800 and freezes adaptation
(told by the gap count of ECHO, while that stands below its limit). A usable reference ends FALLBACK. A row that is not due does
nothing (log 2); the levels, full scale and the ERLE of a block without energy are log 19, whether the filter takes the samples
of the read tap's window or those at the delays of R162 is open (log 20), the freeze count falls in OFF too (log 53), the
reference is tested at the start of the call unit's part (log 45), gains and coefficients are steps of 2^-32 (log 12), the
direction of rounding (log 13) and a sample that no read has delivered (log 14) are open, no block is counted in OFF (log 65),
and what falls due comes before the local sample (log 1): the model's choices. -/
def Obligations.TheCancellerJudgesItsBlocks : Prop :=
  ∀ s : State, s.released →
    let c := s.call
    let far := loudEnough c.block.reference
    let near := loudEnough c.block.microphone && decide (1000 * c.block.estimate ^ 5 ≤ c.block.microphone ^ 5)
    let measured := far && !near && c.block.unfrozen && c.block.whole && c.searchDone
    let high := c.erleHigh s.localCount
    let low := c.erleLow s.localCount
    let converged := if measured then (if high then c.convergedRun + 1 else 0) else c.convergedRun
    let losing := if measured then (if low then c.lossRun + 1 else 0) else c.lossRun
    let quiet := if near then 0 else c.quietRun + 1
    let freeze := if far && near then max 480 c.freeze else c.freeze
    (c.block.count < 480 → exec .cancellerBlock s = .next s.keepUpStart)
    ∧ (480 ≤ c.block.count → ∃ u : State, exec .cancellerBlock s = .next u.keepUpStart
        ∧ u.call.block = .start ∧ u.call.last.farEnd = far ∧ u.call.last.nearEnd = near
        ∧ u.call.last.measured = measured ∧ -20 ≤ u.call.last.erle ∧ u.call.last.erle ≤ 60
        ∧ u.call.served = c.served ∧ u.call.servedReference = c.servedReference ∧ State.sameLine s u ∧ State.sameAudio s u
        ∧ u.mixer = s.mixer
        ∧ (c.state = .off ∨ c.state = .fallback → u.call = { c with block := .start, last := u.call.last })
        ∧ (c.state = .converging →
            u.call.freeze = freeze ∧ u.call.coefficients = c.coefficients
            ∧ (far = false ∨ c.searchDone = true →
                u.call.searchDone = c.searchDone ∧ u.call.bulkDelay = c.bulkDelay ∧ u.call.gathered = c.gathered)
            ∧ (far = true → c.searchDone = false → c.gathered < 19 →
                u.call.searchDone = false ∧ u.call.gathered = c.gathered + 1)
            ∧ (far = true → c.searchDone = false → 19 ≤ c.gathered →
                u.call.searchDone = true ∧ 32 ≤ u.call.bulkDelay ∧ u.call.bulkDelay ≤ 4736)
            ∧ (converged < 50 → u.call.state = .converging ∧ u.call.convergedRun = converged ∧ u.host = s.host)
            ∧ (50 ≤ converged → u.call.state = .converged ∧ u.call.convergedRun = 0
                ∧ u.host = s.eventRaised .cancellerChanged [cancellerCode .converged] (some .erleHigh)))
        ∧ (c.state = .converged →
            (far = true → near = true → u.call.state = .doubleTalk ∧ u.call.quietRun = 0
              ∧ u.host = s.eventRaised .cancellerChanged [cancellerCode .doubleTalk] (some .nearEnd))
            ∧ (far = false ∨ near = false → losing < 10 → u.call.state = .converged ∧ u.call.lossRun = losing
              ∧ u.host = s.host)
            ∧ (far = false ∨ near = false → 10 ≤ losing → u.call.state = .converging ∧ u.call.searchDone = false
              ∧ u.call.coefficients = List.replicate 1024 0 ∧ u.call.freeze = 0
              ∧ u.host = s.eventRaised .cancellerChanged [cancellerCode .converging] (some .erleLow)))
        ∧ (c.state = .doubleTalk → u.call.coefficients = c.coefficients
            ∧ (quiet < 10 → u.call.state = .doubleTalk ∧ u.call.quietRun = quiet ∧ u.host = s.host)
            ∧ (10 ≤ quiet → u.call.state = .converged
              ∧ u.host = s.eventRaised .cancellerChanged [cancellerCode .converged] (some .nearEndQuiet))))
    ∧ (c.frozen = true → c.freeze = 0 →
        exec .freezeEnd s = .next ({ s with call := { c with frozen := false } }).keepUpStart)
    ∧ (c.frozen = false ∨ c.freeze ≠ 0 → exec .freezeEnd s = .next s.keepUpStart)
    ∧ (c.state = .off ∨ c.state = .fallback ∨ c.usable = true → exec .referenceLost s = .next s.keepUpStart)
    ∧ (c.state = .converging ∨ c.state = .converged ∨ c.state = .doubleTalk → c.usable = false → ∃ u : State,
        exec .referenceLost s = .next u.keepUpStart
        ∧ u.call.state = .fallback ∧ u.call.coefficients = c.coefficients ∧ u.call.bulkDelay = c.bulkDelay
        ∧ u.call.block = .start
        ∧ u.call.fallback = .at (if s.servedDownlinkLive then attenuation 12 else gainOne)
        ∧ u.host = s.eventRaised .cancellerChanged [cancellerCode .fallback] (some .referenceLost)
        ∧ State.sameLine s u ∧ State.sameAudio s u ∧ u.mixer = s.mixer)
    ∧ (∀ i : InputSamples,
      let t := s.settle
      let c := t.call
      let mic := limit24 (t.microphonesTotal i)
      let ref := t.referenceNow.toInt
      let references := (ref :: c.references).take 5824
      let length := t.store.spaceOf .echo
      let w := c.history.write
      let newest := (heardAt c.tap.held c.history (behind length w (c.bulkDelay + 1023)) 9 t.localCount).left.toInt
      let window := (newest :: c.window).take 1024
      let sample (k : Nat) : Int := if Config.filterReadsWindow then window.getD k 0
        else if behind length w (c.bulkDelay + k) / 8 ∈ c.history.clean then references.getD (c.bulkDelay + k) 0 else 0
      let echo := echoOf c.coefficients sample
      let position := behind length w (c.bulkDelay + 1023)
      let zero : Bool := match c.tap.held.find? (fun h => h.group == position / 8) with
        | some h => h.left == .silent
        | none => !c.history.clean.contains (position / 8)
      let zeros := (zero :: c.windowZeros).take 1024
      t.member.station ≠ .dormant → ∃ u : State, exec (.localSample i) s = .next u.keepUpStart
        ∧ u.call.microphone = mic
        ∧ (c.state = .off → u.call.state = .off ∧ u.call.uplink = 0 ∧ u.call.freeze = c.freeze - 1
            ∧ u.call.block = c.block ∧ u.call.history = c.history ∧ u.call.coefficients = c.coefficients)
        ∧ (c.state = .fallback → t.hearsReference → u.call.state = .converging)
        ∧ (c.state ≠ .off → ∀ n, t.store.gaps[clientCode .echo]? = some n → n < 65535 →
            (u.store.gaps[clientCode .echo]? = some n → u.call.freeze = c.freeze - 1 ∧ u.call.frozen = c.frozen
              ∧ (c.state ≠ .fallback → u.call.block.unfrozen = (c.block.unfrozen && c.freeze == 0)))
            ∧ (u.store.gaps[clientCode .echo]? ≠ some n → u.call.freeze = 4800 ∧ u.call.frozen = true
                ∧ u.call.block.unfrozen = false))
        ∧ (c.state ≠ .off → ¬(c.state = .fallback ∧ t.hearsReference) → c.coefficients.length = 1024 →
          u.call.state = c.state ∧ u.call.references = references ∧ u.call.history.write = (w + 1) % length
          ∧ u.call.window = window
          ∧ (t.hearsDownlink ↔ u.call.downlinkLive = true)
          ∧ fallbackStepped c.fallback u.call.fallback c.downlinkLive u.call.downlinkLive
          ∧ (c.state = .fallback → u.call.uplink = mixed (mic.toInt * u.call.fallback.current))
          ∧ (c.state ≠ .fallback → u.call.uplink = limit24 (mic.toInt - echo))
          ∧ (c.state = .fallback ∨ c.state = .doubleTalk ∨ c.searchDone = false ∨ c.freeze ≠ 0 ∨ ¬t.hearsReference →
              u.call.coefficients = c.coefficients)
          ∧ u.call.block.count = c.block.count + 1 ∧ u.call.windowZeros = zeros
          ∧ (u.call.block.whole = true ↔ c.block.whole = true ∧ (∀ z, z ∈ zeros → z = false)
              ∧ (Config.filterReadsWindow = true
                ∨ ∀ k, k < 1024 → behind length w (c.bulkDelay + k) / 8 ∈ c.history.clean))
          ∧ (c.round ≠ 0 → c.round ≠ 4 → u.call.block.unfrozen = (c.block.unfrozen && c.freeze == 0))
          ∧ u.call.block.reference = c.block.reference + ref.natAbs * ref.natAbs
          ∧ u.call.block.microphone = c.block.microphone + mic.toInt.natAbs * mic.toInt.natAbs
          ∧ u.call.block.estimate = c.block.estimate + echo.natAbs * echo.natAbs
          ∧ u.call.block.output = c.block.output + u.call.uplink.toInt.natAbs * u.call.uplink.toInt.natAbs))

/-- A leader expires (R129), a follower fires (R130), a play sounds and completes (R125, R126). At an expiry the staged values
become active and every follower is triggered anew; a follower of delay 0 fires at once, and its play begins, in the lowest
place still free in ascending channel number, where its clip can be played and a place is left, else its missed mark is set;
then the repetition is counted, and CADENCE_DONE is the last event of a leader that stops. At a local sample every play in the
list sounds its next sample once its wait of 16 local samples is over, and the announce source gives their sum by the plays'
levels. A row that is not due does nothing (log 2); the time to expiry of a leader that stops stays 0 (log 60); the gain in
steps of 2^-32 (log 12), the direction of rounding (log 13), a word that its read has not delivered (log 14) and what falls due
before a local sample (log 1) are the model's choices too. -/
def Obligations.CadencesAndPlaysFallDue : Prop :=
  ∀ s : State, s.released → s.fixedSizes →
    (∀ c : Fin 8,
      let k := s.channel c.val
      let due := k.role = .leader ∧ k.running = true ∧ k.time = 0
      let done := min 255 (k.done + 1)
      let ends := k.stagedRepetitions ≠ 0 ∧ k.stagedRepetitions ≤ done
      let loaded := { k with activePeriod := k.stagedPeriod, activeRepetitions := k.stagedRepetitions, done := done }
      (¬due → exec (.cadenceExpiry c) s = .next s.keepUpStart)
      ∧ (due → ∃ u : State, exec (.cadenceExpiry c) s = .next u.keepUpStart
          ∧ (ends → u.channel c.val = { loaded with running := false })
          ∧ (¬ends → u.channel c.val = { loaded with time := k.stagedPeriod })
          ∧ (∀ f, f < 8 → f ≠ c.val → (s.channel f).role ≠ .follower c.val → u.channel f = s.channel f)
          ∧ (∀ f, f < 8 → (s.channel f).role = .follower c.val → (s.channel f).stagedDelay ≠ 0 →
              u.channel f = { s.channel f with
                activeDelay := (s.channel f).stagedDelay, activeClip := (s.channel f).stagedClip
                remaining := (s.channel f).stagedDelay, counting := true })
          ∧ s.zeroDelaysFire u c.val (fun f => (s.channel f).missed)
          ∧ (ends → s.hasHost = true → ∃ earlier, u.host.events = addEvent
              { kind := .cadenceDone, subject := [c.val], cause := none, stamp := s.tables.frameCount.setWidth 16 } earlier)
          ∧ ((∀ f, f < 8 → (s.channel f).role = .follower c.val → (s.channel f).stagedDelay ≠ 0) →
              (ends → u.host = s.eventRaised .cadenceDone [c.val] none) ∧ (¬ends → u.host = s.host))
          ∧ u.announce.clips = s.announce.clips ∧ State.sameLine s u ∧ u.ports = s.ports ∧ u.follower = s.follower
          ∧ u.mixer = s.mixer ∧ u.blend = s.blend ∧ u.call = s.call ∧ u.store.memory = s.store.memory))
    ∧ (∀ f : Fin 8,
      let k := s.channel f.val
      let due (l : Nat) := k.role = .follower l ∧ k.counting = true ∧ k.remaining = 0
        ∧ ¬((s.channel l).role = .leader ∧ (s.channel l).running = true ∧ (s.channel l).time = 0)
      ((∀ l, ¬due l) → exec (.followerFire f) s = .next s.keepUpStart)
      ∧ (∀ l, due l → ∃ u : State, exec (.followerFire f) s = .next u.keepUpStart
          ∧ (∀ g, g ≠ f.val → u.channel g = s.channel g)
          ∧ ((s.clip k.activeClip).state.playable = false ∨ (∀ p, p < 4 → s.announce.plays.getD p none ≠ none) →
              u.channel f.val = { k with counting := false, missed := true } ∧ u.announce.plays = s.announce.plays)
          ∧ ((s.clip k.activeClip).state.playable = true → ∀ place, place < 4 → s.announce.plays.getD place none = none →
              (∀ p, p < place → s.announce.plays.getD p none ≠ none) →
              u.channel f.val = { k with counting := false } ∧ u.playBegun place k.activeClip k.level 1 (.follower f.val)
              ∧ ∀ p, p ≠ place → (u.announce.plays.getD p none).map Play.bare = (s.announce.plays.getD p none).map Play.bare)
          ∧ u.announce.clips = s.announce.clips ∧ State.sameLine s u ∧ u.ports = s.ports ∧ u.follower = s.follower
          ∧ u.mixer = s.mixer ∧ u.blend = s.blend ∧ u.call = s.call ∧ u.store.memory = s.store.memory))
    ∧ (∀ place : Fin 4,
      let freed := { s.announce with plays := s.announce.plays.set place.val none }
      (∀ p, s.announce.plays.getD place.val none = some p → p.finished = true →
        (p.starter = .host → exec (.playCompleted place) s
          = .next ({ s with announce := freed
                            host := s.eventRaised .playDone [place.val, p.clip] (some .completed) }).keepUpStart)
        ∧ (∀ c, p.starter = .follower c → exec (.playCompleted place) s = .next ({ s with announce := freed }).keepUpStart))
      ∧ ((∀ p, s.announce.plays.getD place.val none = some p → p.finished = false) →
          exec (.playCompleted place) s = .next s.keepUpStart))
    ∧ (∀ i : InputSamples,
      let t := s.settle
      t.member.station ≠ .dormant → t.announce.plays.length = 4 → ∃ u : State,
        exec (.localSample i) s = .next u.keepUpStart
        ∧ u.announce.out = mixed (t.playAdds 0 + t.playAdds 1 + t.playAdds 2 + t.playAdds 3)
        ∧ ∀ place, place < 4 →
          (t.announce.plays.getD place none = none → u.announce.plays.getD place none = none)
          ∧ ∀ p, t.announce.plays.getD place none = some p → ∃ q, u.announce.plays.getD place none = some q
            ∧ (p.finished = true → q.bare = p.bare)
            ∧ (p.finished = false → 1 < p.wait → q.bare = { p with wait := p.wait - 1 }.bare)
            ∧ (p.finished = false → p.wait ≤ 1 → playMoved p q (t.clip p.clip).length))

/-- The requests that read (R64, R97, R116, R123, R132, R149, R158, R167, R175, R179) answer OK with their items and change
nothing but the response held. The layouts of the items where the spec lists them without widths or a count (Read Slots, Read
Calls, Read Canceller, Read Blend, Read Cadence) are log 23, the bytes of causes log 11, the number of COMPLETE entries outside
LISTENING log 78, what Note Status gives of the outbound note outside SENDING log 82, and what is due is done first by log 1:
the model's choices. -/
def Obligations.ReadingRequestsChangeNothing : Prop :=
  ∀ s : State, s.released →
    let t := s.settle
    (∀ selection : Byte, t.member.station ≠ .dormant → selection.toNat < 64 →
      exec (.getInfo selection) s = .next (t.answered 1 .ok (t.infoResults selection)).keepUpStart)
    ∧ (t.member.station ≠ .dormant → exec .getStatus s = .next (t.answered 2 .ok
        (inBytes 1 (stationCode t.member.station) ++ causeBytes t.member.cause ++ flag t.line.lead ++ flag t.keepUp
          ++ flag t.host.stayAwake ++ inBytes 2 t.member.undamaged ++ inBytes 1 t.tables.completeEntries
          ++ inBytes 1 t.line.queue.length ++ inBytes 1 t.host.events.length)).keepUpStart)
    ∧ (t.takesRequests →
      (∀ first count : Byte, first.toNat ≤ 63 → 1 ≤ count.toNat → count.toNat ≤ 64 →
        exec (.readDirectory first count) s = .next (t.answered 11 .ok (listed
          ((List.range 64).filter (fun x => decide (first.toNat ≤ x ∧ x < first.toNat + count.toNat)))
          t.directoryItem)).keepUpStart)
      ∧ exec .readSlots s = .next (t.answered 12 .ok (t.tables.slots.flatMap slotItem)).keepUpStart
      ∧ (∀ (zone : Byte) z d, t.ownZone zone.toNat = some z → t.definitions[z]? = some d →
        exec (.readZone zone) s = .next (t.answered 14 .ok (t.zoneResults z d)).keepUpStart)
      ∧ (∀ zone : Byte, t.ownZone zone.toNat = none → exec (.readZone zone) s = .next (t.answered 14 .noZone []).keepUpStart)
      ∧ (∀ first count : Byte, first.toNat ≤ 31 → 1 ≤ count.toNat → count.toNat ≤ 32 →
        exec (.clipStatus first count) s = .next (t.answered 19 .ok (listed
          ((List.range 32).filter (fun i => decide (first.toNat ≤ i ∧ i < first.toNat + count.toNat)))
          t.clipItem)).keepUpStart)
      ∧ (∀ channel : Byte, channel.toNat ≤ 7 →
        exec (.readCadence channel) s = .next (t.answered 24 .ok (t.cadenceResults channel.toNat)).keepUpStart)
      ∧ exec .readBlend s = .next (t.answered 28 .ok t.blendResults).keepUpStart
      ∧ exec .readCalls s = .next (t.answered 35 .ok (t.callItem 0 ++ t.callItem 1)).keepUpStart
      ∧ exec .readCanceller s = .next (t.answered 36 .ok t.cancellerResults).keepUpStart
      ∧ exec .noteStatus s = .next (t.answered 39 .ok t.noteResults).keepUpStart)

/-- What refuses a request before its own rules (R176 to R178): DORMANT takes Wake alone, OFFLINE takes Get Info, Get Status and
Read Events alone, and a parameter out of range is refused elsewhere. A refused request changes nothing but the response held.
That a selection above 63, a flag above 1 and a binding outside Table 3-5 are out of range is log 35, and what is due is done
first by log 1: the model's choices. -/
def Obligations.RequestsAreRefusedByState : Prop :=
  ∀ (c : Instr) (code : Nat) (s : State), s.released → requestCode c = some code → c.wellFormed = true →
    let t := s.settle
    (t.member.station = .dormant → code ≠ 6 → exec c s = .next (t.answered code .dormant []).keepUpStart)
    ∧ (t.member.station = .offline → code ≠ 1 → code ≠ 2 → code ≠ 40 →
        exec c s = .next (t.answered code .wrongState []).keepUpStart)
    ∧ (t.takesRequests → ¬requestInRange c → exec c s = .next (t.answered code .badParameter []).keepUpStart)

/-- The requests that queue a message (R57, R61 to R63, R157): in MEMBER the message joins the send queue, behind the checks of
its own; a full queue answers QUEUE_FULL, LEAVING answers WRONG_STATE and every other state NOT_MEMBER. What is due is done first:
the model's choice (log 1). -/
def Obligations.MessageRequestsQueueInMember : Prop :=
  ∀ (c : Instr) (code : Nat) (m : Message) (auto : Bool) (companion : Option Binding) (s : State), s.released →
    requestCode c = some code → requestInRange c →
    let t := s.settle
    t.requestMessage c = some (m, auto, companion) → t.takesRequests →
    (t.member.station = .leaving → exec c s = .next (t.answered code .wrongState []).keepUpStart)
    ∧ (t.member.station ≠ .leaving → t.member.station ≠ .member →
        exec c s = .next (t.answered code .notMember []).keepUpStart)
    ∧ (t.member.station = .member →
      let badBinding := ∃ index kind channels cls b, m = .offer index kind channels cls ∧ companion = some b
        ∧ ∀ k, kindOf kind.toNat = some k → bindingAllowed t.definitions b k = false
      let noRoom := auto = true ∧ ∃ index p, m = .claim index 0
        ∧ t.tables.entry (t.number * 4 + index.toNat) = .offered p ∧ t.tables.chooseRun p.channels p.cls = none
      (badBinding → exec c s = .next (t.answered code .badBinding []).keepUpStart)
      ∧ (noRoom → exec c s = .next (t.answered code .noRoom []).keepUpStart)
      ∧ (¬badBinding → ¬noRoom → 8 ≤ t.line.queue.length →
          exec c s = .next (t.answered code .queueFull []).keepUpStart)
      ∧ (¬badBinding → ¬noRoom → t.line.queue.length < 8 →
          exec c s = .next ((t.hostQueued m auto companion).answered code .ok []).keepUpStart))

/-- Leave Line, Rejoin, Stay Awake and Wake (R43, R44, R179, R185). At a change of state every zone tests its entries and takes
its call position and its targets afresh (R100, R107, R110). That a Wake flag above 1 is refused with BAD_PARAMETER in DORMANT
is log 35, that the woken station is LISTENING within the Wake is log 40, and what is due is done first by log 1: the model's
choices. -/
def Obligations.StationRequestsMoveTheStation : Prop :=
  ∀ s : State, s.released →
    let t := s.settle
    (t.member.station = .member → 8 ≤ t.line.queue.length →
      exec .leaveLine s = .next (t.answered 3 .queueFull []).keepUpStart)
    ∧ (t.member.station = .member → t.line.queue.length < 8 → ∃ u : State, exec .leaveLine s = .next u.keepUpStart
        ∧ u.member.station = .leaving ∧ u.member.cause = some .leaveRequested ∧ u.tables = t.tables
        ∧ (∃ e, e ∈ u.line.queue ∧ e.originator = .host ∧ e.message = .leave)
        ∧ u.host.response = some { code := 3, status := .ok, results := [] } ∧ t.zonesTaken u true ∧ State.sameAudio t u)
    ∧ (t.member.station = .leaving → exec .leaveLine s = .next (t.answered 3 .wrongState []).keepUpStart)
    ∧ (t.takesRequests → t.member.station ≠ .leaving → t.member.station ≠ .member →
        exec .leaveLine s = .next (t.answered 3 .notMember []).keepUpStart)
    ∧ (t.member.station = .detached ∨ t.member.station = .silenced → ∃ u : State, exec .rejoin s = .next u.keepUpStart
        ∧ u.member.station = .listening ∧ u.member.cause = some .rejoin ∧ u.member.undamaged = 0
        ∧ u.tables = t.tables.cleared ∧ u.host.response = some { code := 4, status := .ok, results := [] }
        ∧ t.zonesTaken u true
        ∧ State.sameAudio t u)
    ∧ (t.takesRequests → t.member.station ≠ .detached → t.member.station ≠ .silenced →
        exec .rejoin s = .next (t.answered 4 .wrongState []).keepUpStart)
    ∧ (∀ on : Bool, t.takesRequests → exec (.stayAwake (if on then 1 else 0)) s
        = .next ({ t with host := { t.host with stayAwake := on } }.answered 5 .ok []).keepUpStart)
    ∧ (∀ flag : Byte, t.member.station = .dormant →
        (1 < flag.toNat → exec (.wake flag) s = .next (t.answered 6 .badParameter []).keepUpStart)
        ∧ (∀ r, flag.toNat ≤ 1 → t.startUp.record = some r → ∃ u : State, exec (.wake flag) s = .next u.keepUpStart
            ∧ u.member.station = .listening ∧ u.member.undamaged = 0 ∧ u.tables = State.reset.tables.cleared
            ∧ u.host.stayAwake = (flag == 1) ∧ u.host.response = some { code := 6, status := .ok, results := [] }
            ∧ u.startUp.record = some r ∧ u.note = State.reset.note ∧ u.line.queue = [] ∧ u.line.waiting = []))
    ∧ (∀ flag : Byte, t.takesRequests → exec (.wake flag) s
        = .next (t.answered 6 (if flag.toNat ≤ 1 then .wrongState else .badParameter) []).keepUpStart)

/-- The Route request (R104): for an own zone the action is judged at once and the verdict returned, and a taken one does to the
zone what RoutesAreJudgedByTheOwner says, every target computed afresh (R107); for another station's zone a ROUTE is queued in
MEMBER; for a zone that no roster entry names the answer is NO_ZONE. That REMOVE of a LIVE entry at gain 0 removes it at once is
log 30, and what is due is done first by log 1: the model's choices. -/
def Obligations.RouteRequestsAreJudgedOrQueued : Prop :=
  ∀ (zone stream action level : Byte) (s : State), s.released →
    let t := s.settle
    let c : Instr := .route zone stream action level
    let x := stream.toNat
    requestInRange c → t.takesRequests →
    (∀ z, t.ownZone zone.toNat = some z → z < t.mixer.zones.length → ∃ u : State, exec c s = .next u.keepUpStart
      ∧ State.sameLine t u ∧ State.sameAudio t u ∧ u.call = t.call
      ∧ u.host.response = some { code := 13, status := .ok, results := [BitVec.ofNat 8 (t.routeCode z x action.toNat)] }
      ∧ (t.routeCode z x action.toNat ≠ 0 → u.mixer = t.mixer)
      ∧ (t.routeCode z x action.toNat = 0 → t.routeTaken u z x action.toNat level.toNat))
    ∧ (t.ownZone zone.toNat = none → inSet t.tables.zonesPresent zone.toNat = true →
        (t.member.station = .leaving → exec c s = .next (t.answered 13 .wrongState []).keepUpStart)
        ∧ (t.member.station ≠ .leaving → t.member.station ≠ .member →
            exec c s = .next (t.answered 13 .notMember []).keepUpStart)
        ∧ (t.member.station = .member → 8 ≤ t.line.queue.length →
            exec c s = .next (t.answered 13 .queueFull []).keepUpStart)
        ∧ (t.member.station = .member → t.line.queue.length < 8 → exec c s
            = .next ((t.hostQueued (.route zone stream action level) false none).answered 13 .ok []).keepUpStart))
    ∧ (t.ownZone zone.toNat = none → inSet t.tables.zonesPresent zone.toNat = false →
        exec c s = .next (t.answered 13 .noZone []).keepUpStart)

/-- Clip Load Begin, Clip Data, Clip Load End and Clip Lock (R119 to R121), judged in their order. No clip request changes the
line side. What is due is done first: the model's choice (log 1). -/
def Obligations.ClipRequestsLoadClips : Prop :=
  ∀ s : State, s.released →
    let t := s.settle
    let a := t.announce
    t.takesRequests → t.fixedSizes →
    (∀ (clip : Byte) (offset length : BitVec 24),
      let i := clip.toNat
      let c : Instr := .clipLoadBegin clip offset length
      let fits := requestInRange c ∧ offset.toNat + length.toNat ≤ t.store.spaceOf .clip
      let playing := ∃ p, some p ∈ a.plays ∧ p.clip = i
      let overlap := ∃ k, k < 32 ∧ k ≠ i ∧ (t.clip k).state.holdsWords = true
        ∧ offset.toNat < (t.clip k).offset + (t.clip k).length ∧ (t.clip k).offset < offset.toNat + length.toNat
      (¬fits → exec c s = .next (t.answered 15 .badParameter []).keepUpStart)
      ∧ (fits → (t.clip i).state = .locked → exec c s = .next (t.answered 15 .locked []).keepUpStart)
      ∧ (fits → (t.clip i).state ≠ .locked → playing → exec c s = .next (t.answered 15 .busy []).keepUpStart)
      ∧ (fits → (t.clip i).state ≠ .locked → ¬playing → overlap →
          exec c s = .next (t.answered 15 .overlap []).keepUpStart)
      ∧ (fits → (t.clip i).state ≠ .locked → ¬playing → ¬overlap → ∃ n : Announce,
          exec c s = .next (({ t with announce := n }).answered 15 .ok []).keepUpStart
          ∧ n.clips = a.clips.set i { state := .loading, offset := offset.toNat, length := length.toNat, received := 0
                                      written := 0 }
          ∧ (a.bufferClip = some i → n.buffer = [] ∧ n.bufferClip = none)
          ∧ (a.bufferClip ≠ some i → n.buffer = a.buffer ∧ n.bufferClip = a.bufferClip)
          ∧ n.plays = a.plays ∧ n.channels = a.channels))
    ∧ (∀ (clip : Byte) (samples : List Sample),
      let i := clip.toNat
      let k := t.clip i
      let c : Instr := .clipData clip samples
      let fits := requestInRange c ∧ (k.state = .loading → k.received + samples.length ≤ k.length)
      let busy := 4 ≤ (t.store.queue .loading).length ∨ (∃ j, a.bufferClip = some j ∧ j ≠ i)
        ∨ 128 < a.buffer.length + samples.length
      (¬fits → exec c s = .next (t.answered 16 .badParameter []).keepUpStart)
      ∧ (fits → k.state ≠ .loading → exec c s = .next (t.answered 16 .wrongState []).keepUpStart)
      ∧ (fits → k.state = .loading → busy → exec c s = .next (t.answered 16 .busy []).keepUpStart)
      ∧ (fits → k.state = .loading → ¬busy → ∃ u : State, exec c s = .next u.keepUpStart
          ∧ u.announce.clips = a.clips.set i { k with received := k.received + samples.length }
          ∧ u.host.response = some { code := 16, status := .ok, results := [] }
          ∧ (∃ n, u.announce.buffer = (a.buffer ++ samples).drop n) ∧ u.announce.plays = a.plays
          ∧ u.store.memory = t.store.memory ∧ State.sameLine t u))
    ∧ (∀ clip : Byte, clip.toNat ≤ 31 →
      let i := clip.toNat
      let k := t.clip i
      (k.state ≠ .loading → exec (.clipLoadEnd clip) s = .next (t.answered 17 .wrongState []).keepUpStart)
      ∧ (k.state = .loading → k.received < k.length →
          exec (.clipLoadEnd clip) s = .next (t.answered 17 .short []).keepUpStart)
      ∧ (k.state = .loading → k.length ≤ k.received → k.written ≠ k.length →
          exec (.clipLoadEnd clip) s = .next (t.answered 17 .busy []).keepUpStart)
      ∧ (k.state = .loading → k.length ≤ k.received → k.written = k.length →
          exec (.clipLoadEnd clip) s = .next (({ t with announce := { a with
            clips := a.clips.set i { k with state := .ready, received := 0, written := 0 } } }).answered 17 .ok []).keepUpStart)
      ∧ (k.state = .ready → exec (.clipLock clip) s = .next (({ t with announce := { a with
            clips := a.clips.set i { k with state := .locked } } }).answered 18 .ok []).keepUpStart)
      ∧ (k.state ≠ .ready → exec (.clipLock clip) s = .next (t.answered 18 .wrongState []).keepUpStart))

/-- The Play request (R124): the lowest free place of the play list takes the play and is returned; its first sample sounds 16
local samples later (R125). What is due is done first: the model's choice (log 1). -/
def Obligations.PlayTakesTheLowestPlace : Prop :=
  ∀ (clip level repeats : Byte) (s : State), s.released →
    let t := s.settle
    let c : Instr := .play clip level repeats
    requestInRange c → t.takesRequests → t.fixedSizes →
    ((t.clip clip.toNat).state ≠ .ready → (t.clip clip.toNat).state ≠ .locked →
      exec c s = .next (t.answered 20 .wrongState []).keepUpStart)
    ∧ ((t.clip clip.toNat).state = .ready ∨ (t.clip clip.toNat).state = .locked →
      ((∀ p, p < 4 → t.announce.plays.getD p none ≠ none) → exec c s = .next (t.answered 20 .playsFull []).keepUpStart)
      ∧ (∀ p, p < 4 → t.announce.plays.getD p none = none → (∀ q, q < p → t.announce.plays.getD q none ≠ none) →
        ∃ u : State, exec c s = .next u.keepUpStart
          ∧ u.playBegun p clip.toNat level.toNat repeats.toNat .host
          ∧ (∀ q, q ≠ p → (u.announce.plays.getD q none).map Play.bare = (t.announce.plays.getD q none).map Play.bare)
          ∧ u.host.response = some { code := 20, status := .ok, results := [BitVec.ofNat 8 p] }
          ∧ u.announce.clips = t.announce.clips ∧ u.announce.channels = t.announce.channels
          ∧ u.store.memory = t.store.memory ∧ State.sameLine t u))

/-- Cadence Set, Cadence Start and Cadence Stop (R127, R128, R130, R131). A start that triggers fires the followers of delay 0
at once, as CadencesAndPlaysFallDue says of an expiry; one that does not leaves every channel counting and every play as it was.
That a follower given another leader starts IDLE with its missed mark clear is log 48, and what is due is done first by log 1:
the model's choices. -/
def Obligations.CadenceRequestsSetStartAndStop : Prop :=
  ∀ (channel : Byte) (s : State), s.released →
    let t := s.settle
    let c := channel.toNat
    let k := t.channel c
    let leads := k.role = .leader
    c ≤ 7 → t.takesRequests → t.fixedSizes →
    (∀ setup : CadenceSetup,
      let wanted := setupRole setup
      let turnedDown := (k.role ≠ wanted ∧ t.takesPart c)
        ∨ (leads ∧ wanted ≠ .leader ∧ ∃ f, f < 8 ∧ (t.channel f).role = .follower c)
      (¬t.setupFits c setup → exec (.cadenceSet channel setup) s = .next (t.answered 21 .badParameter []).keepUpStart)
      ∧ (t.setupFits c setup → turnedDown →
          exec (.cadenceSet channel setup) s = .next (t.answered 21 .wrongState []).keepUpStart)
      ∧ (t.setupFits c setup → ¬turnedDown → exec (.cadenceSet channel setup) s
          = .next (({ t with announce := { t.announce with
              channels := t.announce.channels.set c (setUpChannel k setup) } }).answered 21 .ok []).keepUpStart))
    ∧ (¬leads ∨ k.running = true → exec (.cadenceStart channel) s = .next (t.answered 22 .wrongState []).keepUpStart)
    ∧ (leads → k.running = false → ∃ u : State, exec (.cadenceStart channel) s = .next u.keepUpStart
        ∧ u.channel c = { k with activePeriod := k.stagedPeriod, activeRepetitions := k.stagedRepetitions, done := 0
                                 time := k.stagedPeriod, running := true }
        ∧ u.host.response = some { code := 22, status := .ok, results := [] }
        ∧ u.announce.clips = t.announce.clips ∧ State.sameLine t u
        ∧ (k.trigger = false → u.announce.plays = t.announce.plays)
        ∧ (k.trigger = true → t.zeroDelaysFire u c (fun _ => false))
        ∧ ∀ f, f < 8 → f ≠ c →
            let g := t.channel f
            let loaded := { g with activeDelay := g.stagedDelay, activeClip := g.stagedClip, missed := false }
            (g.role ≠ .follower c → u.channel f = g)
            ∧ (g.role = .follower c → k.trigger = false → u.channel f = loaded)
            ∧ (g.role = .follower c → k.trigger = true → g.stagedDelay ≠ 0 →
                u.channel f = { loaded with remaining := g.stagedDelay, counting := true }))
    ∧ (¬leads ∨ k.running = false → exec (.cadenceStop channel) s = .next (t.answered 23 .wrongState []).keepUpStart)
    ∧ (leads → k.running = true → ∃ n : Announce,
        exec (.cadenceStop channel) s = .next (({ t with announce := n }).answered 23 .ok []).keepUpStart
        ∧ n.channels.getD c .reset = { k with running := false }
        ∧ (∀ f, f < 8 → f ≠ c → n.channels.getD f .reset = (if (t.channel f).role = .follower c then
            { t.channel f with counting := false, remaining := 0 } else t.channel f))
        ∧ (∀ place p f, t.announce.plays.getD place none = some p → p.starter = .follower f →
            (t.channel f).role = .follower c → n.plays.getD place none = none)
        ∧ (∀ place, (∀ p f, t.announce.plays.getD place none = some p → p.starter = .follower f →
            (t.channel f).role ≠ .follower c) → n.plays.getD place none = t.announce.plays.getD place none)
        ∧ n.clips = t.announce.clips ∧ n.buffer = t.announce.buffer)

/-- Blend Enable, Blend Disable and Tuned (R137, R138). What is due is done first: the model's choice (log 1). -/
def Obligations.BlendRequestsEnableAndDisable : Prop :=
  ∀ s : State, s.released →
    let t := s.settle
    let b := t.blend
    let length := t.store.rowsOf .blend * 128
    let cleared (n : Blend) := n.ring.write = 0 ∧ n.ring.clean = [] ∧ n.fill = 0 ∧ n.attempts = 0
    let silent (n : Blend) := n.mix = 0 ∧ n.gain = 0 ∧ n.correction = 0 ∧ n.valid = false ∧ n.out = .zero
      ∧ n.crossfade = none ∧ n.correlator.phase = .notRunning ∧ n.main.held = []
    t.takesRequests →
    (b.state = .idle → (length = 0 ∨ length < t.nominalDelay + 2368) →
      exec .blendEnable s = .next (t.answered 25 .wrongState []).keepUpStart)
    ∧ (b.state = .idle → 0 < length → t.nominalDelay + 2368 ≤ length → ∃ n : Blend, cleared n ∧ n.main.held = []
        ∧ exec .blendEnable s = .next (({ t with ports := { t.ports with balance := 0 } }.blendGoes n .filling
            .enabled).answered 25 .ok []).keepUpStart)
    ∧ (b.state = .lockout → exec .blendEnable s
        = .next ((t.blendGoes { b with attempts := 0 } .analogue .enabled).answered 25 .ok []).keepUpStart)
    ∧ (b.state ≠ .idle → b.state ≠ .lockout → exec .blendEnable s = .next (t.answered 25 .ok []).keepUpStart)
    ∧ (b.state = .idle → exec .blendDisable s = .next (t.answered 26 .ok []).keepUpStart)
    ∧ (b.state ≠ .idle → ∃ n : Blend, silent n ∧ n.ring = b.ring
        ∧ exec .blendDisable s = .next ((t.blendGoes n .idle .disabled).answered 26 .ok []).keepUpStart)
    ∧ (b.state = .idle → exec .tuned s = .next (t.answered 27 .wrongState []).keepUpStart)
    ∧ (b.state ≠ .idle → ∃ n : Blend, silent n ∧ cleared n ∧ n.fast = false
        ∧ exec .tuned s = .next (({ t with ports := { t.ports with balance := 0 } }.blendGoes n .filling
            .tuned).answered 27 .ok []).keepUpStart)

/-- Note Send and Note Read (R172, R173): a note to another present station with a host is taken and its first part handed on; the
inbound box is read in pieces and becomes FREE with its last byte. A request with a wrong number of bytes is BAD_REQUEST (R176,
R177); that a Note Send whose bytes are not as many as its total length is one is log 35, that the data bytes of a part beyond the
note are zero is log 66, and what is due is done first by log 1: the model's choices. -/
def Obligations.NoteRequestsSendAndRead : Prop :=
  ∀ s : State, s.released →
    let t := s.settle
    (∀ (target : Byte) (total : BitVec 16) (data : List Byte),
      let c : Instr := .noteSend target total data
      let n := target.toNat
      let takesNotes := n ≠ t.number ∧ (t.tables.station n).present = true ∧ (t.tables.station n).roles.attended = true
      (data.length ≠ total.toNat → exec c s = .next (t.answered 37 .badRequest []).keepUpStart)
      ∧ (c.wellFormed = true → requestInRange c →
        (t.member.station = .leaving → exec c s = .next (t.answered 37 .wrongState []).keepUpStart)
        ∧ (t.takesRequests → t.member.station ≠ .leaving → t.member.station ≠ .member →
            exec c s = .next (t.answered 37 .notMember []).keepUpStart)
        ∧ (t.member.station = .member → ¬takesNotes → exec c s = .next (t.answered 37 .noStation []).keepUpStart)
        ∧ (t.member.station = .member → takesNotes → ∀ p, t.note.outbound.state = .sending p →
            exec c s = .next (t.answered 37 .busy []).keepUpStart)
        ∧ (t.member.station = .member → takesNotes → (∀ p, t.note.outbound.state ≠ .sending p) → ∃ u : State,
            exec c s = .next u.keepUpStart
            ∧ u.note = { t.note with outbound :=
                { state := .sending 0, target := n, total := total.toNat, data := data, lastFailure := t.note.outbound.lastFailure } }
            ∧ u.host.response = some { code := 37, status := .ok, results := [] }
            ∧ (∃ e d, e ∈ u.line.queue ++ u.line.waiting ∧ e.originator = .noteUnit
                ∧ e.message = .notePart target 0 total d
                ∧ ∀ i, i < 16 → d.extractLsb' (8 * (15 - i)) 8 = data.getD i 0)
            ∧ u.tables = t.tables ∧ u.member = t.member ∧ State.sameAudio t u ∧ u.mixer = t.mixer)))
    ∧ (∀ offset count : Byte,
      let c : Instr := .noteRead offset count
      requestInRange c → t.takesRequests →
      ((∀ sender total expiry data, t.note.box ≠ .full sender total expiry data) →
        exec c s = .next (t.answered 38 .wrongState []).keepUpStart)
      ∧ (∀ sender total expiry data, t.note.box = .full sender total expiry data →
          let answer := inBytes 1 sender ++ inBytes 2 total
            ++ listed (((data.take total).drop offset.toNat).take count.toNat) (fun b => [b])
          (total ≤ offset.toNat → exec c s = .next (t.answered 38 .badParameter []).keepUpStart)
          ∧ (offset.toNat < total → offset.toNat + count.toNat < total →
              exec c s = .next (t.answered 38 .ok answer).keepUpStart)
          ∧ (offset.toNat < total → total ≤ offset.toNat + count.toNat → exec c s
              = .next (({ t with note := { t.note with box := .free } }).answered 38 .ok answer).keepUpStart)))

/-- Read Events and the transfers by their bytes (R176, R177, R180): Read Events removes the four oldest records and returns
them; a transfer for reading shifts the response out; a transfer that fails its checks is refused and changes nothing else; one
that passes them does what the request does that its bytes spell (R177). That a transfer shifts the whole response out is log
83. The code that names a refused transfer, 0 where no byte came, is log 24, the lengths of requests that R177 leaves open are
log 35, and what is due is done first by log 1: the model's choices. -/
def Obligations.EventsAndTransfers : Prop :=
  ∀ s : State, s.released →
    let t := s.settle
    let out : HostPort := { t.host with shifted := (t.host.response.getD emptyResponse).bytes, response := none }
    (t.member.station ≠ .dormant → exec .readEvents s
      = .next (({ t with host := { t.host with events := t.host.events.drop 4 } }).answered 40 .ok
          (listed (t.host.events.take 4) eventBytes)).keepUpStart)
    ∧ exec .transferForReading s = .next ({ t with host := out }).keepUpStart
    ∧ (∀ bytes : List Byte,
      let code := (bytes.headD 0).toNat
      let n := (bytes.getD 1 0).toNat * 256 + (bytes.getD 2 0).toNat
      let whole := 5 + n ≤ bytes.length ∧ (bytes.drop (3 + n)).take 2 = inBytes 2 (crcBytes (bytes.take (3 + n))).toNat
      (bytes = [] ∨ (code ≠ 0 ∧ ¬whole) →
        exec (.badTransfer bytes) s = .next (t.answered code .badCheck []).keepUpStart)
      ∧ (code ≠ 0 → whole → lengthMatches code ((bytes.drop 3).take n) = false →
          exec (.badTransfer bytes) s = .next (t.answered code .badRequest []).keepUpStart)
      ∧ (code ≠ 0 → whole → lengthMatches code ((bytes.drop 3).take n) = true →
          ∀ i, requestOf code ((bytes.drop 3).take n) = some i → exec (.badTransfer bytes) s = exec i s)
      ∧ (bytes ≠ [] → code = 0 → exec (.badTransfer bytes) s = .next ({ t with host := out }).keepUpStart))

/-- No step breaks the canonical form of the store's words (log 25): addresses rise and no zero word is listed. -/
def Obligations.EveryStepKeepsTheMemoryCanonical : Prop :=
  ∀ s u : State, s.memoryCanonical → step s = .next u → u.memoryCanonical

/-- No step breaks the agreement of the output gate with its gain and with the follower's state (R69). -/
def Obligations.EveryStepKeepsTheGateLaw : Prop :=
  ∀ s u : State, s.gateLaw → step s = .next u → u.gateLaw

/-- No step changes the size of a table of fixed size, or stages a period below 48. -/
def Obligations.EveryStepKeepsTheFixedSizes : Prop :=
  ∀ s u : State, s.fixedSizes → step s = .next u → u.fixedSizes

/-- No step leaves a stream in the directory whose station is absent (R45), two calls ACTIVE (R150), a send queue longer than 8 or
out of the order of its classes, or a message of the host waiting for a place in it (R18); and every queued message entered before
the next one will, by the model's own count of entries. -/
def Obligations.EveryStepKeepsTheTablesAndTheQueue : Prop :=
  ∀ s u : State, step s = .next u →
    (s.tableSizes → s.directoryLaw → s.oneActiveCall → s.queueLaw → u.directoryLaw ∧ u.oneActiveCall ∧ u.queueLaw)
    ∧ (s.orderLaw → u.orderLaw)

/-- The machine right after reset meets every invariant, and its memory reads zero at every address (R96). -/
def Obligations.ResetMeetsEveryInvariant : Prop :=
  State.reset.memoryCanonical ∧ State.reset.gateLaw ∧ State.reset.fixedSizes ∧ State.reset.directoryLaw
    ∧ State.reset.oneActiveCall ∧ State.reset.queueLaw ∧ State.reset.orderLaw ∧ State.reset.released
    ∧ ∀ a, State.reset.store.memory.read a = 0
end

