-- ==== Sys2Proof/Laws/Loops.lean ====
section
/-! SUPPORT. What a repeated operation leaves alone, a component or field at a time, and the fields that an update of one field of the
line tables leaves alone. -/

namespace Sys2Proof.Machine

@[simp] theorem forEach_pending (n : Nat) (f : Nat → State → State) (s : State) (h : ∀ i s, (f i s).pending = s.pending) : (forEach n f s).pending = s.pending := by
  unfold forEach
  generalize List.range n = l
  induction l generalizing s with
  | nil => rfl
  | cons a l ih => rw [List.foldl_cons, ih, h]
@[simp] theorem foldl_pending {α : Type} (l : List α) (f : State → α → State) (s : State) (h : ∀ s i, (f s i).pending = s.pending) : (l.foldl f s).pending = s.pending := by
  induction l generalizing s with
  | nil => rfl
  | cons a l ih => rw [List.foldl_cons, ih, h]
@[simp] theorem forZones_pending (f : Nat → State → State) (s : State) (h : ∀ i s, (f i s).pending = s.pending) : (s.forZones f).pending = s.pending := by
  unfold State.forZones; exact forEach_pending 4 f s h
@[simp] theorem forEach_localCount (n : Nat) (f : Nat → State → State) (s : State) (h : ∀ i s, (f i s).localCount = s.localCount) : (forEach n f s).localCount = s.localCount := by
  unfold forEach
  generalize List.range n = l
  induction l generalizing s with
  | nil => rfl
  | cons a l ih => rw [List.foldl_cons, ih, h]
@[simp] theorem foldl_localCount {α : Type} (l : List α) (f : State → α → State) (s : State) (h : ∀ s i, (f s i).localCount = s.localCount) : (l.foldl f s).localCount = s.localCount := by
  induction l generalizing s with
  | nil => rfl
  | cons a l ih => rw [List.foldl_cons, ih, h]
@[simp] theorem forZones_localCount (f : Nat → State → State) (s : State) (h : ∀ i s, (f i s).localCount = s.localCount) : (s.forZones f).localCount = s.localCount := by
  unfold State.forZones; exact forEach_localCount 4 f s h
@[simp] theorem forEach_line (n : Nat) (f : Nat → State → State) (s : State) (h : ∀ i s, (f i s).line = s.line) : (forEach n f s).line = s.line := by
  unfold forEach
  generalize List.range n = l
  induction l generalizing s with
  | nil => rfl
  | cons a l ih => rw [List.foldl_cons, ih, h]
@[simp] theorem foldl_line {α : Type} (l : List α) (f : State → α → State) (s : State) (h : ∀ s i, (f s i).line = s.line) : (l.foldl f s).line = s.line := by
  induction l generalizing s with
  | nil => rfl
  | cons a l ih => rw [List.foldl_cons, ih, h]
@[simp] theorem forZones_line (f : Nat → State → State) (s : State) (h : ∀ i s, (f i s).line = s.line) : (s.forZones f).line = s.line := by
  unfold State.forZones; exact forEach_line 4 f s h
@[simp] theorem forEach_tables (n : Nat) (f : Nat → State → State) (s : State) (h : ∀ i s, (f i s).tables = s.tables) : (forEach n f s).tables = s.tables := by
  unfold forEach
  generalize List.range n = l
  induction l generalizing s with
  | nil => rfl
  | cons a l ih => rw [List.foldl_cons, ih, h]
@[simp] theorem foldl_tables {α : Type} (l : List α) (f : State → α → State) (s : State) (h : ∀ s i, (f s i).tables = s.tables) : (l.foldl f s).tables = s.tables := by
  induction l generalizing s with
  | nil => rfl
  | cons a l ih => rw [List.foldl_cons, ih, h]
@[simp] theorem forZones_tables (f : Nat → State → State) (s : State) (h : ∀ i s, (f i s).tables = s.tables) : (s.forZones f).tables = s.tables := by
  unfold State.forZones; exact forEach_tables 4 f s h
@[simp] theorem forEach_member (n : Nat) (f : Nat → State → State) (s : State) (h : ∀ i s, (f i s).member = s.member) : (forEach n f s).member = s.member := by
  unfold forEach
  generalize List.range n = l
  induction l generalizing s with
  | nil => rfl
  | cons a l ih => rw [List.foldl_cons, ih, h]
@[simp] theorem foldl_member {α : Type} (l : List α) (f : State → α → State) (s : State) (h : ∀ s i, (f s i).member = s.member) : (l.foldl f s).member = s.member := by
  induction l generalizing s with
  | nil => rfl
  | cons a l ih => rw [List.foldl_cons, ih, h]
@[simp] theorem forZones_member (f : Nat → State → State) (s : State) (h : ∀ i s, (f i s).member = s.member) : (s.forZones f).member = s.member := by
  unfold State.forZones; exact forEach_member 4 f s h
@[simp] theorem forEach_follower (n : Nat) (f : Nat → State → State) (s : State) (h : ∀ i s, (f i s).follower = s.follower) : (forEach n f s).follower = s.follower := by
  unfold forEach
  generalize List.range n = l
  induction l generalizing s with
  | nil => rfl
  | cons a l ih => rw [List.foldl_cons, ih, h]
@[simp] theorem foldl_follower {α : Type} (l : List α) (f : State → α → State) (s : State) (h : ∀ s i, (f s i).follower = s.follower) : (l.foldl f s).follower = s.follower := by
  induction l generalizing s with
  | nil => rfl
  | cons a l ih => rw [List.foldl_cons, ih, h]
@[simp] theorem forZones_follower (f : Nat → State → State) (s : State) (h : ∀ i s, (f i s).follower = s.follower) : (s.forZones f).follower = s.follower := by
  unfold State.forZones; exact forEach_follower 4 f s h
@[simp] theorem forEach_ports (n : Nat) (f : Nat → State → State) (s : State) (h : ∀ i s, (f i s).ports = s.ports) : (forEach n f s).ports = s.ports := by
  unfold forEach
  generalize List.range n = l
  induction l generalizing s with
  | nil => rfl
  | cons a l ih => rw [List.foldl_cons, ih, h]
@[simp] theorem foldl_ports {α : Type} (l : List α) (f : State → α → State) (s : State) (h : ∀ s i, (f s i).ports = s.ports) : (l.foldl f s).ports = s.ports := by
  induction l generalizing s with
  | nil => rfl
  | cons a l ih => rw [List.foldl_cons, ih, h]
@[simp] theorem forZones_ports (f : Nat → State → State) (s : State) (h : ∀ i s, (f i s).ports = s.ports) : (s.forZones f).ports = s.ports := by
  unfold State.forZones; exact forEach_ports 4 f s h
@[simp] theorem forEach_store (n : Nat) (f : Nat → State → State) (s : State) (h : ∀ i s, (f i s).store = s.store) : (forEach n f s).store = s.store := by
  unfold forEach
  generalize List.range n = l
  induction l generalizing s with
  | nil => rfl
  | cons a l ih => rw [List.foldl_cons, ih, h]
@[simp] theorem foldl_store {α : Type} (l : List α) (f : State → α → State) (s : State) (h : ∀ s i, (f s i).store = s.store) : (l.foldl f s).store = s.store := by
  induction l generalizing s with
  | nil => rfl
  | cons a l ih => rw [List.foldl_cons, ih, h]
@[simp] theorem forZones_store (f : Nat → State → State) (s : State) (h : ∀ i s, (f i s).store = s.store) : (s.forZones f).store = s.store := by
  unfold State.forZones; exact forEach_store 4 f s h
@[simp] theorem forEach_mixer (n : Nat) (f : Nat → State → State) (s : State) (h : ∀ i s, (f i s).mixer = s.mixer) : (forEach n f s).mixer = s.mixer := by
  unfold forEach
  generalize List.range n = l
  induction l generalizing s with
  | nil => rfl
  | cons a l ih => rw [List.foldl_cons, ih, h]
@[simp] theorem foldl_mixer {α : Type} (l : List α) (f : State → α → State) (s : State) (h : ∀ s i, (f s i).mixer = s.mixer) : (l.foldl f s).mixer = s.mixer := by
  induction l generalizing s with
  | nil => rfl
  | cons a l ih => rw [List.foldl_cons, ih, h]
@[simp] theorem forZones_mixer (f : Nat → State → State) (s : State) (h : ∀ i s, (f i s).mixer = s.mixer) : (s.forZones f).mixer = s.mixer := by
  unfold State.forZones; exact forEach_mixer 4 f s h
@[simp] theorem forEach_announce (n : Nat) (f : Nat → State → State) (s : State) (h : ∀ i s, (f i s).announce = s.announce) : (forEach n f s).announce = s.announce := by
  unfold forEach
  generalize List.range n = l
  induction l generalizing s with
  | nil => rfl
  | cons a l ih => rw [List.foldl_cons, ih, h]
@[simp] theorem foldl_announce {α : Type} (l : List α) (f : State → α → State) (s : State) (h : ∀ s i, (f s i).announce = s.announce) : (l.foldl f s).announce = s.announce := by
  induction l generalizing s with
  | nil => rfl
  | cons a l ih => rw [List.foldl_cons, ih, h]
@[simp] theorem forZones_announce (f : Nat → State → State) (s : State) (h : ∀ i s, (f i s).announce = s.announce) : (s.forZones f).announce = s.announce := by
  unfold State.forZones; exact forEach_announce 4 f s h
@[simp] theorem forEach_blend (n : Nat) (f : Nat → State → State) (s : State) (h : ∀ i s, (f i s).blend = s.blend) : (forEach n f s).blend = s.blend := by
  unfold forEach
  generalize List.range n = l
  induction l generalizing s with
  | nil => rfl
  | cons a l ih => rw [List.foldl_cons, ih, h]
@[simp] theorem foldl_blend {α : Type} (l : List α) (f : State → α → State) (s : State) (h : ∀ s i, (f s i).blend = s.blend) : (l.foldl f s).blend = s.blend := by
  induction l generalizing s with
  | nil => rfl
  | cons a l ih => rw [List.foldl_cons, ih, h]
@[simp] theorem forZones_blend (f : Nat → State → State) (s : State) (h : ∀ i s, (f i s).blend = s.blend) : (s.forZones f).blend = s.blend := by
  unfold State.forZones; exact forEach_blend 4 f s h
@[simp] theorem forEach_call (n : Nat) (f : Nat → State → State) (s : State) (h : ∀ i s, (f i s).call = s.call) : (forEach n f s).call = s.call := by
  unfold forEach
  generalize List.range n = l
  induction l generalizing s with
  | nil => rfl
  | cons a l ih => rw [List.foldl_cons, ih, h]
@[simp] theorem foldl_call {α : Type} (l : List α) (f : State → α → State) (s : State) (h : ∀ s i, (f s i).call = s.call) : (l.foldl f s).call = s.call := by
  induction l generalizing s with
  | nil => rfl
  | cons a l ih => rw [List.foldl_cons, ih, h]
@[simp] theorem forZones_call (f : Nat → State → State) (s : State) (h : ∀ i s, (f i s).call = s.call) : (s.forZones f).call = s.call := by
  unfold State.forZones; exact forEach_call 4 f s h
@[simp] theorem forEach_note (n : Nat) (f : Nat → State → State) (s : State) (h : ∀ i s, (f i s).note = s.note) : (forEach n f s).note = s.note := by
  unfold forEach
  generalize List.range n = l
  induction l generalizing s with
  | nil => rfl
  | cons a l ih => rw [List.foldl_cons, ih, h]
@[simp] theorem foldl_note {α : Type} (l : List α) (f : State → α → State) (s : State) (h : ∀ s i, (f s i).note = s.note) : (l.foldl f s).note = s.note := by
  induction l generalizing s with
  | nil => rfl
  | cons a l ih => rw [List.foldl_cons, ih, h]
@[simp] theorem forZones_note (f : Nat → State → State) (s : State) (h : ∀ i s, (f i s).note = s.note) : (s.forZones f).note = s.note := by
  unfold State.forZones; exact forEach_note 4 f s h
@[simp] theorem forEach_host (n : Nat) (f : Nat → State → State) (s : State) (h : ∀ i s, (f i s).host = s.host) : (forEach n f s).host = s.host := by
  unfold forEach
  generalize List.range n = l
  induction l generalizing s with
  | nil => rfl
  | cons a l ih => rw [List.foldl_cons, ih, h]
@[simp] theorem foldl_host {α : Type} (l : List α) (f : State → α → State) (s : State) (h : ∀ s i, (f s i).host = s.host) : (l.foldl f s).host = s.host := by
  induction l generalizing s with
  | nil => rfl
  | cons a l ih => rw [List.foldl_cons, ih, h]
@[simp] theorem forZones_host (f : Nat → State → State) (s : State) (h : ∀ i s, (f i s).host = s.host) : (s.forZones f).host = s.host := by
  unfold State.forZones; exact forEach_host 4 f s h
@[simp] theorem forEach_startUp (n : Nat) (f : Nat → State → State) (s : State) (h : ∀ i s, (f i s).startUp = s.startUp) : (forEach n f s).startUp = s.startUp := by
  unfold forEach
  generalize List.range n = l
  induction l generalizing s with
  | nil => rfl
  | cons a l ih => rw [List.foldl_cons, ih, h]
@[simp] theorem foldl_startUp {α : Type} (l : List α) (f : State → α → State) (s : State) (h : ∀ s i, (f s i).startUp = s.startUp) : (l.foldl f s).startUp = s.startUp := by
  induction l generalizing s with
  | nil => rfl
  | cons a l ih => rw [List.foldl_cons, ih, h]
@[simp] theorem forZones_startUp (f : Nat → State → State) (s : State) (h : ∀ i s, (f i s).startUp = s.startUp) : (s.forZones f).startUp = s.startUp := by
  unfold State.forZones; exact forEach_startUp 4 f s h
@[simp] theorem forEach_line_timerExpired (n : Nat) (f : Nat → State → State) (s : State) (h : ∀ i s, (f i s).line.timerExpired = s.line.timerExpired) : (forEach n f s).line.timerExpired = s.line.timerExpired := by
  unfold forEach
  generalize List.range n = l
  induction l generalizing s with
  | nil => rfl
  | cons a l ih => rw [List.foldl_cons, ih, h]
@[simp] theorem foldl_line_timerExpired {α : Type} (l : List α) (f : State → α → State) (s : State) (h : ∀ s i, (f s i).line.timerExpired = s.line.timerExpired) : (l.foldl f s).line.timerExpired = s.line.timerExpired := by
  induction l generalizing s with
  | nil => rfl
  | cons a l ih => rw [List.foldl_cons, ih, h]
@[simp] theorem forZones_line_timerExpired (f : Nat → State → State) (s : State) (h : ∀ i s, (f i s).line.timerExpired = s.line.timerExpired) : (s.forZones f).line.timerExpired = s.line.timerExpired := by
  unfold State.forZones; exact forEach_line_timerExpired 4 f s h
@[simp] theorem forEach_line_silentCount (n : Nat) (f : Nat → State → State) (s : State) (h : ∀ i s, (f i s).line.silentCount = s.line.silentCount) : (forEach n f s).line.silentCount = s.line.silentCount := by
  unfold forEach
  generalize List.range n = l
  induction l generalizing s with
  | nil => rfl
  | cons a l ih => rw [List.foldl_cons, ih, h]
@[simp] theorem foldl_line_silentCount {α : Type} (l : List α) (f : State → α → State) (s : State) (h : ∀ s i, (f s i).line.silentCount = s.line.silentCount) : (l.foldl f s).line.silentCount = s.line.silentCount := by
  induction l generalizing s with
  | nil => rfl
  | cons a l ih => rw [List.foldl_cons, ih, h]
@[simp] theorem forZones_line_silentCount (f : Nat → State → State) (s : State) (h : ∀ i s, (f i s).line.silentCount = s.line.silentCount) : (s.forZones f).line.silentCount = s.line.silentCount := by
  unfold State.forZones; exact forEach_line_silentCount 4 f s h
@[simp] theorem forEach_line_silent (n : Nat) (f : Nat → State → State) (s : State) (h : ∀ i s, (f i s).line.silent = s.line.silent) : (forEach n f s).line.silent = s.line.silent := by
  unfold forEach
  generalize List.range n = l
  induction l generalizing s with
  | nil => rfl
  | cons a l ih => rw [List.foldl_cons, ih, h]
@[simp] theorem foldl_line_silent {α : Type} (l : List α) (f : State → α → State) (s : State) (h : ∀ s i, (f s i).line.silent = s.line.silent) : (l.foldl f s).line.silent = s.line.silent := by
  induction l generalizing s with
  | nil => rfl
  | cons a l ih => rw [List.foldl_cons, ih, h]
@[simp] theorem forZones_line_silent (f : Nat → State → State) (s : State) (h : ∀ i s, (f i s).line.silent = s.line.silent) : (s.forZones f).line.silent = s.line.silent := by
  unfold State.forZones; exact forEach_line_silent 4 f s h
@[simp] theorem forEach_line_lead (n : Nat) (f : Nat → State → State) (s : State) (h : ∀ i s, (f i s).line.lead = s.line.lead) : (forEach n f s).line.lead = s.line.lead := by
  unfold forEach
  generalize List.range n = l
  induction l generalizing s with
  | nil => rfl
  | cons a l ih => rw [List.foldl_cons, ih, h]
@[simp] theorem foldl_line_lead {α : Type} (l : List α) (f : State → α → State) (s : State) (h : ∀ s i, (f s i).line.lead = s.line.lead) : (l.foldl f s).line.lead = s.line.lead := by
  induction l generalizing s with
  | nil => rfl
  | cons a l ih => rw [List.foldl_cons, ih, h]
@[simp] theorem forZones_line_lead (f : Nat → State → State) (s : State) (h : ∀ i s, (f i s).line.lead = s.line.lead) : (s.forZones f).line.lead = s.line.lead := by
  unfold State.forZones; exact forEach_line_lead 4 f s h
@[simp] theorem forEach_line_phase (n : Nat) (f : Nat → State → State) (s : State) (h : ∀ i s, (f i s).line.phase = s.line.phase) : (forEach n f s).line.phase = s.line.phase := by
  unfold forEach
  generalize List.range n = l
  induction l generalizing s with
  | nil => rfl
  | cons a l ih => rw [List.foldl_cons, ih, h]
@[simp] theorem foldl_line_phase {α : Type} (l : List α) (f : State → α → State) (s : State) (h : ∀ s i, (f s i).line.phase = s.line.phase) : (l.foldl f s).line.phase = s.line.phase := by
  induction l generalizing s with
  | nil => rfl
  | cons a l ih => rw [List.foldl_cons, ih, h]
@[simp] theorem forZones_line_phase (f : Nat → State → State) (s : State) (h : ∀ i s, (f i s).line.phase = s.line.phase) : (s.forZones f).line.phase = s.line.phase := by
  unfold State.forZones; exact forEach_line_phase 4 f s h
@[simp] theorem forEach_line_field (n : Nat) (f : Nat → State → State) (s : State) (h : ∀ i s, (f i s).line.field = s.line.field) : (forEach n f s).line.field = s.line.field := by
  unfold forEach
  generalize List.range n = l
  induction l generalizing s with
  | nil => rfl
  | cons a l ih => rw [List.foldl_cons, ih, h]
@[simp] theorem foldl_line_field {α : Type} (l : List α) (f : State → α → State) (s : State) (h : ∀ s i, (f s i).line.field = s.line.field) : (l.foldl f s).line.field = s.line.field := by
  induction l generalizing s with
  | nil => rfl
  | cons a l ih => rw [List.foldl_cons, ih, h]
@[simp] theorem forZones_line_field (f : Nat → State → State) (s : State) (h : ∀ i s, (f i s).line.field = s.line.field) : (s.forZones f).line.field = s.line.field := by
  unfold State.forZones; exact forEach_line_field 4 f s h
@[simp] theorem forEach_line_sent (n : Nat) (f : Nat → State → State) (s : State) (h : ∀ i s, (f i s).line.sent = s.line.sent) : (forEach n f s).line.sent = s.line.sent := by
  unfold forEach
  generalize List.range n = l
  induction l generalizing s with
  | nil => rfl
  | cons a l ih => rw [List.foldl_cons, ih, h]
@[simp] theorem foldl_line_sent {α : Type} (l : List α) (f : State → α → State) (s : State) (h : ∀ s i, (f s i).line.sent = s.line.sent) : (l.foldl f s).line.sent = s.line.sent := by
  induction l generalizing s with
  | nil => rfl
  | cons a l ih => rw [List.foldl_cons, ih, h]
@[simp] theorem forZones_line_sent (f : Nat → State → State) (s : State) (h : ∀ i s, (f i s).line.sent = s.line.sent) : (s.forZones f).line.sent = s.line.sent := by
  unfold State.forZones; exact forEach_line_sent 4 f s h
@[simp] theorem forEach_line_vetoing (n : Nat) (f : Nat → State → State) (s : State) (h : ∀ i s, (f i s).line.vetoing = s.line.vetoing) : (forEach n f s).line.vetoing = s.line.vetoing := by
  unfold forEach
  generalize List.range n = l
  induction l generalizing s with
  | nil => rfl
  | cons a l ih => rw [List.foldl_cons, ih, h]
@[simp] theorem foldl_line_vetoing {α : Type} (l : List α) (f : State → α → State) (s : State) (h : ∀ s i, (f s i).line.vetoing = s.line.vetoing) : (l.foldl f s).line.vetoing = s.line.vetoing := by
  induction l generalizing s with
  | nil => rfl
  | cons a l ih => rw [List.foldl_cons, ih, h]
@[simp] theorem forZones_line_vetoing (f : Nat → State → State) (s : State) (h : ∀ i s, (f i s).line.vetoing = s.line.vetoing) : (s.forZones f).line.vetoing = s.line.vetoing := by
  unfold State.forZones; exact forEach_line_vetoing 4 f s h
@[simp] theorem forEach_line_queue (n : Nat) (f : Nat → State → State) (s : State) (h : ∀ i s, (f i s).line.queue = s.line.queue) : (forEach n f s).line.queue = s.line.queue := by
  unfold forEach
  generalize List.range n = l
  induction l generalizing s with
  | nil => rfl
  | cons a l ih => rw [List.foldl_cons, ih, h]
@[simp] theorem foldl_line_queue {α : Type} (l : List α) (f : State → α → State) (s : State) (h : ∀ s i, (f s i).line.queue = s.line.queue) : (l.foldl f s).line.queue = s.line.queue := by
  induction l generalizing s with
  | nil => rfl
  | cons a l ih => rw [List.foldl_cons, ih, h]
@[simp] theorem forZones_line_queue (f : Nat → State → State) (s : State) (h : ∀ i s, (f i s).line.queue = s.line.queue) : (s.forZones f).line.queue = s.line.queue := by
  unfold State.forZones; exact forEach_line_queue 4 f s h
@[simp] theorem forEach_line_waiting (n : Nat) (f : Nat → State → State) (s : State) (h : ∀ i s, (f i s).line.waiting = s.line.waiting) : (forEach n f s).line.waiting = s.line.waiting := by
  unfold forEach
  generalize List.range n = l
  induction l generalizing s with
  | nil => rfl
  | cons a l ih => rw [List.foldl_cons, ih, h]
@[simp] theorem foldl_line_waiting {α : Type} (l : List α) (f : State → α → State) (s : State) (h : ∀ s i, (f s i).line.waiting = s.line.waiting) : (l.foldl f s).line.waiting = s.line.waiting := by
  induction l generalizing s with
  | nil => rfl
  | cons a l ih => rw [List.foldl_cons, ih, h]
@[simp] theorem forZones_line_waiting (f : Nat → State → State) (s : State) (h : ∀ i s, (f i s).line.waiting = s.line.waiting) : (s.forZones f).line.waiting = s.line.waiting := by
  unfold State.forZones; exact forEach_line_waiting 4 f s h
@[simp] theorem forEach_line_bindings (n : Nat) (f : Nat → State → State) (s : State) (h : ∀ i s, (f i s).line.bindings = s.line.bindings) : (forEach n f s).line.bindings = s.line.bindings := by
  unfold forEach
  generalize List.range n = l
  induction l generalizing s with
  | nil => rfl
  | cons a l ih => rw [List.foldl_cons, ih, h]
@[simp] theorem foldl_line_bindings {α : Type} (l : List α) (f : State → α → State) (s : State) (h : ∀ s i, (f s i).line.bindings = s.line.bindings) : (l.foldl f s).line.bindings = s.line.bindings := by
  induction l generalizing s with
  | nil => rfl
  | cons a l ih => rw [List.foldl_cons, ih, h]
@[simp] theorem forZones_line_bindings (f : Nat → State → State) (s : State) (h : ∀ i s, (f i s).line.bindings = s.line.bindings) : (s.forZones f).line.bindings = s.line.bindings := by
  unfold State.forZones; exact forEach_line_bindings 4 f s h
@[simp] theorem forEach_line_driven (n : Nat) (f : Nat → State → State) (s : State) (h : ∀ i s, (f i s).line.driven = s.line.driven) : (forEach n f s).line.driven = s.line.driven := by
  unfold forEach
  generalize List.range n = l
  induction l generalizing s with
  | nil => rfl
  | cons a l ih => rw [List.foldl_cons, ih, h]
@[simp] theorem foldl_line_driven {α : Type} (l : List α) (f : State → α → State) (s : State) (h : ∀ s i, (f s i).line.driven = s.line.driven) : (l.foldl f s).line.driven = s.line.driven := by
  induction l generalizing s with
  | nil => rfl
  | cons a l ih => rw [List.foldl_cons, ih, h]
@[simp] theorem forZones_line_driven (f : Nat → State → State) (s : State) (h : ∀ i s, (f i s).line.driven = s.line.driven) : (s.forZones f).line.driven = s.line.driven := by
  unfold State.forZones; exact forEach_line_driven 4 f s h
@[simp] theorem forEach_line_lineSamples (n : Nat) (f : Nat → State → State) (s : State) (h : ∀ i s, (f i s).line.lineSamples = s.line.lineSamples) : (forEach n f s).line.lineSamples = s.line.lineSamples := by
  unfold forEach
  generalize List.range n = l
  induction l generalizing s with
  | nil => rfl
  | cons a l ih => rw [List.foldl_cons, ih, h]
@[simp] theorem foldl_line_lineSamples {α : Type} (l : List α) (f : State → α → State) (s : State) (h : ∀ s i, (f s i).line.lineSamples = s.line.lineSamples) : (l.foldl f s).line.lineSamples = s.line.lineSamples := by
  induction l generalizing s with
  | nil => rfl
  | cons a l ih => rw [List.foldl_cons, ih, h]
@[simp] theorem forZones_line_lineSamples (f : Nat → State → State) (s : State) (h : ∀ i s, (f i s).line.lineSamples = s.line.lineSamples) : (s.forZones f).line.lineSamples = s.line.lineSamples := by
  unfold State.forZones; exact forEach_line_lineSamples 4 f s h
@[simp] theorem forEach_line_presenceCounter (n : Nat) (f : Nat → State → State) (s : State) (h : ∀ i s, (f i s).line.presenceCounter = s.line.presenceCounter) : (forEach n f s).line.presenceCounter = s.line.presenceCounter := by
  unfold forEach
  generalize List.range n = l
  induction l generalizing s with
  | nil => rfl
  | cons a l ih => rw [List.foldl_cons, ih, h]
@[simp] theorem foldl_line_presenceCounter {α : Type} (l : List α) (f : State → α → State) (s : State) (h : ∀ s i, (f s i).line.presenceCounter = s.line.presenceCounter) : (l.foldl f s).line.presenceCounter = s.line.presenceCounter := by
  induction l generalizing s with
  | nil => rfl
  | cons a l ih => rw [List.foldl_cons, ih, h]
@[simp] theorem forZones_line_presenceCounter (f : Nat → State → State) (s : State) (h : ∀ i s, (f i s).line.presenceCounter = s.line.presenceCounter) : (s.forZones f).line.presenceCounter = s.line.presenceCounter := by
  unfold State.forZones; exact forEach_line_presenceCounter 4 f s h
@[simp] theorem forEach_line_presenceDue (n : Nat) (f : Nat → State → State) (s : State) (h : ∀ i s, (f i s).line.presenceDue = s.line.presenceDue) : (forEach n f s).line.presenceDue = s.line.presenceDue := by
  unfold forEach
  generalize List.range n = l
  induction l generalizing s with
  | nil => rfl
  | cons a l ih => rw [List.foldl_cons, ih, h]
@[simp] theorem foldl_line_presenceDue {α : Type} (l : List α) (f : State → α → State) (s : State) (h : ∀ s i, (f s i).line.presenceDue = s.line.presenceDue) : (l.foldl f s).line.presenceDue = s.line.presenceDue := by
  induction l generalizing s with
  | nil => rfl
  | cons a l ih => rw [List.foldl_cons, ih, h]
@[simp] theorem forZones_line_presenceDue (f : Nat → State → State) (s : State) (h : ∀ i s, (f i s).line.presenceDue = s.line.presenceDue) : (s.forZones f).line.presenceDue = s.line.presenceDue := by
  unfold State.forZones; exact forEach_line_presenceDue 4 f s h
@[simp] theorem forEach_line_selfVeto (n : Nat) (f : Nat → State → State) (s : State) (h : ∀ i s, (f i s).line.selfVeto = s.line.selfVeto) : (forEach n f s).line.selfVeto = s.line.selfVeto := by
  unfold forEach
  generalize List.range n = l
  induction l generalizing s with
  | nil => rfl
  | cons a l ih => rw [List.foldl_cons, ih, h]
@[simp] theorem foldl_line_selfVeto {α : Type} (l : List α) (f : State → α → State) (s : State) (h : ∀ s i, (f s i).line.selfVeto = s.line.selfVeto) : (l.foldl f s).line.selfVeto = s.line.selfVeto := by
  induction l generalizing s with
  | nil => rfl
  | cons a l ih => rw [List.foldl_cons, ih, h]
@[simp] theorem forZones_line_selfVeto (f : Nat → State → State) (s : State) (h : ∀ i s, (f i s).line.selfVeto = s.line.selfVeto) : (s.forZones f).line.selfVeto = s.line.selfVeto := by
  unfold State.forZones; exact forEach_line_selfVeto 4 f s h
@[simp] theorem forEach_line_nextOrder (n : Nat) (f : Nat → State → State) (s : State) (h : ∀ i s, (f i s).line.nextOrder = s.line.nextOrder) : (forEach n f s).line.nextOrder = s.line.nextOrder := by
  unfold forEach
  generalize List.range n = l
  induction l generalizing s with
  | nil => rfl
  | cons a l ih => rw [List.foldl_cons, ih, h]
@[simp] theorem foldl_line_nextOrder {α : Type} (l : List α) (f : State → α → State) (s : State) (h : ∀ s i, (f s i).line.nextOrder = s.line.nextOrder) : (l.foldl f s).line.nextOrder = s.line.nextOrder := by
  induction l generalizing s with
  | nil => rfl
  | cons a l ih => rw [List.foldl_cons, ih, h]
@[simp] theorem forZones_line_nextOrder (f : Nat → State → State) (s : State) (h : ∀ i s, (f i s).line.nextOrder = s.line.nextOrder) : (s.forZones f).line.nextOrder = s.line.nextOrder := by
  unfold State.forZones; exact forEach_line_nextOrder 4 f s h
@[simp] theorem forEach_store_memory (n : Nat) (f : Nat → State → State) (s : State) (h : ∀ i s, (f i s).store.memory = s.store.memory) : (forEach n f s).store.memory = s.store.memory := by
  unfold forEach
  generalize List.range n = l
  induction l generalizing s with
  | nil => rfl
  | cons a l ih => rw [List.foldl_cons, ih, h]
@[simp] theorem foldl_store_memory {α : Type} (l : List α) (f : State → α → State) (s : State) (h : ∀ s i, (f s i).store.memory = s.store.memory) : (l.foldl f s).store.memory = s.store.memory := by
  induction l generalizing s with
  | nil => rfl
  | cons a l ih => rw [List.foldl_cons, ih, h]
@[simp] theorem forZones_store_memory (f : Nat → State → State) (s : State) (h : ∀ i s, (f i s).store.memory = s.store.memory) : (s.forZones f).store.memory = s.store.memory := by
  unfold State.forZones; exact forEach_store_memory 4 f s h
@[simp] theorem forEach_store_regions (n : Nat) (f : Nat → State → State) (s : State) (h : ∀ i s, (f i s).store.regions = s.store.regions) : (forEach n f s).store.regions = s.store.regions := by
  unfold forEach
  generalize List.range n = l
  induction l generalizing s with
  | nil => rfl
  | cons a l ih => rw [List.foldl_cons, ih, h]
@[simp] theorem foldl_store_regions {α : Type} (l : List α) (f : State → α → State) (s : State) (h : ∀ s i, (f s i).store.regions = s.store.regions) : (l.foldl f s).store.regions = s.store.regions := by
  induction l generalizing s with
  | nil => rfl
  | cons a l ih => rw [List.foldl_cons, ih, h]
@[simp] theorem forZones_store_regions (f : Nat → State → State) (s : State) (h : ∀ i s, (f i s).store.regions = s.store.regions) : (s.forZones f).store.regions = s.store.regions := by
  unfold State.forZones; exact forEach_store_regions 4 f s h
@[simp] theorem forEach_store_pinHeld (n : Nat) (f : Nat → State → State) (s : State) (h : ∀ i s, (f i s).store.pinHeld = s.store.pinHeld) : (forEach n f s).store.pinHeld = s.store.pinHeld := by
  unfold forEach
  generalize List.range n = l
  induction l generalizing s with
  | nil => rfl
  | cons a l ih => rw [List.foldl_cons, ih, h]
@[simp] theorem foldl_store_pinHeld {α : Type} (l : List α) (f : State → α → State) (s : State) (h : ∀ s i, (f s i).store.pinHeld = s.store.pinHeld) : (l.foldl f s).store.pinHeld = s.store.pinHeld := by
  induction l generalizing s with
  | nil => rfl
  | cons a l ih => rw [List.foldl_cons, ih, h]
@[simp] theorem forZones_store_pinHeld (f : Nat → State → State) (s : State) (h : ∀ i s, (f i s).store.pinHeld = s.store.pinHeld) : (s.forZones f).store.pinHeld = s.store.pinHeld := by
  unfold State.forZones; exact forEach_store_pinHeld 4 f s h
@[simp] theorem forEach_store_retained (n : Nat) (f : Nat → State → State) (s : State) (h : ∀ i s, (f i s).store.retained = s.store.retained) : (forEach n f s).store.retained = s.store.retained := by
  unfold forEach
  generalize List.range n = l
  induction l generalizing s with
  | nil => rfl
  | cons a l ih => rw [List.foldl_cons, ih, h]
@[simp] theorem foldl_store_retained {α : Type} (l : List α) (f : State → α → State) (s : State) (h : ∀ s i, (f s i).store.retained = s.store.retained) : (l.foldl f s).store.retained = s.store.retained := by
  induction l generalizing s with
  | nil => rfl
  | cons a l ih => rw [List.foldl_cons, ih, h]
@[simp] theorem forZones_store_retained (f : Nat → State → State) (s : State) (h : ∀ i s, (f i s).store.retained = s.store.retained) : (s.forZones f).store.retained = s.store.retained := by
  unfold State.forZones; exact forEach_store_retained 4 f s h
@[simp] theorem forEach_store_retention (n : Nat) (f : Nat → State → State) (s : State) (h : ∀ i s, (f i s).store.retention = s.store.retention) : (forEach n f s).store.retention = s.store.retention := by
  unfold forEach
  generalize List.range n = l
  induction l generalizing s with
  | nil => rfl
  | cons a l ih => rw [List.foldl_cons, ih, h]
@[simp] theorem foldl_store_retention {α : Type} (l : List α) (f : State → α → State) (s : State) (h : ∀ s i, (f s i).store.retention = s.store.retention) : (l.foldl f s).store.retention = s.store.retention := by
  induction l generalizing s with
  | nil => rfl
  | cons a l ih => rw [List.foldl_cons, ih, h]
@[simp] theorem forZones_store_retention (f : Nat → State → State) (s : State) (h : ∀ i s, (f i s).store.retention = s.store.retention) : (s.forZones f).store.retention = s.store.retention := by
  unfold State.forZones; exact forEach_store_retention 4 f s h
@[simp] theorem forEach_store_frames (n : Nat) (f : Nat → State → State) (s : State) (h : ∀ i s, (f i s).store.frames = s.store.frames) : (forEach n f s).store.frames = s.store.frames := by
  unfold forEach
  generalize List.range n = l
  induction l generalizing s with
  | nil => rfl
  | cons a l ih => rw [List.foldl_cons, ih, h]
@[simp] theorem foldl_store_frames {α : Type} (l : List α) (f : State → α → State) (s : State) (h : ∀ s i, (f s i).store.frames = s.store.frames) : (l.foldl f s).store.frames = s.store.frames := by
  induction l generalizing s with
  | nil => rfl
  | cons a l ih => rw [List.foldl_cons, ih, h]
@[simp] theorem forZones_store_frames (f : Nat → State → State) (s : State) (h : ∀ i s, (f i s).store.frames = s.store.frames) : (s.forZones f).store.frames = s.store.frames := by
  unfold State.forZones; exact forEach_store_frames 4 f s h
@[simp] theorem forEach_store_refreshTick (n : Nat) (f : Nat → State → State) (s : State) (h : ∀ i s, (f i s).store.refreshTick = s.store.refreshTick) : (forEach n f s).store.refreshTick = s.store.refreshTick := by
  unfold forEach
  generalize List.range n = l
  induction l generalizing s with
  | nil => rfl
  | cons a l ih => rw [List.foldl_cons, ih, h]
@[simp] theorem foldl_store_refreshTick {α : Type} (l : List α) (f : State → α → State) (s : State) (h : ∀ s i, (f s i).store.refreshTick = s.store.refreshTick) : (l.foldl f s).store.refreshTick = s.store.refreshTick := by
  induction l generalizing s with
  | nil => rfl
  | cons a l ih => rw [List.foldl_cons, ih, h]
@[simp] theorem forZones_store_refreshTick (f : Nat → State → State) (s : State) (h : ∀ i s, (f i s).store.refreshTick = s.store.refreshTick) : (s.forZones f).store.refreshTick = s.store.refreshTick := by
  unfold State.forZones; exact forEach_store_refreshTick 4 f s h
@[simp] theorem forEach_store_lossEvents (n : Nat) (f : Nat → State → State) (s : State) (h : ∀ i s, (f i s).store.lossEvents = s.store.lossEvents) : (forEach n f s).store.lossEvents = s.store.lossEvents := by
  unfold forEach
  generalize List.range n = l
  induction l generalizing s with
  | nil => rfl
  | cons a l ih => rw [List.foldl_cons, ih, h]
@[simp] theorem foldl_store_lossEvents {α : Type} (l : List α) (f : State → α → State) (s : State) (h : ∀ s i, (f s i).store.lossEvents = s.store.lossEvents) : (l.foldl f s).store.lossEvents = s.store.lossEvents := by
  induction l generalizing s with
  | nil => rfl
  | cons a l ih => rw [List.foldl_cons, ih, h]
@[simp] theorem forZones_store_lossEvents (f : Nat → State → State) (s : State) (h : ∀ i s, (f i s).store.lossEvents = s.store.lossEvents) : (s.forZones f).store.lossEvents = s.store.lossEvents := by
  unfold State.forZones; exact forEach_store_lossEvents 4 f s h
@[simp] theorem forEach_member_station (n : Nat) (f : Nat → State → State) (s : State) (h : ∀ i s, (f i s).member.station = s.member.station) : (forEach n f s).member.station = s.member.station := by
  unfold forEach
  generalize List.range n = l
  induction l generalizing s with
  | nil => rfl
  | cons a l ih => rw [List.foldl_cons, ih, h]
@[simp] theorem foldl_member_station {α : Type} (l : List α) (f : State → α → State) (s : State) (h : ∀ s i, (f s i).member.station = s.member.station) : (l.foldl f s).member.station = s.member.station := by
  induction l generalizing s with
  | nil => rfl
  | cons a l ih => rw [List.foldl_cons, ih, h]
@[simp] theorem forZones_member_station (f : Nat → State → State) (s : State) (h : ∀ i s, (f i s).member.station = s.member.station) : (s.forZones f).member.station = s.member.station := by
  unfold State.forZones; exact forEach_member_station 4 f s h
@[simp] theorem forEach_member_cause (n : Nat) (f : Nat → State → State) (s : State) (h : ∀ i s, (f i s).member.cause = s.member.cause) : (forEach n f s).member.cause = s.member.cause := by
  unfold forEach
  generalize List.range n = l
  induction l generalizing s with
  | nil => rfl
  | cons a l ih => rw [List.foldl_cons, ih, h]
@[simp] theorem foldl_member_cause {α : Type} (l : List α) (f : State → α → State) (s : State) (h : ∀ s i, (f s i).member.cause = s.member.cause) : (l.foldl f s).member.cause = s.member.cause := by
  induction l generalizing s with
  | nil => rfl
  | cons a l ih => rw [List.foldl_cons, ih, h]
@[simp] theorem forZones_member_cause (f : Nat → State → State) (s : State) (h : ∀ i s, (f i s).member.cause = s.member.cause) : (s.forZones f).member.cause = s.member.cause := by
  unfold State.forZones; exact forEach_member_cause 4 f s h
@[simp] theorem forEach_host_response (n : Nat) (f : Nat → State → State) (s : State) (h : ∀ i s, (f i s).host.response = s.host.response) : (forEach n f s).host.response = s.host.response := by
  unfold forEach
  generalize List.range n = l
  induction l generalizing s with
  | nil => rfl
  | cons a l ih => rw [List.foldl_cons, ih, h]
@[simp] theorem foldl_host_response {α : Type} (l : List α) (f : State → α → State) (s : State) (h : ∀ s i, (f s i).host.response = s.host.response) : (l.foldl f s).host.response = s.host.response := by
  induction l generalizing s with
  | nil => rfl
  | cons a l ih => rw [List.foldl_cons, ih, h]
@[simp] theorem forZones_host_response (f : Nat → State → State) (s : State) (h : ∀ i s, (f i s).host.response = s.host.response) : (s.forZones f).host.response = s.host.response := by
  unfold State.forZones; exact forEach_host_response 4 f s h
@[simp] theorem forEach_host_shifted (n : Nat) (f : Nat → State → State) (s : State) (h : ∀ i s, (f i s).host.shifted = s.host.shifted) : (forEach n f s).host.shifted = s.host.shifted := by
  unfold forEach
  generalize List.range n = l
  induction l generalizing s with
  | nil => rfl
  | cons a l ih => rw [List.foldl_cons, ih, h]
@[simp] theorem foldl_host_shifted {α : Type} (l : List α) (f : State → α → State) (s : State) (h : ∀ s i, (f s i).host.shifted = s.host.shifted) : (l.foldl f s).host.shifted = s.host.shifted := by
  induction l generalizing s with
  | nil => rfl
  | cons a l ih => rw [List.foldl_cons, ih, h]
@[simp] theorem forZones_host_shifted (f : Nat → State → State) (s : State) (h : ∀ i s, (f i s).host.shifted = s.host.shifted) : (s.forZones f).host.shifted = s.host.shifted := by
  unfold State.forZones; exact forEach_host_shifted 4 f s h
@[simp] theorem forEach_host_stayAwake (n : Nat) (f : Nat → State → State) (s : State) (h : ∀ i s, (f i s).host.stayAwake = s.host.stayAwake) : (forEach n f s).host.stayAwake = s.host.stayAwake := by
  unfold forEach
  generalize List.range n = l
  induction l generalizing s with
  | nil => rfl
  | cons a l ih => rw [List.foldl_cons, ih, h]
@[simp] theorem foldl_host_stayAwake {α : Type} (l : List α) (f : State → α → State) (s : State) (h : ∀ s i, (f s i).host.stayAwake = s.host.stayAwake) : (l.foldl f s).host.stayAwake = s.host.stayAwake := by
  induction l generalizing s with
  | nil => rfl
  | cons a l ih => rw [List.foldl_cons, ih, h]
@[simp] theorem forZones_host_stayAwake (f : Nat → State → State) (s : State) (h : ∀ i s, (f i s).host.stayAwake = s.host.stayAwake) : (s.forZones f).host.stayAwake = s.host.stayAwake := by
  unfold State.forZones; exact forEach_host_stayAwake 4 f s h
@[simp] theorem forEach_startUp_record (n : Nat) (f : Nat → State → State) (s : State) (h : ∀ i s, (f i s).startUp.record = s.startUp.record) : (forEach n f s).startUp.record = s.startUp.record := by
  unfold forEach
  generalize List.range n = l
  induction l generalizing s with
  | nil => rfl
  | cons a l ih => rw [List.foldl_cons, ih, h]
@[simp] theorem foldl_startUp_record {α : Type} (l : List α) (f : State → α → State) (s : State) (h : ∀ s i, (f s i).startUp.record = s.startUp.record) : (l.foldl f s).startUp.record = s.startUp.record := by
  induction l generalizing s with
  | nil => rfl
  | cons a l ih => rw [List.foldl_cons, ih, h]
@[simp] theorem forZones_startUp_record (f : Nat → State → State) (s : State) (h : ∀ i s, (f i s).startUp.record = s.startUp.record) : (s.forZones f).startUp.record = s.startUp.record := by
  unfold State.forZones; exact forEach_startUp_record 4 f s h
@[simp] theorem forEach_startUp_reading (n : Nat) (f : Nat → State → State) (s : State) (h : ∀ i s, (f i s).startUp.reading = s.startUp.reading) : (forEach n f s).startUp.reading = s.startUp.reading := by
  unfold forEach
  generalize List.range n = l
  induction l generalizing s with
  | nil => rfl
  | cons a l ih => rw [List.foldl_cons, ih, h]
@[simp] theorem foldl_startUp_reading {α : Type} (l : List α) (f : State → α → State) (s : State) (h : ∀ s i, (f s i).startUp.reading = s.startUp.reading) : (l.foldl f s).startUp.reading = s.startUp.reading := by
  induction l generalizing s with
  | nil => rfl
  | cons a l ih => rw [List.foldl_cons, ih, h]
@[simp] theorem forZones_startUp_reading (f : Nat → State → State) (s : State) (h : ∀ i s, (f i s).startUp.reading = s.startUp.reading) : (s.forZones f).startUp.reading = s.startUp.reading := by
  unfold State.forZones; exact forEach_startUp_reading 4 f s h
@[simp] theorem forEach_tables_directory (n : Nat) (f : Nat → State → State) (s : State) (h : ∀ i s, (f i s).tables.directory = s.tables.directory) : (forEach n f s).tables.directory = s.tables.directory := by
  unfold forEach
  generalize List.range n = l
  induction l generalizing s with
  | nil => rfl
  | cons a l ih => rw [List.foldl_cons, ih, h]
@[simp] theorem foldl_tables_directory {α : Type} (l : List α) (f : State → α → State) (s : State) (h : ∀ s i, (f s i).tables.directory = s.tables.directory) : (l.foldl f s).tables.directory = s.tables.directory := by
  induction l generalizing s with
  | nil => rfl
  | cons a l ih => rw [List.foldl_cons, ih, h]
@[simp] theorem forZones_tables_directory (f : Nat → State → State) (s : State) (h : ∀ i s, (f i s).tables.directory = s.tables.directory) : (s.forZones f).tables.directory = s.tables.directory := by
  unfold State.forZones; exact forEach_tables_directory 4 f s h
@[simp] theorem forEach_tables_slots (n : Nat) (f : Nat → State → State) (s : State) (h : ∀ i s, (f i s).tables.slots = s.tables.slots) : (forEach n f s).tables.slots = s.tables.slots := by
  unfold forEach
  generalize List.range n = l
  induction l generalizing s with
  | nil => rfl
  | cons a l ih => rw [List.foldl_cons, ih, h]
@[simp] theorem foldl_tables_slots {α : Type} (l : List α) (f : State → α → State) (s : State) (h : ∀ s i, (f s i).tables.slots = s.tables.slots) : (l.foldl f s).tables.slots = s.tables.slots := by
  induction l generalizing s with
  | nil => rfl
  | cons a l ih => rw [List.foldl_cons, ih, h]
@[simp] theorem forZones_tables_slots (f : Nat → State → State) (s : State) (h : ∀ i s, (f i s).tables.slots = s.tables.slots) : (s.forZones f).tables.slots = s.tables.slots := by
  unfold State.forZones; exact forEach_tables_slots 4 f s h
@[simp] theorem forEach_tables_calls (n : Nat) (f : Nat → State → State) (s : State) (h : ∀ i s, (f i s).tables.calls = s.tables.calls) : (forEach n f s).tables.calls = s.tables.calls := by
  unfold forEach
  generalize List.range n = l
  induction l generalizing s with
  | nil => rfl
  | cons a l ih => rw [List.foldl_cons, ih, h]
@[simp] theorem foldl_tables_calls {α : Type} (l : List α) (f : State → α → State) (s : State) (h : ∀ s i, (f s i).tables.calls = s.tables.calls) : (l.foldl f s).tables.calls = s.tables.calls := by
  induction l generalizing s with
  | nil => rfl
  | cons a l ih => rw [List.foldl_cons, ih, h]
@[simp] theorem forZones_tables_calls (f : Nat → State → State) (s : State) (h : ∀ i s, (f i s).tables.calls = s.tables.calls) : (s.forZones f).tables.calls = s.tables.calls := by
  unfold State.forZones; exact forEach_tables_calls 4 f s h
@[simp] theorem forEach_tables_frameCount (n : Nat) (f : Nat → State → State) (s : State) (h : ∀ i s, (f i s).tables.frameCount = s.tables.frameCount) : (forEach n f s).tables.frameCount = s.tables.frameCount := by
  unfold forEach
  generalize List.range n = l
  induction l generalizing s with
  | nil => rfl
  | cons a l ih => rw [List.foldl_cons, ih, h]
@[simp] theorem foldl_tables_frameCount {α : Type} (l : List α) (f : State → α → State) (s : State) (h : ∀ s i, (f s i).tables.frameCount = s.tables.frameCount) : (l.foldl f s).tables.frameCount = s.tables.frameCount := by
  induction l generalizing s with
  | nil => rfl
  | cons a l ih => rw [List.foldl_cons, ih, h]
@[simp] theorem forZones_tables_frameCount (f : Nat → State → State) (s : State) (h : ∀ i s, (f i s).tables.frameCount = s.tables.frameCount) : (s.forZones f).tables.frameCount = s.tables.frameCount := by
  unfold State.forZones; exact forEach_tables_frameCount 4 f s h
@[simp] theorem forEach_announce_clips (n : Nat) (f : Nat → State → State) (s : State) (h : ∀ i s, (f i s).announce.clips = s.announce.clips) : (forEach n f s).announce.clips = s.announce.clips := by
  unfold forEach
  generalize List.range n = l
  induction l generalizing s with
  | nil => rfl
  | cons a l ih => rw [List.foldl_cons, ih, h]
@[simp] theorem foldl_announce_clips {α : Type} (l : List α) (f : State → α → State) (s : State) (h : ∀ s i, (f s i).announce.clips = s.announce.clips) : (l.foldl f s).announce.clips = s.announce.clips := by
  induction l generalizing s with
  | nil => rfl
  | cons a l ih => rw [List.foldl_cons, ih, h]
@[simp] theorem forZones_announce_clips (f : Nat → State → State) (s : State) (h : ∀ i s, (f i s).announce.clips = s.announce.clips) : (s.forZones f).announce.clips = s.announce.clips := by
  unfold State.forZones; exact forEach_announce_clips 4 f s h
@[simp] theorem forEach_announce_channels (n : Nat) (f : Nat → State → State) (s : State) (h : ∀ i s, (f i s).announce.channels = s.announce.channels) : (forEach n f s).announce.channels = s.announce.channels := by
  unfold forEach
  generalize List.range n = l
  induction l generalizing s with
  | nil => rfl
  | cons a l ih => rw [List.foldl_cons, ih, h]
@[simp] theorem foldl_announce_channels {α : Type} (l : List α) (f : State → α → State) (s : State) (h : ∀ s i, (f s i).announce.channels = s.announce.channels) : (l.foldl f s).announce.channels = s.announce.channels := by
  induction l generalizing s with
  | nil => rfl
  | cons a l ih => rw [List.foldl_cons, ih, h]
@[simp] theorem forZones_announce_channels (f : Nat → State → State) (s : State) (h : ∀ i s, (f i s).announce.channels = s.announce.channels) : (s.forZones f).announce.channels = s.announce.channels := by
  unfold State.forZones; exact forEach_announce_channels 4 f s h
@[simp] theorem forEach_announce_plays (n : Nat) (f : Nat → State → State) (s : State) (h : ∀ i s, (f i s).announce.plays = s.announce.plays) : (forEach n f s).announce.plays = s.announce.plays := by
  unfold forEach
  generalize List.range n = l
  induction l generalizing s with
  | nil => rfl
  | cons a l ih => rw [List.foldl_cons, ih, h]
@[simp] theorem foldl_announce_plays {α : Type} (l : List α) (f : State → α → State) (s : State) (h : ∀ s i, (f s i).announce.plays = s.announce.plays) : (l.foldl f s).announce.plays = s.announce.plays := by
  induction l generalizing s with
  | nil => rfl
  | cons a l ih => rw [List.foldl_cons, ih, h]
@[simp] theorem forZones_announce_plays (f : Nat → State → State) (s : State) (h : ∀ i s, (f i s).announce.plays = s.announce.plays) : (s.forZones f).announce.plays = s.announce.plays := by
  unfold State.forZones; exact forEach_announce_plays 4 f s h
@[simp] theorem forEach_follower_state (n : Nat) (f : Nat → State → State) (s : State) (h : ∀ i s, (f i s).follower.state = s.follower.state) : (forEach n f s).follower.state = s.follower.state := by
  unfold forEach
  generalize List.range n = l
  induction l generalizing s with
  | nil => rfl
  | cons a l ih => rw [List.foldl_cons, ih, h]
@[simp] theorem foldl_follower_state {α : Type} (l : List α) (f : State → α → State) (s : State) (h : ∀ s i, (f s i).follower.state = s.follower.state) : (l.foldl f s).follower.state = s.follower.state := by
  induction l generalizing s with
  | nil => rfl
  | cons a l ih => rw [List.foldl_cons, ih, h]
@[simp] theorem forZones_follower_state (f : Nat → State → State) (s : State) (h : ∀ i s, (f i s).follower.state = s.follower.state) : (s.forZones f).follower.state = s.follower.state := by
  unfold State.forZones; exact forEach_follower_state 4 f s h
@[simp] theorem forEach_note_outbound (n : Nat) (f : Nat → State → State) (s : State) (h : ∀ i s, (f i s).note.outbound = s.note.outbound) : (forEach n f s).note.outbound = s.note.outbound := by
  unfold forEach
  generalize List.range n = l
  induction l generalizing s with
  | nil => rfl
  | cons a l ih => rw [List.foldl_cons, ih, h]
@[simp] theorem foldl_note_outbound {α : Type} (l : List α) (f : State → α → State) (s : State) (h : ∀ s i, (f s i).note.outbound = s.note.outbound) : (l.foldl f s).note.outbound = s.note.outbound := by
  induction l generalizing s with
  | nil => rfl
  | cons a l ih => rw [List.foldl_cons, ih, h]
@[simp] theorem forZones_note_outbound (f : Nat → State → State) (s : State) (h : ∀ i s, (f i s).note.outbound = s.note.outbound) : (s.forZones f).note.outbound = s.note.outbound := by
  unfold State.forZones; exact forEach_note_outbound 4 f s h
@[simp] theorem forEach_note_box (n : Nat) (f : Nat → State → State) (s : State) (h : ∀ i s, (f i s).note.box = s.note.box) : (forEach n f s).note.box = s.note.box := by
  unfold forEach
  generalize List.range n = l
  induction l generalizing s with
  | nil => rfl
  | cons a l ih => rw [List.foldl_cons, ih, h]
@[simp] theorem foldl_note_box {α : Type} (l : List α) (f : State → α → State) (s : State) (h : ∀ s i, (f s i).note.box = s.note.box) : (l.foldl f s).note.box = s.note.box := by
  induction l generalizing s with
  | nil => rfl
  | cons a l ih => rw [List.foldl_cons, ih, h]
@[simp] theorem forZones_note_box (f : Nat → State → State) (s : State) (h : ∀ i s, (f i s).note.box = s.note.box) : (s.forZones f).note.box = s.note.box := by
  unfold State.forZones; exact forEach_note_box 4 f s h
@[simp] theorem LineTables.restartCompleteness_frameCount (t : LineTables)  : (t.restartCompleteness ).frameCount = t.frameCount := rfl
@[simp] theorem LineTables.restartCompleteness_directory (t : LineTables)  : (t.restartCompleteness ).directory = t.directory := rfl
@[simp] theorem LineTables.restartCompleteness_slots (t : LineTables)  : (t.restartCompleteness ).slots = t.slots := rfl
@[simp] theorem LineTables.restartCompleteness_calls (t : LineTables)  : (t.restartCompleteness ).calls = t.calls := rfl
@[simp] theorem LineTables.onStation_frameCount (t : LineTables) (n : Nat) (f : RosterEntry → RosterEntry) : (t.onStation n f).frameCount = t.frameCount := rfl
@[simp] theorem LineTables.onStation_directory (t : LineTables) (n : Nat) (f : RosterEntry → RosterEntry) : (t.onStation n f).directory = t.directory := rfl
@[simp] theorem LineTables.onStation_slots (t : LineTables) (n : Nat) (f : RosterEntry → RosterEntry) : (t.onStation n f).slots = t.slots := rfl
@[simp] theorem LineTables.onStation_calls (t : LineTables) (n : Nat) (f : RosterEntry → RosterEntry) : (t.onStation n f).calls = t.calls := rfl
@[simp] theorem LineTables.setStation_frameCount (t : LineTables) (n : Nat) (e : RosterEntry) : (t.setStation n e).frameCount = t.frameCount := rfl
@[simp] theorem LineTables.setStation_directory (t : LineTables) (n : Nat) (e : RosterEntry) : (t.setStation n e).directory = t.directory := rfl
@[simp] theorem LineTables.setStation_slots (t : LineTables) (n : Nat) (e : RosterEntry) : (t.setStation n e).slots = t.slots := rfl
@[simp] theorem LineTables.setStation_calls (t : LineTables) (n : Nat) (e : RosterEntry) : (t.setStation n e).calls = t.calls := rfl
@[simp] theorem LineTables.setEntry_frameCount (t : LineTables) (x : Nat) (e : StreamEntry) : (t.setEntry x e).frameCount = t.frameCount := rfl
@[simp] theorem LineTables.setEntry_roster (t : LineTables) (x : Nat) (e : StreamEntry) : (t.setEntry x e).roster = t.roster := rfl
@[simp] theorem LineTables.setEntry_slots (t : LineTables) (x : Nat) (e : StreamEntry) : (t.setEntry x e).slots = t.slots := rfl
@[simp] theorem LineTables.setEntry_calls (t : LineTables) (x : Nat) (e : StreamEntry) : (t.setEntry x e).calls = t.calls := rfl
@[simp] theorem LineTables.setCall_frameCount (t : LineTables) (j : Nat) (c : CallRecord) : (t.setCall j c).frameCount = t.frameCount := rfl
@[simp] theorem LineTables.setCall_roster (t : LineTables) (j : Nat) (c : CallRecord) : (t.setCall j c).roster = t.roster := rfl
@[simp] theorem LineTables.setCall_directory (t : LineTables) (j : Nat) (c : CallRecord) : (t.setCall j c).directory = t.directory := rfl
@[simp] theorem LineTables.setCall_slots (t : LineTables) (j : Nat) (c : CallRecord) : (t.setCall j c).slots = t.slots := rfl
@[simp] theorem LineTables.cleared_frameCount (t : LineTables) : t.cleared.frameCount = t.frameCount := rfl
theorem forEach_keeps {α : Type} (g : State → α) (n : Nat) (f : Nat → State → State) (s : State)
    (h : ∀ i t, g (f i t) = g t) : g (forEach n f s) = g s := by
  unfold forEach
  generalize List.range n = l
  induction l generalizing s with
  | nil => rfl
  | cons a l ih => rw [List.foldl_cons, ih, h]
@[simp] theorem State.refuse_state (s : State) (status : Status) : (s.refuse status).1 = s := rfl
@[simp] theorem State.tellHost_state (s : State) (results : List Byte) : (s.tellHost results).1 = s := rfl
@[simp] theorem plain_state (a : State × Status) : (plain a).1 = a.1 := rfl

end Sys2Proof.Machine
end

