-- ==== Sys2Proof/Laws/Store.lean ====
section
/-! SUPPORT. What the operations of the sample store controller leave alone: the words, the plan, the retained banks, retention and
the pin. -/

namespace Sys2Proof.Machine

/-- What the arbiter and the queues never touch: the words, the plan and the pin. -/
def Store.kept (st : Store) : Memory × List Region × BitVec 8 × Bool × Bool :=
  (st.memory, st.regions, st.retained, st.retention, st.pinHeld)

@[simp] theorem Store.onBank_kept (st : Store) (b : Nat) (f : Bank → Bank) : (st.onBank b f).kept = st.kept := rfl
@[simp] theorem Store.onQueue_kept (st : Store) (q : QueueId) (f : List Request → List Request) :
    (st.onQueue q f).kept = st.kept := rfl
@[simp] theorem Store.beginBurst_kept (st : Store) (b : Nat) (q : QueueId) : (st.beginBurst b q).kept = st.kept := rfl
@[simp] theorem Store.beginClose_kept (st : Store) (b : Nat) : (st.beginClose b).kept = st.kept := rfl
@[simp] theorem Store.grantOpen_kept (st : Store) (b row : Nat) : (st.grantOpen b row).kept = st.kept := rfl
@[simp] theorem Store.grantRefresh_kept (st : Store) (b : Nat) : (st.grantRefresh b).kept = st.kept := rfl
@[simp] theorem Store.urgentStep_kept (st : Store) (b : Nat) : (st.urgentStep b).1.kept = st.kept := by
  unfold Store.urgentStep; repeat' split
  all_goals first | rfl | simp
@[simp] theorem Store.ordinaryStep_kept (st : Store) (b : Nat) : (st.ordinaryStep b).1.kept = st.kept := by
  unfold Store.ordinaryStep; repeat' split
  all_goals first | rfl | simp
@[simp] theorem Store.headStep_kept (st : Store) (q : QueueId) (b row : Nat) :
    (st.headStep q b row).1.kept = st.kept := by
  unfold Store.headStep; repeat' split
  all_goals first | rfl | simp
theorem claim_kept (b : Nat) (f : Store → Store × Bool) (a : Arbitration) (h : ∀ st, (f st).1.kept = st.kept) :
    (claim b f a).1.kept = a.1.kept := by
  unfold claim; split
  · rfl
  · exact h _
theorem claimHead_kept (q : QueueId) (a : Arbitration) : (claimHead q a).1.kept = a.1.kept := by
  unfold claimHead; repeat' split
  all_goals first | rfl | (apply claim_kept; intro st; simp)
theorem foldl_kept {α : Type} (f : Arbitration → α → Arbitration) (h : ∀ a x, (f a x).1.kept = a.1.kept) :
    ∀ (l : List α) (a : Arbitration), (l.foldl f a).1.kept = a.1.kept
  | [], _ => rfl
  | x :: l, a => by rw [List.foldl_cons, foldl_kept f h l, h]
@[simp] theorem Store.arbitrate_kept (st : Store) : st.arbitrate.kept = st.kept := by
  unfold Store.arbitrate
  split
  · rfl
  · dsimp only
    rw [claimHead_kept, foldl_kept, foldl_kept, foldl_kept]
    · intro a b; exact claim_kept _ _ _ (fun st => by simp)
    · intro a q; exact claimHead_kept q a
    · intro a b; exact claim_kept _ _ _ (fun st => by simp)
@[simp] theorem Store.arbitrate_frame (st : Store) :
    (st.arbitrate).memory = st.memory ∧ (st.arbitrate).regions = st.regions ∧ (st.arbitrate).retained = st.retained ∧
    (st.arbitrate).retention = st.retention ∧ (st.arbitrate).pinHeld = st.pinHeld := by
  have h := Store.arbitrate_kept st; simpa [Store.kept] using h
@[simp] theorem Store.enqueue_frame (st : Store) (r : Request) :
    (st.enqueue r).memory = st.memory ∧ (st.enqueue r).regions = st.regions ∧ (st.enqueue r).retained = st.retained ∧
    (st.enqueue r).retention = st.retention ∧ (st.enqueue r).pinHeld = st.pinHeld := by
  unfold Store.enqueue; dsimp only; split
  · exact ⟨by simp; rfl, by simp; rfl, by simp; rfl, by simp; rfl, by simp; rfl⟩
  · exact ⟨rfl, rfl, rfl, rfl, rfl⟩
@[simp] theorem Store.newFrame_frame (st : Store) :
    (st.newFrame).memory = st.memory ∧ (st.newFrame).regions = st.regions ∧ (st.newFrame).retained = st.retained ∧
    (st.newFrame).retention = st.retention ∧ (st.newFrame).pinHeld = st.pinHeld := by
  exact ⟨rfl, rfl, rfl, rfl, rfl⟩
@[simp] theorem Store.withdraw_frame (st : Store) :
    (st.withdraw).memory = st.memory ∧ (st.withdraw).regions = st.regions ∧ (st.withdraw).retained = st.retained ∧
    (st.withdraw).retention = st.retention ∧ (st.withdraw).pinHeld = st.pinHeld := by
  exact ⟨rfl, rfl, rfl, rfl, rfl⟩
@[simp] theorem Store.completeOpen_frame (st : Store) (b : Nat) :
    (st.completeOpen b).memory = st.memory ∧ (st.completeOpen b).regions = st.regions ∧ (st.completeOpen b).retained = st.retained ∧
    (st.completeOpen b).retention = st.retention ∧ (st.completeOpen b).pinHeld = st.pinHeld := by
  unfold Store.completeOpen; split
  · simp [Store.onBank]
  · simp
@[simp] theorem Store.completeClose_frame (st : Store) (b : Nat) :
    (st.completeClose b).memory = st.memory ∧ (st.completeClose b).regions = st.regions ∧ (st.completeClose b).retained = st.retained ∧
    (st.completeClose b).retention = st.retention ∧ (st.completeClose b).pinHeld = st.pinHeld := by
  unfold Store.completeClose; split
  · simp [Store.onBank]
  · simp
@[simp] theorem Store.completeRefresh_frame (st : Store) (b : Nat) :
    (st.completeRefresh b).memory = st.memory ∧ (st.completeRefresh b).regions = st.regions ∧ (st.completeRefresh b).retained = st.retained ∧
    (st.completeRefresh b).retention = st.retention ∧ (st.completeRefresh b).pinHeld = st.pinHeld := by
  unfold Store.completeRefresh; split
  · simp [Store.onBank]
  · simp
theorem foldl_store_kept {α : Type} (f : Store → α → Store) (h : ∀ st x, (f st x).kept = st.kept) :
    ∀ (l : List α) (st : Store), (l.foldl f st).kept = st.kept
  | [], _ => rfl
  | x :: l, st => by rw [List.foldl_cons, foldl_store_kept f h l, h]
@[simp] theorem Store.riseDebts_kept (st : Store) : st.riseDebts.kept = st.kept := by
  have h := foldl_store_kept (fun (acc : Store) (b : Nat) =>
    { acc.onBank b (fun k => { k with loss := some acc.lossEvents, rewritten := [] }) with
      lossEvents := acc.lossEvents + 1, overdue := min 65535 (acc.overdue + 1) }) (fun _ _ => rfl)
      st.reachingOverdue st
  exact h
@[simp] theorem Store.riseDebts_frame (st : Store) :
    (st.riseDebts).memory = st.memory ∧ (st.riseDebts).regions = st.regions ∧ (st.riseDebts).retained = st.retained ∧
    (st.riseDebts).retention = st.retention ∧ (st.riseDebts).pinHeld = st.pinHeld := by
  have h := Store.riseDebts_kept st; simpa [Store.kept] using h

end Sys2Proof.Machine
end

