-- ==== Sys2Proof/Laws/FramesOps.lean ====
section
/-! SUPPORT. Frames: what each operation of the shared operations leaves alone, one lemma for an operation. -/

namespace Sys2Proof.Machine

set_option maxRecDepth 20000

@[simp] theorem raise_frame (kind : EventKind) (subject : List Nat) (cause : Option Cause) (s : State) :
    (raise kind subject cause s).pending = s.pending ∧ (raise kind subject cause s).localCount = s.localCount ∧
    (raise kind subject cause s).line = s.line ∧ (raise kind subject cause s).tables = s.tables ∧
    (raise kind subject cause s).member = s.member ∧ (raise kind subject cause s).follower = s.follower ∧
    (raise kind subject cause s).ports = s.ports ∧ (raise kind subject cause s).store = s.store ∧
    (raise kind subject cause s).mixer = s.mixer ∧ (raise kind subject cause s).announce = s.announce ∧
    (raise kind subject cause s).blend = s.blend ∧ (raise kind subject cause s).call = s.call ∧
    (raise kind subject cause s).note = s.note ∧ (raise kind subject cause s).startUp = s.startUp ∧
    (raise kind subject cause s).host.response = s.host.response ∧
    (raise kind subject cause s).host.shifted = s.host.shifted ∧
    (raise kind subject cause s).host.stayAwake = s.host.stayAwake := by
  refine ⟨?_, ?_, ?_, ?_, ?_, ?_, ?_, ?_, ?_, ?_, ?_, ?_, ?_, ?_, ?_, ?_, ?_⟩ <;>
  first
  | (unfold raise; first | (with_reducible rfl) | (simp; done))
  | (unfold raise; (try dsimp only); (repeat' split) <;> first | (with_reducible rfl) | (simp; done) | (simp_all; done))

end Sys2Proof.Machine
end

