-- ==== Sys2Proof/Laws/FramesStoreClients.lean ====
section
/-! SUPPORT. Frames: what each operation of requests to the store and their ends leaves alone, one lemma for an operation. -/

namespace Sys2Proof.Machine

set_option maxRecDepth 20000

@[simp] theorem State.onPath_frame (s : State) (pair : Nat) (f : OutputPath → OutputPath) :
    (State.onPath s pair f).pending = s.pending ∧ (State.onPath s pair f).localCount = s.localCount ∧
    (State.onPath s pair f).line = s.line ∧ (State.onPath s pair f).tables = s.tables ∧
    (State.onPath s pair f).member = s.member ∧ (State.onPath s pair f).follower = s.follower ∧
    (State.onPath s pair f).ports = s.ports ∧ (State.onPath s pair f).store = s.store ∧
    (State.onPath s pair f).announce = s.announce ∧ (State.onPath s pair f).blend = s.blend ∧
    (State.onPath s pair f).call = s.call ∧ (State.onPath s pair f).note = s.note ∧
    (State.onPath s pair f).host = s.host ∧ (State.onPath s pair f).startUp = s.startUp := by
  refine ⟨?_, ?_, ?_, ?_, ?_, ?_, ?_, ?_, ?_, ?_, ?_, ?_, ?_, ?_⟩ <;>
  first
  | (unfold State.onPath; first | (with_reducible rfl) | (simp; done))
  | (unfold State.onPath; (try dsimp only); (repeat' split) <;> first | (with_reducible rfl) | (simp; done) | (simp_all; done))

@[simp] theorem State.settleBlendRead_frame (s : State) (tap group : Nat) (right : Bool) (part : Part) :
    (State.settleBlendRead s tap group right part).pending = s.pending ∧
    (State.settleBlendRead s tap group right part).localCount = s.localCount ∧
    (State.settleBlendRead s tap group right part).line = s.line ∧
    (State.settleBlendRead s tap group right part).tables = s.tables ∧
    (State.settleBlendRead s tap group right part).member = s.member ∧
    (State.settleBlendRead s tap group right part).follower = s.follower ∧
    (State.settleBlendRead s tap group right part).ports = s.ports ∧
    (State.settleBlendRead s tap group right part).store = s.store ∧
    (State.settleBlendRead s tap group right part).mixer = s.mixer ∧
    (State.settleBlendRead s tap group right part).announce = s.announce ∧
    (State.settleBlendRead s tap group right part).call = s.call ∧
    (State.settleBlendRead s tap group right part).note = s.note ∧
    (State.settleBlendRead s tap group right part).host = s.host ∧
    (State.settleBlendRead s tap group right part).startUp = s.startUp := by
  refine ⟨?_, ?_, ?_, ?_, ?_, ?_, ?_, ?_, ?_, ?_, ?_, ?_, ?_, ?_⟩ <;>
  first
  | (unfold State.settleBlendRead; first | (with_reducible rfl) | (simp; done))
  | (unfold State.settleBlendRead; (try dsimp only); (repeat' split) <;> first | (with_reducible rfl) | (simp; done) | (simp_all; done))

@[simp] theorem State.settleEchoRead_frame (s : State) (ring group : Nat) (part : Part) :
    (State.settleEchoRead s ring group part).pending = s.pending ∧
    (State.settleEchoRead s ring group part).localCount = s.localCount ∧
    (State.settleEchoRead s ring group part).line = s.line ∧
    (State.settleEchoRead s ring group part).tables = s.tables ∧
    (State.settleEchoRead s ring group part).member = s.member ∧
    (State.settleEchoRead s ring group part).follower = s.follower ∧
    (State.settleEchoRead s ring group part).ports = s.ports ∧
    (State.settleEchoRead s ring group part).store = s.store ∧
    (State.settleEchoRead s ring group part).mixer = s.mixer ∧
    (State.settleEchoRead s ring group part).announce = s.announce ∧
    (State.settleEchoRead s ring group part).blend = s.blend ∧
    (State.settleEchoRead s ring group part).note = s.note ∧ (State.settleEchoRead s ring group part).host = s.host ∧
    (State.settleEchoRead s ring group part).startUp = s.startUp := by
  refine ⟨?_, ?_, ?_, ?_, ?_, ?_, ?_, ?_, ?_, ?_, ?_, ?_, ?_, ?_⟩ <;>
  first
  | (unfold State.settleEchoRead; first | (with_reducible rfl) | (simp; done))
  | (unfold State.settleEchoRead; (try dsimp only); (repeat' split) <;> first | (with_reducible rfl) | (simp; done) | (simp_all; done))

@[simp] theorem State.settleClipRead_frame (s : State) (play repetition group : Nat) (part : Part) :
    (State.settleClipRead s play repetition group part).pending = s.pending ∧
    (State.settleClipRead s play repetition group part).localCount = s.localCount ∧
    (State.settleClipRead s play repetition group part).line = s.line ∧
    (State.settleClipRead s play repetition group part).tables = s.tables ∧
    (State.settleClipRead s play repetition group part).member = s.member ∧
    (State.settleClipRead s play repetition group part).follower = s.follower ∧
    (State.settleClipRead s play repetition group part).ports = s.ports ∧
    (State.settleClipRead s play repetition group part).store = s.store ∧
    (State.settleClipRead s play repetition group part).mixer = s.mixer ∧
    (State.settleClipRead s play repetition group part).blend = s.blend ∧
    (State.settleClipRead s play repetition group part).call = s.call ∧
    (State.settleClipRead s play repetition group part).note = s.note ∧
    (State.settleClipRead s play repetition group part).host = s.host ∧
    (State.settleClipRead s play repetition group part).startUp = s.startUp ∧
    (State.settleClipRead s play repetition group part).announce.clips = s.announce.clips ∧
    (State.settleClipRead s play repetition group part).announce.channels = s.announce.channels := by
  refine ⟨?_, ?_, ?_, ?_, ?_, ?_, ?_, ?_, ?_, ?_, ?_, ?_, ?_, ?_, ?_, ?_⟩ <;>
  first
  | (unfold State.settleClipRead; first | (with_reducible rfl) | (simp; done))
  | (unfold State.settleClipRead; (try dsimp only); (repeat' split) <;> first | (with_reducible rfl) | (simp; done) | (simp_all; done))

@[simp] theorem State.settleClipWrite_frame (s : State) (load words : Nat) :
    (State.settleClipWrite s load words).pending = s.pending ∧
    (State.settleClipWrite s load words).localCount = s.localCount ∧
    (State.settleClipWrite s load words).line = s.line ∧ (State.settleClipWrite s load words).tables = s.tables ∧
    (State.settleClipWrite s load words).member = s.member ∧
    (State.settleClipWrite s load words).follower = s.follower ∧
    (State.settleClipWrite s load words).ports = s.ports ∧ (State.settleClipWrite s load words).store = s.store ∧
    (State.settleClipWrite s load words).mixer = s.mixer ∧ (State.settleClipWrite s load words).blend = s.blend ∧
    (State.settleClipWrite s load words).call = s.call ∧ (State.settleClipWrite s load words).note = s.note ∧
    (State.settleClipWrite s load words).host = s.host ∧ (State.settleClipWrite s load words).startUp = s.startUp ∧
    (State.settleClipWrite s load words).announce.channels = s.announce.channels ∧
    (State.settleClipWrite s load words).announce.plays = s.announce.plays := by
  refine ⟨?_, ?_, ?_, ?_, ?_, ?_, ?_, ?_, ?_, ?_, ?_, ?_, ?_, ?_, ?_, ?_⟩ <;>
  first
  | (unfold State.settleClipWrite; first | (with_reducible rfl) | (simp; done))
  | (unfold State.settleClipWrite; (try dsimp only); (repeat' split) <;> first | (with_reducible rfl) | (simp; done) | (simp_all; done))

@[simp] theorem State.freezeForGap_frame (s : State) :
    (State.freezeForGap s).pending = s.pending ∧ (State.freezeForGap s).localCount = s.localCount ∧
    (State.freezeForGap s).line = s.line ∧ (State.freezeForGap s).tables = s.tables ∧
    (State.freezeForGap s).member = s.member ∧ (State.freezeForGap s).follower = s.follower ∧
    (State.freezeForGap s).ports = s.ports ∧ (State.freezeForGap s).store = s.store ∧
    (State.freezeForGap s).mixer = s.mixer ∧ (State.freezeForGap s).announce = s.announce ∧
    (State.freezeForGap s).blend = s.blend ∧ (State.freezeForGap s).note = s.note ∧
    (State.freezeForGap s).host = s.host ∧ (State.freezeForGap s).startUp = s.startUp := by
  refine ⟨?_, ?_, ?_, ?_, ?_, ?_, ?_, ?_, ?_, ?_, ?_, ?_, ?_, ?_⟩ <;>
  first
  | (unfold State.freezeForGap; first | (with_reducible rfl) | (simp; done))
  | (unfold State.freezeForGap; (try dsimp only); (repeat' split) <;> first | (with_reducible rfl) | (simp; done) | (simp_all; done))

@[simp] theorem State.takeServed_frame (s : State) (r : Request) (words : List Sample) :
    (State.takeServed s r words).pending = s.pending ∧ (State.takeServed s r words).localCount = s.localCount ∧
    (State.takeServed s r words).line = s.line ∧ (State.takeServed s r words).tables = s.tables ∧
    (State.takeServed s r words).member = s.member ∧ (State.takeServed s r words).follower = s.follower ∧
    (State.takeServed s r words).ports = s.ports ∧ (State.takeServed s r words).store = s.store ∧
    (State.takeServed s r words).note = s.note ∧ (State.takeServed s r words).host = s.host ∧
    (State.takeServed s r words).startUp = s.startUp ∧
    (State.takeServed s r words).announce.channels = s.announce.channels := by
  refine ⟨?_, ?_, ?_, ?_, ?_, ?_, ?_, ?_, ?_, ?_, ?_, ?_⟩ <;>
  first
  | (unfold State.takeServed; first | (with_reducible rfl) | (simp; done))
  | (unfold State.takeServed; (try dsimp only); (repeat' split) <;> first | (with_reducible rfl) | (simp; done) | (simp_all; done))

@[simp] theorem State.takeGap_frame (s : State) (r : Request) :
    (State.takeGap s r).pending = s.pending ∧ (State.takeGap s r).localCount = s.localCount ∧
    (State.takeGap s r).line = s.line ∧ (State.takeGap s r).tables = s.tables ∧
    (State.takeGap s r).member = s.member ∧ (State.takeGap s r).follower = s.follower ∧
    (State.takeGap s r).ports = s.ports ∧ (State.takeGap s r).store = s.store ∧ (State.takeGap s r).note = s.note ∧
    (State.takeGap s r).host = s.host ∧ (State.takeGap s r).startUp = s.startUp ∧
    (State.takeGap s r).announce.clips = s.announce.clips ∧
    (State.takeGap s r).announce.channels = s.announce.channels := by
  refine ⟨?_, ?_, ?_, ?_, ?_, ?_, ?_, ?_, ?_, ?_, ?_, ?_, ?_⟩ <;>
  first
  | (unfold State.takeGap; first | (with_reducible rfl) | (simp; done))
  | (unfold State.takeGap; (try dsimp only); (repeat' split) <;> first | (with_reducible rfl) | (simp; done) | (simp_all; done))

@[simp] theorem State.endRequest_frame (s : State) (r : Request) (e : RequestEnd) :
    (State.endRequest s r e).pending = s.pending ∧ (State.endRequest s r e).localCount = s.localCount ∧
    (State.endRequest s r e).line = s.line ∧ (State.endRequest s r e).tables = s.tables ∧
    (State.endRequest s r e).member = s.member ∧ (State.endRequest s r e).follower = s.follower ∧
    (State.endRequest s r e).ports = s.ports ∧ (State.endRequest s r e).note = s.note ∧
    (State.endRequest s r e).startUp = s.startUp ∧ (State.endRequest s r e).host.response = s.host.response ∧
    (State.endRequest s r e).host.shifted = s.host.shifted ∧
    (State.endRequest s r e).host.stayAwake = s.host.stayAwake ∧
    (State.endRequest s r e).announce.channels = s.announce.channels ∧
    (State.endRequest s r e).store.memory = s.store.memory ∧
    (State.endRequest s r e).store.regions = s.store.regions ∧
    (State.endRequest s r e).store.retained = s.store.retained ∧
    (State.endRequest s r e).store.retention = s.store.retention ∧
    (State.endRequest s r e).store.pinHeld = s.store.pinHeld := by
  refine ⟨?_, ?_, ?_, ?_, ?_, ?_, ?_, ?_, ?_, ?_, ?_, ?_, ?_, ?_, ?_, ?_, ?_, ?_⟩ <;>
  first
  | (unfold State.endRequest; first | (with_reducible rfl) | (simp; done))
  | (unfold State.endRequest; (try dsimp only); (repeat' split) <;> first | (with_reducible rfl) | (simp; done) | (simp_all; done))

@[simp] theorem State.request_frame (s : State) (r : Request) :
    (State.request s r).pending = s.pending ∧ (State.request s r).localCount = s.localCount ∧
    (State.request s r).line = s.line ∧ (State.request s r).tables = s.tables ∧
    (State.request s r).member = s.member ∧ (State.request s r).follower = s.follower ∧
    (State.request s r).ports = s.ports ∧ (State.request s r).note = s.note ∧
    (State.request s r).startUp = s.startUp ∧ (State.request s r).host.response = s.host.response ∧
    (State.request s r).host.shifted = s.host.shifted ∧ (State.request s r).host.stayAwake = s.host.stayAwake ∧
    (State.request s r).announce.channels = s.announce.channels ∧ (State.request s r).store.memory = s.store.memory ∧
    (State.request s r).store.regions = s.store.regions ∧ (State.request s r).store.retained = s.store.retained ∧
    (State.request s r).store.retention = s.store.retention ∧ (State.request s r).store.pinHeld = s.store.pinHeld := by
  refine ⟨?_, ?_, ?_, ?_, ?_, ?_, ?_, ?_, ?_, ?_, ?_, ?_, ?_, ?_, ?_, ?_, ?_, ?_⟩ <;>
  first
  | (unfold State.request; first | (with_reducible rfl) | (simp; done))
  | (unfold State.request; (try dsimp only); (repeat' split) <;> first | (with_reducible rfl) | (simp; done) | (simp_all; done))

@[simp] theorem State.loadOne_frame (s : State) :
    (State.loadOne s).pending = s.pending ∧ (State.loadOne s).localCount = s.localCount ∧
    (State.loadOne s).line = s.line ∧ (State.loadOne s).tables = s.tables ∧ (State.loadOne s).member = s.member ∧
    (State.loadOne s).follower = s.follower ∧ (State.loadOne s).ports = s.ports ∧ (State.loadOne s).note = s.note ∧
    (State.loadOne s).startUp = s.startUp ∧ (State.loadOne s).host.response = s.host.response ∧
    (State.loadOne s).host.shifted = s.host.shifted ∧ (State.loadOne s).host.stayAwake = s.host.stayAwake ∧
    (State.loadOne s).announce.channels = s.announce.channels ∧ (State.loadOne s).store.memory = s.store.memory ∧
    (State.loadOne s).store.regions = s.store.regions ∧ (State.loadOne s).store.retained = s.store.retained ∧
    (State.loadOne s).store.retention = s.store.retention ∧ (State.loadOne s).store.pinHeld = s.store.pinHeld := by
  refine ⟨?_, ?_, ?_, ?_, ?_, ?_, ?_, ?_, ?_, ?_, ?_, ?_, ?_, ?_, ?_, ?_, ?_, ?_⟩ <;>
  first
  | (unfold State.loadOne; first | (with_reducible rfl) | (simp; done))
  | (unfold State.loadOne; (try dsimp only); (repeat' split) <;> first | (with_reducible rfl) | (simp; done) | (simp_all; done))

@[simp] theorem State.feedLoader_frame (s : State) :
    (State.feedLoader s).pending = s.pending ∧ (State.feedLoader s).localCount = s.localCount ∧
    (State.feedLoader s).line = s.line ∧ (State.feedLoader s).tables = s.tables ∧
    (State.feedLoader s).member = s.member ∧ (State.feedLoader s).follower = s.follower ∧
    (State.feedLoader s).ports = s.ports ∧ (State.feedLoader s).note = s.note ∧
    (State.feedLoader s).startUp = s.startUp ∧ (State.feedLoader s).host.response = s.host.response ∧
    (State.feedLoader s).host.shifted = s.host.shifted ∧ (State.feedLoader s).host.stayAwake = s.host.stayAwake ∧
    (State.feedLoader s).announce.channels = s.announce.channels ∧
    (State.feedLoader s).store.memory = s.store.memory ∧ (State.feedLoader s).store.regions = s.store.regions ∧
    (State.feedLoader s).store.retained = s.store.retained ∧
    (State.feedLoader s).store.retention = s.store.retention ∧ (State.feedLoader s).store.pinHeld = s.store.pinHeld := by
  refine ⟨?_, ?_, ?_, ?_, ?_, ?_, ?_, ?_, ?_, ?_, ?_, ?_, ?_, ?_, ?_, ?_, ?_, ?_⟩ <;>
  first
  | (unfold State.feedLoader; first | (with_reducible rfl) | (simp; done))
  | (unfold State.feedLoader; (try dsimp only); (repeat' split) <;> first | (with_reducible rfl) | (simp; done) | (simp_all; done))

@[simp] theorem State.storeBoundary_frame (s : State) :
    (State.storeBoundary s).pending = s.pending ∧ (State.storeBoundary s).localCount = s.localCount ∧
    (State.storeBoundary s).line = s.line ∧ (State.storeBoundary s).tables = s.tables ∧
    (State.storeBoundary s).member = s.member ∧ (State.storeBoundary s).follower = s.follower ∧
    (State.storeBoundary s).ports = s.ports ∧ (State.storeBoundary s).note = s.note ∧
    (State.storeBoundary s).startUp = s.startUp ∧ (State.storeBoundary s).host.response = s.host.response ∧
    (State.storeBoundary s).host.shifted = s.host.shifted ∧
    (State.storeBoundary s).host.stayAwake = s.host.stayAwake ∧
    (State.storeBoundary s).announce.channels = s.announce.channels ∧
    (State.storeBoundary s).store.memory = s.store.memory ∧ (State.storeBoundary s).store.regions = s.store.regions ∧
    (State.storeBoundary s).store.retained = s.store.retained ∧
    (State.storeBoundary s).store.retention = s.store.retention ∧
    (State.storeBoundary s).store.pinHeld = s.store.pinHeld := by
  refine ⟨?_, ?_, ?_, ?_, ?_, ?_, ?_, ?_, ?_, ?_, ?_, ?_, ?_, ?_, ?_, ?_, ?_, ?_⟩ <;>
  first
  | (unfold State.storeBoundary; first | (with_reducible rfl) | (simp; done))
  | (unfold State.storeBoundary; (try dsimp only); (repeat' split) <;> first | (with_reducible rfl) | (simp; done) | (simp_all; done))

@[simp] theorem State.burstComplete_frame (s : State) (bank : Nat) :
    (State.burstComplete s bank).pending = s.pending ∧ (State.burstComplete s bank).localCount = s.localCount ∧
    (State.burstComplete s bank).line = s.line ∧ (State.burstComplete s bank).tables = s.tables ∧
    (State.burstComplete s bank).member = s.member ∧ (State.burstComplete s bank).follower = s.follower ∧
    (State.burstComplete s bank).ports = s.ports ∧ (State.burstComplete s bank).note = s.note ∧
    (State.burstComplete s bank).startUp = s.startUp ∧ (State.burstComplete s bank).host.response = s.host.response ∧
    (State.burstComplete s bank).host.shifted = s.host.shifted ∧
    (State.burstComplete s bank).host.stayAwake = s.host.stayAwake ∧
    (State.burstComplete s bank).announce.channels = s.announce.channels := by
  refine ⟨?_, ?_, ?_, ?_, ?_, ?_, ?_, ?_, ?_, ?_, ?_, ?_, ?_⟩ <;>
  first
  | (unfold State.burstComplete; first | (with_reducible rfl) | (simp; done))
  | (unfold State.burstComplete; (try dsimp only); (repeat' split) <;> first | (with_reducible rfl) | (simp; done) | (simp_all; done))

end Sys2Proof.Machine
end

