-- ==== Sys2Proof/Laws/FramesQueue.lean ====
section
/-! SUPPORT. Frames: what each operation of the send queue and the uplink leaves alone, one lemma for an operation. -/

namespace Sys2Proof.Machine

set_option maxRecDepth 20000

@[simp] theorem State.enter_frame (s : State) (e : QueueEntry) :
    (State.enter s e).pending = s.pending ∧ (State.enter s e).localCount = s.localCount ∧
    (State.enter s e).tables = s.tables ∧ (State.enter s e).member = s.member ∧
    (State.enter s e).follower = s.follower ∧ (State.enter s e).ports = s.ports ∧ (State.enter s e).store = s.store ∧
    (State.enter s e).mixer = s.mixer ∧ (State.enter s e).announce = s.announce ∧ (State.enter s e).blend = s.blend ∧
    (State.enter s e).call = s.call ∧ (State.enter s e).note = s.note ∧ (State.enter s e).host = s.host ∧
    (State.enter s e).startUp = s.startUp ∧ (State.enter s e).line.timerExpired = s.line.timerExpired ∧
    (State.enter s e).line.silentCount = s.line.silentCount ∧ (State.enter s e).line.silent = s.line.silent ∧
    (State.enter s e).line.lead = s.line.lead ∧ (State.enter s e).line.phase = s.line.phase ∧
    (State.enter s e).line.field = s.line.field ∧ (State.enter s e).line.sent = s.line.sent ∧
    (State.enter s e).line.vetoing = s.line.vetoing ∧ (State.enter s e).line.waiting = s.line.waiting ∧
    (State.enter s e).line.bindings = s.line.bindings ∧ (State.enter s e).line.driven = s.line.driven ∧
    (State.enter s e).line.lineSamples = s.line.lineSamples ∧
    (State.enter s e).line.presenceCounter = s.line.presenceCounter ∧
    (State.enter s e).line.presenceDue = s.line.presenceDue ∧ (State.enter s e).line.selfVeto = s.line.selfVeto := by
  refine ⟨?_, ?_, ?_, ?_, ?_, ?_, ?_, ?_, ?_, ?_, ?_, ?_, ?_, ?_, ?_, ?_, ?_, ?_, ?_, ?_, ?_, ?_, ?_, ?_, ?_, ?_, ?_, ?_, ?_⟩ <;>
  first
  | (unfold State.enter; first | (with_reducible rfl) | (simp; done))
  | (unfold State.enter; (try dsimp only); (repeat' split) <;> first | (with_reducible rfl) | (simp; done) | (simp_all; done))

@[simp] theorem State.setRetryAfter_frame (s : State) (m : Message) :
    (State.setRetryAfter s m).pending = s.pending ∧ (State.setRetryAfter s m).localCount = s.localCount ∧
    (State.setRetryAfter s m).line = s.line ∧ (State.setRetryAfter s m).tables = s.tables ∧
    (State.setRetryAfter s m).member = s.member ∧ (State.setRetryAfter s m).follower = s.follower ∧
    (State.setRetryAfter s m).ports = s.ports ∧ (State.setRetryAfter s m).store = s.store ∧
    (State.setRetryAfter s m).mixer = s.mixer ∧ (State.setRetryAfter s m).announce = s.announce ∧
    (State.setRetryAfter s m).blend = s.blend ∧ (State.setRetryAfter s m).note = s.note ∧
    (State.setRetryAfter s m).host = s.host ∧ (State.setRetryAfter s m).startUp = s.startUp := by
  refine ⟨?_, ?_, ?_, ?_, ?_, ?_, ?_, ?_, ?_, ?_, ?_, ?_, ?_, ?_⟩ <;>
  first
  | (unfold State.setRetryAfter; first | (with_reducible rfl) | (simp; done))
  | (unfold State.setRetryAfter; (try dsimp only); (repeat' split) <;> first | (with_reducible rfl) | (simp; done) | (simp_all; done))

@[simp] theorem State.send_frame (s : State) (e : QueueEntry) :
    (State.send s e).pending = s.pending ∧ (State.send s e).localCount = s.localCount ∧
    (State.send s e).tables = s.tables ∧ (State.send s e).member = s.member ∧ (State.send s e).follower = s.follower ∧
    (State.send s e).ports = s.ports ∧ (State.send s e).store = s.store ∧ (State.send s e).mixer = s.mixer ∧
    (State.send s e).announce = s.announce ∧ (State.send s e).blend = s.blend ∧ (State.send s e).note = s.note ∧
    (State.send s e).host = s.host ∧ (State.send s e).startUp = s.startUp ∧
    (State.send s e).line.timerExpired = s.line.timerExpired ∧
    (State.send s e).line.silentCount = s.line.silentCount ∧ (State.send s e).line.silent = s.line.silent ∧
    (State.send s e).line.lead = s.line.lead ∧ (State.send s e).line.phase = s.line.phase ∧
    (State.send s e).line.field = s.line.field ∧ (State.send s e).line.sent = s.line.sent ∧
    (State.send s e).line.vetoing = s.line.vetoing ∧ (State.send s e).line.bindings = s.line.bindings ∧
    (State.send s e).line.driven = s.line.driven ∧ (State.send s e).line.lineSamples = s.line.lineSamples ∧
    (State.send s e).line.presenceCounter = s.line.presenceCounter ∧
    (State.send s e).line.presenceDue = s.line.presenceDue ∧ (State.send s e).line.selfVeto = s.line.selfVeto := by
  refine ⟨?_, ?_, ?_, ?_, ?_, ?_, ?_, ?_, ?_, ?_, ?_, ?_, ?_, ?_, ?_, ?_, ?_, ?_, ?_, ?_, ?_, ?_, ?_, ?_, ?_, ?_, ?_⟩ <;>
  first
  | (unfold State.send; first | (with_reducible rfl) | (simp; done))
  | (unfold State.send; (try dsimp only); (repeat' split) <;> first | (with_reducible rfl) | (simp; done) | (simp_all; done))

@[simp] theorem State.moveWaiting_frame (s : State) :
    (State.moveWaiting s).pending = s.pending ∧ (State.moveWaiting s).localCount = s.localCount ∧
    (State.moveWaiting s).tables = s.tables ∧ (State.moveWaiting s).member = s.member ∧
    (State.moveWaiting s).follower = s.follower ∧ (State.moveWaiting s).ports = s.ports ∧
    (State.moveWaiting s).store = s.store ∧ (State.moveWaiting s).mixer = s.mixer ∧
    (State.moveWaiting s).announce = s.announce ∧ (State.moveWaiting s).blend = s.blend ∧
    (State.moveWaiting s).call = s.call ∧ (State.moveWaiting s).note = s.note ∧ (State.moveWaiting s).host = s.host ∧
    (State.moveWaiting s).startUp = s.startUp ∧ (State.moveWaiting s).line.timerExpired = s.line.timerExpired ∧
    (State.moveWaiting s).line.silentCount = s.line.silentCount ∧ (State.moveWaiting s).line.silent = s.line.silent ∧
    (State.moveWaiting s).line.lead = s.line.lead ∧ (State.moveWaiting s).line.phase = s.line.phase ∧
    (State.moveWaiting s).line.field = s.line.field ∧ (State.moveWaiting s).line.sent = s.line.sent ∧
    (State.moveWaiting s).line.vetoing = s.line.vetoing ∧ (State.moveWaiting s).line.bindings = s.line.bindings ∧
    (State.moveWaiting s).line.driven = s.line.driven ∧ (State.moveWaiting s).line.lineSamples = s.line.lineSamples ∧
    (State.moveWaiting s).line.presenceCounter = s.line.presenceCounter ∧
    (State.moveWaiting s).line.presenceDue = s.line.presenceDue ∧
    (State.moveWaiting s).line.selfVeto = s.line.selfVeto := by
  refine ⟨?_, ?_, ?_, ?_, ?_, ?_, ?_, ?_, ?_, ?_, ?_, ?_, ?_, ?_, ?_, ?_, ?_, ?_, ?_, ?_, ?_, ?_, ?_, ?_, ?_, ?_, ?_, ?_⟩ <;>
  first
  | (unfold State.moveWaiting; first | (with_reducible rfl) | (simp; done))
  | (unfold State.moveWaiting; (try dsimp only); (repeat' split) <;> first | (with_reducible rfl) | (simp; done) | (simp_all; done))

@[simp] theorem State.removeEntry_frame (s : State) (order : Nat) :
    (State.removeEntry s order).pending = s.pending ∧ (State.removeEntry s order).localCount = s.localCount ∧
    (State.removeEntry s order).tables = s.tables ∧ (State.removeEntry s order).member = s.member ∧
    (State.removeEntry s order).follower = s.follower ∧ (State.removeEntry s order).ports = s.ports ∧
    (State.removeEntry s order).store = s.store ∧ (State.removeEntry s order).mixer = s.mixer ∧
    (State.removeEntry s order).announce = s.announce ∧ (State.removeEntry s order).blend = s.blend ∧
    (State.removeEntry s order).call = s.call ∧ (State.removeEntry s order).note = s.note ∧
    (State.removeEntry s order).host = s.host ∧ (State.removeEntry s order).startUp = s.startUp ∧
    (State.removeEntry s order).line.timerExpired = s.line.timerExpired ∧
    (State.removeEntry s order).line.silentCount = s.line.silentCount ∧
    (State.removeEntry s order).line.silent = s.line.silent ∧ (State.removeEntry s order).line.lead = s.line.lead ∧
    (State.removeEntry s order).line.phase = s.line.phase ∧ (State.removeEntry s order).line.field = s.line.field ∧
    (State.removeEntry s order).line.sent = s.line.sent ∧ (State.removeEntry s order).line.vetoing = s.line.vetoing ∧
    (State.removeEntry s order).line.waiting = s.line.waiting ∧
    (State.removeEntry s order).line.bindings = s.line.bindings ∧
    (State.removeEntry s order).line.driven = s.line.driven ∧
    (State.removeEntry s order).line.lineSamples = s.line.lineSamples ∧
    (State.removeEntry s order).line.presenceCounter = s.line.presenceCounter ∧
    (State.removeEntry s order).line.presenceDue = s.line.presenceDue ∧
    (State.removeEntry s order).line.selfVeto = s.line.selfVeto ∧
    (State.removeEntry s order).line.nextOrder = s.line.nextOrder := by
  refine ⟨?_, ?_, ?_, ?_, ?_, ?_, ?_, ?_, ?_, ?_, ?_, ?_, ?_, ?_, ?_, ?_, ?_, ?_, ?_, ?_, ?_, ?_, ?_, ?_, ?_, ?_, ?_, ?_, ?_, ?_⟩ <;>
  first
  | (unfold State.removeEntry; first | (with_reducible rfl) | (simp; done))
  | (unfold State.removeEntry; (try dsimp only); (repeat' split) <;> first | (with_reducible rfl) | (simp; done) | (simp_all; done))

@[simp] theorem State.claimUplink_frame (s : State) :
    (State.claimUplink s).pending = s.pending ∧ (State.claimUplink s).localCount = s.localCount ∧
    (State.claimUplink s).tables = s.tables ∧ (State.claimUplink s).member = s.member ∧
    (State.claimUplink s).follower = s.follower ∧ (State.claimUplink s).ports = s.ports ∧
    (State.claimUplink s).store = s.store ∧ (State.claimUplink s).mixer = s.mixer ∧
    (State.claimUplink s).announce = s.announce ∧ (State.claimUplink s).blend = s.blend ∧
    (State.claimUplink s).note = s.note ∧ (State.claimUplink s).host = s.host ∧
    (State.claimUplink s).startUp = s.startUp ∧ (State.claimUplink s).line.timerExpired = s.line.timerExpired ∧
    (State.claimUplink s).line.silentCount = s.line.silentCount ∧ (State.claimUplink s).line.silent = s.line.silent ∧
    (State.claimUplink s).line.lead = s.line.lead ∧ (State.claimUplink s).line.phase = s.line.phase ∧
    (State.claimUplink s).line.field = s.line.field ∧ (State.claimUplink s).line.sent = s.line.sent ∧
    (State.claimUplink s).line.vetoing = s.line.vetoing ∧ (State.claimUplink s).line.bindings = s.line.bindings ∧
    (State.claimUplink s).line.driven = s.line.driven ∧ (State.claimUplink s).line.lineSamples = s.line.lineSamples ∧
    (State.claimUplink s).line.presenceCounter = s.line.presenceCounter ∧
    (State.claimUplink s).line.presenceDue = s.line.presenceDue ∧
    (State.claimUplink s).line.selfVeto = s.line.selfVeto := by
  refine ⟨?_, ?_, ?_, ?_, ?_, ?_, ?_, ?_, ?_, ?_, ?_, ?_, ?_, ?_, ?_, ?_, ?_, ?_, ?_, ?_, ?_, ?_, ?_, ?_, ?_, ?_, ?_⟩ <;>
  first
  | (unfold State.claimUplink; first | (with_reducible rfl) | (simp; done))
  | (unfold State.claimUplink; (try dsimp only); (repeat' split) <;> first | (with_reducible rfl) | (simp; done) | (simp_all; done))

@[simp] theorem State.releaseUplink_frame (s : State) (i : Nat) :
    (State.releaseUplink s i).pending = s.pending ∧ (State.releaseUplink s i).localCount = s.localCount ∧
    (State.releaseUplink s i).tables = s.tables ∧ (State.releaseUplink s i).member = s.member ∧
    (State.releaseUplink s i).follower = s.follower ∧ (State.releaseUplink s i).ports = s.ports ∧
    (State.releaseUplink s i).store = s.store ∧ (State.releaseUplink s i).mixer = s.mixer ∧
    (State.releaseUplink s i).announce = s.announce ∧ (State.releaseUplink s i).blend = s.blend ∧
    (State.releaseUplink s i).note = s.note ∧ (State.releaseUplink s i).host = s.host ∧
    (State.releaseUplink s i).startUp = s.startUp ∧
    (State.releaseUplink s i).line.timerExpired = s.line.timerExpired ∧
    (State.releaseUplink s i).line.silentCount = s.line.silentCount ∧
    (State.releaseUplink s i).line.silent = s.line.silent ∧ (State.releaseUplink s i).line.lead = s.line.lead ∧
    (State.releaseUplink s i).line.phase = s.line.phase ∧ (State.releaseUplink s i).line.field = s.line.field ∧
    (State.releaseUplink s i).line.sent = s.line.sent ∧ (State.releaseUplink s i).line.vetoing = s.line.vetoing ∧
    (State.releaseUplink s i).line.bindings = s.line.bindings ∧
    (State.releaseUplink s i).line.driven = s.line.driven ∧
    (State.releaseUplink s i).line.lineSamples = s.line.lineSamples ∧
    (State.releaseUplink s i).line.presenceCounter = s.line.presenceCounter ∧
    (State.releaseUplink s i).line.presenceDue = s.line.presenceDue ∧
    (State.releaseUplink s i).line.selfVeto = s.line.selfVeto := by
  refine ⟨?_, ?_, ?_, ?_, ?_, ?_, ?_, ?_, ?_, ?_, ?_, ?_, ?_, ?_, ?_, ?_, ?_, ?_, ?_, ?_, ?_, ?_, ?_, ?_, ?_, ?_, ?_⟩ <;>
  first
  | (unfold State.releaseUplink; first | (with_reducible rfl) | (simp; done))
  | (unfold State.releaseUplink; (try dsimp only); (repeat' split) <;> first | (with_reducible rfl) | (simp; done) | (simp_all; done))

@[simp] theorem State.lookAtUplink_frame (s : State) :
    (State.lookAtUplink s).pending = s.pending ∧ (State.lookAtUplink s).localCount = s.localCount ∧
    (State.lookAtUplink s).tables = s.tables ∧ (State.lookAtUplink s).member = s.member ∧
    (State.lookAtUplink s).follower = s.follower ∧ (State.lookAtUplink s).ports = s.ports ∧
    (State.lookAtUplink s).store = s.store ∧ (State.lookAtUplink s).mixer = s.mixer ∧
    (State.lookAtUplink s).announce = s.announce ∧ (State.lookAtUplink s).blend = s.blend ∧
    (State.lookAtUplink s).note = s.note ∧ (State.lookAtUplink s).host = s.host ∧
    (State.lookAtUplink s).startUp = s.startUp ∧ (State.lookAtUplink s).line.timerExpired = s.line.timerExpired ∧
    (State.lookAtUplink s).line.silentCount = s.line.silentCount ∧
    (State.lookAtUplink s).line.silent = s.line.silent ∧ (State.lookAtUplink s).line.lead = s.line.lead ∧
    (State.lookAtUplink s).line.phase = s.line.phase ∧ (State.lookAtUplink s).line.field = s.line.field ∧
    (State.lookAtUplink s).line.sent = s.line.sent ∧ (State.lookAtUplink s).line.vetoing = s.line.vetoing ∧
    (State.lookAtUplink s).line.bindings = s.line.bindings ∧ (State.lookAtUplink s).line.driven = s.line.driven ∧
    (State.lookAtUplink s).line.lineSamples = s.line.lineSamples ∧
    (State.lookAtUplink s).line.presenceCounter = s.line.presenceCounter ∧
    (State.lookAtUplink s).line.presenceDue = s.line.presenceDue ∧
    (State.lookAtUplink s).line.selfVeto = s.line.selfVeto := by
  refine ⟨?_, ?_, ?_, ?_, ?_, ?_, ?_, ?_, ?_, ?_, ?_, ?_, ?_, ?_, ?_, ?_, ?_, ?_, ?_, ?_, ?_, ?_, ?_, ?_, ?_, ?_, ?_⟩ <;>
  first
  | (unfold State.lookAtUplink; first | (with_reducible rfl) | (simp; done))
  | (unfold State.lookAtUplink; (try dsimp only); (repeat' split) <;> first | (with_reducible rfl) | (simp; done) | (simp_all; done))

@[simp] theorem State.startUpTold_frame (s : State) (m : Message) :
    (State.startUpTold s m).pending = s.pending ∧ (State.startUpTold s m).localCount = s.localCount ∧
    (State.startUpTold s m).line = s.line ∧ (State.startUpTold s m).tables = s.tables ∧
    (State.startUpTold s m).member = s.member ∧ (State.startUpTold s m).follower = s.follower ∧
    (State.startUpTold s m).ports = s.ports ∧ (State.startUpTold s m).store = s.store ∧
    (State.startUpTold s m).mixer = s.mixer ∧ (State.startUpTold s m).announce = s.announce ∧
    (State.startUpTold s m).blend = s.blend ∧ (State.startUpTold s m).call = s.call ∧
    (State.startUpTold s m).note = s.note ∧ (State.startUpTold s m).host = s.host ∧
    (State.startUpTold s m).startUp.record = s.startUp.record ∧
    (State.startUpTold s m).startUp.reading = s.startUp.reading := by
  refine ⟨?_, ?_, ?_, ?_, ?_, ?_, ?_, ?_, ?_, ?_, ?_, ?_, ?_, ?_, ?_, ?_⟩ <;>
  first
  | (unfold State.startUpTold; first | (with_reducible rfl) | (simp; done))
  | (unfold State.startUpTold; (try dsimp only); (repeat' split) <;> first | (with_reducible rfl) | (simp; done) | (simp_all; done))

@[simp] theorem State.sendPart_frame (s : State) (part : Nat) :
    (State.sendPart s part).pending = s.pending ∧ (State.sendPart s part).localCount = s.localCount ∧
    (State.sendPart s part).tables = s.tables ∧ (State.sendPart s part).member = s.member ∧
    (State.sendPart s part).follower = s.follower ∧ (State.sendPart s part).ports = s.ports ∧
    (State.sendPart s part).store = s.store ∧ (State.sendPart s part).mixer = s.mixer ∧
    (State.sendPart s part).announce = s.announce ∧ (State.sendPart s part).blend = s.blend ∧
    (State.sendPart s part).note = s.note ∧ (State.sendPart s part).host = s.host ∧
    (State.sendPart s part).startUp = s.startUp ∧ (State.sendPart s part).line.timerExpired = s.line.timerExpired ∧
    (State.sendPart s part).line.silentCount = s.line.silentCount ∧
    (State.sendPart s part).line.silent = s.line.silent ∧ (State.sendPart s part).line.lead = s.line.lead ∧
    (State.sendPart s part).line.phase = s.line.phase ∧ (State.sendPart s part).line.field = s.line.field ∧
    (State.sendPart s part).line.sent = s.line.sent ∧ (State.sendPart s part).line.vetoing = s.line.vetoing ∧
    (State.sendPart s part).line.bindings = s.line.bindings ∧ (State.sendPart s part).line.driven = s.line.driven ∧
    (State.sendPart s part).line.lineSamples = s.line.lineSamples ∧
    (State.sendPart s part).line.presenceCounter = s.line.presenceCounter ∧
    (State.sendPart s part).line.presenceDue = s.line.presenceDue ∧
    (State.sendPart s part).line.selfVeto = s.line.selfVeto := by
  refine ⟨?_, ?_, ?_, ?_, ?_, ?_, ?_, ?_, ?_, ?_, ?_, ?_, ?_, ?_, ?_, ?_, ?_, ?_, ?_, ?_, ?_, ?_, ?_, ?_, ?_, ?_, ?_⟩ <;>
  first
  | (unfold State.sendPart; first | (with_reducible rfl) | (simp; done))
  | (unfold State.sendPart; (try dsimp only); (repeat' split) <;> first | (with_reducible rfl) | (simp; done) | (simp_all; done))

@[simp] theorem State.failNote_frame (s : State) (cause : Cause) :
    (State.failNote s cause).pending = s.pending ∧ (State.failNote s cause).localCount = s.localCount ∧
    (State.failNote s cause).line = s.line ∧ (State.failNote s cause).tables = s.tables ∧
    (State.failNote s cause).member = s.member ∧ (State.failNote s cause).follower = s.follower ∧
    (State.failNote s cause).ports = s.ports ∧ (State.failNote s cause).store = s.store ∧
    (State.failNote s cause).mixer = s.mixer ∧ (State.failNote s cause).announce = s.announce ∧
    (State.failNote s cause).blend = s.blend ∧ (State.failNote s cause).call = s.call ∧
    (State.failNote s cause).startUp = s.startUp ∧ (State.failNote s cause).host.response = s.host.response ∧
    (State.failNote s cause).host.shifted = s.host.shifted ∧
    (State.failNote s cause).host.stayAwake = s.host.stayAwake ∧ (State.failNote s cause).note.box = s.note.box := by
  refine ⟨?_, ?_, ?_, ?_, ?_, ?_, ?_, ?_, ?_, ?_, ?_, ?_, ?_, ?_, ?_, ?_, ?_⟩ <;>
  first
  | (unfold State.failNote; first | (with_reducible rfl) | (simp; done))
  | (unfold State.failNote; (try dsimp only); (repeat' split) <;> first | (with_reducible rfl) | (simp; done) | (simp_all; done))

@[simp] theorem State.noteUnitTold_frame (s : State) (d : Departure) :
    (State.noteUnitTold s d).pending = s.pending ∧ (State.noteUnitTold s d).localCount = s.localCount ∧
    (State.noteUnitTold s d).tables = s.tables ∧ (State.noteUnitTold s d).member = s.member ∧
    (State.noteUnitTold s d).follower = s.follower ∧ (State.noteUnitTold s d).ports = s.ports ∧
    (State.noteUnitTold s d).store = s.store ∧ (State.noteUnitTold s d).mixer = s.mixer ∧
    (State.noteUnitTold s d).announce = s.announce ∧ (State.noteUnitTold s d).blend = s.blend ∧
    (State.noteUnitTold s d).startUp = s.startUp ∧ (State.noteUnitTold s d).line.timerExpired = s.line.timerExpired ∧
    (State.noteUnitTold s d).line.silentCount = s.line.silentCount ∧
    (State.noteUnitTold s d).line.silent = s.line.silent ∧ (State.noteUnitTold s d).line.lead = s.line.lead ∧
    (State.noteUnitTold s d).line.phase = s.line.phase ∧ (State.noteUnitTold s d).line.field = s.line.field ∧
    (State.noteUnitTold s d).line.sent = s.line.sent ∧ (State.noteUnitTold s d).line.vetoing = s.line.vetoing ∧
    (State.noteUnitTold s d).line.bindings = s.line.bindings ∧ (State.noteUnitTold s d).line.driven = s.line.driven ∧
    (State.noteUnitTold s d).line.lineSamples = s.line.lineSamples ∧
    (State.noteUnitTold s d).line.presenceCounter = s.line.presenceCounter ∧
    (State.noteUnitTold s d).line.presenceDue = s.line.presenceDue ∧
    (State.noteUnitTold s d).line.selfVeto = s.line.selfVeto ∧
    (State.noteUnitTold s d).host.response = s.host.response ∧
    (State.noteUnitTold s d).host.shifted = s.host.shifted ∧
    (State.noteUnitTold s d).host.stayAwake = s.host.stayAwake ∧ (State.noteUnitTold s d).note.box = s.note.box := by
  refine ⟨?_, ?_, ?_, ?_, ?_, ?_, ?_, ?_, ?_, ?_, ?_, ?_, ?_, ?_, ?_, ?_, ?_, ?_, ?_, ?_, ?_, ?_, ?_, ?_, ?_, ?_, ?_, ?_, ?_⟩ <;>
  first
  | (unfold State.noteUnitTold; first | (with_reducible rfl) | (simp; done))
  | (unfold State.noteUnitTold; (try dsimp only); (repeat' split) <;> first | (with_reducible rfl) | (simp; done) | (simp_all; done))

@[simp] theorem State.tell_frame (s : State) (e : QueueEntry) (d : Departure) :
    (State.tell s e d).pending = s.pending ∧ (State.tell s e d).localCount = s.localCount ∧
    (State.tell s e d).tables = s.tables ∧ (State.tell s e d).member = s.member ∧
    (State.tell s e d).follower = s.follower ∧ (State.tell s e d).ports = s.ports ∧
    (State.tell s e d).store = s.store ∧ (State.tell s e d).mixer = s.mixer ∧
    (State.tell s e d).announce = s.announce ∧ (State.tell s e d).blend = s.blend ∧
    (State.tell s e d).line.timerExpired = s.line.timerExpired ∧
    (State.tell s e d).line.silentCount = s.line.silentCount ∧ (State.tell s e d).line.silent = s.line.silent ∧
    (State.tell s e d).line.lead = s.line.lead ∧ (State.tell s e d).line.phase = s.line.phase ∧
    (State.tell s e d).line.field = s.line.field ∧ (State.tell s e d).line.sent = s.line.sent ∧
    (State.tell s e d).line.vetoing = s.line.vetoing ∧ (State.tell s e d).line.bindings = s.line.bindings ∧
    (State.tell s e d).line.driven = s.line.driven ∧ (State.tell s e d).line.lineSamples = s.line.lineSamples ∧
    (State.tell s e d).line.presenceCounter = s.line.presenceCounter ∧
    (State.tell s e d).line.presenceDue = s.line.presenceDue ∧ (State.tell s e d).line.selfVeto = s.line.selfVeto ∧
    (State.tell s e d).host.response = s.host.response ∧ (State.tell s e d).host.shifted = s.host.shifted ∧
    (State.tell s e d).host.stayAwake = s.host.stayAwake ∧ (State.tell s e d).startUp.record = s.startUp.record ∧
    (State.tell s e d).startUp.reading = s.startUp.reading ∧ (State.tell s e d).note.box = s.note.box := by
  refine ⟨?_, ?_, ?_, ?_, ?_, ?_, ?_, ?_, ?_, ?_, ?_, ?_, ?_, ?_, ?_, ?_, ?_, ?_, ?_, ?_, ?_, ?_, ?_, ?_, ?_, ?_, ?_, ?_, ?_, ?_⟩ <;>
  first
  | (unfold State.tell; first | (with_reducible rfl) | (simp; done))
  | (unfold State.tell; (try dsimp only); (repeat' split) <;> first | (with_reducible rfl) | (simp; done) | (simp_all; done))

@[simp] theorem State.dropAll_frame (s : State) :
    (State.dropAll s).pending = s.pending ∧ (State.dropAll s).localCount = s.localCount ∧
    (State.dropAll s).tables = s.tables ∧ (State.dropAll s).member = s.member ∧
    (State.dropAll s).follower = s.follower ∧ (State.dropAll s).ports = s.ports ∧ (State.dropAll s).store = s.store ∧
    (State.dropAll s).mixer = s.mixer ∧ (State.dropAll s).announce = s.announce ∧ (State.dropAll s).blend = s.blend ∧
    (State.dropAll s).line.timerExpired = s.line.timerExpired ∧
    (State.dropAll s).line.silentCount = s.line.silentCount ∧ (State.dropAll s).line.silent = s.line.silent ∧
    (State.dropAll s).line.lead = s.line.lead ∧ (State.dropAll s).line.phase = s.line.phase ∧
    (State.dropAll s).line.field = s.line.field ∧ (State.dropAll s).line.bindings = s.line.bindings ∧
    (State.dropAll s).line.driven = s.line.driven ∧ (State.dropAll s).line.lineSamples = s.line.lineSamples ∧
    (State.dropAll s).line.presenceCounter = s.line.presenceCounter ∧
    (State.dropAll s).line.selfVeto = s.line.selfVeto ∧ (State.dropAll s).host.response = s.host.response ∧
    (State.dropAll s).host.shifted = s.host.shifted ∧ (State.dropAll s).host.stayAwake = s.host.stayAwake ∧
    (State.dropAll s).startUp.record = s.startUp.record ∧ (State.dropAll s).startUp.reading = s.startUp.reading ∧
    (State.dropAll s).note.box = s.note.box := by
  refine ⟨?_, ?_, ?_, ?_, ?_, ?_, ?_, ?_, ?_, ?_, ?_, ?_, ?_, ?_, ?_, ?_, ?_, ?_, ?_, ?_, ?_, ?_, ?_, ?_, ?_, ?_, ?_⟩ <;>
  first
  | (unfold State.dropAll; first | (with_reducible rfl) | (simp; done))
  | (unfold State.dropAll; (try dsimp only); (repeat' split) <;> first | (with_reducible rfl) | (simp; done) | (simp_all; done))

end Sys2Proof.Machine
end

