-- ==== Sys2Proof/Laws/FramesZones.lean ====
section
/-! SUPPORT. Frames: what each operation of the zone mixer leaves alone, one lemma for an operation. -/

namespace Sys2Proof.Machine

set_option maxRecDepth 20000

@[simp] theorem State.onZone_frame (s : State) (z : Nat) (f : Zone → Zone) :
    (State.onZone s z f).pending = s.pending ∧ (State.onZone s z f).localCount = s.localCount ∧
    (State.onZone s z f).line = s.line ∧ (State.onZone s z f).tables = s.tables ∧
    (State.onZone s z f).member = s.member ∧ (State.onZone s z f).follower = s.follower ∧
    (State.onZone s z f).ports = s.ports ∧ (State.onZone s z f).store = s.store ∧
    (State.onZone s z f).announce = s.announce ∧ (State.onZone s z f).blend = s.blend ∧
    (State.onZone s z f).call = s.call ∧ (State.onZone s z f).note = s.note ∧ (State.onZone s z f).host = s.host ∧
    (State.onZone s z f).startUp = s.startUp := by
  refine ⟨?_, ?_, ?_, ?_, ?_, ?_, ?_, ?_, ?_, ?_, ?_, ?_, ?_, ?_⟩ <;>
  first
  | (unfold State.onZone; first | (with_reducible rfl) | (simp; done))
  | (unfold State.onZone; (try dsimp only); (repeat' split) <;> first | (with_reducible rfl) | (simp; done) | (simp_all; done))

@[simp] theorem State.retarget_frame (s : State) (z : Nat) :
    (State.retarget s z).pending = s.pending ∧ (State.retarget s z).localCount = s.localCount ∧
    (State.retarget s z).line = s.line ∧ (State.retarget s z).tables = s.tables ∧
    (State.retarget s z).member = s.member ∧ (State.retarget s z).follower = s.follower ∧
    (State.retarget s z).ports = s.ports ∧ (State.retarget s z).store = s.store ∧
    (State.retarget s z).announce = s.announce ∧ (State.retarget s z).blend = s.blend ∧
    (State.retarget s z).call = s.call ∧ (State.retarget s z).note = s.note ∧ (State.retarget s z).host = s.host ∧
    (State.retarget s z).startUp = s.startUp := by
  refine ⟨?_, ?_, ?_, ?_, ?_, ?_, ?_, ?_, ?_, ?_, ?_, ?_, ?_, ?_⟩ <;>
  first
  | (unfold State.retarget; first | (with_reducible rfl) | (simp; done))
  | (unfold State.retarget; (try dsimp only); (repeat' split) <;> first | (with_reducible rfl) | (simp; done) | (simp_all; done))

@[simp] theorem State.testRoutes_frame (s : State) (z : Nat) :
    (State.testRoutes s z).pending = s.pending ∧ (State.testRoutes s z).localCount = s.localCount ∧
    (State.testRoutes s z).line = s.line ∧ (State.testRoutes s z).tables = s.tables ∧
    (State.testRoutes s z).member = s.member ∧ (State.testRoutes s z).follower = s.follower ∧
    (State.testRoutes s z).ports = s.ports ∧ (State.testRoutes s z).store = s.store ∧
    (State.testRoutes s z).announce = s.announce ∧ (State.testRoutes s z).blend = s.blend ∧
    (State.testRoutes s z).call = s.call ∧ (State.testRoutes s z).note = s.note ∧
    (State.testRoutes s z).host = s.host ∧ (State.testRoutes s z).startUp = s.startUp := by
  refine ⟨?_, ?_, ?_, ?_, ?_, ?_, ?_, ?_, ?_, ?_, ?_, ?_, ?_, ?_⟩ <;>
  first
  | (unfold State.testRoutes; first | (with_reducible rfl) | (simp; done))
  | (unfold State.testRoutes; (try dsimp only); (repeat' split) <;> first | (with_reducible rfl) | (simp; done) | (simp_all; done))

@[simp] theorem State.testRoutesOf_frame (s : State) (x z : Nat) :
    (State.testRoutesOf s x z).pending = s.pending ∧ (State.testRoutesOf s x z).localCount = s.localCount ∧
    (State.testRoutesOf s x z).line = s.line ∧ (State.testRoutesOf s x z).tables = s.tables ∧
    (State.testRoutesOf s x z).member = s.member ∧ (State.testRoutesOf s x z).follower = s.follower ∧
    (State.testRoutesOf s x z).ports = s.ports ∧ (State.testRoutesOf s x z).store = s.store ∧
    (State.testRoutesOf s x z).announce = s.announce ∧ (State.testRoutesOf s x z).blend = s.blend ∧
    (State.testRoutesOf s x z).call = s.call ∧ (State.testRoutesOf s x z).note = s.note ∧
    (State.testRoutesOf s x z).host = s.host ∧ (State.testRoutesOf s x z).startUp = s.startUp := by
  refine ⟨?_, ?_, ?_, ?_, ?_, ?_, ?_, ?_, ?_, ?_, ?_, ?_, ?_, ?_⟩ <;>
  first
  | (unfold State.testRoutesOf; first | (with_reducible rfl) | (simp; done))
  | (unfold State.testRoutesOf; (try dsimp only); (repeat' split) <;> first | (with_reducible rfl) | (simp; done) | (simp_all; done))

@[simp] theorem State.retakePosition_frame (s : State) (z : Nat) :
    (State.retakePosition s z).pending = s.pending ∧ (State.retakePosition s z).localCount = s.localCount ∧
    (State.retakePosition s z).line = s.line ∧ (State.retakePosition s z).tables = s.tables ∧
    (State.retakePosition s z).member = s.member ∧ (State.retakePosition s z).follower = s.follower ∧
    (State.retakePosition s z).ports = s.ports ∧ (State.retakePosition s z).store = s.store ∧
    (State.retakePosition s z).announce = s.announce ∧ (State.retakePosition s z).blend = s.blend ∧
    (State.retakePosition s z).call = s.call ∧ (State.retakePosition s z).note = s.note ∧
    (State.retakePosition s z).startUp = s.startUp ∧ (State.retakePosition s z).host.response = s.host.response ∧
    (State.retakePosition s z).host.shifted = s.host.shifted ∧
    (State.retakePosition s z).host.stayAwake = s.host.stayAwake := by
  refine ⟨?_, ?_, ?_, ?_, ?_, ?_, ?_, ?_, ?_, ?_, ?_, ?_, ?_, ?_, ?_, ?_⟩ <;>
  first
  | (unfold State.retakePosition; first | (with_reducible rfl) | (simp; done))
  | (unfold State.retakePosition; (try dsimp only); (repeat' split) <;> first | (with_reducible rfl) | (simp; done) | (simp_all; done))

@[simp] theorem State.zonesAtStation_frame (s : State) :
    (State.zonesAtStation s).pending = s.pending ∧ (State.zonesAtStation s).localCount = s.localCount ∧
    (State.zonesAtStation s).line = s.line ∧ (State.zonesAtStation s).tables = s.tables ∧
    (State.zonesAtStation s).member = s.member ∧ (State.zonesAtStation s).follower = s.follower ∧
    (State.zonesAtStation s).ports = s.ports ∧ (State.zonesAtStation s).store = s.store ∧
    (State.zonesAtStation s).announce = s.announce ∧ (State.zonesAtStation s).blend = s.blend ∧
    (State.zonesAtStation s).call = s.call ∧ (State.zonesAtStation s).note = s.note ∧
    (State.zonesAtStation s).startUp = s.startUp ∧ (State.zonesAtStation s).host.response = s.host.response ∧
    (State.zonesAtStation s).host.shifted = s.host.shifted ∧
    (State.zonesAtStation s).host.stayAwake = s.host.stayAwake := by
  refine ⟨?_, ?_, ?_, ?_, ?_, ?_, ?_, ?_, ?_, ?_, ?_, ?_, ?_, ?_, ?_, ?_⟩ <;>
  first
  | (unfold State.zonesAtStation; first | (with_reducible rfl) | (simp; done))
  | (unfold State.zonesAtStation; (try dsimp only); (repeat' split) <;> first | (with_reducible rfl) | (simp; done) | (simp_all; done))

@[simp] theorem State.zonesAtCalls_frame (s : State) :
    (State.zonesAtCalls s).pending = s.pending ∧ (State.zonesAtCalls s).localCount = s.localCount ∧
    (State.zonesAtCalls s).line = s.line ∧ (State.zonesAtCalls s).tables = s.tables ∧
    (State.zonesAtCalls s).member = s.member ∧ (State.zonesAtCalls s).follower = s.follower ∧
    (State.zonesAtCalls s).ports = s.ports ∧ (State.zonesAtCalls s).store = s.store ∧
    (State.zonesAtCalls s).announce = s.announce ∧ (State.zonesAtCalls s).blend = s.blend ∧
    (State.zonesAtCalls s).call = s.call ∧ (State.zonesAtCalls s).note = s.note ∧
    (State.zonesAtCalls s).startUp = s.startUp ∧ (State.zonesAtCalls s).host.response = s.host.response ∧
    (State.zonesAtCalls s).host.shifted = s.host.shifted ∧ (State.zonesAtCalls s).host.stayAwake = s.host.stayAwake := by
  refine ⟨?_, ?_, ?_, ?_, ?_, ?_, ?_, ?_, ?_, ?_, ?_, ?_, ?_, ?_, ?_, ?_⟩ <;>
  first
  | (unfold State.zonesAtCalls; first | (with_reducible rfl) | (simp; done))
  | (unfold State.zonesAtCalls; (try dsimp only); (repeat' split) <;> first | (with_reducible rfl) | (simp; done) | (simp_all; done))

@[simp] theorem State.takeClass_frame (s : State) (n : StreamNotice) (z : Nat) :
    (State.takeClass s n z).pending = s.pending ∧ (State.takeClass s n z).localCount = s.localCount ∧
    (State.takeClass s n z).line = s.line ∧ (State.takeClass s n z).tables = s.tables ∧
    (State.takeClass s n z).member = s.member ∧ (State.takeClass s n z).follower = s.follower ∧
    (State.takeClass s n z).ports = s.ports ∧ (State.takeClass s n z).store = s.store ∧
    (State.takeClass s n z).announce = s.announce ∧ (State.takeClass s n z).blend = s.blend ∧
    (State.takeClass s n z).call = s.call ∧ (State.takeClass s n z).note = s.note ∧
    (State.takeClass s n z).startUp = s.startUp ∧ (State.takeClass s n z).host.response = s.host.response ∧
    (State.takeClass s n z).host.shifted = s.host.shifted ∧ (State.takeClass s n z).host.stayAwake = s.host.stayAwake := by
  refine ⟨?_, ?_, ?_, ?_, ?_, ?_, ?_, ?_, ?_, ?_, ?_, ?_, ?_, ?_, ?_, ?_⟩ <;>
  first
  | (unfold State.takeClass; first | (with_reducible rfl) | (simp; done))
  | (unfold State.takeClass; (try dsimp only); (repeat' split) <;> first | (with_reducible rfl) | (simp; done) | (simp_all; done))

@[simp] theorem State.zoneNotice_frame (s a : State) (n : StreamNotice) (z : Nat) :
    (State.zoneNotice s a n z).pending = s.pending ∧ (State.zoneNotice s a n z).localCount = s.localCount ∧
    (State.zoneNotice s a n z).line = s.line ∧ (State.zoneNotice s a n z).tables = s.tables ∧
    (State.zoneNotice s a n z).member = s.member ∧ (State.zoneNotice s a n z).follower = s.follower ∧
    (State.zoneNotice s a n z).ports = s.ports ∧ (State.zoneNotice s a n z).store = s.store ∧
    (State.zoneNotice s a n z).announce = s.announce ∧ (State.zoneNotice s a n z).blend = s.blend ∧
    (State.zoneNotice s a n z).call = s.call ∧ (State.zoneNotice s a n z).note = s.note ∧
    (State.zoneNotice s a n z).startUp = s.startUp ∧ (State.zoneNotice s a n z).host.response = s.host.response ∧
    (State.zoneNotice s a n z).host.shifted = s.host.shifted ∧
    (State.zoneNotice s a n z).host.stayAwake = s.host.stayAwake := by
  refine ⟨?_, ?_, ?_, ?_, ?_, ?_, ?_, ?_, ?_, ?_, ?_, ?_, ?_, ?_, ?_, ?_⟩ <;>
  first
  | (unfold State.zoneNotice; first | (with_reducible rfl) | (simp; done))
  | (unfold State.zoneNotice; (try dsimp only); (repeat' split) <;> first | (with_reducible rfl) | (simp; done) | (simp_all; done))

@[simp] theorem State.zonesAtNotice_frame (s a : State) (n : StreamNotice) :
    (State.zonesAtNotice s a n).pending = s.pending ∧ (State.zonesAtNotice s a n).localCount = s.localCount ∧
    (State.zonesAtNotice s a n).line = s.line ∧ (State.zonesAtNotice s a n).tables = s.tables ∧
    (State.zonesAtNotice s a n).member = s.member ∧ (State.zonesAtNotice s a n).follower = s.follower ∧
    (State.zonesAtNotice s a n).ports = s.ports ∧ (State.zonesAtNotice s a n).store = s.store ∧
    (State.zonesAtNotice s a n).announce = s.announce ∧ (State.zonesAtNotice s a n).blend = s.blend ∧
    (State.zonesAtNotice s a n).call = s.call ∧ (State.zonesAtNotice s a n).note = s.note ∧
    (State.zonesAtNotice s a n).startUp = s.startUp ∧ (State.zonesAtNotice s a n).host.response = s.host.response ∧
    (State.zonesAtNotice s a n).host.shifted = s.host.shifted ∧
    (State.zonesAtNotice s a n).host.stayAwake = s.host.stayAwake := by
  refine ⟨?_, ?_, ?_, ?_, ?_, ?_, ?_, ?_, ?_, ?_, ?_, ?_, ?_, ?_, ?_, ?_⟩ <;>
  first
  | (unfold State.zonesAtNotice; first | (with_reducible rfl) | (simp; done))
  | (unfold State.zonesAtNotice; (try dsimp only); (repeat' split) <;> first | (with_reducible rfl) | (simp; done) | (simp_all; done))

@[simp] theorem State.setRouteLevel_frame (s : State) (z x level : Nat) :
    (State.setRouteLevel s z x level).1.pending = s.pending ∧
    (State.setRouteLevel s z x level).1.localCount = s.localCount ∧
    (State.setRouteLevel s z x level).1.line = s.line ∧ (State.setRouteLevel s z x level).1.tables = s.tables ∧
    (State.setRouteLevel s z x level).1.member = s.member ∧
    (State.setRouteLevel s z x level).1.follower = s.follower ∧ (State.setRouteLevel s z x level).1.ports = s.ports ∧
    (State.setRouteLevel s z x level).1.store = s.store ∧ (State.setRouteLevel s z x level).1.announce = s.announce ∧
    (State.setRouteLevel s z x level).1.blend = s.blend ∧ (State.setRouteLevel s z x level).1.call = s.call ∧
    (State.setRouteLevel s z x level).1.note = s.note ∧ (State.setRouteLevel s z x level).1.host = s.host ∧
    (State.setRouteLevel s z x level).1.startUp = s.startUp := by
  refine ⟨?_, ?_, ?_, ?_, ?_, ?_, ?_, ?_, ?_, ?_, ?_, ?_, ?_, ?_⟩ <;>
  first
  | (unfold State.setRouteLevel; first | (with_reducible rfl) | (simp; done))
  | (unfold State.setRouteLevel; (try dsimp only); (repeat' split) <;> first | (with_reducible rfl) | (simp; done) | (simp_all; done))

@[simp] theorem State.addRoute_frame (s : State) (z x level : Nat) :
    (State.addRoute s z x level).1.pending = s.pending ∧ (State.addRoute s z x level).1.localCount = s.localCount ∧
    (State.addRoute s z x level).1.line = s.line ∧ (State.addRoute s z x level).1.tables = s.tables ∧
    (State.addRoute s z x level).1.member = s.member ∧ (State.addRoute s z x level).1.follower = s.follower ∧
    (State.addRoute s z x level).1.ports = s.ports ∧ (State.addRoute s z x level).1.store = s.store ∧
    (State.addRoute s z x level).1.announce = s.announce ∧ (State.addRoute s z x level).1.blend = s.blend ∧
    (State.addRoute s z x level).1.call = s.call ∧ (State.addRoute s z x level).1.note = s.note ∧
    (State.addRoute s z x level).1.host = s.host ∧ (State.addRoute s z x level).1.startUp = s.startUp := by
  refine ⟨?_, ?_, ?_, ?_, ?_, ?_, ?_, ?_, ?_, ?_, ?_, ?_, ?_, ?_⟩ <;>
  first
  | (unfold State.addRoute; first | (with_reducible rfl) | (simp; done))
  | (unfold State.addRoute; (try dsimp only); (repeat' split) <;> first | (with_reducible rfl) | (simp; done) | (simp_all; done))

@[simp] theorem State.removeRoute_frame (s : State) (z x : Nat) :
    (State.removeRoute s z x).1.pending = s.pending ∧ (State.removeRoute s z x).1.localCount = s.localCount ∧
    (State.removeRoute s z x).1.line = s.line ∧ (State.removeRoute s z x).1.tables = s.tables ∧
    (State.removeRoute s z x).1.member = s.member ∧ (State.removeRoute s z x).1.follower = s.follower ∧
    (State.removeRoute s z x).1.ports = s.ports ∧ (State.removeRoute s z x).1.store = s.store ∧
    (State.removeRoute s z x).1.announce = s.announce ∧ (State.removeRoute s z x).1.blend = s.blend ∧
    (State.removeRoute s z x).1.call = s.call ∧ (State.removeRoute s z x).1.note = s.note ∧
    (State.removeRoute s z x).1.host = s.host ∧ (State.removeRoute s z x).1.startUp = s.startUp := by
  refine ⟨?_, ?_, ?_, ?_, ?_, ?_, ?_, ?_, ?_, ?_, ?_, ?_, ?_, ?_⟩ <;>
  first
  | (unfold State.removeRoute; first | (with_reducible rfl) | (simp; done))
  | (unfold State.removeRoute; (try dsimp only); (repeat' split) <;> first | (with_reducible rfl) | (simp; done) | (simp_all; done))

@[simp] theorem State.judgeRoute_frame (s : State) (z x action level : Nat) :
    (State.judgeRoute s z x action level).1.pending = s.pending ∧
    (State.judgeRoute s z x action level).1.localCount = s.localCount ∧
    (State.judgeRoute s z x action level).1.line = s.line ∧
    (State.judgeRoute s z x action level).1.tables = s.tables ∧
    (State.judgeRoute s z x action level).1.member = s.member ∧
    (State.judgeRoute s z x action level).1.follower = s.follower ∧
    (State.judgeRoute s z x action level).1.ports = s.ports ∧
    (State.judgeRoute s z x action level).1.store = s.store ∧
    (State.judgeRoute s z x action level).1.announce = s.announce ∧
    (State.judgeRoute s z x action level).1.blend = s.blend ∧ (State.judgeRoute s z x action level).1.call = s.call ∧
    (State.judgeRoute s z x action level).1.note = s.note ∧ (State.judgeRoute s z x action level).1.host = s.host ∧
    (State.judgeRoute s z x action level).1.startUp = s.startUp := by
  refine ⟨?_, ?_, ?_, ?_, ?_, ?_, ?_, ?_, ?_, ?_, ?_, ?_, ?_, ?_⟩ <;>
  first
  | (unfold State.judgeRoute; first | (with_reducible rfl) | (simp; done))
  | (unfold State.judgeRoute; (try dsimp only); (repeat' split) <;> first | (with_reducible rfl) | (simp; done) | (simp_all; done))

@[simp] theorem State.endEntryRamp_frame (s : State) (z x : Nat) :
    (State.endEntryRamp s z x).pending = s.pending ∧ (State.endEntryRamp s z x).localCount = s.localCount ∧
    (State.endEntryRamp s z x).line = s.line ∧ (State.endEntryRamp s z x).tables = s.tables ∧
    (State.endEntryRamp s z x).member = s.member ∧ (State.endEntryRamp s z x).follower = s.follower ∧
    (State.endEntryRamp s z x).ports = s.ports ∧ (State.endEntryRamp s z x).store = s.store ∧
    (State.endEntryRamp s z x).announce = s.announce ∧ (State.endEntryRamp s z x).blend = s.blend ∧
    (State.endEntryRamp s z x).call = s.call ∧ (State.endEntryRamp s z x).note = s.note ∧
    (State.endEntryRamp s z x).host = s.host ∧ (State.endEntryRamp s z x).startUp = s.startUp := by
  refine ⟨?_, ?_, ?_, ?_, ?_, ?_, ?_, ?_, ?_, ?_, ?_, ?_, ?_, ?_⟩ <;>
  first
  | (unfold State.endEntryRamp; first | (with_reducible rfl) | (simp; done))
  | (unfold State.endEntryRamp; (try dsimp only); (repeat' split) <;> first | (with_reducible rfl) | (simp; done) | (simp_all; done))

@[simp] theorem State.endPositionRamp_frame (s : State) (z : Nat) :
    (State.endPositionRamp s z).pending = s.pending ∧ (State.endPositionRamp s z).localCount = s.localCount ∧
    (State.endPositionRamp s z).line = s.line ∧ (State.endPositionRamp s z).tables = s.tables ∧
    (State.endPositionRamp s z).member = s.member ∧ (State.endPositionRamp s z).follower = s.follower ∧
    (State.endPositionRamp s z).ports = s.ports ∧ (State.endPositionRamp s z).store = s.store ∧
    (State.endPositionRamp s z).announce = s.announce ∧ (State.endPositionRamp s z).blend = s.blend ∧
    (State.endPositionRamp s z).call = s.call ∧ (State.endPositionRamp s z).note = s.note ∧
    (State.endPositionRamp s z).host = s.host ∧ (State.endPositionRamp s z).startUp = s.startUp := by
  refine ⟨?_, ?_, ?_, ?_, ?_, ?_, ?_, ?_, ?_, ?_, ?_, ?_, ?_, ?_⟩ <;>
  first
  | (unfold State.endPositionRamp; first | (with_reducible rfl) | (simp; done))
  | (unfold State.endPositionRamp; (try dsimp only); (repeat' split) <;> first | (with_reducible rfl) | (simp; done) | (simp_all; done))

@[simp] theorem State.endRamp_frame (s : State) (z : Nat) (which : RampOf) :
    (State.endRamp s z which).pending = s.pending ∧ (State.endRamp s z which).localCount = s.localCount ∧
    (State.endRamp s z which).line = s.line ∧ (State.endRamp s z which).tables = s.tables ∧
    (State.endRamp s z which).member = s.member ∧ (State.endRamp s z which).follower = s.follower ∧
    (State.endRamp s z which).ports = s.ports ∧ (State.endRamp s z which).store = s.store ∧
    (State.endRamp s z which).announce = s.announce ∧ (State.endRamp s z which).blend = s.blend ∧
    (State.endRamp s z which).call = s.call ∧ (State.endRamp s z which).note = s.note ∧
    (State.endRamp s z which).host = s.host ∧ (State.endRamp s z which).startUp = s.startUp := by
  refine ⟨?_, ?_, ?_, ?_, ?_, ?_, ?_, ?_, ?_, ?_, ?_, ?_, ?_, ?_⟩ <;>
  first
  | (unfold State.endRamp; first | (with_reducible rfl) | (simp; done))
  | (unfold State.endRamp; (try dsimp only); (repeat' split) <;> first | (with_reducible rfl) | (simp; done) | (simp_all; done))

end Sys2Proof.Machine
end

