-- ==== Sys2Proof/Laws/FramesCanceller.lean ====
section
/-! SUPPORT. Frames: what each operation of the canceller states leaves alone, one lemma for an operation. -/

namespace Sys2Proof.Machine

set_option maxRecDepth 20000

@[simp] theorem State.restartBlocks_frame (s : State) :
    (State.restartBlocks s).pending = s.pending ∧ (State.restartBlocks s).localCount = s.localCount ∧
    (State.restartBlocks s).line = s.line ∧ (State.restartBlocks s).tables = s.tables ∧
    (State.restartBlocks s).member = s.member ∧ (State.restartBlocks s).follower = s.follower ∧
    (State.restartBlocks s).ports = s.ports ∧ (State.restartBlocks s).store = s.store ∧
    (State.restartBlocks s).mixer = s.mixer ∧ (State.restartBlocks s).announce = s.announce ∧
    (State.restartBlocks s).blend = s.blend ∧ (State.restartBlocks s).note = s.note ∧
    (State.restartBlocks s).host = s.host ∧ (State.restartBlocks s).startUp = s.startUp := by
  refine ⟨?_, ?_, ?_, ?_, ?_, ?_, ?_, ?_, ?_, ?_, ?_, ?_, ?_, ?_⟩ <;>
  first
  | (unfold State.restartBlocks; first | (with_reducible rfl) | (simp; done))
  | (unfold State.restartBlocks; (try dsimp only); (repeat' split) <;> first | (with_reducible rfl) | (simp; done) | (simp_all; done))

@[simp] theorem State.enterCanceller_frame (s : State) (new : CancellerState) :
    (State.enterCanceller s new).pending = s.pending ∧ (State.enterCanceller s new).localCount = s.localCount ∧
    (State.enterCanceller s new).line = s.line ∧ (State.enterCanceller s new).tables = s.tables ∧
    (State.enterCanceller s new).member = s.member ∧ (State.enterCanceller s new).follower = s.follower ∧
    (State.enterCanceller s new).ports = s.ports ∧ (State.enterCanceller s new).store = s.store ∧
    (State.enterCanceller s new).mixer = s.mixer ∧ (State.enterCanceller s new).announce = s.announce ∧
    (State.enterCanceller s new).blend = s.blend ∧ (State.enterCanceller s new).note = s.note ∧
    (State.enterCanceller s new).host = s.host ∧ (State.enterCanceller s new).startUp = s.startUp := by
  refine ⟨?_, ?_, ?_, ?_, ?_, ?_, ?_, ?_, ?_, ?_, ?_, ?_, ?_, ?_⟩ <;>
  first
  | (unfold State.enterCanceller; first | (with_reducible rfl) | (simp; done))
  | (unfold State.enterCanceller; (try dsimp only); (repeat' split) <;> first | (with_reducible rfl) | (simp; done) | (simp_all; done))

@[simp] theorem State.goCanceller_frame (s : State) (new : CancellerState) (cause : Cause) :
    (State.goCanceller s new cause).pending = s.pending ∧ (State.goCanceller s new cause).localCount = s.localCount ∧
    (State.goCanceller s new cause).line = s.line ∧ (State.goCanceller s new cause).tables = s.tables ∧
    (State.goCanceller s new cause).member = s.member ∧ (State.goCanceller s new cause).follower = s.follower ∧
    (State.goCanceller s new cause).ports = s.ports ∧ (State.goCanceller s new cause).store = s.store ∧
    (State.goCanceller s new cause).mixer = s.mixer ∧ (State.goCanceller s new cause).announce = s.announce ∧
    (State.goCanceller s new cause).blend = s.blend ∧ (State.goCanceller s new cause).note = s.note ∧
    (State.goCanceller s new cause).startUp = s.startUp ∧
    (State.goCanceller s new cause).host.response = s.host.response ∧
    (State.goCanceller s new cause).host.shifted = s.host.shifted ∧
    (State.goCanceller s new cause).host.stayAwake = s.host.stayAwake := by
  refine ⟨?_, ?_, ?_, ?_, ?_, ?_, ?_, ?_, ?_, ?_, ?_, ?_, ?_, ?_, ?_, ?_⟩ <;>
  first
  | (unfold State.goCanceller; first | (with_reducible rfl) | (simp; done))
  | (unfold State.goCanceller; (try dsimp only); (repeat' split) <;> first | (with_reducible rfl) | (simp; done) | (simp_all; done))

@[simp] theorem State.discardCoefficients_frame (s : State) :
    (State.discardCoefficients s).pending = s.pending ∧ (State.discardCoefficients s).localCount = s.localCount ∧
    (State.discardCoefficients s).line = s.line ∧ (State.discardCoefficients s).tables = s.tables ∧
    (State.discardCoefficients s).member = s.member ∧ (State.discardCoefficients s).follower = s.follower ∧
    (State.discardCoefficients s).ports = s.ports ∧ (State.discardCoefficients s).store = s.store ∧
    (State.discardCoefficients s).mixer = s.mixer ∧ (State.discardCoefficients s).announce = s.announce ∧
    (State.discardCoefficients s).blend = s.blend ∧ (State.discardCoefficients s).note = s.note ∧
    (State.discardCoefficients s).host = s.host ∧ (State.discardCoefficients s).startUp = s.startUp := by
  refine ⟨?_, ?_, ?_, ?_, ?_, ?_, ?_, ?_, ?_, ?_, ?_, ?_, ?_, ?_⟩ <;>
  first
  | (unfold State.discardCoefficients; first | (with_reducible rfl) | (simp; done))
  | (unfold State.discardCoefficients; (try dsimp only); (repeat' split) <;> first | (with_reducible rfl) | (simp; done) | (simp_all; done))

@[simp] theorem State.cancellerOff_frame (s : State) (cause : Cause) :
    (State.cancellerOff s cause).pending = s.pending ∧ (State.cancellerOff s cause).localCount = s.localCount ∧
    (State.cancellerOff s cause).line = s.line ∧ (State.cancellerOff s cause).tables = s.tables ∧
    (State.cancellerOff s cause).member = s.member ∧ (State.cancellerOff s cause).follower = s.follower ∧
    (State.cancellerOff s cause).ports = s.ports ∧ (State.cancellerOff s cause).store = s.store ∧
    (State.cancellerOff s cause).mixer = s.mixer ∧ (State.cancellerOff s cause).announce = s.announce ∧
    (State.cancellerOff s cause).blend = s.blend ∧ (State.cancellerOff s cause).note = s.note ∧
    (State.cancellerOff s cause).startUp = s.startUp ∧ (State.cancellerOff s cause).host.response = s.host.response ∧
    (State.cancellerOff s cause).host.shifted = s.host.shifted ∧
    (State.cancellerOff s cause).host.stayAwake = s.host.stayAwake := by
  refine ⟨?_, ?_, ?_, ?_, ?_, ?_, ?_, ?_, ?_, ?_, ?_, ?_, ?_, ?_, ?_, ?_⟩ <;>
  first
  | (unfold State.cancellerOff; first | (with_reducible rfl) | (simp; done))
  | (unfold State.cancellerOff; (try dsimp only); (repeat' split) <;> first | (with_reducible rfl) | (simp; done) | (simp_all; done))

@[simp] theorem State.beginService_frame (s : State) (j : Nat) :
    (State.beginService s j).pending = s.pending ∧ (State.beginService s j).localCount = s.localCount ∧
    (State.beginService s j).line = s.line ∧ (State.beginService s j).tables = s.tables ∧
    (State.beginService s j).member = s.member ∧ (State.beginService s j).follower = s.follower ∧
    (State.beginService s j).ports = s.ports ∧ (State.beginService s j).store = s.store ∧
    (State.beginService s j).mixer = s.mixer ∧ (State.beginService s j).announce = s.announce ∧
    (State.beginService s j).blend = s.blend ∧ (State.beginService s j).note = s.note ∧
    (State.beginService s j).startUp = s.startUp ∧ (State.beginService s j).host.response = s.host.response ∧
    (State.beginService s j).host.shifted = s.host.shifted ∧
    (State.beginService s j).host.stayAwake = s.host.stayAwake := by
  refine ⟨?_, ?_, ?_, ?_, ?_, ?_, ?_, ?_, ?_, ?_, ?_, ?_, ?_, ?_, ?_, ?_⟩ <;>
  first
  | (unfold State.beginService; first | (with_reducible rfl) | (simp; done))
  | (unfold State.beginService; (try dsimp only); (repeat' split) <;> first | (with_reducible rfl) | (simp; done) | (simp_all; done))

@[simp] theorem State.changeReference_frame (s : State) (j : Nat) :
    (State.changeReference s j).pending = s.pending ∧ (State.changeReference s j).localCount = s.localCount ∧
    (State.changeReference s j).line = s.line ∧ (State.changeReference s j).tables = s.tables ∧
    (State.changeReference s j).member = s.member ∧ (State.changeReference s j).follower = s.follower ∧
    (State.changeReference s j).ports = s.ports ∧ (State.changeReference s j).store = s.store ∧
    (State.changeReference s j).mixer = s.mixer ∧ (State.changeReference s j).announce = s.announce ∧
    (State.changeReference s j).blend = s.blend ∧ (State.changeReference s j).note = s.note ∧
    (State.changeReference s j).startUp = s.startUp ∧ (State.changeReference s j).host.response = s.host.response ∧
    (State.changeReference s j).host.shifted = s.host.shifted ∧
    (State.changeReference s j).host.stayAwake = s.host.stayAwake := by
  refine ⟨?_, ?_, ?_, ?_, ?_, ?_, ?_, ?_, ?_, ?_, ?_, ?_, ?_, ?_, ?_, ?_⟩ <;>
  first
  | (unfold State.changeReference; first | (with_reducible rfl) | (simp; done))
  | (unfold State.changeReference; (try dsimp only); (repeat' split) <;> first | (with_reducible rfl) | (simp; done) | (simp_all; done))

@[simp] theorem State.checkServed_frame (s : State) :
    (State.checkServed s).pending = s.pending ∧ (State.checkServed s).localCount = s.localCount ∧
    (State.checkServed s).line = s.line ∧ (State.checkServed s).tables = s.tables ∧
    (State.checkServed s).member = s.member ∧ (State.checkServed s).follower = s.follower ∧
    (State.checkServed s).ports = s.ports ∧ (State.checkServed s).store = s.store ∧
    (State.checkServed s).mixer = s.mixer ∧ (State.checkServed s).announce = s.announce ∧
    (State.checkServed s).blend = s.blend ∧ (State.checkServed s).note = s.note ∧
    (State.checkServed s).startUp = s.startUp ∧ (State.checkServed s).host.response = s.host.response ∧
    (State.checkServed s).host.shifted = s.host.shifted ∧ (State.checkServed s).host.stayAwake = s.host.stayAwake := by
  refine ⟨?_, ?_, ?_, ?_, ?_, ?_, ?_, ?_, ?_, ?_, ?_, ?_, ?_, ?_, ?_, ?_⟩ <;>
  first
  | (unfold State.checkServed; first | (with_reducible rfl) | (simp; done))
  | (unfold State.checkServed; (try dsimp only); (repeat' split) <;> first | (with_reducible rfl) | (simp; done) | (simp_all; done))

end Sys2Proof.Machine
end

