-- ==== Sys2Proof/Laws/FramesTables.lean ====
section
/-! SUPPORT. Frames: what each operation of changes of the line tables leaves alone, one lemma for an operation. -/

namespace Sys2Proof.Machine

set_option maxRecDepth 20000

@[simp] theorem State.noticeHost_frame (s : State) (n : StreamNotice) :
    (State.noticeHost s n).pending = s.pending ∧ (State.noticeHost s n).localCount = s.localCount ∧
    (State.noticeHost s n).line = s.line ∧ (State.noticeHost s n).tables = s.tables ∧
    (State.noticeHost s n).member = s.member ∧ (State.noticeHost s n).follower = s.follower ∧
    (State.noticeHost s n).ports = s.ports ∧ (State.noticeHost s n).store = s.store ∧
    (State.noticeHost s n).mixer = s.mixer ∧ (State.noticeHost s n).announce = s.announce ∧
    (State.noticeHost s n).blend = s.blend ∧ (State.noticeHost s n).call = s.call ∧
    (State.noticeHost s n).note = s.note ∧ (State.noticeHost s n).startUp = s.startUp ∧
    (State.noticeHost s n).host.response = s.host.response ∧ (State.noticeHost s n).host.shifted = s.host.shifted ∧
    (State.noticeHost s n).host.stayAwake = s.host.stayAwake := by
  refine ⟨?_, ?_, ?_, ?_, ?_, ?_, ?_, ?_, ?_, ?_, ?_, ?_, ?_, ?_, ?_, ?_, ?_⟩ <;>
  first
  | (unfold State.noticeHost; first | (with_reducible rfl) | (simp; done))
  | (unfold State.noticeHost; (try dsimp only); (repeat' split) <;> first | (with_reducible rfl) | (simp; done) | (simp_all; done))

@[simp] theorem State.emptyBindings_frame (s : State) :
    (State.emptyBindings s).pending = s.pending ∧ (State.emptyBindings s).localCount = s.localCount ∧
    (State.emptyBindings s).tables = s.tables ∧ (State.emptyBindings s).member = s.member ∧
    (State.emptyBindings s).follower = s.follower ∧ (State.emptyBindings s).ports = s.ports ∧
    (State.emptyBindings s).store = s.store ∧ (State.emptyBindings s).mixer = s.mixer ∧
    (State.emptyBindings s).announce = s.announce ∧ (State.emptyBindings s).blend = s.blend ∧
    (State.emptyBindings s).call = s.call ∧ (State.emptyBindings s).note = s.note ∧
    (State.emptyBindings s).host = s.host ∧ (State.emptyBindings s).startUp = s.startUp ∧
    (State.emptyBindings s).line.timerExpired = s.line.timerExpired ∧
    (State.emptyBindings s).line.silentCount = s.line.silentCount ∧
    (State.emptyBindings s).line.silent = s.line.silent ∧ (State.emptyBindings s).line.lead = s.line.lead ∧
    (State.emptyBindings s).line.phase = s.line.phase ∧ (State.emptyBindings s).line.field = s.line.field ∧
    (State.emptyBindings s).line.sent = s.line.sent ∧ (State.emptyBindings s).line.vetoing = s.line.vetoing ∧
    (State.emptyBindings s).line.queue = s.line.queue ∧ (State.emptyBindings s).line.waiting = s.line.waiting ∧
    (State.emptyBindings s).line.driven = s.line.driven ∧
    (State.emptyBindings s).line.lineSamples = s.line.lineSamples ∧
    (State.emptyBindings s).line.presenceCounter = s.line.presenceCounter ∧
    (State.emptyBindings s).line.presenceDue = s.line.presenceDue ∧
    (State.emptyBindings s).line.selfVeto = s.line.selfVeto ∧
    (State.emptyBindings s).line.nextOrder = s.line.nextOrder := by
  refine ⟨?_, ?_, ?_, ?_, ?_, ?_, ?_, ?_, ?_, ?_, ?_, ?_, ?_, ?_, ?_, ?_, ?_, ?_, ?_, ?_, ?_, ?_, ?_, ?_, ?_, ?_, ?_, ?_, ?_, ?_⟩ <;>
  first
  | (unfold State.emptyBindings; first | (with_reducible rfl) | (simp; done))
  | (unfold State.emptyBindings; (try dsimp only); (repeat' split) <;> first | (with_reducible rfl) | (simp; done) | (simp_all; done))

@[simp] theorem State.callChanged_frame (s : State) (before : LineTables) (cause : Nat → Cause) (j : Nat) :
    (State.callChanged s before cause j).pending = s.pending ∧
    (State.callChanged s before cause j).localCount = s.localCount ∧
    (State.callChanged s before cause j).line = s.line ∧ (State.callChanged s before cause j).tables = s.tables ∧
    (State.callChanged s before cause j).member = s.member ∧
    (State.callChanged s before cause j).follower = s.follower ∧
    (State.callChanged s before cause j).ports = s.ports ∧ (State.callChanged s before cause j).store = s.store ∧
    (State.callChanged s before cause j).mixer = s.mixer ∧
    (State.callChanged s before cause j).announce = s.announce ∧
    (State.callChanged s before cause j).blend = s.blend ∧ (State.callChanged s before cause j).call = s.call ∧
    (State.callChanged s before cause j).note = s.note ∧ (State.callChanged s before cause j).startUp = s.startUp ∧
    (State.callChanged s before cause j).host.response = s.host.response ∧
    (State.callChanged s before cause j).host.shifted = s.host.shifted ∧
    (State.callChanged s before cause j).host.stayAwake = s.host.stayAwake := by
  refine ⟨?_, ?_, ?_, ?_, ?_, ?_, ?_, ?_, ?_, ?_, ?_, ?_, ?_, ?_, ?_, ?_, ?_⟩ <;>
  first
  | (unfold State.callChanged; first | (with_reducible rfl) | (simp; done))
  | (unfold State.callChanged; (try dsimp only); (repeat' split) <;> first | (with_reducible rfl) | (simp; done) | (simp_all; done))

@[simp] theorem State.changeTables_frame (s : State) (changed : LineTables) (cause : Cause) (callCause : Nat → Cause) :
    (State.changeTables s changed cause callCause).pending = s.pending ∧
    (State.changeTables s changed cause callCause).localCount = s.localCount ∧
    (State.changeTables s changed cause callCause).member = s.member ∧
    (State.changeTables s changed cause callCause).follower = s.follower ∧
    (State.changeTables s changed cause callCause).ports = s.ports ∧
    (State.changeTables s changed cause callCause).store = s.store ∧
    (State.changeTables s changed cause callCause).announce = s.announce ∧
    (State.changeTables s changed cause callCause).blend = s.blend ∧
    (State.changeTables s changed cause callCause).note = s.note ∧
    (State.changeTables s changed cause callCause).startUp = s.startUp ∧
    (State.changeTables s changed cause callCause).line.timerExpired = s.line.timerExpired ∧
    (State.changeTables s changed cause callCause).line.silentCount = s.line.silentCount ∧
    (State.changeTables s changed cause callCause).line.silent = s.line.silent ∧
    (State.changeTables s changed cause callCause).line.lead = s.line.lead ∧
    (State.changeTables s changed cause callCause).line.phase = s.line.phase ∧
    (State.changeTables s changed cause callCause).line.field = s.line.field ∧
    (State.changeTables s changed cause callCause).line.sent = s.line.sent ∧
    (State.changeTables s changed cause callCause).line.vetoing = s.line.vetoing ∧
    (State.changeTables s changed cause callCause).line.driven = s.line.driven ∧
    (State.changeTables s changed cause callCause).line.lineSamples = s.line.lineSamples ∧
    (State.changeTables s changed cause callCause).line.presenceCounter = s.line.presenceCounter ∧
    (State.changeTables s changed cause callCause).line.presenceDue = s.line.presenceDue ∧
    (State.changeTables s changed cause callCause).line.selfVeto = s.line.selfVeto ∧
    (State.changeTables s changed cause callCause).host.response = s.host.response ∧
    (State.changeTables s changed cause callCause).host.shifted = s.host.shifted ∧
    (State.changeTables s changed cause callCause).host.stayAwake = s.host.stayAwake := by
  refine ⟨?_, ?_, ?_, ?_, ?_, ?_, ?_, ?_, ?_, ?_, ?_, ?_, ?_, ?_, ?_, ?_, ?_, ?_, ?_, ?_, ?_, ?_, ?_, ?_, ?_, ?_⟩ <;>
  first
  | (unfold State.changeTables; first | (with_reducible rfl) | (simp; done))
  | (unfold State.changeTables; (try dsimp only); (repeat' split) <;> first | (with_reducible rfl) | (simp; done) | (simp_all; done))

end Sys2Proof.Machine
end

