-- ==== Sys2Proof/Laws/FramesStation.lean ====
section
/-! SUPPORT. Frames: what each operation of changes of station state leaves alone, one lemma for an operation. -/

namespace Sys2Proof.Machine

set_option maxRecDepth 20000

@[simp] theorem State.dropFilling_frame (s : State) :
    (State.dropFilling s).pending = s.pending ∧ (State.dropFilling s).localCount = s.localCount ∧
    (State.dropFilling s).line = s.line ∧ (State.dropFilling s).tables = s.tables ∧
    (State.dropFilling s).member = s.member ∧ (State.dropFilling s).follower = s.follower ∧
    (State.dropFilling s).ports = s.ports ∧ (State.dropFilling s).store = s.store ∧
    (State.dropFilling s).mixer = s.mixer ∧ (State.dropFilling s).announce = s.announce ∧
    (State.dropFilling s).blend = s.blend ∧ (State.dropFilling s).call = s.call ∧
    (State.dropFilling s).startUp = s.startUp ∧ (State.dropFilling s).host.response = s.host.response ∧
    (State.dropFilling s).host.shifted = s.host.shifted ∧ (State.dropFilling s).host.stayAwake = s.host.stayAwake ∧
    (State.dropFilling s).note.outbound = s.note.outbound := by
  refine ⟨?_, ?_, ?_, ?_, ?_, ?_, ?_, ?_, ?_, ?_, ?_, ?_, ?_, ?_, ?_, ?_, ?_⟩ <;>
  first
  | (unfold State.dropFilling; first | (with_reducible rfl) | (simp; done))
  | (unfold State.dropFilling; (try dsimp only); (repeat' split) <;> first | (with_reducible rfl) | (simp; done) | (simp_all; done))

@[simp] theorem State.leaveTakingPart_frame (s : State) :
    (State.leaveTakingPart s).pending = s.pending ∧ (State.leaveTakingPart s).localCount = s.localCount ∧
    (State.leaveTakingPart s).tables = s.tables ∧ (State.leaveTakingPart s).member = s.member ∧
    (State.leaveTakingPart s).follower = s.follower ∧ (State.leaveTakingPart s).ports = s.ports ∧
    (State.leaveTakingPart s).store = s.store ∧ (State.leaveTakingPart s).mixer = s.mixer ∧
    (State.leaveTakingPart s).announce = s.announce ∧ (State.leaveTakingPart s).blend = s.blend ∧
    (State.leaveTakingPart s).line.timerExpired = s.line.timerExpired ∧
    (State.leaveTakingPart s).line.silentCount = s.line.silentCount ∧
    (State.leaveTakingPart s).line.silent = s.line.silent ∧ (State.leaveTakingPart s).line.lead = s.line.lead ∧
    (State.leaveTakingPart s).line.phase = s.line.phase ∧ (State.leaveTakingPart s).line.field = s.line.field ∧
    (State.leaveTakingPart s).line.bindings = s.line.bindings ∧
    (State.leaveTakingPart s).line.driven = s.line.driven ∧
    (State.leaveTakingPart s).line.lineSamples = s.line.lineSamples ∧
    (State.leaveTakingPart s).line.presenceCounter = s.line.presenceCounter ∧
    (State.leaveTakingPart s).line.selfVeto = s.line.selfVeto ∧
    (State.leaveTakingPart s).host.response = s.host.response ∧
    (State.leaveTakingPart s).host.shifted = s.host.shifted ∧
    (State.leaveTakingPart s).host.stayAwake = s.host.stayAwake ∧
    (State.leaveTakingPart s).startUp.record = s.startUp.record ∧
    (State.leaveTakingPart s).startUp.reading = s.startUp.reading := by
  refine ⟨?_, ?_, ?_, ?_, ?_, ?_, ?_, ?_, ?_, ?_, ?_, ?_, ?_, ?_, ?_, ?_, ?_, ?_, ?_, ?_, ?_, ?_, ?_, ?_, ?_, ?_⟩ <;>
  first
  | (unfold State.leaveTakingPart; first | (with_reducible rfl) | (simp; done))
  | (unfold State.leaveTakingPart; (try dsimp only); (repeat' split) <;> first | (with_reducible rfl) | (simp; done) | (simp_all; done))

@[simp] theorem State.dropTables_frame (s : State) :
    (State.dropTables s).pending = s.pending ∧ (State.dropTables s).localCount = s.localCount ∧
    (State.dropTables s).member = s.member ∧ (State.dropTables s).follower = s.follower ∧
    (State.dropTables s).ports = s.ports ∧ (State.dropTables s).store = s.store ∧
    (State.dropTables s).mixer = s.mixer ∧ (State.dropTables s).announce = s.announce ∧
    (State.dropTables s).blend = s.blend ∧ (State.dropTables s).note = s.note ∧ (State.dropTables s).host = s.host ∧
    (State.dropTables s).startUp = s.startUp ∧ (State.dropTables s).line.timerExpired = s.line.timerExpired ∧
    (State.dropTables s).line.silentCount = s.line.silentCount ∧ (State.dropTables s).line.silent = s.line.silent ∧
    (State.dropTables s).line.lead = s.line.lead ∧ (State.dropTables s).line.phase = s.line.phase ∧
    (State.dropTables s).line.field = s.line.field ∧ (State.dropTables s).line.sent = s.line.sent ∧
    (State.dropTables s).line.vetoing = s.line.vetoing ∧ (State.dropTables s).line.queue = s.line.queue ∧
    (State.dropTables s).line.waiting = s.line.waiting ∧ (State.dropTables s).line.driven = s.line.driven ∧
    (State.dropTables s).line.lineSamples = s.line.lineSamples ∧
    (State.dropTables s).line.presenceCounter = s.line.presenceCounter ∧
    (State.dropTables s).line.presenceDue = s.line.presenceDue ∧
    (State.dropTables s).line.selfVeto = s.line.selfVeto ∧ (State.dropTables s).line.nextOrder = s.line.nextOrder ∧
    (State.dropTables s).tables.frameCount = s.tables.frameCount := by
  refine ⟨?_, ?_, ?_, ?_, ?_, ?_, ?_, ?_, ?_, ?_, ?_, ?_, ?_, ?_, ?_, ?_, ?_, ?_, ?_, ?_, ?_, ?_, ?_, ?_, ?_, ?_, ?_, ?_, ?_⟩ <;>
  (first
  | (unfold State.dropTables; first | (with_reducible rfl) | (simp [LineTables.cleared]; done))
  | (unfold State.dropTables; (try dsimp only); (repeat' split) <;> first | (with_reducible rfl) | (simp [LineTables.cleared]; done) | (simp_all [LineTables.cleared]; done)))

@[simp] theorem State.queueOffer_frame (s : State) (o : AutonomousOffer) :
    (State.queueOffer s o).pending = s.pending ∧ (State.queueOffer s o).localCount = s.localCount ∧
    (State.queueOffer s o).tables = s.tables ∧ (State.queueOffer s o).member = s.member ∧
    (State.queueOffer s o).follower = s.follower ∧ (State.queueOffer s o).ports = s.ports ∧
    (State.queueOffer s o).store = s.store ∧ (State.queueOffer s o).mixer = s.mixer ∧
    (State.queueOffer s o).announce = s.announce ∧ (State.queueOffer s o).blend = s.blend ∧
    (State.queueOffer s o).note = s.note ∧ (State.queueOffer s o).host = s.host ∧
    (State.queueOffer s o).startUp = s.startUp ∧ (State.queueOffer s o).line.timerExpired = s.line.timerExpired ∧
    (State.queueOffer s o).line.silentCount = s.line.silentCount ∧
    (State.queueOffer s o).line.silent = s.line.silent ∧ (State.queueOffer s o).line.lead = s.line.lead ∧
    (State.queueOffer s o).line.phase = s.line.phase ∧ (State.queueOffer s o).line.field = s.line.field ∧
    (State.queueOffer s o).line.sent = s.line.sent ∧ (State.queueOffer s o).line.vetoing = s.line.vetoing ∧
    (State.queueOffer s o).line.bindings = s.line.bindings ∧ (State.queueOffer s o).line.driven = s.line.driven ∧
    (State.queueOffer s o).line.lineSamples = s.line.lineSamples ∧
    (State.queueOffer s o).line.presenceCounter = s.line.presenceCounter ∧
    (State.queueOffer s o).line.presenceDue = s.line.presenceDue ∧
    (State.queueOffer s o).line.selfVeto = s.line.selfVeto := by
  refine ⟨?_, ?_, ?_, ?_, ?_, ?_, ?_, ?_, ?_, ?_, ?_, ?_, ?_, ?_, ?_, ?_, ?_, ?_, ?_, ?_, ?_, ?_, ?_, ?_, ?_, ?_, ?_⟩ <;>
  first
  | (unfold State.queueOffer; first | (with_reducible rfl) | (simp; done))
  | (unfold State.queueOffer; (try dsimp only); (repeat' split) <;> first | (with_reducible rfl) | (simp; done) | (simp_all; done))

@[simp] theorem State.queueOffers_frame (s : State) :
    (State.queueOffers s).pending = s.pending ∧ (State.queueOffers s).localCount = s.localCount ∧
    (State.queueOffers s).tables = s.tables ∧ (State.queueOffers s).member = s.member ∧
    (State.queueOffers s).follower = s.follower ∧ (State.queueOffers s).ports = s.ports ∧
    (State.queueOffers s).store = s.store ∧ (State.queueOffers s).mixer = s.mixer ∧
    (State.queueOffers s).announce = s.announce ∧ (State.queueOffers s).blend = s.blend ∧
    (State.queueOffers s).note = s.note ∧ (State.queueOffers s).host = s.host ∧
    (State.queueOffers s).startUp = s.startUp ∧ (State.queueOffers s).line.timerExpired = s.line.timerExpired ∧
    (State.queueOffers s).line.silentCount = s.line.silentCount ∧ (State.queueOffers s).line.silent = s.line.silent ∧
    (State.queueOffers s).line.lead = s.line.lead ∧ (State.queueOffers s).line.phase = s.line.phase ∧
    (State.queueOffers s).line.field = s.line.field ∧ (State.queueOffers s).line.sent = s.line.sent ∧
    (State.queueOffers s).line.vetoing = s.line.vetoing ∧ (State.queueOffers s).line.bindings = s.line.bindings ∧
    (State.queueOffers s).line.driven = s.line.driven ∧ (State.queueOffers s).line.lineSamples = s.line.lineSamples ∧
    (State.queueOffers s).line.presenceCounter = s.line.presenceCounter ∧
    (State.queueOffers s).line.presenceDue = s.line.presenceDue ∧
    (State.queueOffers s).line.selfVeto = s.line.selfVeto := by
  refine ⟨?_, ?_, ?_, ?_, ?_, ?_, ?_, ?_, ?_, ?_, ?_, ?_, ?_, ?_, ?_, ?_, ?_, ?_, ?_, ?_, ?_, ?_, ?_, ?_, ?_, ?_, ?_⟩ <;>
  first
  | (unfold State.queueOffers; first | (with_reducible rfl) | (simp; done))
  | (unfold State.queueOffers; (try dsimp only); (repeat' split) <;> first | (with_reducible rfl) | (simp; done) | (simp_all; done))

@[simp] theorem State.enterStation_frame (s : State) (new : StationState) :
    (State.enterStation s new).pending = s.pending ∧ (State.enterStation s new).localCount = s.localCount ∧
    (State.enterStation s new).tables = s.tables ∧ (State.enterStation s new).follower = s.follower ∧
    (State.enterStation s new).ports = s.ports ∧ (State.enterStation s new).store = s.store ∧
    (State.enterStation s new).mixer = s.mixer ∧ (State.enterStation s new).announce = s.announce ∧
    (State.enterStation s new).blend = s.blend ∧ (State.enterStation s new).call = s.call ∧
    (State.enterStation s new).note = s.note ∧ (State.enterStation s new).host = s.host ∧
    (State.enterStation s new).startUp = s.startUp ∧
    (State.enterStation s new).line.timerExpired = s.line.timerExpired ∧
    (State.enterStation s new).line.silentCount = s.line.silentCount ∧
    (State.enterStation s new).line.silent = s.line.silent ∧
    (State.enterStation s new).line.lead = s.line.lead ∧
    (State.enterStation s new).line.phase = s.line.phase ∧
    (State.enterStation s new).line.field = s.line.field ∧
    (State.enterStation s new).line.sent = s.line.sent ∧
    (State.enterStation s new).line.vetoing = s.line.vetoing ∧
    (State.enterStation s new).line.queue = s.line.queue ∧
    (State.enterStation s new).line.waiting = s.line.waiting ∧
    (State.enterStation s new).line.bindings = s.line.bindings ∧
    (State.enterStation s new).line.driven = s.line.driven ∧
    (State.enterStation s new).line.lineSamples = s.line.lineSamples ∧
    (State.enterStation s new).line.nextOrder = s.line.nextOrder ∧
    (State.enterStation s new).member.station = s.member.station ∧
    (State.enterStation s new).member.cause = s.member.cause := by
  refine ⟨?_, ?_, ?_, ?_, ?_, ?_, ?_, ?_, ?_, ?_, ?_, ?_, ?_, ?_, ?_, ?_, ?_, ?_, ?_, ?_, ?_, ?_, ?_, ?_, ?_, ?_, ?_, ?_, ?_⟩ <;>
  first
  | (unfold State.enterStation; first | (with_reducible rfl) | (simp; done))
  | (unfold State.enterStation; (try dsimp only); (repeat' split) <;> first | (with_reducible rfl) | (simp; done) | (simp_all; done))

@[simp] theorem State.goTo_frame (s : State) (new : StationState) (cause : Cause) :
    (State.goTo s new cause).pending = s.pending ∧ (State.goTo s new cause).localCount = s.localCount ∧
    (State.goTo s new cause).follower = s.follower ∧ (State.goTo s new cause).ports = s.ports ∧
    (State.goTo s new cause).store = s.store ∧ (State.goTo s new cause).announce = s.announce ∧
    (State.goTo s new cause).blend = s.blend ∧ (State.goTo s new cause).line.timerExpired = s.line.timerExpired ∧
    (State.goTo s new cause).line.silentCount = s.line.silentCount ∧
    (State.goTo s new cause).line.silent = s.line.silent ∧ (State.goTo s new cause).line.lead = s.line.lead ∧
    (State.goTo s new cause).line.phase = s.line.phase ∧ (State.goTo s new cause).line.field = s.line.field ∧
    (State.goTo s new cause).line.driven = s.line.driven ∧
    (State.goTo s new cause).line.lineSamples = s.line.lineSamples ∧
    (State.goTo s new cause).host.response = s.host.response ∧
    (State.goTo s new cause).host.shifted = s.host.shifted ∧
    (State.goTo s new cause).host.stayAwake = s.host.stayAwake ∧
    (State.goTo s new cause).startUp.record = s.startUp.record ∧
    (State.goTo s new cause).startUp.reading = s.startUp.reading ∧
    (State.goTo s new cause).tables.frameCount = s.tables.frameCount := by
  refine ⟨?_, ?_, ?_, ?_, ?_, ?_, ?_, ?_, ?_, ?_, ?_, ?_, ?_, ?_, ?_, ?_, ?_, ?_, ?_, ?_, ?_⟩ <;>
  first
  | (unfold State.goTo; first | (with_reducible rfl) | (simp; done))
  | (unfold State.goTo; (try dsimp only); (repeat' split) <;> first | (with_reducible rfl) | (simp; done) | (simp_all; done))

@[simp] theorem State.noteAtRemoval_frame (s : State) (n : Nat) :
    (State.noteAtRemoval s n).pending = s.pending ∧ (State.noteAtRemoval s n).localCount = s.localCount ∧
    (State.noteAtRemoval s n).tables = s.tables ∧ (State.noteAtRemoval s n).member = s.member ∧
    (State.noteAtRemoval s n).follower = s.follower ∧ (State.noteAtRemoval s n).ports = s.ports ∧
    (State.noteAtRemoval s n).store = s.store ∧ (State.noteAtRemoval s n).mixer = s.mixer ∧
    (State.noteAtRemoval s n).announce = s.announce ∧ (State.noteAtRemoval s n).blend = s.blend ∧
    (State.noteAtRemoval s n).call = s.call ∧ (State.noteAtRemoval s n).startUp = s.startUp ∧
    (State.noteAtRemoval s n).line.timerExpired = s.line.timerExpired ∧
    (State.noteAtRemoval s n).line.silentCount = s.line.silentCount ∧
    (State.noteAtRemoval s n).line.silent = s.line.silent ∧ (State.noteAtRemoval s n).line.lead = s.line.lead ∧
    (State.noteAtRemoval s n).line.phase = s.line.phase ∧ (State.noteAtRemoval s n).line.field = s.line.field ∧
    (State.noteAtRemoval s n).line.sent = s.line.sent ∧ (State.noteAtRemoval s n).line.vetoing = s.line.vetoing ∧
    (State.noteAtRemoval s n).line.bindings = s.line.bindings ∧
    (State.noteAtRemoval s n).line.driven = s.line.driven ∧
    (State.noteAtRemoval s n).line.lineSamples = s.line.lineSamples ∧
    (State.noteAtRemoval s n).line.presenceCounter = s.line.presenceCounter ∧
    (State.noteAtRemoval s n).line.presenceDue = s.line.presenceDue ∧
    (State.noteAtRemoval s n).line.selfVeto = s.line.selfVeto ∧
    (State.noteAtRemoval s n).line.nextOrder = s.line.nextOrder ∧
    (State.noteAtRemoval s n).host.response = s.host.response ∧
    (State.noteAtRemoval s n).host.shifted = s.host.shifted ∧
    (State.noteAtRemoval s n).host.stayAwake = s.host.stayAwake := by
  refine ⟨?_, ?_, ?_, ?_, ?_, ?_, ?_, ?_, ?_, ?_, ?_, ?_, ?_, ?_, ?_, ?_, ?_, ?_, ?_, ?_, ?_, ?_, ?_, ?_, ?_, ?_, ?_, ?_, ?_, ?_⟩ <;>
  first
  | (unfold State.noteAtRemoval; first | (with_reducible rfl) | (simp; done))
  | (unfold State.noteAtRemoval; (try dsimp only); (repeat' split) <;> first | (with_reducible rfl) | (simp; done) | (simp_all; done))

@[simp] theorem State.removeStation_frame (s : State) (n : Nat) (cause : Cause) :
    (State.removeStation s n cause).pending = s.pending ∧ (State.removeStation s n cause).localCount = s.localCount ∧
    (State.removeStation s n cause).member = s.member ∧ (State.removeStation s n cause).follower = s.follower ∧
    (State.removeStation s n cause).ports = s.ports ∧ (State.removeStation s n cause).store = s.store ∧
    (State.removeStation s n cause).announce = s.announce ∧ (State.removeStation s n cause).blend = s.blend ∧
    (State.removeStation s n cause).startUp = s.startUp ∧
    (State.removeStation s n cause).line.timerExpired = s.line.timerExpired ∧
    (State.removeStation s n cause).line.silentCount = s.line.silentCount ∧
    (State.removeStation s n cause).line.silent = s.line.silent ∧
    (State.removeStation s n cause).line.lead = s.line.lead ∧
    (State.removeStation s n cause).line.phase = s.line.phase ∧
    (State.removeStation s n cause).line.field = s.line.field ∧
    (State.removeStation s n cause).line.sent = s.line.sent ∧
    (State.removeStation s n cause).line.vetoing = s.line.vetoing ∧
    (State.removeStation s n cause).line.driven = s.line.driven ∧
    (State.removeStation s n cause).line.lineSamples = s.line.lineSamples ∧
    (State.removeStation s n cause).line.presenceCounter = s.line.presenceCounter ∧
    (State.removeStation s n cause).line.presenceDue = s.line.presenceDue ∧
    (State.removeStation s n cause).line.selfVeto = s.line.selfVeto ∧
    (State.removeStation s n cause).host.response = s.host.response ∧
    (State.removeStation s n cause).host.shifted = s.host.shifted ∧
    (State.removeStation s n cause).host.stayAwake = s.host.stayAwake := by
  refine ⟨?_, ?_, ?_, ?_, ?_, ?_, ?_, ?_, ?_, ?_, ?_, ?_, ?_, ?_, ?_, ?_, ?_, ?_, ?_, ?_, ?_, ?_, ?_, ?_, ?_⟩ <;>
  first
  | (unfold State.removeStation; first | (with_reducible rfl) | (simp; done))
  | (unfold State.removeStation; (try dsimp only); (repeat' split) <;> first | (with_reducible rfl) | (simp; done) | (simp_all; done))

@[simp] theorem State.ownRemoved_frame (s : State) :
    (State.ownRemoved s).pending = s.pending ∧ (State.ownRemoved s).localCount = s.localCount ∧
    (State.ownRemoved s).follower = s.follower ∧ (State.ownRemoved s).ports = s.ports ∧
    (State.ownRemoved s).store = s.store ∧ (State.ownRemoved s).announce = s.announce ∧
    (State.ownRemoved s).blend = s.blend ∧ (State.ownRemoved s).line.timerExpired = s.line.timerExpired ∧
    (State.ownRemoved s).line.silentCount = s.line.silentCount ∧ (State.ownRemoved s).line.silent = s.line.silent ∧
    (State.ownRemoved s).line.lead = s.line.lead ∧ (State.ownRemoved s).line.phase = s.line.phase ∧
    (State.ownRemoved s).line.field = s.line.field ∧ (State.ownRemoved s).line.driven = s.line.driven ∧
    (State.ownRemoved s).line.lineSamples = s.line.lineSamples ∧
    (State.ownRemoved s).host.response = s.host.response ∧ (State.ownRemoved s).host.shifted = s.host.shifted ∧
    (State.ownRemoved s).host.stayAwake = s.host.stayAwake ∧ (State.ownRemoved s).startUp.record = s.startUp.record ∧
    (State.ownRemoved s).startUp.reading = s.startUp.reading ∧
    (State.ownRemoved s).tables.frameCount = s.tables.frameCount := by
  refine ⟨?_, ?_, ?_, ?_, ?_, ?_, ?_, ?_, ?_, ?_, ?_, ?_, ?_, ?_, ?_, ?_, ?_, ?_, ?_, ?_, ?_⟩ <;>
  first
  | (unfold State.ownRemoved; first | (with_reducible rfl) | (simp; done))
  | (unfold State.ownRemoved; (try dsimp only); (repeat' split) <;> first | (with_reducible rfl) | (simp; done) | (simp_all; done))

end Sys2Proof.Machine
end

