-- ==== Sys2Proof/Laws/FramesMessages.lean ====
section
/-! SUPPORT. Frames: what each operation of messages that take effect leaves alone, one lemma for an operation. -/

namespace Sys2Proof.Machine

set_option maxRecDepth 20000

@[simp] theorem State.judgeJoin_frame (s : State) (sender : Nat) (roles : Byte) (zones privateZones : ZoneSet) (serial : BitVec 32) :
    (State.judgeJoin s sender roles zones privateZones serial).1.pending = s.pending ∧
    (State.judgeJoin s sender roles zones privateZones serial).1.localCount = s.localCount ∧
    (State.judgeJoin s sender roles zones privateZones serial).1.line = s.line ∧
    (State.judgeJoin s sender roles zones privateZones serial).1.member = s.member ∧
    (State.judgeJoin s sender roles zones privateZones serial).1.follower = s.follower ∧
    (State.judgeJoin s sender roles zones privateZones serial).1.ports = s.ports ∧
    (State.judgeJoin s sender roles zones privateZones serial).1.store = s.store ∧
    (State.judgeJoin s sender roles zones privateZones serial).1.mixer = s.mixer ∧
    (State.judgeJoin s sender roles zones privateZones serial).1.announce = s.announce ∧
    (State.judgeJoin s sender roles zones privateZones serial).1.blend = s.blend ∧
    (State.judgeJoin s sender roles zones privateZones serial).1.call = s.call ∧
    (State.judgeJoin s sender roles zones privateZones serial).1.note = s.note ∧
    (State.judgeJoin s sender roles zones privateZones serial).1.startUp = s.startUp ∧
    (State.judgeJoin s sender roles zones privateZones serial).1.host.response = s.host.response ∧
    (State.judgeJoin s sender roles zones privateZones serial).1.host.shifted = s.host.shifted ∧
    (State.judgeJoin s sender roles zones privateZones serial).1.host.stayAwake = s.host.stayAwake := by
  refine ⟨?_, ?_, ?_, ?_, ?_, ?_, ?_, ?_, ?_, ?_, ?_, ?_, ?_, ?_, ?_, ?_⟩ <;>
  first
  | (unfold State.judgeJoin; first | (with_reducible rfl) | (simp; done))
  | (unfold State.judgeJoin; (try dsimp only); (repeat' split) <;> first | (with_reducible rfl) | (simp; done) | (simp_all; done))

@[simp] theorem State.countDescriptor_frame (s : State) (before : LineTables) (sender : Nat) (owned : SlotSet) (d : Descriptor) :
    (State.countDescriptor s before sender owned d).pending = s.pending ∧
    (State.countDescriptor s before sender owned d).localCount = s.localCount ∧
    (State.countDescriptor s before sender owned d).line = s.line ∧
    (State.countDescriptor s before sender owned d).member = s.member ∧
    (State.countDescriptor s before sender owned d).follower = s.follower ∧
    (State.countDescriptor s before sender owned d).ports = s.ports ∧
    (State.countDescriptor s before sender owned d).store = s.store ∧
    (State.countDescriptor s before sender owned d).mixer = s.mixer ∧
    (State.countDescriptor s before sender owned d).announce = s.announce ∧
    (State.countDescriptor s before sender owned d).blend = s.blend ∧
    (State.countDescriptor s before sender owned d).call = s.call ∧
    (State.countDescriptor s before sender owned d).note = s.note ∧
    (State.countDescriptor s before sender owned d).host = s.host ∧
    (State.countDescriptor s before sender owned d).startUp = s.startUp ∧
    (State.countDescriptor s before sender owned d).tables.directory = s.tables.directory ∧
    (State.countDescriptor s before sender owned d).tables.slots = s.tables.slots ∧
    (State.countDescriptor s before sender owned d).tables.calls = s.tables.calls ∧
    (State.countDescriptor s before sender owned d).tables.frameCount = s.tables.frameCount := by
  refine ⟨?_, ?_, ?_, ?_, ?_, ?_, ?_, ?_, ?_, ?_, ?_, ?_, ?_, ?_, ?_, ?_, ?_, ?_⟩ <;>
  first
  | (unfold State.countDescriptor; first | (with_reducible rfl) | (simp; done))
  | (unfold State.countDescriptor; (try dsimp only); (repeat' split) <;> first | (with_reducible rfl) | (simp; done) | (simp_all; done))

@[simp] theorem State.judgePresence_frame (s : State) (sender : Nat) (roles : Byte) (zones privateZones : ZoneSet) (owned : SlotSet) (d : Descriptor) :
    (State.judgePresence s sender roles zones privateZones owned d).1.pending = s.pending ∧
    (State.judgePresence s sender roles zones privateZones owned d).1.localCount = s.localCount ∧
    (State.judgePresence s sender roles zones privateZones owned d).1.member = s.member ∧
    (State.judgePresence s sender roles zones privateZones owned d).1.follower = s.follower ∧
    (State.judgePresence s sender roles zones privateZones owned d).1.ports = s.ports ∧
    (State.judgePresence s sender roles zones privateZones owned d).1.store = s.store ∧
    (State.judgePresence s sender roles zones privateZones owned d).1.announce = s.announce ∧
    (State.judgePresence s sender roles zones privateZones owned d).1.blend = s.blend ∧
    (State.judgePresence s sender roles zones privateZones owned d).1.note = s.note ∧
    (State.judgePresence s sender roles zones privateZones owned d).1.startUp = s.startUp ∧
    (State.judgePresence s sender roles zones privateZones owned d).1.line.timerExpired = s.line.timerExpired ∧
    (State.judgePresence s sender roles zones privateZones owned d).1.line.silentCount = s.line.silentCount ∧
    (State.judgePresence s sender roles zones privateZones owned d).1.line.silent = s.line.silent ∧
    (State.judgePresence s sender roles zones privateZones owned d).1.line.lead = s.line.lead ∧
    (State.judgePresence s sender roles zones privateZones owned d).1.line.phase = s.line.phase ∧
    (State.judgePresence s sender roles zones privateZones owned d).1.line.field = s.line.field ∧
    (State.judgePresence s sender roles zones privateZones owned d).1.line.sent = s.line.sent ∧
    (State.judgePresence s sender roles zones privateZones owned d).1.line.vetoing = s.line.vetoing ∧
    (State.judgePresence s sender roles zones privateZones owned d).1.line.driven = s.line.driven ∧
    (State.judgePresence s sender roles zones privateZones owned d).1.line.lineSamples = s.line.lineSamples ∧
    (State.judgePresence s sender roles zones privateZones owned d).1.line.presenceCounter = s.line.presenceCounter ∧
    (State.judgePresence s sender roles zones privateZones owned d).1.line.presenceDue = s.line.presenceDue ∧
    (State.judgePresence s sender roles zones privateZones owned d).1.line.selfVeto = s.line.selfVeto ∧
    (State.judgePresence s sender roles zones privateZones owned d).1.host.response = s.host.response ∧
    (State.judgePresence s sender roles zones privateZones owned d).1.host.shifted = s.host.shifted ∧
    (State.judgePresence s sender roles zones privateZones owned d).1.host.stayAwake = s.host.stayAwake := by
  refine ⟨?_, ?_, ?_, ?_, ?_, ?_, ?_, ?_, ?_, ?_, ?_, ?_, ?_, ?_, ?_, ?_, ?_, ?_, ?_, ?_, ?_, ?_, ?_, ?_, ?_, ?_⟩ <;>
  first
  | (unfold State.judgePresence; first | (with_reducible rfl) | (simp; done))
  | (unfold State.judgePresence; (try dsimp only); (repeat' split) <;> first | (with_reducible rfl) | (simp; done) | (simp_all; done))

@[simp] theorem State.judgeLeave_frame (s : State) (sender : Nat) :
    (State.judgeLeave s sender).1.pending = s.pending ∧ (State.judgeLeave s sender).1.localCount = s.localCount ∧
    (State.judgeLeave s sender).1.member = s.member ∧ (State.judgeLeave s sender).1.follower = s.follower ∧
    (State.judgeLeave s sender).1.ports = s.ports ∧ (State.judgeLeave s sender).1.store = s.store ∧
    (State.judgeLeave s sender).1.announce = s.announce ∧ (State.judgeLeave s sender).1.blend = s.blend ∧
    (State.judgeLeave s sender).1.startUp = s.startUp ∧
    (State.judgeLeave s sender).1.line.timerExpired = s.line.timerExpired ∧
    (State.judgeLeave s sender).1.line.silentCount = s.line.silentCount ∧
    (State.judgeLeave s sender).1.line.silent = s.line.silent ∧
    (State.judgeLeave s sender).1.line.lead = s.line.lead ∧ (State.judgeLeave s sender).1.line.phase = s.line.phase ∧
    (State.judgeLeave s sender).1.line.field = s.line.field ∧ (State.judgeLeave s sender).1.line.sent = s.line.sent ∧
    (State.judgeLeave s sender).1.line.vetoing = s.line.vetoing ∧
    (State.judgeLeave s sender).1.line.driven = s.line.driven ∧
    (State.judgeLeave s sender).1.line.lineSamples = s.line.lineSamples ∧
    (State.judgeLeave s sender).1.line.presenceCounter = s.line.presenceCounter ∧
    (State.judgeLeave s sender).1.line.presenceDue = s.line.presenceDue ∧
    (State.judgeLeave s sender).1.line.selfVeto = s.line.selfVeto ∧
    (State.judgeLeave s sender).1.host.response = s.host.response ∧
    (State.judgeLeave s sender).1.host.shifted = s.host.shifted ∧
    (State.judgeLeave s sender).1.host.stayAwake = s.host.stayAwake := by
  refine ⟨?_, ?_, ?_, ?_, ?_, ?_, ?_, ?_, ?_, ?_, ?_, ?_, ?_, ?_, ?_, ?_, ?_, ?_, ?_, ?_, ?_, ?_, ?_, ?_, ?_⟩ <;>
  first
  | (unfold State.judgeLeave; first | (with_reducible rfl) | (simp; done))
  | (unfold State.judgeLeave; (try dsimp only); (repeat' split) <;> first | (with_reducible rfl) | (simp; done) | (simp_all; done))

@[simp] theorem State.judgeStream_frame (s : State) (sender : Nat) (kind : Cause) (verdict : LineTables → LineTables × Cause) :
    (State.judgeStream s sender kind verdict).1.pending = s.pending ∧
    (State.judgeStream s sender kind verdict).1.localCount = s.localCount ∧
    (State.judgeStream s sender kind verdict).1.member = s.member ∧
    (State.judgeStream s sender kind verdict).1.follower = s.follower ∧
    (State.judgeStream s sender kind verdict).1.ports = s.ports ∧
    (State.judgeStream s sender kind verdict).1.store = s.store ∧
    (State.judgeStream s sender kind verdict).1.announce = s.announce ∧
    (State.judgeStream s sender kind verdict).1.blend = s.blend ∧
    (State.judgeStream s sender kind verdict).1.note = s.note ∧
    (State.judgeStream s sender kind verdict).1.startUp = s.startUp ∧
    (State.judgeStream s sender kind verdict).1.line.timerExpired = s.line.timerExpired ∧
    (State.judgeStream s sender kind verdict).1.line.silentCount = s.line.silentCount ∧
    (State.judgeStream s sender kind verdict).1.line.silent = s.line.silent ∧
    (State.judgeStream s sender kind verdict).1.line.lead = s.line.lead ∧
    (State.judgeStream s sender kind verdict).1.line.phase = s.line.phase ∧
    (State.judgeStream s sender kind verdict).1.line.field = s.line.field ∧
    (State.judgeStream s sender kind verdict).1.line.sent = s.line.sent ∧
    (State.judgeStream s sender kind verdict).1.line.vetoing = s.line.vetoing ∧
    (State.judgeStream s sender kind verdict).1.line.driven = s.line.driven ∧
    (State.judgeStream s sender kind verdict).1.line.lineSamples = s.line.lineSamples ∧
    (State.judgeStream s sender kind verdict).1.line.presenceCounter = s.line.presenceCounter ∧
    (State.judgeStream s sender kind verdict).1.line.presenceDue = s.line.presenceDue ∧
    (State.judgeStream s sender kind verdict).1.line.selfVeto = s.line.selfVeto ∧
    (State.judgeStream s sender kind verdict).1.host.response = s.host.response ∧
    (State.judgeStream s sender kind verdict).1.host.shifted = s.host.shifted ∧
    (State.judgeStream s sender kind verdict).1.host.stayAwake = s.host.stayAwake := by
  refine ⟨?_, ?_, ?_, ?_, ?_, ?_, ?_, ?_, ?_, ?_, ?_, ?_, ?_, ?_, ?_, ?_, ?_, ?_, ?_, ?_, ?_, ?_, ?_, ?_, ?_, ?_⟩ <;>
  first
  | (unfold State.judgeStream; first | (with_reducible rfl) | (simp; done))
  | (unfold State.judgeStream; (try dsimp only); (repeat' split) <;> first | (with_reducible rfl) | (simp; done) | (simp_all; done))

@[simp] theorem State.judgeCallMessage_frame (s : State) (sender j action : Nat) (f : CallFields) :
    (State.judgeCallMessage s sender j action f).1.pending = s.pending ∧
    (State.judgeCallMessage s sender j action f).1.localCount = s.localCount ∧
    (State.judgeCallMessage s sender j action f).1.member = s.member ∧
    (State.judgeCallMessage s sender j action f).1.follower = s.follower ∧
    (State.judgeCallMessage s sender j action f).1.ports = s.ports ∧
    (State.judgeCallMessage s sender j action f).1.store = s.store ∧
    (State.judgeCallMessage s sender j action f).1.announce = s.announce ∧
    (State.judgeCallMessage s sender j action f).1.blend = s.blend ∧
    (State.judgeCallMessage s sender j action f).1.note = s.note ∧
    (State.judgeCallMessage s sender j action f).1.startUp = s.startUp ∧
    (State.judgeCallMessage s sender j action f).1.line.timerExpired = s.line.timerExpired ∧
    (State.judgeCallMessage s sender j action f).1.line.silentCount = s.line.silentCount ∧
    (State.judgeCallMessage s sender j action f).1.line.silent = s.line.silent ∧
    (State.judgeCallMessage s sender j action f).1.line.lead = s.line.lead ∧
    (State.judgeCallMessage s sender j action f).1.line.phase = s.line.phase ∧
    (State.judgeCallMessage s sender j action f).1.line.field = s.line.field ∧
    (State.judgeCallMessage s sender j action f).1.line.sent = s.line.sent ∧
    (State.judgeCallMessage s sender j action f).1.line.vetoing = s.line.vetoing ∧
    (State.judgeCallMessage s sender j action f).1.line.driven = s.line.driven ∧
    (State.judgeCallMessage s sender j action f).1.line.lineSamples = s.line.lineSamples ∧
    (State.judgeCallMessage s sender j action f).1.line.presenceCounter = s.line.presenceCounter ∧
    (State.judgeCallMessage s sender j action f).1.line.presenceDue = s.line.presenceDue ∧
    (State.judgeCallMessage s sender j action f).1.line.selfVeto = s.line.selfVeto ∧
    (State.judgeCallMessage s sender j action f).1.host.response = s.host.response ∧
    (State.judgeCallMessage s sender j action f).1.host.shifted = s.host.shifted ∧
    (State.judgeCallMessage s sender j action f).1.host.stayAwake = s.host.stayAwake := by
  refine ⟨?_, ?_, ?_, ?_, ?_, ?_, ?_, ?_, ?_, ?_, ?_, ?_, ?_, ?_, ?_, ?_, ?_, ?_, ?_, ?_, ?_, ?_, ?_, ?_, ?_, ?_⟩ <;>
  first
  | (unfold State.judgeCallMessage; first | (with_reducible rfl) | (simp; done))
  | (unfold State.judgeCallMessage; (try dsimp only); (repeat' split) <;> first | (with_reducible rfl) | (simp; done) | (simp_all; done))

@[simp] theorem State.answerRoute_frame (s : State) (sender : Nat) (zone stream : Byte) (verdict : RouteVerdict) :
    (State.answerRoute s sender zone stream verdict).pending = s.pending ∧
    (State.answerRoute s sender zone stream verdict).localCount = s.localCount ∧
    (State.answerRoute s sender zone stream verdict).tables = s.tables ∧
    (State.answerRoute s sender zone stream verdict).member = s.member ∧
    (State.answerRoute s sender zone stream verdict).follower = s.follower ∧
    (State.answerRoute s sender zone stream verdict).ports = s.ports ∧
    (State.answerRoute s sender zone stream verdict).store = s.store ∧
    (State.answerRoute s sender zone stream verdict).mixer = s.mixer ∧
    (State.answerRoute s sender zone stream verdict).announce = s.announce ∧
    (State.answerRoute s sender zone stream verdict).blend = s.blend ∧
    (State.answerRoute s sender zone stream verdict).note = s.note ∧
    (State.answerRoute s sender zone stream verdict).host = s.host ∧
    (State.answerRoute s sender zone stream verdict).startUp = s.startUp ∧
    (State.answerRoute s sender zone stream verdict).line.timerExpired = s.line.timerExpired ∧
    (State.answerRoute s sender zone stream verdict).line.silentCount = s.line.silentCount ∧
    (State.answerRoute s sender zone stream verdict).line.silent = s.line.silent ∧
    (State.answerRoute s sender zone stream verdict).line.lead = s.line.lead ∧
    (State.answerRoute s sender zone stream verdict).line.phase = s.line.phase ∧
    (State.answerRoute s sender zone stream verdict).line.field = s.line.field ∧
    (State.answerRoute s sender zone stream verdict).line.sent = s.line.sent ∧
    (State.answerRoute s sender zone stream verdict).line.vetoing = s.line.vetoing ∧
    (State.answerRoute s sender zone stream verdict).line.bindings = s.line.bindings ∧
    (State.answerRoute s sender zone stream verdict).line.driven = s.line.driven ∧
    (State.answerRoute s sender zone stream verdict).line.lineSamples = s.line.lineSamples ∧
    (State.answerRoute s sender zone stream verdict).line.presenceCounter = s.line.presenceCounter ∧
    (State.answerRoute s sender zone stream verdict).line.presenceDue = s.line.presenceDue ∧
    (State.answerRoute s sender zone stream verdict).line.selfVeto = s.line.selfVeto := by
  refine ⟨?_, ?_, ?_, ?_, ?_, ?_, ?_, ?_, ?_, ?_, ?_, ?_, ?_, ?_, ?_, ?_, ?_, ?_, ?_, ?_, ?_, ?_, ?_, ?_, ?_, ?_, ?_⟩ <;>
  first
  | (unfold State.answerRoute; first | (with_reducible rfl) | (simp; done))
  | (unfold State.answerRoute; (try dsimp only); (repeat' split) <;> first | (with_reducible rfl) | (simp; done) | (simp_all; done))

@[simp] theorem State.judgeRouteMessage_frame (s : State) (sender : Nat) (zone stream action level : Byte) :
    (State.judgeRouteMessage s sender zone stream action level).pending = s.pending ∧
    (State.judgeRouteMessage s sender zone stream action level).localCount = s.localCount ∧
    (State.judgeRouteMessage s sender zone stream action level).tables = s.tables ∧
    (State.judgeRouteMessage s sender zone stream action level).member = s.member ∧
    (State.judgeRouteMessage s sender zone stream action level).follower = s.follower ∧
    (State.judgeRouteMessage s sender zone stream action level).ports = s.ports ∧
    (State.judgeRouteMessage s sender zone stream action level).store = s.store ∧
    (State.judgeRouteMessage s sender zone stream action level).announce = s.announce ∧
    (State.judgeRouteMessage s sender zone stream action level).blend = s.blend ∧
    (State.judgeRouteMessage s sender zone stream action level).note = s.note ∧
    (State.judgeRouteMessage s sender zone stream action level).host = s.host ∧
    (State.judgeRouteMessage s sender zone stream action level).startUp = s.startUp ∧
    (State.judgeRouteMessage s sender zone stream action level).line.timerExpired = s.line.timerExpired ∧
    (State.judgeRouteMessage s sender zone stream action level).line.silentCount = s.line.silentCount ∧
    (State.judgeRouteMessage s sender zone stream action level).line.silent = s.line.silent ∧
    (State.judgeRouteMessage s sender zone stream action level).line.lead = s.line.lead ∧
    (State.judgeRouteMessage s sender zone stream action level).line.phase = s.line.phase ∧
    (State.judgeRouteMessage s sender zone stream action level).line.field = s.line.field ∧
    (State.judgeRouteMessage s sender zone stream action level).line.sent = s.line.sent ∧
    (State.judgeRouteMessage s sender zone stream action level).line.vetoing = s.line.vetoing ∧
    (State.judgeRouteMessage s sender zone stream action level).line.bindings = s.line.bindings ∧
    (State.judgeRouteMessage s sender zone stream action level).line.driven = s.line.driven ∧
    (State.judgeRouteMessage s sender zone stream action level).line.lineSamples = s.line.lineSamples ∧
    (State.judgeRouteMessage s sender zone stream action level).line.presenceCounter = s.line.presenceCounter ∧
    (State.judgeRouteMessage s sender zone stream action level).line.presenceDue = s.line.presenceDue ∧
    (State.judgeRouteMessage s sender zone stream action level).line.selfVeto = s.line.selfVeto := by
  refine ⟨?_, ?_, ?_, ?_, ?_, ?_, ?_, ?_, ?_, ?_, ?_, ?_, ?_, ?_, ?_, ?_, ?_, ?_, ?_, ?_, ?_, ?_, ?_, ?_, ?_, ?_⟩ <;>
  first
  | (unfold State.judgeRouteMessage; first | (with_reducible rfl) | (simp; done))
  | (unfold State.judgeRouteMessage; (try dsimp only); (repeat' split) <;> first | (with_reducible rfl) | (simp; done) | (simp_all; done))

@[simp] theorem State.takeRouteAnswer_frame (s : State) (requester zone stream verdict : Byte) :
    (State.takeRouteAnswer s requester zone stream verdict).pending = s.pending ∧
    (State.takeRouteAnswer s requester zone stream verdict).localCount = s.localCount ∧
    (State.takeRouteAnswer s requester zone stream verdict).line = s.line ∧
    (State.takeRouteAnswer s requester zone stream verdict).tables = s.tables ∧
    (State.takeRouteAnswer s requester zone stream verdict).member = s.member ∧
    (State.takeRouteAnswer s requester zone stream verdict).follower = s.follower ∧
    (State.takeRouteAnswer s requester zone stream verdict).ports = s.ports ∧
    (State.takeRouteAnswer s requester zone stream verdict).store = s.store ∧
    (State.takeRouteAnswer s requester zone stream verdict).mixer = s.mixer ∧
    (State.takeRouteAnswer s requester zone stream verdict).announce = s.announce ∧
    (State.takeRouteAnswer s requester zone stream verdict).blend = s.blend ∧
    (State.takeRouteAnswer s requester zone stream verdict).call = s.call ∧
    (State.takeRouteAnswer s requester zone stream verdict).note = s.note ∧
    (State.takeRouteAnswer s requester zone stream verdict).startUp = s.startUp ∧
    (State.takeRouteAnswer s requester zone stream verdict).host.response = s.host.response ∧
    (State.takeRouteAnswer s requester zone stream verdict).host.shifted = s.host.shifted ∧
    (State.takeRouteAnswer s requester zone stream verdict).host.stayAwake = s.host.stayAwake := by
  refine ⟨?_, ?_, ?_, ?_, ?_, ?_, ?_, ?_, ?_, ?_, ?_, ?_, ?_, ?_, ?_, ?_, ?_⟩ <;>
  first
  | (unfold State.takeRouteAnswer; first | (with_reducible rfl) | (simp; done))
  | (unfold State.takeRouteAnswer; (try dsimp only); (repeat' split) <;> first | (with_reducible rfl) | (simp; done) | (simp_all; done))

@[simp] theorem State.takePart_frame (s : State) (sender index total : Nat) (data : BitVec 128) :
    (State.takePart s sender index total data).pending = s.pending ∧
    (State.takePart s sender index total data).localCount = s.localCount ∧
    (State.takePart s sender index total data).line = s.line ∧
    (State.takePart s sender index total data).tables = s.tables ∧
    (State.takePart s sender index total data).member = s.member ∧
    (State.takePart s sender index total data).follower = s.follower ∧
    (State.takePart s sender index total data).ports = s.ports ∧
    (State.takePart s sender index total data).store = s.store ∧
    (State.takePart s sender index total data).mixer = s.mixer ∧
    (State.takePart s sender index total data).announce = s.announce ∧
    (State.takePart s sender index total data).blend = s.blend ∧
    (State.takePart s sender index total data).call = s.call ∧
    (State.takePart s sender index total data).startUp = s.startUp ∧
    (State.takePart s sender index total data).host.response = s.host.response ∧
    (State.takePart s sender index total data).host.shifted = s.host.shifted ∧
    (State.takePart s sender index total data).host.stayAwake = s.host.stayAwake ∧
    (State.takePart s sender index total data).note.outbound = s.note.outbound := by
  refine ⟨?_, ?_, ?_, ?_, ?_, ?_, ?_, ?_, ?_, ?_, ?_, ?_, ?_, ?_, ?_, ?_, ?_⟩ <;>
  first
  | (unfold State.takePart; first | (with_reducible rfl) | (simp; done))
  | (unfold State.takePart; (try dsimp only); (repeat' split) <;> first | (with_reducible rfl) | (simp; done) | (simp_all; done))

@[simp] theorem State.judgeNotePart_frame (s : State) (sender : Nat) (target index : Byte) (total : BitVec 16) (data : BitVec 128) :
    (State.judgeNotePart s sender target index total data).pending = s.pending ∧
    (State.judgeNotePart s sender target index total data).localCount = s.localCount ∧
    (State.judgeNotePart s sender target index total data).line = s.line ∧
    (State.judgeNotePart s sender target index total data).tables = s.tables ∧
    (State.judgeNotePart s sender target index total data).member = s.member ∧
    (State.judgeNotePart s sender target index total data).follower = s.follower ∧
    (State.judgeNotePart s sender target index total data).ports = s.ports ∧
    (State.judgeNotePart s sender target index total data).store = s.store ∧
    (State.judgeNotePart s sender target index total data).mixer = s.mixer ∧
    (State.judgeNotePart s sender target index total data).announce = s.announce ∧
    (State.judgeNotePart s sender target index total data).blend = s.blend ∧
    (State.judgeNotePart s sender target index total data).call = s.call ∧
    (State.judgeNotePart s sender target index total data).startUp = s.startUp ∧
    (State.judgeNotePart s sender target index total data).host.response = s.host.response ∧
    (State.judgeNotePart s sender target index total data).host.shifted = s.host.shifted ∧
    (State.judgeNotePart s sender target index total data).host.stayAwake = s.host.stayAwake ∧
    (State.judgeNotePart s sender target index total data).note.outbound = s.note.outbound := by
  refine ⟨?_, ?_, ?_, ?_, ?_, ?_, ?_, ?_, ?_, ?_, ?_, ?_, ?_, ?_, ?_, ?_, ?_⟩ <;>
  first
  | (unfold State.judgeNotePart; first | (with_reducible rfl) | (simp; done))
  | (unfold State.judgeNotePart; (try dsimp only); (repeat' split) <;> first | (with_reducible rfl) | (simp; done) | (simp_all; done))

@[simp] theorem State.judge_frame (s : State) (sender : Nat) (m : Message) :
    (State.judge s sender m).1.pending = s.pending ∧ (State.judge s sender m).1.localCount = s.localCount ∧
    (State.judge s sender m).1.member = s.member ∧ (State.judge s sender m).1.follower = s.follower ∧
    (State.judge s sender m).1.ports = s.ports ∧ (State.judge s sender m).1.store = s.store ∧
    (State.judge s sender m).1.announce = s.announce ∧ (State.judge s sender m).1.blend = s.blend ∧
    (State.judge s sender m).1.startUp = s.startUp ∧
    (State.judge s sender m).1.line.timerExpired = s.line.timerExpired ∧
    (State.judge s sender m).1.line.silentCount = s.line.silentCount ∧
    (State.judge s sender m).1.line.silent = s.line.silent ∧ (State.judge s sender m).1.line.lead = s.line.lead ∧
    (State.judge s sender m).1.line.phase = s.line.phase ∧ (State.judge s sender m).1.line.field = s.line.field ∧
    (State.judge s sender m).1.line.sent = s.line.sent ∧ (State.judge s sender m).1.line.vetoing = s.line.vetoing ∧
    (State.judge s sender m).1.line.driven = s.line.driven ∧
    (State.judge s sender m).1.line.lineSamples = s.line.lineSamples ∧
    (State.judge s sender m).1.line.presenceCounter = s.line.presenceCounter ∧
    (State.judge s sender m).1.line.presenceDue = s.line.presenceDue ∧
    (State.judge s sender m).1.line.selfVeto = s.line.selfVeto ∧
    (State.judge s sender m).1.host.response = s.host.response ∧
    (State.judge s sender m).1.host.shifted = s.host.shifted ∧
    (State.judge s sender m).1.host.stayAwake = s.host.stayAwake := by
  refine ⟨?_, ?_, ?_, ?_, ?_, ?_, ?_, ?_, ?_, ?_, ?_, ?_, ?_, ?_, ?_, ?_, ?_, ?_, ?_, ?_, ?_, ?_, ?_, ?_, ?_⟩ <;>
  (unfold State.judge; cases m <;> dsimp only <;> (repeat' split) <;> first | (with_reducible rfl) | (simp; done))

@[simp] theorem State.refreshAge_frame (s : State) (sender : Nat) :
    (State.refreshAge s sender).pending = s.pending ∧ (State.refreshAge s sender).localCount = s.localCount ∧
    (State.refreshAge s sender).line = s.line ∧ (State.refreshAge s sender).member = s.member ∧
    (State.refreshAge s sender).follower = s.follower ∧ (State.refreshAge s sender).ports = s.ports ∧
    (State.refreshAge s sender).store = s.store ∧ (State.refreshAge s sender).mixer = s.mixer ∧
    (State.refreshAge s sender).announce = s.announce ∧ (State.refreshAge s sender).blend = s.blend ∧
    (State.refreshAge s sender).call = s.call ∧ (State.refreshAge s sender).note = s.note ∧
    (State.refreshAge s sender).host = s.host ∧ (State.refreshAge s sender).startUp = s.startUp ∧
    (State.refreshAge s sender).tables.directory = s.tables.directory ∧
    (State.refreshAge s sender).tables.slots = s.tables.slots ∧
    (State.refreshAge s sender).tables.calls = s.tables.calls ∧
    (State.refreshAge s sender).tables.frameCount = s.tables.frameCount := by
  refine ⟨?_, ?_, ?_, ?_, ?_, ?_, ?_, ?_, ?_, ?_, ?_, ?_, ?_, ?_, ?_, ?_, ?_, ?_⟩ <;>
  first
  | (unfold State.refreshAge; first | (with_reducible rfl) | (simp; done))
  | (unfold State.refreshAge; (try dsimp only); (repeat' split) <;> first | (with_reducible rfl) | (simp; done) | (simp_all; done))

@[simp] theorem State.placeBinding_frame (s : State) (before : LineTables) (e : QueueEntry) :
    (State.placeBinding s before e).pending = s.pending ∧ (State.placeBinding s before e).localCount = s.localCount ∧
    (State.placeBinding s before e).tables = s.tables ∧ (State.placeBinding s before e).member = s.member ∧
    (State.placeBinding s before e).follower = s.follower ∧ (State.placeBinding s before e).ports = s.ports ∧
    (State.placeBinding s before e).store = s.store ∧ (State.placeBinding s before e).mixer = s.mixer ∧
    (State.placeBinding s before e).announce = s.announce ∧ (State.placeBinding s before e).blend = s.blend ∧
    (State.placeBinding s before e).call = s.call ∧ (State.placeBinding s before e).note = s.note ∧
    (State.placeBinding s before e).host = s.host ∧ (State.placeBinding s before e).startUp = s.startUp ∧
    (State.placeBinding s before e).line.timerExpired = s.line.timerExpired ∧
    (State.placeBinding s before e).line.silentCount = s.line.silentCount ∧
    (State.placeBinding s before e).line.silent = s.line.silent ∧
    (State.placeBinding s before e).line.lead = s.line.lead ∧
    (State.placeBinding s before e).line.phase = s.line.phase ∧
    (State.placeBinding s before e).line.field = s.line.field ∧
    (State.placeBinding s before e).line.sent = s.line.sent ∧
    (State.placeBinding s before e).line.vetoing = s.line.vetoing ∧
    (State.placeBinding s before e).line.queue = s.line.queue ∧
    (State.placeBinding s before e).line.waiting = s.line.waiting ∧
    (State.placeBinding s before e).line.driven = s.line.driven ∧
    (State.placeBinding s before e).line.lineSamples = s.line.lineSamples ∧
    (State.placeBinding s before e).line.presenceCounter = s.line.presenceCounter ∧
    (State.placeBinding s before e).line.presenceDue = s.line.presenceDue ∧
    (State.placeBinding s before e).line.selfVeto = s.line.selfVeto ∧
    (State.placeBinding s before e).line.nextOrder = s.line.nextOrder := by
  refine ⟨?_, ?_, ?_, ?_, ?_, ?_, ?_, ?_, ?_, ?_, ?_, ?_, ?_, ?_, ?_, ?_, ?_, ?_, ?_, ?_, ?_, ?_, ?_, ?_, ?_, ?_, ?_, ?_, ?_, ?_⟩ <;>
  first
  | (unfold State.placeBinding; first | (with_reducible rfl) | (simp; done))
  | (unfold State.placeBinding; (try dsimp only); (repeat' split) <;> first | (with_reducible rfl) | (simp; done) | (simp_all; done))

@[simp] theorem State.concludeOwn_frame (s : State) (before : LineTables) (sent : Sent) (verdict : Cause) :
    (State.concludeOwn s before sent verdict).pending = s.pending ∧
    (State.concludeOwn s before sent verdict).localCount = s.localCount ∧
    (State.concludeOwn s before sent verdict).tables = s.tables ∧
    (State.concludeOwn s before sent verdict).follower = s.follower ∧
    (State.concludeOwn s before sent verdict).ports = s.ports ∧
    (State.concludeOwn s before sent verdict).store = s.store ∧
    (State.concludeOwn s before sent verdict).mixer = s.mixer ∧
    (State.concludeOwn s before sent verdict).announce = s.announce ∧
    (State.concludeOwn s before sent verdict).blend = s.blend ∧
    (State.concludeOwn s before sent verdict).line.timerExpired = s.line.timerExpired ∧
    (State.concludeOwn s before sent verdict).line.silentCount = s.line.silentCount ∧
    (State.concludeOwn s before sent verdict).line.silent = s.line.silent ∧
    (State.concludeOwn s before sent verdict).line.lead = s.line.lead ∧
    (State.concludeOwn s before sent verdict).line.phase = s.line.phase ∧
    (State.concludeOwn s before sent verdict).line.field = s.line.field ∧
    (State.concludeOwn s before sent verdict).line.sent = s.line.sent ∧
    (State.concludeOwn s before sent verdict).line.vetoing = s.line.vetoing ∧
    (State.concludeOwn s before sent verdict).line.driven = s.line.driven ∧
    (State.concludeOwn s before sent verdict).line.lineSamples = s.line.lineSamples ∧
    (State.concludeOwn s before sent verdict).line.selfVeto = s.line.selfVeto ∧
    (State.concludeOwn s before sent verdict).member.station = s.member.station ∧
    (State.concludeOwn s before sent verdict).member.cause = s.member.cause ∧
    (State.concludeOwn s before sent verdict).host.response = s.host.response ∧
    (State.concludeOwn s before sent verdict).host.shifted = s.host.shifted ∧
    (State.concludeOwn s before sent verdict).host.stayAwake = s.host.stayAwake ∧
    (State.concludeOwn s before sent verdict).startUp.record = s.startUp.record ∧
    (State.concludeOwn s before sent verdict).startUp.reading = s.startUp.reading ∧
    (State.concludeOwn s before sent verdict).note.box = s.note.box := by
  refine ⟨?_, ?_, ?_, ?_, ?_, ?_, ?_, ?_, ?_, ?_, ?_, ?_, ?_, ?_, ?_, ?_, ?_, ?_, ?_, ?_, ?_, ?_, ?_, ?_, ?_, ?_, ?_, ?_⟩ <;>
  first
  | (unfold State.concludeOwn; first | (with_reducible rfl) | (simp; done))
  | (unfold State.concludeOwn; (try dsimp only); (repeat' split) <;> first | (with_reducible rfl) | (simp; done) | (simp_all; done))

@[simp] theorem State.moveByMessage_frame (s : State) (own : Bool) (sender : Nat) (m : Message) (verdict : Cause) :
    (State.moveByMessage s own sender m verdict).pending = s.pending ∧
    (State.moveByMessage s own sender m verdict).localCount = s.localCount ∧
    (State.moveByMessage s own sender m verdict).follower = s.follower ∧
    (State.moveByMessage s own sender m verdict).ports = s.ports ∧
    (State.moveByMessage s own sender m verdict).store = s.store ∧
    (State.moveByMessage s own sender m verdict).announce = s.announce ∧
    (State.moveByMessage s own sender m verdict).blend = s.blend ∧
    (State.moveByMessage s own sender m verdict).line.timerExpired = s.line.timerExpired ∧
    (State.moveByMessage s own sender m verdict).line.silentCount = s.line.silentCount ∧
    (State.moveByMessage s own sender m verdict).line.silent = s.line.silent ∧
    (State.moveByMessage s own sender m verdict).line.lead = s.line.lead ∧
    (State.moveByMessage s own sender m verdict).line.phase = s.line.phase ∧
    (State.moveByMessage s own sender m verdict).line.field = s.line.field ∧
    (State.moveByMessage s own sender m verdict).line.driven = s.line.driven ∧
    (State.moveByMessage s own sender m verdict).line.lineSamples = s.line.lineSamples ∧
    (State.moveByMessage s own sender m verdict).host.response = s.host.response ∧
    (State.moveByMessage s own sender m verdict).host.shifted = s.host.shifted ∧
    (State.moveByMessage s own sender m verdict).host.stayAwake = s.host.stayAwake ∧
    (State.moveByMessage s own sender m verdict).startUp.record = s.startUp.record ∧
    (State.moveByMessage s own sender m verdict).startUp.reading = s.startUp.reading ∧
    (State.moveByMessage s own sender m verdict).tables.frameCount = s.tables.frameCount := by
  refine ⟨?_, ?_, ?_, ?_, ?_, ?_, ?_, ?_, ?_, ?_, ?_, ?_, ?_, ?_, ?_, ?_, ?_, ?_, ?_, ?_, ?_⟩ <;>
  (unfold State.moveByMessage; cases m <;> dsimp only <;> (repeat' split) <;> first | (with_reducible rfl) | (simp; done))

@[simp] theorem State.takeEffect_frame (s : State) (sender : Nat) (m : Message) :
    (State.takeEffect s sender m).pending = s.pending ∧ (State.takeEffect s sender m).localCount = s.localCount ∧
    (State.takeEffect s sender m).follower = s.follower ∧ (State.takeEffect s sender m).ports = s.ports ∧
    (State.takeEffect s sender m).store = s.store ∧ (State.takeEffect s sender m).announce = s.announce ∧
    (State.takeEffect s sender m).blend = s.blend ∧
    (State.takeEffect s sender m).line.timerExpired = s.line.timerExpired ∧
    (State.takeEffect s sender m).line.silentCount = s.line.silentCount ∧
    (State.takeEffect s sender m).line.silent = s.line.silent ∧
    (State.takeEffect s sender m).line.lead = s.line.lead ∧ (State.takeEffect s sender m).line.phase = s.line.phase ∧
    (State.takeEffect s sender m).line.field = s.line.field ∧
    (State.takeEffect s sender m).line.driven = s.line.driven ∧
    (State.takeEffect s sender m).line.lineSamples = s.line.lineSamples ∧
    (State.takeEffect s sender m).host.response = s.host.response ∧
    (State.takeEffect s sender m).host.shifted = s.host.shifted ∧
    (State.takeEffect s sender m).host.stayAwake = s.host.stayAwake ∧
    (State.takeEffect s sender m).startUp.record = s.startUp.record ∧
    (State.takeEffect s sender m).startUp.reading = s.startUp.reading := by
  refine ⟨?_, ?_, ?_, ?_, ?_, ?_, ?_, ?_, ?_, ?_, ?_, ?_, ?_, ?_, ?_, ?_, ?_, ?_, ?_, ?_⟩ <;>
  (unfold State.takeEffect; dsimp only; split <;> first | (with_reducible rfl) | (simp; done))

end Sys2Proof.Machine
end

