-- ==== Sys2Proof/Laws/FramesFollower.lean ====
section
/-! SUPPORT. Frames: what each operation of the clock follower leaves alone, one lemma for an operation. -/

namespace Sys2Proof.Machine

set_option maxRecDepth 20000

@[simp] theorem State.follow_frame (s : State) (new : FollowerState) (cause : Cause) :
    (State.follow s new cause).pending = s.pending ∧ (State.follow s new cause).localCount = s.localCount ∧
    (State.follow s new cause).line = s.line ∧ (State.follow s new cause).tables = s.tables ∧
    (State.follow s new cause).member = s.member ∧ (State.follow s new cause).ports = s.ports ∧
    (State.follow s new cause).store = s.store ∧ (State.follow s new cause).mixer = s.mixer ∧
    (State.follow s new cause).announce = s.announce ∧ (State.follow s new cause).blend = s.blend ∧
    (State.follow s new cause).call = s.call ∧ (State.follow s new cause).note = s.note ∧
    (State.follow s new cause).startUp = s.startUp ∧ (State.follow s new cause).host.response = s.host.response ∧
    (State.follow s new cause).host.shifted = s.host.shifted ∧
    (State.follow s new cause).host.stayAwake = s.host.stayAwake := by
  refine ⟨?_, ?_, ?_, ?_, ?_, ?_, ?_, ?_, ?_, ?_, ?_, ?_, ?_, ?_, ?_, ?_⟩ <;>
  first
  | (unfold State.follow; first | (with_reducible rfl) | (simp; done))
  | (unfold State.follow; (try dsimp only); (repeat' split) <;> first | (with_reducible rfl) | (simp; done) | (simp_all; done))

@[simp] theorem State.judgeOnTime_frame (s : State) :
    (State.judgeOnTime s).pending = s.pending ∧ (State.judgeOnTime s).localCount = s.localCount ∧
    (State.judgeOnTime s).line = s.line ∧ (State.judgeOnTime s).tables = s.tables ∧
    (State.judgeOnTime s).member = s.member ∧ (State.judgeOnTime s).ports = s.ports ∧
    (State.judgeOnTime s).store = s.store ∧ (State.judgeOnTime s).mixer = s.mixer ∧
    (State.judgeOnTime s).announce = s.announce ∧ (State.judgeOnTime s).blend = s.blend ∧
    (State.judgeOnTime s).call = s.call ∧ (State.judgeOnTime s).note = s.note ∧
    (State.judgeOnTime s).startUp = s.startUp ∧ (State.judgeOnTime s).host.response = s.host.response ∧
    (State.judgeOnTime s).host.shifted = s.host.shifted ∧ (State.judgeOnTime s).host.stayAwake = s.host.stayAwake := by
  refine ⟨?_, ?_, ?_, ?_, ?_, ?_, ?_, ?_, ?_, ?_, ?_, ?_, ?_, ?_, ?_, ?_⟩ <;>
  first
  | (unfold State.judgeOnTime; first | (with_reducible rfl) | (simp; done))
  | (unfold State.judgeOnTime; (try dsimp only); (repeat' split) <;> first | (with_reducible rfl) | (simp; done) | (simp_all; done))

@[simp] theorem State.judgeMiss_frame (s : State) :
    (State.judgeMiss s).pending = s.pending ∧ (State.judgeMiss s).localCount = s.localCount ∧
    (State.judgeMiss s).line = s.line ∧ (State.judgeMiss s).tables = s.tables ∧
    (State.judgeMiss s).member = s.member ∧ (State.judgeMiss s).ports = s.ports ∧
    (State.judgeMiss s).store = s.store ∧ (State.judgeMiss s).mixer = s.mixer ∧
    (State.judgeMiss s).announce = s.announce ∧ (State.judgeMiss s).blend = s.blend ∧
    (State.judgeMiss s).call = s.call ∧ (State.judgeMiss s).note = s.note ∧ (State.judgeMiss s).startUp = s.startUp ∧
    (State.judgeMiss s).host.response = s.host.response ∧ (State.judgeMiss s).host.shifted = s.host.shifted ∧
    (State.judgeMiss s).host.stayAwake = s.host.stayAwake := by
  refine ⟨?_, ?_, ?_, ?_, ?_, ?_, ?_, ?_, ?_, ?_, ?_, ?_, ?_, ?_, ?_, ?_⟩ <;>
  first
  | (unfold State.judgeMiss; first | (with_reducible rfl) | (simp; done))
  | (unfold State.judgeMiss; (try dsimp only); (repeat' split) <;> first | (with_reducible rfl) | (simp; done) | (simp_all; done))

@[simp] theorem State.judgeStart_frame (s : State) (onTime : Bool) :
    (State.judgeStart s onTime).pending = s.pending ∧ (State.judgeStart s onTime).localCount = s.localCount ∧
    (State.judgeStart s onTime).line = s.line ∧ (State.judgeStart s onTime).tables = s.tables ∧
    (State.judgeStart s onTime).member = s.member ∧ (State.judgeStart s onTime).ports = s.ports ∧
    (State.judgeStart s onTime).store = s.store ∧ (State.judgeStart s onTime).mixer = s.mixer ∧
    (State.judgeStart s onTime).announce = s.announce ∧ (State.judgeStart s onTime).blend = s.blend ∧
    (State.judgeStart s onTime).call = s.call ∧ (State.judgeStart s onTime).note = s.note ∧
    (State.judgeStart s onTime).startUp = s.startUp ∧ (State.judgeStart s onTime).host.response = s.host.response ∧
    (State.judgeStart s onTime).host.shifted = s.host.shifted ∧
    (State.judgeStart s onTime).host.stayAwake = s.host.stayAwake := by
  refine ⟨?_, ?_, ?_, ?_, ?_, ?_, ?_, ?_, ?_, ?_, ?_, ?_, ?_, ?_, ?_, ?_⟩ <;>
  first
  | (unfold State.judgeStart; first | (with_reducible rfl) | (simp; done))
  | (unfold State.judgeStart; (try dsimp only); (repeat' split) <;> first | (with_reducible rfl) | (simp; done) | (simp_all; done))

@[simp] theorem State.endGateRamp_frame (s : State) :
    (State.endGateRamp s).pending = s.pending ∧ (State.endGateRamp s).localCount = s.localCount ∧
    (State.endGateRamp s).line = s.line ∧ (State.endGateRamp s).tables = s.tables ∧
    (State.endGateRamp s).member = s.member ∧ (State.endGateRamp s).ports = s.ports ∧
    (State.endGateRamp s).store = s.store ∧ (State.endGateRamp s).mixer = s.mixer ∧
    (State.endGateRamp s).announce = s.announce ∧ (State.endGateRamp s).blend = s.blend ∧
    (State.endGateRamp s).call = s.call ∧ (State.endGateRamp s).note = s.note ∧ (State.endGateRamp s).host = s.host ∧
    (State.endGateRamp s).startUp = s.startUp ∧ (State.endGateRamp s).follower.state = s.follower.state := by
  refine ⟨?_, ?_, ?_, ?_, ?_, ?_, ?_, ?_, ?_, ?_, ?_, ?_, ?_, ?_, ?_⟩ <;>
  first
  | (unfold State.endGateRamp; first | (with_reducible rfl) | (simp; done))
  | (unfold State.endGateRamp; (try dsimp only); (repeat' split) <;> first | (with_reducible rfl) | (simp; done) | (simp_all; done))

end Sys2Proof.Machine
end

