-- ==== Sys2Proof/Laws/FramesLine.lean ====
section
/-! SUPPORT. Frames: what each operation of the line interface leaves alone, one lemma for an operation. -/

namespace Sys2Proof.Machine

set_option maxRecDepth 20000

@[simp] theorem State.countReference_frame (s : State) :
    (State.countReference s).pending = s.pending ∧ (State.countReference s).localCount = s.localCount ∧
    (State.countReference s).line = s.line ∧ (State.countReference s).tables = s.tables ∧
    (State.countReference s).member = s.member ∧ (State.countReference s).follower = s.follower ∧
    (State.countReference s).ports = s.ports ∧ (State.countReference s).store = s.store ∧
    (State.countReference s).mixer = s.mixer ∧ (State.countReference s).announce = s.announce ∧
    (State.countReference s).blend = s.blend ∧ (State.countReference s).note = s.note ∧
    (State.countReference s).host = s.host ∧ (State.countReference s).startUp = s.startUp := by
  refine ⟨?_, ?_, ?_, ?_, ?_, ?_, ?_, ?_, ?_, ?_, ?_, ?_, ?_, ?_⟩ <;>
  first
  | (unfold State.countReference; first | (with_reducible rfl) | (simp; done))
  | (unfold State.countReference; (try dsimp only); (repeat' split) <;> first | (with_reducible rfl) | (simp; done) | (simp_all; done))

@[simp] theorem State.handSlots_frame (s : State) (reads : List SlotRead) :
    (State.handSlots s reads).pending = s.pending ∧ (State.handSlots s reads).localCount = s.localCount ∧
    (State.handSlots s reads).tables = s.tables ∧ (State.handSlots s reads).member = s.member ∧
    (State.handSlots s reads).follower = s.follower ∧ (State.handSlots s reads).ports = s.ports ∧
    (State.handSlots s reads).store = s.store ∧ (State.handSlots s reads).mixer = s.mixer ∧
    (State.handSlots s reads).announce = s.announce ∧ (State.handSlots s reads).blend = s.blend ∧
    (State.handSlots s reads).note = s.note ∧ (State.handSlots s reads).host = s.host ∧
    (State.handSlots s reads).startUp = s.startUp ∧
    (State.handSlots s reads).line.timerExpired = s.line.timerExpired ∧
    (State.handSlots s reads).line.silentCount = s.line.silentCount ∧
    (State.handSlots s reads).line.silent = s.line.silent ∧ (State.handSlots s reads).line.lead = s.line.lead ∧
    (State.handSlots s reads).line.phase = s.line.phase ∧ (State.handSlots s reads).line.field = s.line.field ∧
    (State.handSlots s reads).line.sent = s.line.sent ∧ (State.handSlots s reads).line.vetoing = s.line.vetoing ∧
    (State.handSlots s reads).line.queue = s.line.queue ∧ (State.handSlots s reads).line.waiting = s.line.waiting ∧
    (State.handSlots s reads).line.bindings = s.line.bindings ∧
    (State.handSlots s reads).line.driven = s.line.driven ∧
    (State.handSlots s reads).line.presenceCounter = s.line.presenceCounter ∧
    (State.handSlots s reads).line.presenceDue = s.line.presenceDue ∧
    (State.handSlots s reads).line.selfVeto = s.line.selfVeto ∧
    (State.handSlots s reads).line.nextOrder = s.line.nextOrder := by
  refine ⟨?_, ?_, ?_, ?_, ?_, ?_, ?_, ?_, ?_, ?_, ?_, ?_, ?_, ?_, ?_, ?_, ?_, ?_, ?_, ?_, ?_, ?_, ?_, ?_, ?_, ?_, ?_, ?_, ?_⟩ <;>
  first
  | (unfold State.handSlots; first | (with_reducible rfl) | (simp; done))
  | (unfold State.handSlots; (try dsimp only); (repeat' split) <;> first | (with_reducible rfl) | (simp; done) | (simp_all; done))

@[simp] theorem State.audioSlots_frame (s : State) (reads : List SlotRead) :
    (State.audioSlots s reads).pending = s.pending ∧ (State.audioSlots s reads).localCount = s.localCount ∧
    (State.audioSlots s reads).tables = s.tables ∧ (State.audioSlots s reads).member = s.member ∧
    (State.audioSlots s reads).follower = s.follower ∧ (State.audioSlots s reads).ports = s.ports ∧
    (State.audioSlots s reads).store = s.store ∧ (State.audioSlots s reads).mixer = s.mixer ∧
    (State.audioSlots s reads).announce = s.announce ∧ (State.audioSlots s reads).blend = s.blend ∧
    (State.audioSlots s reads).note = s.note ∧ (State.audioSlots s reads).host = s.host ∧
    (State.audioSlots s reads).startUp = s.startUp ∧
    (State.audioSlots s reads).line.timerExpired = s.line.timerExpired ∧
    (State.audioSlots s reads).line.silentCount = s.line.silentCount ∧
    (State.audioSlots s reads).line.silent = s.line.silent ∧ (State.audioSlots s reads).line.lead = s.line.lead ∧
    (State.audioSlots s reads).line.field = s.line.field ∧ (State.audioSlots s reads).line.sent = s.line.sent ∧
    (State.audioSlots s reads).line.vetoing = s.line.vetoing ∧ (State.audioSlots s reads).line.queue = s.line.queue ∧
    (State.audioSlots s reads).line.waiting = s.line.waiting ∧
    (State.audioSlots s reads).line.bindings = s.line.bindings ∧
    (State.audioSlots s reads).line.presenceCounter = s.line.presenceCounter ∧
    (State.audioSlots s reads).line.presenceDue = s.line.presenceDue ∧
    (State.audioSlots s reads).line.selfVeto = s.line.selfVeto ∧
    (State.audioSlots s reads).line.nextOrder = s.line.nextOrder := by
  refine ⟨?_, ?_, ?_, ?_, ?_, ?_, ?_, ?_, ?_, ?_, ?_, ?_, ?_, ?_, ?_, ?_, ?_, ?_, ?_, ?_, ?_, ?_, ?_, ?_, ?_, ?_, ?_⟩ <;>
  first
  | (unfold State.audioSlots; first | (with_reducible rfl) | (simp; done))
  | (unfold State.audioSlots; (try dsimp only); (repeat' split) <;> first | (with_reducible rfl) | (simp; done) | (simp_all; done))

@[simp] theorem State.cut_frame (s : State) :
    (State.cut s).pending = s.pending ∧ (State.cut s).localCount = s.localCount ∧ (State.cut s).tables = s.tables ∧
    (State.cut s).member = s.member ∧ (State.cut s).follower = s.follower ∧ (State.cut s).ports = s.ports ∧
    (State.cut s).store = s.store ∧ (State.cut s).mixer = s.mixer ∧ (State.cut s).announce = s.announce ∧
    (State.cut s).blend = s.blend ∧ (State.cut s).note = s.note ∧ (State.cut s).host = s.host ∧
    (State.cut s).startUp = s.startUp ∧ (State.cut s).line.timerExpired = s.line.timerExpired ∧
    (State.cut s).line.silentCount = s.line.silentCount ∧ (State.cut s).line.silent = s.line.silent ∧
    (State.cut s).line.lead = s.line.lead ∧ (State.cut s).line.phase = s.line.phase ∧
    (State.cut s).line.field = s.line.field ∧ (State.cut s).line.sent = s.line.sent ∧
    (State.cut s).line.vetoing = s.line.vetoing ∧ (State.cut s).line.queue = s.line.queue ∧
    (State.cut s).line.waiting = s.line.waiting ∧ (State.cut s).line.bindings = s.line.bindings ∧
    (State.cut s).line.driven = s.line.driven ∧ (State.cut s).line.presenceCounter = s.line.presenceCounter ∧
    (State.cut s).line.presenceDue = s.line.presenceDue ∧ (State.cut s).line.selfVeto = s.line.selfVeto ∧
    (State.cut s).line.nextOrder = s.line.nextOrder := by
  refine ⟨?_, ?_, ?_, ?_, ?_, ?_, ?_, ?_, ?_, ?_, ?_, ?_, ?_, ?_, ?_, ?_, ?_, ?_, ?_, ?_, ?_, ?_, ?_, ?_, ?_, ?_, ?_, ?_, ?_⟩ <;>
  first
  | (unfold State.cut; first | (with_reducible rfl) | (simp; done))
  | (unfold State.cut; (try dsimp only); (repeat' split) <;> first | (with_reducible rfl) | (simp; done) | (simp_all; done))

@[simp] theorem State.countSilence_frame (s : State) :
    (State.countSilence s).pending = s.pending ∧ (State.countSilence s).localCount = s.localCount ∧
    (State.countSilence s).line = s.line ∧ (State.countSilence s).tables = s.tables ∧
    (State.countSilence s).follower = s.follower ∧ (State.countSilence s).ports = s.ports ∧
    (State.countSilence s).store = s.store ∧ (State.countSilence s).mixer = s.mixer ∧
    (State.countSilence s).announce = s.announce ∧ (State.countSilence s).blend = s.blend ∧
    (State.countSilence s).call = s.call ∧ (State.countSilence s).note = s.note ∧
    (State.countSilence s).host = s.host ∧ (State.countSilence s).startUp = s.startUp ∧
    (State.countSilence s).member.station = s.member.station ∧ (State.countSilence s).member.cause = s.member.cause := by
  refine ⟨?_, ?_, ?_, ?_, ?_, ?_, ?_, ?_, ?_, ?_, ?_, ?_, ?_, ?_, ?_, ?_⟩ <;>
  first
  | (unfold State.countSilence; first | (with_reducible rfl) | (simp; done))
  | (unfold State.countSilence; (try dsimp only); (repeat' split) <;> first | (with_reducible rfl) | (simp; done) | (simp_all; done))

@[simp] theorem State.start_frame (s : State) (emitted inWindow : Bool) :
    (State.start s emitted inWindow).pending = s.pending ∧
    (State.start s emitted inWindow).localCount = s.localCount ∧ (State.start s emitted inWindow).ports = s.ports ∧
    (State.start s emitted inWindow).member.station = s.member.station ∧
    (State.start s emitted inWindow).member.cause = s.member.cause ∧
    (State.start s emitted inWindow).host.response = s.host.response ∧
    (State.start s emitted inWindow).host.shifted = s.host.shifted ∧
    (State.start s emitted inWindow).host.stayAwake = s.host.stayAwake ∧
    (State.start s emitted inWindow).startUp.record = s.startUp.record ∧
    (State.start s emitted inWindow).startUp.reading = s.startUp.reading ∧
    (State.start s emitted inWindow).announce.channels = s.announce.channels ∧
    (State.start s emitted inWindow).note.outbound = s.note.outbound ∧
    (State.start s emitted inWindow).store.memory = s.store.memory ∧
    (State.start s emitted inWindow).store.regions = s.store.regions ∧
    (State.start s emitted inWindow).store.retained = s.store.retained ∧
    (State.start s emitted inWindow).store.retention = s.store.retention ∧
    (State.start s emitted inWindow).store.pinHeld = s.store.pinHeld := by
  refine ⟨?_, ?_, ?_, ?_, ?_, ?_, ?_, ?_, ?_, ?_, ?_, ?_, ?_, ?_, ?_, ?_, ?_⟩ <;>
  first
  | (unfold State.start; first | (with_reducible rfl) | (simp; done))
  | (unfold State.start; (try dsimp only); (repeat' split) <;> first | (with_reducible rfl) | (simp; done) | (simp_all; done))

@[simp] theorem State.missStart_frame (s : State) :
    (State.missStart s).pending = s.pending ∧ (State.missStart s).localCount = s.localCount ∧
    (State.missStart s).tables = s.tables ∧ (State.missStart s).ports = s.ports ∧ (State.missStart s).note = s.note ∧
    (State.missStart s).startUp = s.startUp ∧ (State.missStart s).line.silent = s.line.silent ∧
    (State.missStart s).line.lead = s.line.lead ∧ (State.missStart s).line.phase = s.line.phase ∧
    (State.missStart s).line.field = s.line.field ∧ (State.missStart s).line.sent = s.line.sent ∧
    (State.missStart s).line.vetoing = s.line.vetoing ∧ (State.missStart s).line.queue = s.line.queue ∧
    (State.missStart s).line.waiting = s.line.waiting ∧ (State.missStart s).line.bindings = s.line.bindings ∧
    (State.missStart s).line.driven = s.line.driven ∧ (State.missStart s).line.lineSamples = s.line.lineSamples ∧
    (State.missStart s).line.presenceCounter = s.line.presenceCounter ∧
    (State.missStart s).line.presenceDue = s.line.presenceDue ∧ (State.missStart s).line.selfVeto = s.line.selfVeto ∧
    (State.missStart s).line.nextOrder = s.line.nextOrder ∧ (State.missStart s).member.station = s.member.station ∧
    (State.missStart s).member.cause = s.member.cause ∧ (State.missStart s).host.response = s.host.response ∧
    (State.missStart s).host.shifted = s.host.shifted ∧ (State.missStart s).host.stayAwake = s.host.stayAwake ∧
    (State.missStart s).announce.channels = s.announce.channels ∧ (State.missStart s).store.memory = s.store.memory ∧
    (State.missStart s).store.regions = s.store.regions ∧ (State.missStart s).store.retained = s.store.retained ∧
    (State.missStart s).store.retention = s.store.retention ∧ (State.missStart s).store.pinHeld = s.store.pinHeld := by
  refine ⟨?_, ?_, ?_, ?_, ?_, ?_, ?_, ?_, ?_, ?_, ?_, ?_, ?_, ?_, ?_, ?_, ?_, ?_, ?_, ?_, ?_, ?_, ?_, ?_, ?_, ?_, ?_, ?_, ?_, ?_, ?_, ?_⟩ <;>
  first
  | (unfold State.missStart; first | (with_reducible rfl) | (simp; done))
  | (unfold State.missStart; (try dsimp only); (repeat' split) <;> first | (with_reducible rfl) | (simp; done) | (simp_all; done))

@[simp] theorem State.leadStart_frame (s : State) :
    (State.leadStart s).pending = s.pending ∧ (State.leadStart s).localCount = s.localCount ∧
    (State.leadStart s).ports = s.ports ∧ (State.leadStart s).member.station = s.member.station ∧
    (State.leadStart s).member.cause = s.member.cause ∧ (State.leadStart s).host.response = s.host.response ∧
    (State.leadStart s).host.shifted = s.host.shifted ∧ (State.leadStart s).host.stayAwake = s.host.stayAwake ∧
    (State.leadStart s).startUp.record = s.startUp.record ∧ (State.leadStart s).startUp.reading = s.startUp.reading ∧
    (State.leadStart s).announce.channels = s.announce.channels ∧
    (State.leadStart s).note.outbound = s.note.outbound ∧ (State.leadStart s).store.memory = s.store.memory ∧
    (State.leadStart s).store.regions = s.store.regions ∧ (State.leadStart s).store.retained = s.store.retained ∧
    (State.leadStart s).store.retention = s.store.retention ∧ (State.leadStart s).store.pinHeld = s.store.pinHeld := by
  refine ⟨?_, ?_, ?_, ?_, ?_, ?_, ?_, ?_, ?_, ?_, ?_, ?_, ?_, ?_, ?_, ?_, ?_⟩ <;>
  first
  | (unfold State.leadStart; first | (with_reducible rfl) | (simp; done))
  | (unfold State.leadStart; (try dsimp only); (repeat' split) <;> first | (with_reducible rfl) | (simp; done) | (simp_all; done))

@[simp] theorem State.expireTimer_frame (s : State) :
    (State.expireTimer s).pending = s.pending ∧ (State.expireTimer s).localCount = s.localCount ∧
    (State.expireTimer s).ports = s.ports ∧ (State.expireTimer s).member.station = s.member.station ∧
    (State.expireTimer s).member.cause = s.member.cause ∧ (State.expireTimer s).host.response = s.host.response ∧
    (State.expireTimer s).host.shifted = s.host.shifted ∧ (State.expireTimer s).host.stayAwake = s.host.stayAwake ∧
    (State.expireTimer s).startUp.record = s.startUp.record ∧
    (State.expireTimer s).startUp.reading = s.startUp.reading ∧
    (State.expireTimer s).announce.channels = s.announce.channels ∧
    (State.expireTimer s).note.outbound = s.note.outbound ∧ (State.expireTimer s).store.memory = s.store.memory ∧
    (State.expireTimer s).store.regions = s.store.regions ∧ (State.expireTimer s).store.retained = s.store.retained ∧
    (State.expireTimer s).store.retention = s.store.retention ∧ (State.expireTimer s).store.pinHeld = s.store.pinHeld := by
  refine ⟨?_, ?_, ?_, ?_, ?_, ?_, ?_, ?_, ?_, ?_, ?_, ?_, ?_, ?_, ?_, ?_, ?_⟩ <;>
  first
  | (unfold State.expireTimer; first | (with_reducible rfl) | (simp; done))
  | (unfold State.expireTimer; (try dsimp only); (repeat' split) <;> first | (with_reducible rfl) | (simp; done) | (simp_all; done))

@[simp] theorem State.missFurther_frame (s : State) :
    (State.missFurther s).pending = s.pending ∧ (State.missFurther s).localCount = s.localCount ∧
    (State.missFurther s).tables = s.tables ∧ (State.missFurther s).ports = s.ports ∧
    (State.missFurther s).note = s.note ∧ (State.missFurther s).startUp = s.startUp ∧
    (State.missFurther s).line.silent = s.line.silent ∧ (State.missFurther s).line.lead = s.line.lead ∧
    (State.missFurther s).line.phase = s.line.phase ∧ (State.missFurther s).line.field = s.line.field ∧
    (State.missFurther s).line.sent = s.line.sent ∧ (State.missFurther s).line.vetoing = s.line.vetoing ∧
    (State.missFurther s).line.queue = s.line.queue ∧ (State.missFurther s).line.waiting = s.line.waiting ∧
    (State.missFurther s).line.bindings = s.line.bindings ∧ (State.missFurther s).line.driven = s.line.driven ∧
    (State.missFurther s).line.lineSamples = s.line.lineSamples ∧
    (State.missFurther s).line.presenceCounter = s.line.presenceCounter ∧
    (State.missFurther s).line.presenceDue = s.line.presenceDue ∧
    (State.missFurther s).line.selfVeto = s.line.selfVeto ∧ (State.missFurther s).line.nextOrder = s.line.nextOrder ∧
    (State.missFurther s).member.station = s.member.station ∧ (State.missFurther s).member.cause = s.member.cause ∧
    (State.missFurther s).host.response = s.host.response ∧ (State.missFurther s).host.shifted = s.host.shifted ∧
    (State.missFurther s).host.stayAwake = s.host.stayAwake ∧
    (State.missFurther s).announce.channels = s.announce.channels ∧
    (State.missFurther s).store.memory = s.store.memory ∧ (State.missFurther s).store.regions = s.store.regions ∧
    (State.missFurther s).store.retained = s.store.retained ∧
    (State.missFurther s).store.retention = s.store.retention ∧ (State.missFurther s).store.pinHeld = s.store.pinHeld := by
  refine ⟨?_, ?_, ?_, ?_, ?_, ?_, ?_, ?_, ?_, ?_, ?_, ?_, ?_, ?_, ?_, ?_, ?_, ?_, ?_, ?_, ?_, ?_, ?_, ?_, ?_, ?_, ?_, ?_, ?_, ?_, ?_, ?_⟩ <;>
  first
  | (unfold State.missFurther; first | (with_reducible rfl) | (simp; done))
  | (unfold State.missFurther; (try dsimp only); (repeat' split) <;> first | (with_reducible rfl) | (simp; done) | (simp_all; done))

@[simp] theorem State.keepUpStart_frame (s : State) :
    (State.keepUpStart s).pending = s.pending ∧ (State.keepUpStart s).localCount = s.localCount ∧
    (State.keepUpStart s).ports = s.ports ∧ (State.keepUpStart s).member.station = s.member.station ∧
    (State.keepUpStart s).member.cause = s.member.cause ∧ (State.keepUpStart s).host.response = s.host.response ∧
    (State.keepUpStart s).host.shifted = s.host.shifted ∧ (State.keepUpStart s).host.stayAwake = s.host.stayAwake ∧
    (State.keepUpStart s).startUp.record = s.startUp.record ∧
    (State.keepUpStart s).startUp.reading = s.startUp.reading ∧
    (State.keepUpStart s).announce.channels = s.announce.channels ∧
    (State.keepUpStart s).note.outbound = s.note.outbound ∧ (State.keepUpStart s).store.memory = s.store.memory ∧
    (State.keepUpStart s).store.regions = s.store.regions ∧ (State.keepUpStart s).store.retained = s.store.retained ∧
    (State.keepUpStart s).store.retention = s.store.retention ∧ (State.keepUpStart s).store.pinHeld = s.store.pinHeld := by
  refine ⟨?_, ?_, ?_, ?_, ?_, ?_, ?_, ?_, ?_, ?_, ?_, ?_, ?_, ?_, ?_, ?_, ?_⟩ <;>
  first
  | (unfold State.keepUpStart; first | (with_reducible rfl) | (simp; done))
  | (unfold State.keepUpStart; (try dsimp only); (repeat' split) <;> first | (with_reducible rfl) | (simp; done) | (simp_all; done))

@[simp] theorem State.chooseReady_frame (n : Nat) (s : State) :
    (State.chooseReady n s).1.pending = s.pending ∧
    (State.chooseReady n s).1.localCount = s.localCount ∧
    (State.chooseReady n s).1.tables = s.tables ∧
    (State.chooseReady n s).1.member = s.member ∧
    (State.chooseReady n s).1.follower = s.follower ∧
    (State.chooseReady n s).1.ports = s.ports ∧
    (State.chooseReady n s).1.store = s.store ∧
    (State.chooseReady n s).1.mixer = s.mixer ∧
    (State.chooseReady n s).1.announce = s.announce ∧
    (State.chooseReady n s).1.blend = s.blend ∧
    (State.chooseReady n s).1.line.timerExpired = s.line.timerExpired ∧
    (State.chooseReady n s).1.line.silentCount = s.line.silentCount ∧
    (State.chooseReady n s).1.line.silent = s.line.silent ∧
    (State.chooseReady n s).1.line.lead = s.line.lead ∧
    (State.chooseReady n s).1.line.phase = s.line.phase ∧
    (State.chooseReady n s).1.line.field = s.line.field ∧
    (State.chooseReady n s).1.line.sent = s.line.sent ∧
    (State.chooseReady n s).1.line.vetoing = s.line.vetoing ∧
    (State.chooseReady n s).1.line.bindings = s.line.bindings ∧
    (State.chooseReady n s).1.line.driven = s.line.driven ∧
    (State.chooseReady n s).1.line.lineSamples = s.line.lineSamples ∧
    (State.chooseReady n s).1.line.presenceCounter = s.line.presenceCounter ∧
    (State.chooseReady n s).1.line.presenceDue = s.line.presenceDue ∧
    (State.chooseReady n s).1.line.selfVeto = s.line.selfVeto ∧
    (State.chooseReady n s).1.host.response = s.host.response ∧
    (State.chooseReady n s).1.host.shifted = s.host.shifted ∧
    (State.chooseReady n s).1.host.stayAwake = s.host.stayAwake ∧
    (State.chooseReady n s).1.startUp.record = s.startUp.record ∧
    (State.chooseReady n s).1.startUp.reading = s.startUp.reading ∧
    (State.chooseReady n s).1.note.box = s.note.box := by
  induction n generalizing s with
  | zero => simp [State.chooseReady]
  | succ n ih => unfold State.chooseReady; (repeat' split) <;> simp [ih]

@[simp] theorem State.controlField_frame (s : State) (others : Option (BitVec 187)) (readable : Bool) :
    (State.controlField s others readable).pending = s.pending ∧
    (State.controlField s others readable).localCount = s.localCount ∧
    (State.controlField s others readable).tables = s.tables ∧
    (State.controlField s others readable).member = s.member ∧
    (State.controlField s others readable).follower = s.follower ∧
    (State.controlField s others readable).ports = s.ports ∧ (State.controlField s others readable).store = s.store ∧
    (State.controlField s others readable).mixer = s.mixer ∧
    (State.controlField s others readable).announce = s.announce ∧
    (State.controlField s others readable).blend = s.blend ∧
    (State.controlField s others readable).line.timerExpired = s.line.timerExpired ∧
    (State.controlField s others readable).line.silentCount = s.line.silentCount ∧
    (State.controlField s others readable).line.silent = s.line.silent ∧
    (State.controlField s others readable).line.lead = s.line.lead ∧
    (State.controlField s others readable).line.bindings = s.line.bindings ∧
    (State.controlField s others readable).line.driven = s.line.driven ∧
    (State.controlField s others readable).line.lineSamples = s.line.lineSamples ∧
    (State.controlField s others readable).line.presenceCounter = s.line.presenceCounter ∧
    (State.controlField s others readable).line.presenceDue = s.line.presenceDue ∧
    (State.controlField s others readable).line.selfVeto = s.line.selfVeto ∧
    (State.controlField s others readable).host.response = s.host.response ∧
    (State.controlField s others readable).host.shifted = s.host.shifted ∧
    (State.controlField s others readable).host.stayAwake = s.host.stayAwake ∧
    (State.controlField s others readable).startUp.record = s.startUp.record ∧
    (State.controlField s others readable).startUp.reading = s.startUp.reading ∧
    (State.controlField s others readable).note.box = s.note.box := by
  refine ⟨?_, ?_, ?_, ?_, ?_, ?_, ?_, ?_, ?_, ?_, ?_, ?_, ?_, ?_, ?_, ?_, ?_, ?_, ?_, ?_, ?_, ?_, ?_, ?_, ?_, ?_⟩ <;>
  (unfold State.controlField; (try dsimp only); (repeat' split) <;> first | (with_reducible rfl) | (simp; done) | (simp_all; done))

@[simp] theorem State.listenAtTail_frame (s : State) (vetoed : Bool) :
    (State.listenAtTail s vetoed).pending = s.pending ∧ (State.listenAtTail s vetoed).localCount = s.localCount ∧
    (State.listenAtTail s vetoed).line = s.line ∧ (State.listenAtTail s vetoed).follower = s.follower ∧
    (State.listenAtTail s vetoed).ports = s.ports ∧ (State.listenAtTail s vetoed).store = s.store ∧
    (State.listenAtTail s vetoed).mixer = s.mixer ∧ (State.listenAtTail s vetoed).announce = s.announce ∧
    (State.listenAtTail s vetoed).blend = s.blend ∧ (State.listenAtTail s vetoed).call = s.call ∧
    (State.listenAtTail s vetoed).note = s.note ∧ (State.listenAtTail s vetoed).host = s.host ∧
    (State.listenAtTail s vetoed).startUp = s.startUp ∧
    (State.listenAtTail s vetoed).member.station = s.member.station ∧
    (State.listenAtTail s vetoed).member.cause = s.member.cause ∧
    (State.listenAtTail s vetoed).tables.directory = s.tables.directory ∧
    (State.listenAtTail s vetoed).tables.slots = s.tables.slots ∧
    (State.listenAtTail s vetoed).tables.calls = s.tables.calls ∧
    (State.listenAtTail s vetoed).tables.frameCount = s.tables.frameCount := by
  refine ⟨?_, ?_, ?_, ?_, ?_, ?_, ?_, ?_, ?_, ?_, ?_, ?_, ?_, ?_, ?_, ?_, ?_, ?_, ?_⟩ <;>
  first
  | (unfold State.listenAtTail; first | (with_reducible rfl) | (simp; done))
  | (unfold State.listenAtTail; (try dsimp only); (repeat' split) <;> first | (with_reducible rfl) | (simp; done) | (simp_all; done))

@[simp] theorem State.onEntry_frame (s : State) (order : Nat) (f : QueueEntry → QueueEntry) :
    (State.onEntry s order f).pending = s.pending ∧ (State.onEntry s order f).localCount = s.localCount ∧
    (State.onEntry s order f).tables = s.tables ∧ (State.onEntry s order f).member = s.member ∧
    (State.onEntry s order f).follower = s.follower ∧ (State.onEntry s order f).ports = s.ports ∧
    (State.onEntry s order f).store = s.store ∧ (State.onEntry s order f).mixer = s.mixer ∧
    (State.onEntry s order f).announce = s.announce ∧ (State.onEntry s order f).blend = s.blend ∧
    (State.onEntry s order f).call = s.call ∧ (State.onEntry s order f).note = s.note ∧
    (State.onEntry s order f).host = s.host ∧ (State.onEntry s order f).startUp = s.startUp ∧
    (State.onEntry s order f).line.timerExpired = s.line.timerExpired ∧
    (State.onEntry s order f).line.silentCount = s.line.silentCount ∧
    (State.onEntry s order f).line.silent = s.line.silent ∧ (State.onEntry s order f).line.lead = s.line.lead ∧
    (State.onEntry s order f).line.phase = s.line.phase ∧ (State.onEntry s order f).line.field = s.line.field ∧
    (State.onEntry s order f).line.sent = s.line.sent ∧ (State.onEntry s order f).line.vetoing = s.line.vetoing ∧
    (State.onEntry s order f).line.waiting = s.line.waiting ∧
    (State.onEntry s order f).line.bindings = s.line.bindings ∧
    (State.onEntry s order f).line.driven = s.line.driven ∧
    (State.onEntry s order f).line.lineSamples = s.line.lineSamples ∧
    (State.onEntry s order f).line.presenceCounter = s.line.presenceCounter ∧
    (State.onEntry s order f).line.presenceDue = s.line.presenceDue ∧
    (State.onEntry s order f).line.selfVeto = s.line.selfVeto ∧
    (State.onEntry s order f).line.nextOrder = s.line.nextOrder := by
  refine ⟨?_, ?_, ?_, ?_, ?_, ?_, ?_, ?_, ?_, ?_, ?_, ?_, ?_, ?_, ?_, ?_, ?_, ?_, ?_, ?_, ?_, ?_, ?_, ?_, ?_, ?_, ?_, ?_, ?_, ?_⟩ <;>
  first
  | (unfold State.onEntry; first | (with_reducible rfl) | (simp; done))
  | (unfold State.onEntry; (try dsimp only); (repeat' split) <;> first | (with_reducible rfl) | (simp; done) | (simp_all; done))

@[simp] theorem State.joinVetoed_frame (s : State) (e : QueueEntry) :
    (State.joinVetoed s e).pending = s.pending ∧ (State.joinVetoed s e).localCount = s.localCount ∧
    (State.joinVetoed s e).follower = s.follower ∧ (State.joinVetoed s e).ports = s.ports ∧
    (State.joinVetoed s e).store = s.store ∧ (State.joinVetoed s e).announce = s.announce ∧
    (State.joinVetoed s e).blend = s.blend ∧ (State.joinVetoed s e).line.timerExpired = s.line.timerExpired ∧
    (State.joinVetoed s e).line.silentCount = s.line.silentCount ∧
    (State.joinVetoed s e).line.silent = s.line.silent ∧ (State.joinVetoed s e).line.lead = s.line.lead ∧
    (State.joinVetoed s e).line.phase = s.line.phase ∧ (State.joinVetoed s e).line.field = s.line.field ∧
    (State.joinVetoed s e).line.driven = s.line.driven ∧
    (State.joinVetoed s e).line.lineSamples = s.line.lineSamples ∧
    (State.joinVetoed s e).host.response = s.host.response ∧ (State.joinVetoed s e).host.shifted = s.host.shifted ∧
    (State.joinVetoed s e).host.stayAwake = s.host.stayAwake ∧
    (State.joinVetoed s e).startUp.record = s.startUp.record ∧
    (State.joinVetoed s e).startUp.reading = s.startUp.reading ∧
    (State.joinVetoed s e).tables.frameCount = s.tables.frameCount := by
  refine ⟨?_, ?_, ?_, ?_, ?_, ?_, ?_, ?_, ?_, ?_, ?_, ?_, ?_, ?_, ?_, ?_, ?_, ?_, ?_, ?_, ?_⟩ <;>
  first
  | (unfold State.joinVetoed; first | (with_reducible rfl) | (simp; done))
  | (unfold State.joinVetoed; (try dsimp only); (repeat' split) <;> first | (with_reducible rfl) | (simp; done) | (simp_all; done))

@[simp] theorem State.abandon_frame (s : State) (e : QueueEntry) :
    (State.abandon s e).pending = s.pending ∧ (State.abandon s e).localCount = s.localCount ∧
    (State.abandon s e).follower = s.follower ∧ (State.abandon s e).ports = s.ports ∧
    (State.abandon s e).store = s.store ∧ (State.abandon s e).announce = s.announce ∧
    (State.abandon s e).blend = s.blend ∧ (State.abandon s e).line.timerExpired = s.line.timerExpired ∧
    (State.abandon s e).line.silentCount = s.line.silentCount ∧ (State.abandon s e).line.silent = s.line.silent ∧
    (State.abandon s e).line.lead = s.line.lead ∧ (State.abandon s e).line.phase = s.line.phase ∧
    (State.abandon s e).line.field = s.line.field ∧ (State.abandon s e).line.driven = s.line.driven ∧
    (State.abandon s e).line.lineSamples = s.line.lineSamples ∧ (State.abandon s e).host.response = s.host.response ∧
    (State.abandon s e).host.shifted = s.host.shifted ∧ (State.abandon s e).host.stayAwake = s.host.stayAwake ∧
    (State.abandon s e).startUp.record = s.startUp.record ∧ (State.abandon s e).startUp.reading = s.startUp.reading ∧
    (State.abandon s e).tables.frameCount = s.tables.frameCount := by
  refine ⟨?_, ?_, ?_, ?_, ?_, ?_, ?_, ?_, ?_, ?_, ?_, ?_, ?_, ?_, ?_, ?_, ?_, ?_, ?_, ?_, ?_⟩ <;>
  first
  | (unfold State.abandon; first | (with_reducible rfl) | (simp; done))
  | (unfold State.abandon; (try dsimp only); (repeat' split) <;> first | (with_reducible rfl) | (simp; done) | (simp_all; done))

@[simp] theorem State.ownVetoed_frame (s : State) :
    (State.ownVetoed s).pending = s.pending ∧ (State.ownVetoed s).localCount = s.localCount ∧
    (State.ownVetoed s).follower = s.follower ∧ (State.ownVetoed s).ports = s.ports ∧
    (State.ownVetoed s).store = s.store ∧ (State.ownVetoed s).announce = s.announce ∧
    (State.ownVetoed s).blend = s.blend ∧ (State.ownVetoed s).line.timerExpired = s.line.timerExpired ∧
    (State.ownVetoed s).line.silentCount = s.line.silentCount ∧ (State.ownVetoed s).line.silent = s.line.silent ∧
    (State.ownVetoed s).line.lead = s.line.lead ∧ (State.ownVetoed s).line.phase = s.line.phase ∧
    (State.ownVetoed s).line.field = s.line.field ∧ (State.ownVetoed s).line.driven = s.line.driven ∧
    (State.ownVetoed s).line.lineSamples = s.line.lineSamples ∧ (State.ownVetoed s).host.response = s.host.response ∧
    (State.ownVetoed s).host.shifted = s.host.shifted ∧ (State.ownVetoed s).host.stayAwake = s.host.stayAwake ∧
    (State.ownVetoed s).startUp.record = s.startUp.record ∧ (State.ownVetoed s).startUp.reading = s.startUp.reading ∧
    (State.ownVetoed s).tables.frameCount = s.tables.frameCount := by
  refine ⟨?_, ?_, ?_, ?_, ?_, ?_, ?_, ?_, ?_, ?_, ?_, ?_, ?_, ?_, ?_, ?_, ?_, ?_, ?_, ?_, ?_⟩ <;>
  first
  | (unfold State.ownVetoed; first | (with_reducible rfl) | (simp; done))
  | (unfold State.ownVetoed; (try dsimp only); (repeat' split) <;> first | (with_reducible rfl) | (simp; done) | (simp_all; done))

@[simp] theorem State.closeFrame_frame (s : State) :
    (State.closeFrame s).pending = s.pending ∧ (State.closeFrame s).localCount = s.localCount ∧
    (State.closeFrame s).tables = s.tables ∧ (State.closeFrame s).member = s.member ∧
    (State.closeFrame s).follower = s.follower ∧ (State.closeFrame s).ports = s.ports ∧
    (State.closeFrame s).store = s.store ∧ (State.closeFrame s).mixer = s.mixer ∧
    (State.closeFrame s).announce = s.announce ∧ (State.closeFrame s).blend = s.blend ∧
    (State.closeFrame s).call = s.call ∧ (State.closeFrame s).note = s.note ∧ (State.closeFrame s).host = s.host ∧
    (State.closeFrame s).startUp = s.startUp ∧ (State.closeFrame s).line.timerExpired = s.line.timerExpired ∧
    (State.closeFrame s).line.silentCount = s.line.silentCount ∧ (State.closeFrame s).line.silent = s.line.silent ∧
    (State.closeFrame s).line.lead = s.line.lead ∧ (State.closeFrame s).line.bindings = s.line.bindings ∧
    (State.closeFrame s).line.driven = s.line.driven ∧ (State.closeFrame s).line.lineSamples = s.line.lineSamples ∧
    (State.closeFrame s).line.presenceCounter = s.line.presenceCounter ∧
    (State.closeFrame s).line.presenceDue = s.line.presenceDue ∧ (State.closeFrame s).line.selfVeto = s.line.selfVeto := by
  refine ⟨?_, ?_, ?_, ?_, ?_, ?_, ?_, ?_, ?_, ?_, ?_, ?_, ?_, ?_, ?_, ?_, ?_, ?_, ?_, ?_, ?_, ?_, ?_, ?_⟩ <;>
  first
  | (unfold State.closeFrame; first | (with_reducible rfl) | (simp; done))
  | (unfold State.closeFrame; (try dsimp only); (repeat' split) <;> first | (with_reducible rfl) | (simp; done) | (simp_all; done))

@[simp] theorem State.tail_frame (s : State) (message : Option (Nat × Message)) (veto : Bool) :
    (State.tail s message veto).pending = s.pending ∧ (State.tail s message veto).localCount = s.localCount ∧
    (State.tail s message veto).follower = s.follower ∧ (State.tail s message veto).ports = s.ports ∧
    (State.tail s message veto).store = s.store ∧ (State.tail s message veto).announce = s.announce ∧
    (State.tail s message veto).blend = s.blend ∧
    (State.tail s message veto).line.timerExpired = s.line.timerExpired ∧
    (State.tail s message veto).line.silentCount = s.line.silentCount ∧
    (State.tail s message veto).line.silent = s.line.silent ∧ (State.tail s message veto).line.lead = s.line.lead ∧
    (State.tail s message veto).line.driven = s.line.driven ∧
    (State.tail s message veto).line.lineSamples = s.line.lineSamples ∧
    (State.tail s message veto).host.response = s.host.response ∧
    (State.tail s message veto).host.shifted = s.host.shifted ∧
    (State.tail s message veto).host.stayAwake = s.host.stayAwake ∧
    (State.tail s message veto).startUp.record = s.startUp.record ∧
    (State.tail s message veto).startUp.reading = s.startUp.reading := by
  refine ⟨?_, ?_, ?_, ?_, ?_, ?_, ?_, ?_, ?_, ?_, ?_, ?_, ?_, ?_, ?_, ?_, ?_, ?_⟩ <;>
  (unfold State.tail; (try dsimp only); (repeat' split) <;> first | (with_reducible rfl) | (simp; done) | (simp_all; done))

@[simp] theorem State.tailEnd_frame (s : State) (veto : Bool) :
    (State.tailEnd s veto).pending = s.pending ∧ (State.tailEnd s veto).localCount = s.localCount ∧
    (State.tailEnd s veto).follower = s.follower ∧ (State.tailEnd s veto).ports = s.ports ∧
    (State.tailEnd s veto).store = s.store ∧ (State.tailEnd s veto).announce = s.announce ∧
    (State.tailEnd s veto).blend = s.blend ∧ (State.tailEnd s veto).line.timerExpired = s.line.timerExpired ∧
    (State.tailEnd s veto).line.silentCount = s.line.silentCount ∧
    (State.tailEnd s veto).line.silent = s.line.silent ∧ (State.tailEnd s veto).line.lead = s.line.lead ∧
    (State.tailEnd s veto).line.driven = s.line.driven ∧
    (State.tailEnd s veto).line.lineSamples = s.line.lineSamples ∧
    (State.tailEnd s veto).host.response = s.host.response ∧ (State.tailEnd s veto).host.shifted = s.host.shifted ∧
    (State.tailEnd s veto).host.stayAwake = s.host.stayAwake ∧
    (State.tailEnd s veto).startUp.record = s.startUp.record ∧
    (State.tailEnd s veto).startUp.reading = s.startUp.reading := by
  refine ⟨?_, ?_, ?_, ?_, ?_, ?_, ?_, ?_, ?_, ?_, ?_, ?_, ?_, ?_, ?_, ?_, ?_, ?_⟩ <;>
  (unfold State.tailEnd; (try dsimp only); (repeat' split) <;> first | (with_reducible rfl) | (simp; done) | (simp_all; done))

@[simp] theorem State.messageEffect_frame (s : State) (sender : Nat) (m : Message) :
    (State.messageEffect s sender m).pending = s.pending ∧
    (State.messageEffect s sender m).localCount = s.localCount ∧
    (State.messageEffect s sender m).follower = s.follower ∧ (State.messageEffect s sender m).ports = s.ports ∧
    (State.messageEffect s sender m).store = s.store ∧ (State.messageEffect s sender m).announce = s.announce ∧
    (State.messageEffect s sender m).blend = s.blend ∧
    (State.messageEffect s sender m).line.timerExpired = s.line.timerExpired ∧
    (State.messageEffect s sender m).line.silentCount = s.line.silentCount ∧
    (State.messageEffect s sender m).line.silent = s.line.silent ∧
    (State.messageEffect s sender m).line.lead = s.line.lead ∧
    (State.messageEffect s sender m).line.driven = s.line.driven ∧
    (State.messageEffect s sender m).line.lineSamples = s.line.lineSamples ∧
    (State.messageEffect s sender m).host.response = s.host.response ∧
    (State.messageEffect s sender m).host.shifted = s.host.shifted ∧
    (State.messageEffect s sender m).host.stayAwake = s.host.stayAwake ∧
    (State.messageEffect s sender m).startUp.record = s.startUp.record ∧
    (State.messageEffect s sender m).startUp.reading = s.startUp.reading := by
  refine ⟨?_, ?_, ?_, ?_, ?_, ?_, ?_, ?_, ?_, ?_, ?_, ?_, ?_, ?_, ?_, ?_, ?_, ?_⟩ <;>
  (unfold State.messageEffect; (try dsimp only); (repeat' split) <;> first | (with_reducible rfl) | (simp; done) | (simp_all; done))

@[simp] theorem State.selfVetoDue_frame (s : State) :
    (State.selfVetoDue s).pending = s.pending ∧ (State.selfVetoDue s).localCount = s.localCount ∧
    (State.selfVetoDue s).follower = s.follower ∧ (State.selfVetoDue s).ports = s.ports ∧
    (State.selfVetoDue s).store = s.store ∧ (State.selfVetoDue s).announce = s.announce ∧
    (State.selfVetoDue s).blend = s.blend ∧ (State.selfVetoDue s).line.timerExpired = s.line.timerExpired ∧
    (State.selfVetoDue s).line.silentCount = s.line.silentCount ∧ (State.selfVetoDue s).line.silent = s.line.silent ∧
    (State.selfVetoDue s).line.lead = s.line.lead ∧ (State.selfVetoDue s).line.phase = s.line.phase ∧
    (State.selfVetoDue s).line.field = s.line.field ∧ (State.selfVetoDue s).line.driven = s.line.driven ∧
    (State.selfVetoDue s).line.lineSamples = s.line.lineSamples ∧
    (State.selfVetoDue s).host.response = s.host.response ∧ (State.selfVetoDue s).host.shifted = s.host.shifted ∧
    (State.selfVetoDue s).host.stayAwake = s.host.stayAwake ∧
    (State.selfVetoDue s).startUp.record = s.startUp.record ∧
    (State.selfVetoDue s).startUp.reading = s.startUp.reading ∧
    (State.selfVetoDue s).tables.frameCount = s.tables.frameCount := by
  refine ⟨?_, ?_, ?_, ?_, ?_, ?_, ?_, ?_, ?_, ?_, ?_, ?_, ?_, ?_, ?_, ?_, ?_, ?_, ?_, ?_, ?_⟩ <;>
  first
  | (unfold State.selfVetoDue; first | (with_reducible rfl) | (simp; done))
  | (unfold State.selfVetoDue; (try dsimp only); (repeat' split) <;> first | (with_reducible rfl) | (simp; done) | (simp_all; done))

@[simp] theorem State.listenEnd_frame (s : State) :
    (State.listenEnd s).pending = s.pending ∧ (State.listenEnd s).localCount = s.localCount ∧
    (State.listenEnd s).follower = s.follower ∧ (State.listenEnd s).ports = s.ports ∧
    (State.listenEnd s).store = s.store ∧ (State.listenEnd s).announce = s.announce ∧
    (State.listenEnd s).blend = s.blend ∧ (State.listenEnd s).line.timerExpired = s.line.timerExpired ∧
    (State.listenEnd s).line.silentCount = s.line.silentCount ∧ (State.listenEnd s).line.silent = s.line.silent ∧
    (State.listenEnd s).line.lead = s.line.lead ∧ (State.listenEnd s).line.phase = s.line.phase ∧
    (State.listenEnd s).line.field = s.line.field ∧ (State.listenEnd s).line.driven = s.line.driven ∧
    (State.listenEnd s).line.lineSamples = s.line.lineSamples ∧ (State.listenEnd s).host.response = s.host.response ∧
    (State.listenEnd s).host.shifted = s.host.shifted ∧ (State.listenEnd s).host.stayAwake = s.host.stayAwake ∧
    (State.listenEnd s).startUp.record = s.startUp.record ∧ (State.listenEnd s).startUp.reading = s.startUp.reading ∧
    (State.listenEnd s).tables.frameCount = s.tables.frameCount := by
  refine ⟨?_, ?_, ?_, ?_, ?_, ?_, ?_, ?_, ?_, ?_, ?_, ?_, ?_, ?_, ?_, ?_, ?_, ?_, ?_, ?_, ?_⟩ <;>
  first
  | (unfold State.listenEnd; first | (with_reducible rfl) | (simp; done))
  | (unfold State.listenEnd; (try dsimp only); (repeat' split) <;> first | (with_reducible rfl) | (simp; done) | (simp_all; done))

@[simp] theorem State.agedOut_frame (s : State) (n : Nat) :
    (State.agedOut s n).pending = s.pending ∧ (State.agedOut s n).localCount = s.localCount ∧
    (State.agedOut s n).follower = s.follower ∧ (State.agedOut s n).ports = s.ports ∧
    (State.agedOut s n).store = s.store ∧ (State.agedOut s n).announce = s.announce ∧
    (State.agedOut s n).blend = s.blend ∧ (State.agedOut s n).line.timerExpired = s.line.timerExpired ∧
    (State.agedOut s n).line.silentCount = s.line.silentCount ∧ (State.agedOut s n).line.silent = s.line.silent ∧
    (State.agedOut s n).line.lead = s.line.lead ∧ (State.agedOut s n).line.phase = s.line.phase ∧
    (State.agedOut s n).line.field = s.line.field ∧ (State.agedOut s n).line.driven = s.line.driven ∧
    (State.agedOut s n).line.lineSamples = s.line.lineSamples ∧ (State.agedOut s n).host.response = s.host.response ∧
    (State.agedOut s n).host.shifted = s.host.shifted ∧ (State.agedOut s n).host.stayAwake = s.host.stayAwake ∧
    (State.agedOut s n).startUp.record = s.startUp.record ∧ (State.agedOut s n).startUp.reading = s.startUp.reading := by
  refine ⟨?_, ?_, ?_, ?_, ?_, ?_, ?_, ?_, ?_, ?_, ?_, ?_, ?_, ?_, ?_, ?_, ?_, ?_, ?_, ?_⟩ <;>
  first
  | (unfold State.agedOut; first | (with_reducible rfl) | (simp; done))
  | (unfold State.agedOut; (try dsimp only); (repeat' split) <;> first | (with_reducible rfl) | (simp; done) | (simp_all; done))

@[simp] theorem State.freeSlot_frame (s : State) (slot : Nat) :
    (State.freeSlot s slot).pending = s.pending ∧ (State.freeSlot s slot).localCount = s.localCount ∧
    (State.freeSlot s slot).line = s.line ∧ (State.freeSlot s slot).member = s.member ∧
    (State.freeSlot s slot).follower = s.follower ∧ (State.freeSlot s slot).ports = s.ports ∧
    (State.freeSlot s slot).store = s.store ∧ (State.freeSlot s slot).mixer = s.mixer ∧
    (State.freeSlot s slot).announce = s.announce ∧ (State.freeSlot s slot).blend = s.blend ∧
    (State.freeSlot s slot).call = s.call ∧ (State.freeSlot s slot).note = s.note ∧
    (State.freeSlot s slot).host = s.host ∧ (State.freeSlot s slot).startUp = s.startUp ∧
    (State.freeSlot s slot).tables.directory = s.tables.directory ∧
    (State.freeSlot s slot).tables.calls = s.tables.calls ∧
    (State.freeSlot s slot).tables.frameCount = s.tables.frameCount := by
  refine ⟨?_, ?_, ?_, ?_, ?_, ?_, ?_, ?_, ?_, ?_, ?_, ?_, ?_, ?_, ?_, ?_, ?_⟩ <;>
  first
  | (unfold State.freeSlot; first | (with_reducible rfl) | (simp; done))
  | (unfold State.freeSlot; (try dsimp only); (repeat' split) <;> first | (with_reducible rfl) | (simp; done) | (simp_all; done))

@[simp] theorem State.readyEntries_frame (s : State) :
    (State.readyEntries s).pending = s.pending ∧ (State.readyEntries s).localCount = s.localCount ∧
    (State.readyEntries s).tables = s.tables ∧ (State.readyEntries s).member = s.member ∧
    (State.readyEntries s).follower = s.follower ∧ (State.readyEntries s).ports = s.ports ∧
    (State.readyEntries s).store = s.store ∧ (State.readyEntries s).mixer = s.mixer ∧
    (State.readyEntries s).announce = s.announce ∧ (State.readyEntries s).blend = s.blend ∧
    (State.readyEntries s).call = s.call ∧ (State.readyEntries s).note = s.note ∧
    (State.readyEntries s).host = s.host ∧ (State.readyEntries s).startUp = s.startUp ∧
    (State.readyEntries s).line.timerExpired = s.line.timerExpired ∧
    (State.readyEntries s).line.silentCount = s.line.silentCount ∧
    (State.readyEntries s).line.silent = s.line.silent ∧ (State.readyEntries s).line.lead = s.line.lead ∧
    (State.readyEntries s).line.phase = s.line.phase ∧ (State.readyEntries s).line.field = s.line.field ∧
    (State.readyEntries s).line.sent = s.line.sent ∧ (State.readyEntries s).line.vetoing = s.line.vetoing ∧
    (State.readyEntries s).line.waiting = s.line.waiting ∧ (State.readyEntries s).line.bindings = s.line.bindings ∧
    (State.readyEntries s).line.driven = s.line.driven ∧
    (State.readyEntries s).line.lineSamples = s.line.lineSamples ∧
    (State.readyEntries s).line.presenceCounter = s.line.presenceCounter ∧
    (State.readyEntries s).line.presenceDue = s.line.presenceDue ∧
    (State.readyEntries s).line.selfVeto = s.line.selfVeto ∧ (State.readyEntries s).line.nextOrder = s.line.nextOrder := by
  refine ⟨?_, ?_, ?_, ?_, ?_, ?_, ?_, ?_, ?_, ?_, ?_, ?_, ?_, ?_, ?_, ?_, ?_, ?_, ?_, ?_, ?_, ?_, ?_, ?_, ?_, ?_, ?_, ?_, ?_, ?_⟩ <;>
  first
  | (unfold State.readyEntries; first | (with_reducible rfl) | (simp; done))
  | (unfold State.readyEntries; (try dsimp only); (repeat' split) <;> first | (with_reducible rfl) | (simp; done) | (simp_all; done))

@[simp] theorem State.presenceFallsDue_frame (s : State) :
    (State.presenceFallsDue s).pending = s.pending ∧ (State.presenceFallsDue s).localCount = s.localCount ∧
    (State.presenceFallsDue s).tables = s.tables ∧ (State.presenceFallsDue s).member = s.member ∧
    (State.presenceFallsDue s).follower = s.follower ∧ (State.presenceFallsDue s).ports = s.ports ∧
    (State.presenceFallsDue s).store = s.store ∧ (State.presenceFallsDue s).mixer = s.mixer ∧
    (State.presenceFallsDue s).announce = s.announce ∧ (State.presenceFallsDue s).blend = s.blend ∧
    (State.presenceFallsDue s).call = s.call ∧ (State.presenceFallsDue s).note = s.note ∧
    (State.presenceFallsDue s).host = s.host ∧ (State.presenceFallsDue s).startUp = s.startUp ∧
    (State.presenceFallsDue s).line.timerExpired = s.line.timerExpired ∧
    (State.presenceFallsDue s).line.silentCount = s.line.silentCount ∧
    (State.presenceFallsDue s).line.silent = s.line.silent ∧ (State.presenceFallsDue s).line.lead = s.line.lead ∧
    (State.presenceFallsDue s).line.phase = s.line.phase ∧ (State.presenceFallsDue s).line.field = s.line.field ∧
    (State.presenceFallsDue s).line.sent = s.line.sent ∧ (State.presenceFallsDue s).line.vetoing = s.line.vetoing ∧
    (State.presenceFallsDue s).line.queue = s.line.queue ∧ (State.presenceFallsDue s).line.waiting = s.line.waiting ∧
    (State.presenceFallsDue s).line.bindings = s.line.bindings ∧
    (State.presenceFallsDue s).line.driven = s.line.driven ∧
    (State.presenceFallsDue s).line.lineSamples = s.line.lineSamples ∧
    (State.presenceFallsDue s).line.presenceCounter = s.line.presenceCounter ∧
    (State.presenceFallsDue s).line.selfVeto = s.line.selfVeto ∧
    (State.presenceFallsDue s).line.nextOrder = s.line.nextOrder := by
  refine ⟨?_, ?_, ?_, ?_, ?_, ?_, ?_, ?_, ?_, ?_, ?_, ?_, ?_, ?_, ?_, ?_, ?_, ?_, ?_, ?_, ?_, ?_, ?_, ?_, ?_, ?_, ?_, ?_, ?_, ?_⟩ <;>
  first
  | (unfold State.presenceFallsDue; first | (with_reducible rfl) | (simp; done))
  | (unfold State.presenceFallsDue; (try dsimp only); (repeat' split) <;> first | (with_reducible rfl) | (simp; done) | (simp_all; done))

@[simp] theorem State.silenceEnded_frame (s : State) :
    (State.silenceEnded s).pending = s.pending ∧ (State.silenceEnded s).localCount = s.localCount ∧
    (State.silenceEnded s).follower = s.follower ∧ (State.silenceEnded s).ports = s.ports ∧
    (State.silenceEnded s).store = s.store ∧ (State.silenceEnded s).announce = s.announce ∧
    (State.silenceEnded s).blend = s.blend ∧ (State.silenceEnded s).line.timerExpired = s.line.timerExpired ∧
    (State.silenceEnded s).line.silentCount = s.line.silentCount ∧
    (State.silenceEnded s).line.silent = s.line.silent ∧ (State.silenceEnded s).line.lead = s.line.lead ∧
    (State.silenceEnded s).line.phase = s.line.phase ∧ (State.silenceEnded s).line.field = s.line.field ∧
    (State.silenceEnded s).line.driven = s.line.driven ∧
    (State.silenceEnded s).line.lineSamples = s.line.lineSamples ∧
    (State.silenceEnded s).host.response = s.host.response ∧ (State.silenceEnded s).host.shifted = s.host.shifted ∧
    (State.silenceEnded s).host.stayAwake = s.host.stayAwake ∧
    (State.silenceEnded s).startUp.record = s.startUp.record ∧
    (State.silenceEnded s).startUp.reading = s.startUp.reading ∧
    (State.silenceEnded s).tables.frameCount = s.tables.frameCount := by
  refine ⟨?_, ?_, ?_, ?_, ?_, ?_, ?_, ?_, ?_, ?_, ?_, ?_, ?_, ?_, ?_, ?_, ?_, ?_, ?_, ?_, ?_⟩ <;>
  first
  | (unfold State.silenceEnded; first | (with_reducible rfl) | (simp; done))
  | (unfold State.silenceEnded; (try dsimp only); (repeat' split) <;> first | (with_reducible rfl) | (simp; done) | (simp_all; done))

@[simp] theorem State.uplinkRetry_frame (s : State) :
    (State.uplinkRetry s).pending = s.pending ∧ (State.uplinkRetry s).localCount = s.localCount ∧
    (State.uplinkRetry s).tables = s.tables ∧ (State.uplinkRetry s).member = s.member ∧
    (State.uplinkRetry s).follower = s.follower ∧ (State.uplinkRetry s).ports = s.ports ∧
    (State.uplinkRetry s).store = s.store ∧ (State.uplinkRetry s).mixer = s.mixer ∧
    (State.uplinkRetry s).announce = s.announce ∧ (State.uplinkRetry s).blend = s.blend ∧
    (State.uplinkRetry s).note = s.note ∧ (State.uplinkRetry s).host = s.host ∧
    (State.uplinkRetry s).startUp = s.startUp ∧ (State.uplinkRetry s).line.timerExpired = s.line.timerExpired ∧
    (State.uplinkRetry s).line.silentCount = s.line.silentCount ∧ (State.uplinkRetry s).line.silent = s.line.silent ∧
    (State.uplinkRetry s).line.lead = s.line.lead ∧ (State.uplinkRetry s).line.phase = s.line.phase ∧
    (State.uplinkRetry s).line.field = s.line.field ∧ (State.uplinkRetry s).line.sent = s.line.sent ∧
    (State.uplinkRetry s).line.vetoing = s.line.vetoing ∧ (State.uplinkRetry s).line.bindings = s.line.bindings ∧
    (State.uplinkRetry s).line.driven = s.line.driven ∧ (State.uplinkRetry s).line.lineSamples = s.line.lineSamples ∧
    (State.uplinkRetry s).line.presenceCounter = s.line.presenceCounter ∧
    (State.uplinkRetry s).line.presenceDue = s.line.presenceDue ∧
    (State.uplinkRetry s).line.selfVeto = s.line.selfVeto := by
  refine ⟨?_, ?_, ?_, ?_, ?_, ?_, ?_, ?_, ?_, ?_, ?_, ?_, ?_, ?_, ?_, ?_, ?_, ?_, ?_, ?_, ?_, ?_, ?_, ?_, ?_, ?_, ?_⟩ <;>
  first
  | (unfold State.uplinkRetry; first | (with_reducible rfl) | (simp; done))
  | (unfold State.uplinkRetry; (try dsimp only); (repeat' split) <;> first | (with_reducible rfl) | (simp; done) | (simp_all; done))

@[simp] theorem State.lineSilent_frame (s : State) :
    (State.lineSilent s).pending = s.pending ∧ (State.lineSilent s).localCount = s.localCount ∧
    (State.lineSilent s).tables = s.tables ∧ (State.lineSilent s).member = s.member ∧
    (State.lineSilent s).ports = s.ports ∧ (State.lineSilent s).store = s.store ∧
    (State.lineSilent s).mixer = s.mixer ∧ (State.lineSilent s).announce = s.announce ∧
    (State.lineSilent s).blend = s.blend ∧ (State.lineSilent s).call = s.call ∧ (State.lineSilent s).note = s.note ∧
    (State.lineSilent s).startUp = s.startUp ∧ (State.lineSilent s).line.timerExpired = s.line.timerExpired ∧
    (State.lineSilent s).line.silentCount = s.line.silentCount ∧ (State.lineSilent s).line.lead = s.line.lead ∧
    (State.lineSilent s).line.phase = s.line.phase ∧ (State.lineSilent s).line.field = s.line.field ∧
    (State.lineSilent s).line.sent = s.line.sent ∧ (State.lineSilent s).line.vetoing = s.line.vetoing ∧
    (State.lineSilent s).line.queue = s.line.queue ∧ (State.lineSilent s).line.waiting = s.line.waiting ∧
    (State.lineSilent s).line.bindings = s.line.bindings ∧ (State.lineSilent s).line.driven = s.line.driven ∧
    (State.lineSilent s).line.lineSamples = s.line.lineSamples ∧
    (State.lineSilent s).line.presenceCounter = s.line.presenceCounter ∧
    (State.lineSilent s).line.presenceDue = s.line.presenceDue ∧
    (State.lineSilent s).line.selfVeto = s.line.selfVeto ∧ (State.lineSilent s).line.nextOrder = s.line.nextOrder ∧
    (State.lineSilent s).host.response = s.host.response ∧ (State.lineSilent s).host.shifted = s.host.shifted ∧
    (State.lineSilent s).host.stayAwake = s.host.stayAwake := by
  refine ⟨?_, ?_, ?_, ?_, ?_, ?_, ?_, ?_, ?_, ?_, ?_, ?_, ?_, ?_, ?_, ?_, ?_, ?_, ?_, ?_, ?_, ?_, ?_, ?_, ?_, ?_, ?_, ?_, ?_, ?_, ?_⟩ <;>
  first
  | (unfold State.lineSilent; first | (with_reducible rfl) | (simp; done))
  | (unfold State.lineSilent; (try dsimp only); (repeat' split) <;> first | (with_reducible rfl) | (simp; done) | (simp_all; done))

end Sys2Proof.Machine
end

