-- ==== Sys2Proof/Laws/FramesZoneAudio.lean ====
section
/-! SUPPORT. Frames: what each operation of the output paths leaves alone, one lemma for an operation. -/

namespace Sys2Proof.Machine

set_option maxRecDepth 20000

@[simp] theorem State.mixZones_frame (s : State) :
    (State.mixZones s).pending = s.pending ∧ (State.mixZones s).localCount = s.localCount ∧
    (State.mixZones s).line = s.line ∧ (State.mixZones s).tables = s.tables ∧ (State.mixZones s).member = s.member ∧
    (State.mixZones s).follower = s.follower ∧ (State.mixZones s).ports = s.ports ∧
    (State.mixZones s).store = s.store ∧ (State.mixZones s).announce = s.announce ∧
    (State.mixZones s).blend = s.blend ∧ (State.mixZones s).call = s.call ∧ (State.mixZones s).note = s.note ∧
    (State.mixZones s).host = s.host ∧ (State.mixZones s).startUp = s.startUp := by
  refine ⟨?_, ?_, ?_, ?_, ?_, ?_, ?_, ?_, ?_, ?_, ?_, ?_, ?_, ?_⟩ <;>
  first
  | (unfold State.mixZones; first | (with_reducible rfl) | (simp; done))
  | (unfold State.mixZones; (try dsimp only); (repeat' split) <;> first | (with_reducible rfl) | (simp; done) | (simp_all; done))

@[simp] theorem State.emit_frame (s : State) (pair : Nat) (x : Stereo) :
    (State.emit s pair x).pending = s.pending ∧ (State.emit s pair x).localCount = s.localCount ∧
    (State.emit s pair x).line = s.line ∧ (State.emit s pair x).tables = s.tables ∧
    (State.emit s pair x).member = s.member ∧ (State.emit s pair x).follower = s.follower ∧
    (State.emit s pair x).store = s.store ∧ (State.emit s pair x).mixer = s.mixer ∧
    (State.emit s pair x).announce = s.announce ∧ (State.emit s pair x).blend = s.blend ∧
    (State.emit s pair x).call = s.call ∧ (State.emit s pair x).note = s.note ∧ (State.emit s pair x).host = s.host ∧
    (State.emit s pair x).startUp = s.startUp := by
  refine ⟨?_, ?_, ?_, ?_, ?_, ?_, ?_, ?_, ?_, ?_, ?_, ?_, ?_, ?_⟩ <;>
  first
  | (unfold State.emit; first | (with_reducible rfl) | (simp; done))
  | (unfold State.emit; (try dsimp only); (repeat' split) <;> first | (with_reducible rfl) | (simp; done) | (simp_all; done))

@[simp] theorem State.playPair_frame (s : State) (pair : Nat) :
    (State.playPair s pair).pending = s.pending ∧ (State.playPair s pair).localCount = s.localCount ∧
    (State.playPair s pair).line = s.line ∧ (State.playPair s pair).tables = s.tables ∧
    (State.playPair s pair).member = s.member ∧ (State.playPair s pair).follower = s.follower ∧
    (State.playPair s pair).store = s.store ∧ (State.playPair s pair).announce = s.announce ∧
    (State.playPair s pair).blend = s.blend ∧ (State.playPair s pair).call = s.call ∧
    (State.playPair s pair).note = s.note ∧ (State.playPair s pair).host = s.host ∧
    (State.playPair s pair).startUp = s.startUp := by
  refine ⟨?_, ?_, ?_, ?_, ?_, ?_, ?_, ?_, ?_, ?_, ?_, ?_, ?_⟩ <;>
  first
  | (unfold State.playPair; first | (with_reducible rfl) | (simp; done))
  | (unfold State.playPair; (try dsimp only); (repeat' split) <;> first | (with_reducible rfl) | (simp; done) | (simp_all; done))

@[simp] theorem State.alignBurst_frame (s : State) (access : Access) (pair group : Nat) (right : Bool) (data : List (Nat × Sample)) (purpose : Purpose) :
    (State.alignBurst s access pair group right data purpose).pending = s.pending ∧
    (State.alignBurst s access pair group right data purpose).localCount = s.localCount ∧
    (State.alignBurst s access pair group right data purpose).line = s.line ∧
    (State.alignBurst s access pair group right data purpose).tables = s.tables ∧
    (State.alignBurst s access pair group right data purpose).member = s.member ∧
    (State.alignBurst s access pair group right data purpose).follower = s.follower ∧
    (State.alignBurst s access pair group right data purpose).ports = s.ports ∧
    (State.alignBurst s access pair group right data purpose).note = s.note ∧
    (State.alignBurst s access pair group right data purpose).startUp = s.startUp ∧
    (State.alignBurst s access pair group right data purpose).host.response = s.host.response ∧
    (State.alignBurst s access pair group right data purpose).host.shifted = s.host.shifted ∧
    (State.alignBurst s access pair group right data purpose).host.stayAwake = s.host.stayAwake ∧
    (State.alignBurst s access pair group right data purpose).announce.channels = s.announce.channels ∧
    (State.alignBurst s access pair group right data purpose).store.memory = s.store.memory ∧
    (State.alignBurst s access pair group right data purpose).store.regions = s.store.regions ∧
    (State.alignBurst s access pair group right data purpose).store.retained = s.store.retained ∧
    (State.alignBurst s access pair group right data purpose).store.retention = s.store.retention ∧
    (State.alignBurst s access pair group right data purpose).store.pinHeld = s.store.pinHeld := by
  refine ⟨?_, ?_, ?_, ?_, ?_, ?_, ?_, ?_, ?_, ?_, ?_, ?_, ?_, ?_, ?_, ?_, ?_, ?_⟩ <;>
  first
  | (unfold State.alignBurst; first | (with_reducible rfl) | (simp; done))
  | (unfold State.alignBurst; (try dsimp only); (repeat' split) <;> first | (with_reducible rfl) | (simp; done) | (simp_all; done))

@[simp] theorem State.alignWrites_frame (s : State) (pair : Nat) :
    (State.alignWrites s pair).pending = s.pending ∧ (State.alignWrites s pair).localCount = s.localCount ∧
    (State.alignWrites s pair).line = s.line ∧ (State.alignWrites s pair).tables = s.tables ∧
    (State.alignWrites s pair).member = s.member ∧ (State.alignWrites s pair).follower = s.follower ∧
    (State.alignWrites s pair).ports = s.ports ∧ (State.alignWrites s pair).note = s.note ∧
    (State.alignWrites s pair).startUp = s.startUp ∧ (State.alignWrites s pair).host.response = s.host.response ∧
    (State.alignWrites s pair).host.shifted = s.host.shifted ∧
    (State.alignWrites s pair).host.stayAwake = s.host.stayAwake ∧
    (State.alignWrites s pair).announce.channels = s.announce.channels ∧
    (State.alignWrites s pair).store.memory = s.store.memory ∧
    (State.alignWrites s pair).store.regions = s.store.regions ∧
    (State.alignWrites s pair).store.retained = s.store.retained ∧
    (State.alignWrites s pair).store.retention = s.store.retention ∧
    (State.alignWrites s pair).store.pinHeld = s.store.pinHeld := by
  refine ⟨?_, ?_, ?_, ?_, ?_, ?_, ?_, ?_, ?_, ?_, ?_, ?_, ?_, ?_, ?_, ?_, ?_, ?_⟩ <;>
  first
  | (unfold State.alignWrites; first | (with_reducible rfl) | (simp; done))
  | (unfold State.alignWrites; (try dsimp only); (repeat' split) <;> first | (with_reducible rfl) | (simp; done) | (simp_all; done))

@[simp] theorem State.alignReads_frame (s : State) (pair delay : Nat) :
    (State.alignReads s pair delay).pending = s.pending ∧ (State.alignReads s pair delay).localCount = s.localCount ∧
    (State.alignReads s pair delay).line = s.line ∧ (State.alignReads s pair delay).tables = s.tables ∧
    (State.alignReads s pair delay).member = s.member ∧ (State.alignReads s pair delay).follower = s.follower ∧
    (State.alignReads s pair delay).ports = s.ports ∧ (State.alignReads s pair delay).note = s.note ∧
    (State.alignReads s pair delay).startUp = s.startUp ∧
    (State.alignReads s pair delay).host.response = s.host.response ∧
    (State.alignReads s pair delay).host.shifted = s.host.shifted ∧
    (State.alignReads s pair delay).host.stayAwake = s.host.stayAwake ∧
    (State.alignReads s pair delay).announce.channels = s.announce.channels ∧
    (State.alignReads s pair delay).store.memory = s.store.memory ∧
    (State.alignReads s pair delay).store.regions = s.store.regions ∧
    (State.alignReads s pair delay).store.retained = s.store.retained ∧
    (State.alignReads s pair delay).store.retention = s.store.retention ∧
    (State.alignReads s pair delay).store.pinHeld = s.store.pinHeld := by
  refine ⟨?_, ?_, ?_, ?_, ?_, ?_, ?_, ?_, ?_, ?_, ?_, ?_, ?_, ?_, ?_, ?_, ?_, ?_⟩ <;>
  first
  | (unfold State.alignReads; first | (with_reducible rfl) | (simp; done))
  | (unfold State.alignReads; (try dsimp only); (repeat' split) <;> first | (with_reducible rfl) | (simp; done) | (simp_all; done))

@[simp] theorem State.alignTurn_frame (s : State) :
    (State.alignTurn s).pending = s.pending ∧ (State.alignTurn s).localCount = s.localCount ∧
    (State.alignTurn s).line = s.line ∧ (State.alignTurn s).tables = s.tables ∧
    (State.alignTurn s).member = s.member ∧ (State.alignTurn s).follower = s.follower ∧
    (State.alignTurn s).ports = s.ports ∧ (State.alignTurn s).note = s.note ∧
    (State.alignTurn s).startUp = s.startUp ∧ (State.alignTurn s).host.response = s.host.response ∧
    (State.alignTurn s).host.shifted = s.host.shifted ∧ (State.alignTurn s).host.stayAwake = s.host.stayAwake ∧
    (State.alignTurn s).announce.channels = s.announce.channels ∧ (State.alignTurn s).store.memory = s.store.memory ∧
    (State.alignTurn s).store.regions = s.store.regions ∧ (State.alignTurn s).store.retained = s.store.retained ∧
    (State.alignTurn s).store.retention = s.store.retention ∧ (State.alignTurn s).store.pinHeld = s.store.pinHeld := by
  refine ⟨?_, ?_, ?_, ?_, ?_, ?_, ?_, ?_, ?_, ?_, ?_, ?_, ?_, ?_, ?_, ?_, ?_, ?_⟩ <;>
  first
  | (unfold State.alignTurn; first | (with_reducible rfl) | (simp; done))
  | (unfold State.alignTurn; (try dsimp only); (repeat' split) <;> first | (with_reducible rfl) | (simp; done) | (simp_all; done))

@[simp] theorem State.playPairs_frame (s : State) :
    (State.playPairs s).pending = s.pending ∧ (State.playPairs s).localCount = s.localCount ∧
    (State.playPairs s).line = s.line ∧ (State.playPairs s).tables = s.tables ∧
    (State.playPairs s).member = s.member ∧ (State.playPairs s).follower = s.follower ∧
    (State.playPairs s).note = s.note ∧ (State.playPairs s).startUp = s.startUp ∧
    (State.playPairs s).host.response = s.host.response ∧ (State.playPairs s).host.shifted = s.host.shifted ∧
    (State.playPairs s).host.stayAwake = s.host.stayAwake ∧
    (State.playPairs s).announce.channels = s.announce.channels ∧ (State.playPairs s).store.memory = s.store.memory ∧
    (State.playPairs s).store.regions = s.store.regions ∧ (State.playPairs s).store.retained = s.store.retained ∧
    (State.playPairs s).store.retention = s.store.retention ∧ (State.playPairs s).store.pinHeld = s.store.pinHeld := by
  refine ⟨?_, ?_, ?_, ?_, ?_, ?_, ?_, ?_, ?_, ?_, ?_, ?_, ?_, ?_, ?_, ?_, ?_⟩ <;>
  first
  | (unfold State.playPairs; first | (with_reducible rfl) | (simp; done))
  | (unfold State.playPairs; (try dsimp only); (repeat' split) <;> first | (with_reducible rfl) | (simp; done) | (simp_all; done))

end Sys2Proof.Machine
end

