-- ==== Sys2Proof/Laws/FramesClips.lean ====
section
/-! SUPPORT. Frames: what each operation of the announce unit leaves alone, one lemma for an operation. -/

namespace Sys2Proof.Machine

set_option maxRecDepth 20000

@[simp] theorem State.onClip_frame (s : State) (i : Nat) (f : Clip → Clip) :
    (State.onClip s i f).pending = s.pending ∧ (State.onClip s i f).localCount = s.localCount ∧
    (State.onClip s i f).line = s.line ∧ (State.onClip s i f).tables = s.tables ∧
    (State.onClip s i f).member = s.member ∧ (State.onClip s i f).follower = s.follower ∧
    (State.onClip s i f).ports = s.ports ∧ (State.onClip s i f).store = s.store ∧
    (State.onClip s i f).mixer = s.mixer ∧ (State.onClip s i f).blend = s.blend ∧ (State.onClip s i f).call = s.call ∧
    (State.onClip s i f).note = s.note ∧ (State.onClip s i f).host = s.host ∧
    (State.onClip s i f).startUp = s.startUp ∧ (State.onClip s i f).announce.channels = s.announce.channels ∧
    (State.onClip s i f).announce.plays = s.announce.plays := by
  refine ⟨?_, ?_, ?_, ?_, ?_, ?_, ?_, ?_, ?_, ?_, ?_, ?_, ?_, ?_, ?_, ?_⟩ <;>
  first
  | (unfold State.onClip; first | (with_reducible rfl) | (simp; done))
  | (unfold State.onClip; (try dsimp only); (repeat' split) <;> first | (with_reducible rfl) | (simp; done) | (simp_all; done))

@[simp] theorem State.dropBuffer_frame (s : State) (i : Nat) :
    (State.dropBuffer s i).pending = s.pending ∧ (State.dropBuffer s i).localCount = s.localCount ∧
    (State.dropBuffer s i).line = s.line ∧ (State.dropBuffer s i).tables = s.tables ∧
    (State.dropBuffer s i).member = s.member ∧ (State.dropBuffer s i).follower = s.follower ∧
    (State.dropBuffer s i).ports = s.ports ∧ (State.dropBuffer s i).store = s.store ∧
    (State.dropBuffer s i).mixer = s.mixer ∧ (State.dropBuffer s i).blend = s.blend ∧
    (State.dropBuffer s i).call = s.call ∧ (State.dropBuffer s i).note = s.note ∧
    (State.dropBuffer s i).host = s.host ∧ (State.dropBuffer s i).startUp = s.startUp ∧
    (State.dropBuffer s i).announce.clips = s.announce.clips ∧
    (State.dropBuffer s i).announce.channels = s.announce.channels ∧
    (State.dropBuffer s i).announce.plays = s.announce.plays := by
  refine ⟨?_, ?_, ?_, ?_, ?_, ?_, ?_, ?_, ?_, ?_, ?_, ?_, ?_, ?_, ?_, ?_, ?_⟩ <;>
  first
  | (unfold State.dropBuffer; first | (with_reducible rfl) | (simp; done))
  | (unfold State.dropBuffer; (try dsimp only); (repeat' split) <;> first | (with_reducible rfl) | (simp; done) | (simp_all; done))

@[simp] theorem State.endPlay_frame (s : State) (place : Nat) (cause : Option Cause) :
    (State.endPlay s place cause).pending = s.pending ∧ (State.endPlay s place cause).localCount = s.localCount ∧
    (State.endPlay s place cause).line = s.line ∧ (State.endPlay s place cause).tables = s.tables ∧
    (State.endPlay s place cause).member = s.member ∧ (State.endPlay s place cause).follower = s.follower ∧
    (State.endPlay s place cause).ports = s.ports ∧ (State.endPlay s place cause).store = s.store ∧
    (State.endPlay s place cause).mixer = s.mixer ∧ (State.endPlay s place cause).blend = s.blend ∧
    (State.endPlay s place cause).call = s.call ∧ (State.endPlay s place cause).note = s.note ∧
    (State.endPlay s place cause).startUp = s.startUp ∧
    (State.endPlay s place cause).host.response = s.host.response ∧
    (State.endPlay s place cause).host.shifted = s.host.shifted ∧
    (State.endPlay s place cause).host.stayAwake = s.host.stayAwake ∧
    (State.endPlay s place cause).announce.clips = s.announce.clips ∧
    (State.endPlay s place cause).announce.channels = s.announce.channels := by
  refine ⟨?_, ?_, ?_, ?_, ?_, ?_, ?_, ?_, ?_, ?_, ?_, ?_, ?_, ?_, ?_, ?_, ?_, ?_⟩ <;>
  first
  | (unfold State.endPlay; first | (with_reducible rfl) | (simp; done))
  | (unfold State.endPlay; (try dsimp only); (repeat' split) <;> first | (with_reducible rfl) | (simp; done) | (simp_all; done))

@[simp] theorem State.endPlays_frame (s : State) (p : Play → Bool) (cause : Option Cause) :
    (State.endPlays s p cause).pending = s.pending ∧ (State.endPlays s p cause).localCount = s.localCount ∧
    (State.endPlays s p cause).line = s.line ∧ (State.endPlays s p cause).tables = s.tables ∧
    (State.endPlays s p cause).member = s.member ∧ (State.endPlays s p cause).follower = s.follower ∧
    (State.endPlays s p cause).ports = s.ports ∧ (State.endPlays s p cause).store = s.store ∧
    (State.endPlays s p cause).mixer = s.mixer ∧ (State.endPlays s p cause).blend = s.blend ∧
    (State.endPlays s p cause).call = s.call ∧ (State.endPlays s p cause).note = s.note ∧
    (State.endPlays s p cause).startUp = s.startUp ∧ (State.endPlays s p cause).host.response = s.host.response ∧
    (State.endPlays s p cause).host.shifted = s.host.shifted ∧
    (State.endPlays s p cause).host.stayAwake = s.host.stayAwake ∧
    (State.endPlays s p cause).announce.clips = s.announce.clips ∧
    (State.endPlays s p cause).announce.channels = s.announce.channels := by
  refine ⟨?_, ?_, ?_, ?_, ?_, ?_, ?_, ?_, ?_, ?_, ?_, ?_, ?_, ?_, ?_, ?_, ?_, ?_⟩
  · unfold State.endPlays; exact forEach_keeps (fun t => t.pending) 4 _ s (fun i t => by split <;> (try split) <;> simp)
  · unfold State.endPlays; exact forEach_keeps (fun t => t.localCount) 4 _ s (fun i t => by split <;> (try split) <;> simp)
  · unfold State.endPlays; exact forEach_keeps (fun t => t.line) 4 _ s (fun i t => by split <;> (try split) <;> simp)
  · unfold State.endPlays; exact forEach_keeps (fun t => t.tables) 4 _ s (fun i t => by split <;> (try split) <;> simp)
  · unfold State.endPlays; exact forEach_keeps (fun t => t.member) 4 _ s (fun i t => by split <;> (try split) <;> simp)
  · unfold State.endPlays; exact forEach_keeps (fun t => t.follower) 4 _ s (fun i t => by split <;> (try split) <;> simp)
  · unfold State.endPlays; exact forEach_keeps (fun t => t.ports) 4 _ s (fun i t => by split <;> (try split) <;> simp)
  · unfold State.endPlays; exact forEach_keeps (fun t => t.store) 4 _ s (fun i t => by split <;> (try split) <;> simp)
  · unfold State.endPlays; exact forEach_keeps (fun t => t.mixer) 4 _ s (fun i t => by split <;> (try split) <;> simp)
  · unfold State.endPlays; exact forEach_keeps (fun t => t.blend) 4 _ s (fun i t => by split <;> (try split) <;> simp)
  · unfold State.endPlays; exact forEach_keeps (fun t => t.call) 4 _ s (fun i t => by split <;> (try split) <;> simp)
  · unfold State.endPlays; exact forEach_keeps (fun t => t.note) 4 _ s (fun i t => by split <;> (try split) <;> simp)
  · unfold State.endPlays; exact forEach_keeps (fun t => t.startUp) 4 _ s (fun i t => by split <;> (try split) <;> simp)
  · unfold State.endPlays; exact forEach_keeps (fun t => t.host.response) 4 _ s (fun i t => by split <;> (try split) <;> simp)
  · unfold State.endPlays; exact forEach_keeps (fun t => t.host.shifted) 4 _ s (fun i t => by split <;> (try split) <;> simp)
  · unfold State.endPlays; exact forEach_keeps (fun t => t.host.stayAwake) 4 _ s (fun i t => by split <;> (try split) <;> simp)
  · unfold State.endPlays; exact forEach_keeps (fun t => t.announce.clips) 4 _ s (fun i t => by split <;> (try split) <;> simp)
  · unfold State.endPlays; exact forEach_keeps (fun t => t.announce.channels) 4 _ s (fun i t => by split <;> (try split) <;> simp)

@[simp] theorem State.loseClip_frame (s : State) (i : Nat) (cause : Cause) :
    (State.loseClip s i cause).pending = s.pending ∧ (State.loseClip s i cause).localCount = s.localCount ∧
    (State.loseClip s i cause).line = s.line ∧ (State.loseClip s i cause).tables = s.tables ∧
    (State.loseClip s i cause).member = s.member ∧ (State.loseClip s i cause).follower = s.follower ∧
    (State.loseClip s i cause).ports = s.ports ∧ (State.loseClip s i cause).store = s.store ∧
    (State.loseClip s i cause).mixer = s.mixer ∧ (State.loseClip s i cause).blend = s.blend ∧
    (State.loseClip s i cause).call = s.call ∧ (State.loseClip s i cause).note = s.note ∧
    (State.loseClip s i cause).startUp = s.startUp ∧ (State.loseClip s i cause).host.response = s.host.response ∧
    (State.loseClip s i cause).host.shifted = s.host.shifted ∧
    (State.loseClip s i cause).host.stayAwake = s.host.stayAwake ∧
    (State.loseClip s i cause).announce.channels = s.announce.channels := by
  refine ⟨?_, ?_, ?_, ?_, ?_, ?_, ?_, ?_, ?_, ?_, ?_, ?_, ?_, ?_, ?_, ?_, ?_⟩ <;>
  (unfold State.loseClip; simp)

@[simp] theorem State.bankLost_frame (s : State) (bank : Nat) :
    (State.bankLost s bank).pending = s.pending ∧ (State.bankLost s bank).localCount = s.localCount ∧
    (State.bankLost s bank).line = s.line ∧ (State.bankLost s bank).tables = s.tables ∧
    (State.bankLost s bank).member = s.member ∧ (State.bankLost s bank).follower = s.follower ∧
    (State.bankLost s bank).ports = s.ports ∧ (State.bankLost s bank).store = s.store ∧
    (State.bankLost s bank).mixer = s.mixer ∧ (State.bankLost s bank).blend = s.blend ∧
    (State.bankLost s bank).call = s.call ∧ (State.bankLost s bank).note = s.note ∧
    (State.bankLost s bank).startUp = s.startUp ∧ (State.bankLost s bank).host.response = s.host.response ∧
    (State.bankLost s bank).host.shifted = s.host.shifted ∧
    (State.bankLost s bank).host.stayAwake = s.host.stayAwake ∧
    (State.bankLost s bank).announce.channels = s.announce.channels := by
  refine ⟨?_, ?_, ?_, ?_, ?_, ?_, ?_, ?_, ?_, ?_, ?_, ?_, ?_, ?_, ?_, ?_, ?_⟩
  · unfold State.bankLost; exact forEach_keeps (fun t => t.pending) 32 _ s (fun i t => by dsimp only; split <;> simp)
  · unfold State.bankLost; exact forEach_keeps (fun t => t.localCount) 32 _ s (fun i t => by dsimp only; split <;> simp)
  · unfold State.bankLost; exact forEach_keeps (fun t => t.line) 32 _ s (fun i t => by dsimp only; split <;> simp)
  · unfold State.bankLost; exact forEach_keeps (fun t => t.tables) 32 _ s (fun i t => by dsimp only; split <;> simp)
  · unfold State.bankLost; exact forEach_keeps (fun t => t.member) 32 _ s (fun i t => by dsimp only; split <;> simp)
  · unfold State.bankLost; exact forEach_keeps (fun t => t.follower) 32 _ s (fun i t => by dsimp only; split <;> simp)
  · unfold State.bankLost; exact forEach_keeps (fun t => t.ports) 32 _ s (fun i t => by dsimp only; split <;> simp)
  · unfold State.bankLost; exact forEach_keeps (fun t => t.store) 32 _ s (fun i t => by dsimp only; split <;> simp)
  · unfold State.bankLost; exact forEach_keeps (fun t => t.mixer) 32 _ s (fun i t => by dsimp only; split <;> simp)
  · unfold State.bankLost; exact forEach_keeps (fun t => t.blend) 32 _ s (fun i t => by dsimp only; split <;> simp)
  · unfold State.bankLost; exact forEach_keeps (fun t => t.call) 32 _ s (fun i t => by dsimp only; split <;> simp)
  · unfold State.bankLost; exact forEach_keeps (fun t => t.note) 32 _ s (fun i t => by dsimp only; split <;> simp)
  · unfold State.bankLost; exact forEach_keeps (fun t => t.startUp) 32 _ s (fun i t => by dsimp only; split <;> simp)
  · unfold State.bankLost; exact forEach_keeps (fun t => t.host.response) 32 _ s (fun i t => by dsimp only; split <;> simp)
  · unfold State.bankLost; exact forEach_keeps (fun t => t.host.shifted) 32 _ s (fun i t => by dsimp only; split <;> simp)
  · unfold State.bankLost; exact forEach_keeps (fun t => t.host.stayAwake) 32 _ s (fun i t => by dsimp only; split <;> simp)
  · unfold State.bankLost; exact forEach_keeps (fun t => t.announce.channels) 32 _ s (fun i t => by dsimp only; split <;> simp)

@[simp] theorem State.emptyLoads_frame (s : State) :
    (State.emptyLoads s).pending = s.pending ∧ (State.emptyLoads s).localCount = s.localCount ∧
    (State.emptyLoads s).line = s.line ∧ (State.emptyLoads s).tables = s.tables ∧
    (State.emptyLoads s).member = s.member ∧ (State.emptyLoads s).follower = s.follower ∧
    (State.emptyLoads s).ports = s.ports ∧ (State.emptyLoads s).store = s.store ∧
    (State.emptyLoads s).mixer = s.mixer ∧ (State.emptyLoads s).blend = s.blend ∧ (State.emptyLoads s).call = s.call ∧
    (State.emptyLoads s).note = s.note ∧ (State.emptyLoads s).host = s.host ∧
    (State.emptyLoads s).startUp = s.startUp ∧ (State.emptyLoads s).announce.channels = s.announce.channels ∧
    (State.emptyLoads s).announce.plays = s.announce.plays := by
  refine ⟨?_, ?_, ?_, ?_, ?_, ?_, ?_, ?_, ?_, ?_, ?_, ?_, ?_, ?_, ?_, ?_⟩ <;>
  first
  | (unfold State.emptyLoads; first | (with_reducible rfl) | (simp; done))
  | (unfold State.emptyLoads; (try dsimp only); (repeat' split) <;> first | (with_reducible rfl) | (simp; done) | (simp_all; done))

@[simp] theorem State.contentReport_frame (s : State) (report : Nat → Bool) :
    (State.contentReport s report).pending = s.pending ∧ (State.contentReport s report).localCount = s.localCount ∧
    (State.contentReport s report).line = s.line ∧ (State.contentReport s report).tables = s.tables ∧
    (State.contentReport s report).member = s.member ∧ (State.contentReport s report).follower = s.follower ∧
    (State.contentReport s report).ports = s.ports ∧ (State.contentReport s report).store = s.store ∧
    (State.contentReport s report).mixer = s.mixer ∧ (State.contentReport s report).blend = s.blend ∧
    (State.contentReport s report).call = s.call ∧ (State.contentReport s report).note = s.note ∧
    (State.contentReport s report).startUp = s.startUp ∧
    (State.contentReport s report).host.response = s.host.response ∧
    (State.contentReport s report).host.shifted = s.host.shifted ∧
    (State.contentReport s report).host.stayAwake = s.host.stayAwake ∧
    (State.contentReport s report).announce.channels = s.announce.channels := by
  refine ⟨?_, ?_, ?_, ?_, ?_, ?_, ?_, ?_, ?_, ?_, ?_, ?_, ?_, ?_, ?_, ?_, ?_⟩
  · unfold State.contentReport; dsimp only; rw [forEach_pending, forEach_pending] <;> first | (simp; done) | (intro i t; split <;> simp)
  · unfold State.contentReport; dsimp only; rw [forEach_localCount, forEach_localCount] <;> first | (simp; done) | (intro i t; split <;> simp)
  · unfold State.contentReport; dsimp only; rw [forEach_line, forEach_line] <;> first | (simp; done) | (intro i t; split <;> simp)
  · unfold State.contentReport; dsimp only; rw [forEach_tables, forEach_tables] <;> first | (simp; done) | (intro i t; split <;> simp)
  · unfold State.contentReport; dsimp only; rw [forEach_member, forEach_member] <;> first | (simp; done) | (intro i t; split <;> simp)
  · unfold State.contentReport; dsimp only; rw [forEach_follower, forEach_follower] <;> first | (simp; done) | (intro i t; split <;> simp)
  · unfold State.contentReport; dsimp only; rw [forEach_ports, forEach_ports] <;> first | (simp; done) | (intro i t; split <;> simp)
  · unfold State.contentReport; dsimp only; rw [forEach_store, forEach_store] <;> first | (simp; done) | (intro i t; split <;> simp)
  · unfold State.contentReport; dsimp only; rw [forEach_mixer, forEach_mixer] <;> first | (simp; done) | (intro i t; split <;> simp)
  · unfold State.contentReport; dsimp only; rw [forEach_blend, forEach_blend] <;> first | (simp; done) | (intro i t; split <;> simp)
  · unfold State.contentReport; dsimp only; rw [forEach_call, forEach_call] <;> first | (simp; done) | (intro i t; split <;> simp)
  · unfold State.contentReport; dsimp only; rw [forEach_note, forEach_note] <;> first | (simp; done) | (intro i t; split <;> simp)
  · unfold State.contentReport; dsimp only; rw [forEach_startUp, forEach_startUp] <;> first | (simp; done) | (intro i t; split <;> simp)
  · unfold State.contentReport; dsimp only; rw [forEach_host_response, forEach_host_response] <;> first | (simp; done) | (intro i t; split <;> simp)
  · unfold State.contentReport; dsimp only; rw [forEach_host_shifted, forEach_host_shifted] <;> first | (simp; done) | (intro i t; split <;> simp)
  · unfold State.contentReport; dsimp only; rw [forEach_host_stayAwake, forEach_host_stayAwake] <;> first | (simp; done) | (intro i t; split <;> simp)
  · unfold State.contentReport; dsimp only; rw [forEach_announce_channels, forEach_announce_channels] <;> first | (simp; done) | (intro i t; split <;> simp)

@[simp] theorem State.requestGroup_frame (s : State) (place : Nat) (offset repetition group due : Nat) :
    (State.requestGroup s place offset repetition group due).pending = s.pending ∧
    (State.requestGroup s place offset repetition group due).localCount = s.localCount ∧
    (State.requestGroup s place offset repetition group due).line = s.line ∧
    (State.requestGroup s place offset repetition group due).tables = s.tables ∧
    (State.requestGroup s place offset repetition group due).member = s.member ∧
    (State.requestGroup s place offset repetition group due).follower = s.follower ∧
    (State.requestGroup s place offset repetition group due).ports = s.ports ∧
    (State.requestGroup s place offset repetition group due).note = s.note ∧
    (State.requestGroup s place offset repetition group due).startUp = s.startUp ∧
    (State.requestGroup s place offset repetition group due).host.response = s.host.response ∧
    (State.requestGroup s place offset repetition group due).host.shifted = s.host.shifted ∧
    (State.requestGroup s place offset repetition group due).host.stayAwake = s.host.stayAwake ∧
    (State.requestGroup s place offset repetition group due).announce.channels = s.announce.channels ∧
    (State.requestGroup s place offset repetition group due).store.memory = s.store.memory ∧
    (State.requestGroup s place offset repetition group due).store.regions = s.store.regions ∧
    (State.requestGroup s place offset repetition group due).store.retained = s.store.retained ∧
    (State.requestGroup s place offset repetition group due).store.retention = s.store.retention ∧
    (State.requestGroup s place offset repetition group due).store.pinHeld = s.store.pinHeld := by
  refine ⟨?_, ?_, ?_, ?_, ?_, ?_, ?_, ?_, ?_, ?_, ?_, ?_, ?_, ?_, ?_, ?_, ?_, ?_⟩ <;>
  first
  | (unfold State.requestGroup; first | (with_reducible rfl) | (simp; done))
  | (unfold State.requestGroup; (try dsimp only); (repeat' split) <;> first | (with_reducible rfl) | (simp; done) | (simp_all; done))

@[simp] theorem State.requestGroups_frame (s : State) (place : Nat) :
    (State.requestGroups s place).pending = s.pending ∧ (State.requestGroups s place).localCount = s.localCount ∧
    (State.requestGroups s place).line = s.line ∧ (State.requestGroups s place).tables = s.tables ∧
    (State.requestGroups s place).member = s.member ∧ (State.requestGroups s place).follower = s.follower ∧
    (State.requestGroups s place).ports = s.ports ∧ (State.requestGroups s place).note = s.note ∧
    (State.requestGroups s place).startUp = s.startUp ∧
    (State.requestGroups s place).host.response = s.host.response ∧
    (State.requestGroups s place).host.shifted = s.host.shifted ∧
    (State.requestGroups s place).host.stayAwake = s.host.stayAwake ∧
    (State.requestGroups s place).announce.channels = s.announce.channels ∧
    (State.requestGroups s place).store.memory = s.store.memory ∧
    (State.requestGroups s place).store.regions = s.store.regions ∧
    (State.requestGroups s place).store.retained = s.store.retained ∧
    (State.requestGroups s place).store.retention = s.store.retention ∧
    (State.requestGroups s place).store.pinHeld = s.store.pinHeld := by
  refine ⟨?_, ?_, ?_, ?_, ?_, ?_, ?_, ?_, ?_, ?_, ?_, ?_, ?_, ?_, ?_, ?_, ?_, ?_⟩ <;>
  first
  | (unfold State.requestGroups; first | (with_reducible rfl) | (simp; done))
  | (unfold State.requestGroups; (try dsimp only); (repeat' split) <;> first | (with_reducible rfl) | (simp; done) | (simp_all; done))

@[simp] theorem State.soundPlays_frame (s : State) :
    (State.soundPlays s).pending = s.pending ∧ (State.soundPlays s).localCount = s.localCount ∧
    (State.soundPlays s).line = s.line ∧ (State.soundPlays s).tables = s.tables ∧
    (State.soundPlays s).member = s.member ∧ (State.soundPlays s).follower = s.follower ∧
    (State.soundPlays s).ports = s.ports ∧ (State.soundPlays s).store = s.store ∧
    (State.soundPlays s).mixer = s.mixer ∧ (State.soundPlays s).blend = s.blend ∧ (State.soundPlays s).call = s.call ∧
    (State.soundPlays s).note = s.note ∧ (State.soundPlays s).host = s.host ∧
    (State.soundPlays s).startUp = s.startUp ∧ (State.soundPlays s).announce.clips = s.announce.clips ∧
    (State.soundPlays s).announce.channels = s.announce.channels := by
  refine ⟨?_, ?_, ?_, ?_, ?_, ?_, ?_, ?_, ?_, ?_, ?_, ?_, ?_, ?_, ?_, ?_⟩ <;>
  first
  | (unfold State.soundPlays; first | (with_reducible rfl) | (simp; done))
  | (unfold State.soundPlays; (try dsimp only); (repeat' split) <;> first | (with_reducible rfl) | (simp; done) | (simp_all; done))

@[simp] theorem State.announceSample_frame (s : State) :
    (State.announceSample s).pending = s.pending ∧ (State.announceSample s).localCount = s.localCount ∧
    (State.announceSample s).line = s.line ∧ (State.announceSample s).tables = s.tables ∧
    (State.announceSample s).member = s.member ∧ (State.announceSample s).follower = s.follower ∧
    (State.announceSample s).ports = s.ports ∧ (State.announceSample s).note = s.note ∧
    (State.announceSample s).startUp = s.startUp ∧ (State.announceSample s).host.response = s.host.response ∧
    (State.announceSample s).host.shifted = s.host.shifted ∧
    (State.announceSample s).host.stayAwake = s.host.stayAwake ∧
    (State.announceSample s).announce.channels = s.announce.channels ∧
    (State.announceSample s).store.memory = s.store.memory ∧
    (State.announceSample s).store.regions = s.store.regions ∧
    (State.announceSample s).store.retained = s.store.retained ∧
    (State.announceSample s).store.retention = s.store.retention ∧
    (State.announceSample s).store.pinHeld = s.store.pinHeld := by
  refine ⟨?_, ?_, ?_, ?_, ?_, ?_, ?_, ?_, ?_, ?_, ?_, ?_, ?_, ?_, ?_, ?_, ?_, ?_⟩ <;>
  first
  | (unfold State.announceSample; first | (with_reducible rfl) | (simp; done))
  | (unfold State.announceSample; (try dsimp only); (repeat' split) <;> first | (with_reducible rfl) | (simp; done) | (simp_all; done))

@[simp] theorem State.playCompleted_frame (s : State) (place : Nat) :
    (State.playCompleted s place).pending = s.pending ∧ (State.playCompleted s place).localCount = s.localCount ∧
    (State.playCompleted s place).line = s.line ∧ (State.playCompleted s place).tables = s.tables ∧
    (State.playCompleted s place).member = s.member ∧ (State.playCompleted s place).follower = s.follower ∧
    (State.playCompleted s place).ports = s.ports ∧ (State.playCompleted s place).store = s.store ∧
    (State.playCompleted s place).mixer = s.mixer ∧ (State.playCompleted s place).blend = s.blend ∧
    (State.playCompleted s place).call = s.call ∧ (State.playCompleted s place).note = s.note ∧
    (State.playCompleted s place).startUp = s.startUp ∧
    (State.playCompleted s place).host.response = s.host.response ∧
    (State.playCompleted s place).host.shifted = s.host.shifted ∧
    (State.playCompleted s place).host.stayAwake = s.host.stayAwake ∧
    (State.playCompleted s place).announce.clips = s.announce.clips ∧
    (State.playCompleted s place).announce.channels = s.announce.channels := by
  refine ⟨?_, ?_, ?_, ?_, ?_, ?_, ?_, ?_, ?_, ?_, ?_, ?_, ?_, ?_, ?_, ?_, ?_, ?_⟩ <;>
  first
  | (unfold State.playCompleted; first | (with_reducible rfl) | (simp; done))
  | (unfold State.playCompleted; (try dsimp only); (repeat' split) <;> first | (with_reducible rfl) | (simp; done) | (simp_all; done))

end Sys2Proof.Machine
end

