-- ==== Sys2Proof/Laws/FramesCadence.lean ====
section
/-! SUPPORT. Frames: what each operation of the cadence unit leaves alone, one lemma for an operation. -/

namespace Sys2Proof.Machine

set_option maxRecDepth 20000

@[simp] theorem State.onChannel_frame (s : State) (c : Nat) (f : CadenceChannel → CadenceChannel) :
    (State.onChannel s c f).pending = s.pending ∧ (State.onChannel s c f).localCount = s.localCount ∧
    (State.onChannel s c f).line = s.line ∧ (State.onChannel s c f).tables = s.tables ∧
    (State.onChannel s c f).member = s.member ∧ (State.onChannel s c f).follower = s.follower ∧
    (State.onChannel s c f).ports = s.ports ∧ (State.onChannel s c f).store = s.store ∧
    (State.onChannel s c f).mixer = s.mixer ∧ (State.onChannel s c f).blend = s.blend ∧
    (State.onChannel s c f).call = s.call ∧ (State.onChannel s c f).note = s.note ∧
    (State.onChannel s c f).host = s.host ∧ (State.onChannel s c f).startUp = s.startUp ∧
    (State.onChannel s c f).announce.clips = s.announce.clips ∧
    (State.onChannel s c f).announce.plays = s.announce.plays := by
  refine ⟨?_, ?_, ?_, ?_, ?_, ?_, ?_, ?_, ?_, ?_, ?_, ?_, ?_, ?_, ?_, ?_⟩ <;>
  first
  | (unfold State.onChannel; first | (with_reducible rfl) | (simp; done))
  | (unfold State.onChannel; (try dsimp only); (repeat' split) <;> first | (with_reducible rfl) | (simp; done) | (simp_all; done))

@[simp] theorem State.onFollowers_frame (s : State) (leader : Nat) (f : CadenceChannel → CadenceChannel) :
    (State.onFollowers s leader f).pending = s.pending ∧ (State.onFollowers s leader f).localCount = s.localCount ∧
    (State.onFollowers s leader f).line = s.line ∧ (State.onFollowers s leader f).tables = s.tables ∧
    (State.onFollowers s leader f).member = s.member ∧ (State.onFollowers s leader f).follower = s.follower ∧
    (State.onFollowers s leader f).ports = s.ports ∧ (State.onFollowers s leader f).store = s.store ∧
    (State.onFollowers s leader f).mixer = s.mixer ∧ (State.onFollowers s leader f).blend = s.blend ∧
    (State.onFollowers s leader f).call = s.call ∧ (State.onFollowers s leader f).note = s.note ∧
    (State.onFollowers s leader f).host = s.host ∧ (State.onFollowers s leader f).startUp = s.startUp ∧
    (State.onFollowers s leader f).announce.clips = s.announce.clips ∧
    (State.onFollowers s leader f).announce.plays = s.announce.plays := by
  refine ⟨?_, ?_, ?_, ?_, ?_, ?_, ?_, ?_, ?_, ?_, ?_, ?_, ?_, ?_, ?_, ?_⟩ <;>
  first
  | (unfold State.onFollowers; first | (with_reducible rfl) | (simp; done))
  | (unfold State.onFollowers; (try dsimp only); (repeat' split) <;> first | (with_reducible rfl) | (simp; done) | (simp_all; done))

@[simp] theorem State.loadStaged_frame (s : State) (leader : Nat) :
    (State.loadStaged s leader).pending = s.pending ∧ (State.loadStaged s leader).localCount = s.localCount ∧
    (State.loadStaged s leader).line = s.line ∧ (State.loadStaged s leader).tables = s.tables ∧
    (State.loadStaged s leader).member = s.member ∧ (State.loadStaged s leader).follower = s.follower ∧
    (State.loadStaged s leader).ports = s.ports ∧ (State.loadStaged s leader).store = s.store ∧
    (State.loadStaged s leader).mixer = s.mixer ∧ (State.loadStaged s leader).blend = s.blend ∧
    (State.loadStaged s leader).call = s.call ∧ (State.loadStaged s leader).note = s.note ∧
    (State.loadStaged s leader).host = s.host ∧ (State.loadStaged s leader).startUp = s.startUp ∧
    (State.loadStaged s leader).announce.clips = s.announce.clips ∧
    (State.loadStaged s leader).announce.plays = s.announce.plays := by
  refine ⟨?_, ?_, ?_, ?_, ?_, ?_, ?_, ?_, ?_, ?_, ?_, ?_, ?_, ?_, ?_, ?_⟩ <;>
  first
  | (unfold State.loadStaged; first | (with_reducible rfl) | (simp; done))
  | (unfold State.loadStaged; (try dsimp only); (repeat' split) <;> first | (with_reducible rfl) | (simp; done) | (simp_all; done))

theorem State.startPlay_frame (s : State) (clip level repeats : Nat) (starter : Starter) (x : Nat × State)
    (h : s.startPlay clip level repeats starter = some x) :
    x.2.pending = s.pending ∧
    x.2.localCount = s.localCount ∧
    x.2.line = s.line ∧
    x.2.tables = s.tables ∧
    x.2.member = s.member ∧
    x.2.follower = s.follower ∧
    x.2.ports = s.ports ∧
    x.2.note = s.note ∧
    x.2.startUp = s.startUp ∧
    x.2.host.response = s.host.response ∧
    x.2.host.shifted = s.host.shifted ∧
    x.2.host.stayAwake = s.host.stayAwake ∧
    x.2.store.memory = s.store.memory ∧
    x.2.store.regions = s.store.regions ∧
    x.2.store.retained = s.store.retained ∧
    x.2.store.retention = s.store.retention ∧
    x.2.store.pinHeld = s.store.pinHeld := by
  unfold State.startPlay at h
  split at h
  · split at h
    · simp at h
    · simp at h; subst h; simp
  · simp at h

@[simp] theorem State.fire_frame (s : State) (c : Nat) :
    (State.fire s c).pending = s.pending ∧ (State.fire s c).localCount = s.localCount ∧
    (State.fire s c).line = s.line ∧ (State.fire s c).tables = s.tables ∧
    (State.fire s c).member = s.member ∧ (State.fire s c).follower = s.follower ∧
    (State.fire s c).ports = s.ports ∧ (State.fire s c).note = s.note ∧
    (State.fire s c).startUp = s.startUp ∧ (State.fire s c).host.response = s.host.response ∧
    (State.fire s c).host.shifted = s.host.shifted ∧
    (State.fire s c).host.stayAwake = s.host.stayAwake ∧
    (State.fire s c).store.memory = s.store.memory ∧
    (State.fire s c).store.regions = s.store.regions ∧
    (State.fire s c).store.retained = s.store.retained ∧
    (State.fire s c).store.retention = s.store.retention ∧
    (State.fire s c).store.pinHeld = s.store.pinHeld := by
  refine ⟨?_, ?_, ?_, ?_, ?_, ?_, ?_, ?_, ?_, ?_, ?_, ?_, ?_, ?_, ?_, ?_, ?_⟩ <;>
  (unfold State.fire; (try dsimp only); (repeat' split) <;> first | (with_reducible rfl) | (simp; done) | (rename_i h; have h' := State.startPlay_frame _ _ _ _ _ _ h; simp_all; done))

@[simp] theorem State.followerFires_frame (s : State) (c : Nat) :
    (State.followerFires s c).pending = s.pending ∧ (State.followerFires s c).localCount = s.localCount ∧
    (State.followerFires s c).line = s.line ∧ (State.followerFires s c).tables = s.tables ∧
    (State.followerFires s c).member = s.member ∧ (State.followerFires s c).follower = s.follower ∧
    (State.followerFires s c).ports = s.ports ∧ (State.followerFires s c).note = s.note ∧
    (State.followerFires s c).startUp = s.startUp ∧ (State.followerFires s c).host.response = s.host.response ∧
    (State.followerFires s c).host.shifted = s.host.shifted ∧
    (State.followerFires s c).host.stayAwake = s.host.stayAwake ∧
    (State.followerFires s c).store.memory = s.store.memory ∧
    (State.followerFires s c).store.regions = s.store.regions ∧
    (State.followerFires s c).store.retained = s.store.retained ∧
    (State.followerFires s c).store.retention = s.store.retention ∧
    (State.followerFires s c).store.pinHeld = s.store.pinHeld := by
  refine ⟨?_, ?_, ?_, ?_, ?_, ?_, ?_, ?_, ?_, ?_, ?_, ?_, ?_, ?_, ?_, ?_, ?_⟩ <;>
  (unfold State.followerFires; (repeat' split) <;> first | (with_reducible rfl) | (simp; done))

@[simp] theorem State.fireFollowers_frame (s : State) (leader : Nat) :
    (State.fireFollowers s leader).pending = s.pending ∧ (State.fireFollowers s leader).localCount = s.localCount ∧
    (State.fireFollowers s leader).line = s.line ∧ (State.fireFollowers s leader).tables = s.tables ∧
    (State.fireFollowers s leader).member = s.member ∧ (State.fireFollowers s leader).follower = s.follower ∧
    (State.fireFollowers s leader).ports = s.ports ∧ (State.fireFollowers s leader).note = s.note ∧
    (State.fireFollowers s leader).startUp = s.startUp ∧
    (State.fireFollowers s leader).store.memory = s.store.memory ∧
    (State.fireFollowers s leader).store.regions = s.store.regions ∧
    (State.fireFollowers s leader).store.retained = s.store.retained ∧
    (State.fireFollowers s leader).store.retention = s.store.retention ∧
    (State.fireFollowers s leader).store.pinHeld = s.store.pinHeld ∧
    (State.fireFollowers s leader).host.response = s.host.response ∧
    (State.fireFollowers s leader).host.shifted = s.host.shifted ∧
    (State.fireFollowers s leader).host.stayAwake = s.host.stayAwake := by
  refine ⟨?_, ?_, ?_, ?_, ?_, ?_, ?_, ?_, ?_, ?_, ?_, ?_, ?_, ?_, ?_, ?_, ?_⟩ <;>
  (unfold State.fireFollowers; (try dsimp only); (repeat' split) <;> first | (with_reducible rfl) | (simp; done) | (simp_all; done))

@[simp] theorem State.countRepetition_frame (s : State) (c : Nat) :
    (State.countRepetition s c).pending = s.pending ∧ (State.countRepetition s c).localCount = s.localCount ∧
    (State.countRepetition s c).line = s.line ∧ (State.countRepetition s c).tables = s.tables ∧
    (State.countRepetition s c).member = s.member ∧ (State.countRepetition s c).follower = s.follower ∧
    (State.countRepetition s c).ports = s.ports ∧ (State.countRepetition s c).store = s.store ∧
    (State.countRepetition s c).mixer = s.mixer ∧ (State.countRepetition s c).blend = s.blend ∧
    (State.countRepetition s c).call = s.call ∧ (State.countRepetition s c).note = s.note ∧
    (State.countRepetition s c).startUp = s.startUp ∧ (State.countRepetition s c).host.response = s.host.response ∧
    (State.countRepetition s c).host.shifted = s.host.shifted ∧
    (State.countRepetition s c).host.stayAwake = s.host.stayAwake ∧
    (State.countRepetition s c).announce.clips = s.announce.clips ∧
    (State.countRepetition s c).announce.plays = s.announce.plays := by
  refine ⟨?_, ?_, ?_, ?_, ?_, ?_, ?_, ?_, ?_, ?_, ?_, ?_, ?_, ?_, ?_, ?_, ?_, ?_⟩ <;>
  first
  | (unfold State.countRepetition; first | (with_reducible rfl) | (simp; done))
  | (unfold State.countRepetition; (try dsimp only); (repeat' split) <;> first | (with_reducible rfl) | (simp; done) | (simp_all; done))

@[simp] theorem State.triggerFollowers_frame (s : State) (c : Nat) :
    (State.triggerFollowers s c).pending = s.pending ∧ (State.triggerFollowers s c).localCount = s.localCount ∧
    (State.triggerFollowers s c).line = s.line ∧ (State.triggerFollowers s c).tables = s.tables ∧
    (State.triggerFollowers s c).member = s.member ∧ (State.triggerFollowers s c).follower = s.follower ∧
    (State.triggerFollowers s c).ports = s.ports ∧ (State.triggerFollowers s c).store = s.store ∧
    (State.triggerFollowers s c).mixer = s.mixer ∧ (State.triggerFollowers s c).blend = s.blend ∧
    (State.triggerFollowers s c).call = s.call ∧ (State.triggerFollowers s c).note = s.note ∧
    (State.triggerFollowers s c).startUp = s.startUp ∧ (State.triggerFollowers s c).host.response = s.host.response ∧
    (State.triggerFollowers s c).host.shifted = s.host.shifted ∧
    (State.triggerFollowers s c).host.stayAwake = s.host.stayAwake ∧
    (State.triggerFollowers s c).announce.clips = s.announce.clips ∧
    (State.triggerFollowers s c).announce.plays = s.announce.plays := by
  refine ⟨?_, ?_, ?_, ?_, ?_, ?_, ?_, ?_, ?_, ?_, ?_, ?_, ?_, ?_, ?_, ?_, ?_, ?_⟩ <;>
  first
  | (unfold State.triggerFollowers; first | (with_reducible rfl) | (simp; done))
  | (unfold State.triggerFollowers; (try dsimp only); (repeat' split) <;> first | (with_reducible rfl) | (simp; done) | (simp_all; done))

@[simp] theorem State.cadenceExpiry_frame (s : State) (c : Nat) :
    (State.cadenceExpiry s c).pending = s.pending ∧ (State.cadenceExpiry s c).localCount = s.localCount ∧
    (State.cadenceExpiry s c).line = s.line ∧ (State.cadenceExpiry s c).tables = s.tables ∧
    (State.cadenceExpiry s c).member = s.member ∧ (State.cadenceExpiry s c).follower = s.follower ∧
    (State.cadenceExpiry s c).ports = s.ports ∧ (State.cadenceExpiry s c).note = s.note ∧
    (State.cadenceExpiry s c).startUp = s.startUp ∧ (State.cadenceExpiry s c).store.memory = s.store.memory ∧
    (State.cadenceExpiry s c).store.regions = s.store.regions ∧
    (State.cadenceExpiry s c).store.retained = s.store.retained ∧
    (State.cadenceExpiry s c).store.retention = s.store.retention ∧
    (State.cadenceExpiry s c).store.pinHeld = s.store.pinHeld ∧
    (State.cadenceExpiry s c).host.response = s.host.response ∧
    (State.cadenceExpiry s c).host.shifted = s.host.shifted ∧
    (State.cadenceExpiry s c).host.stayAwake = s.host.stayAwake := by
  refine ⟨?_, ?_, ?_, ?_, ?_, ?_, ?_, ?_, ?_, ?_, ?_, ?_, ?_, ?_, ?_, ?_, ?_⟩ <;>
  (unfold State.cadenceExpiry; (try dsimp only); (repeat' split) <;> first | (with_reducible rfl) | (simp; done) | (simp_all; done))

@[simp] theorem State.cadencePass_frame (s : State) :
    (State.cadencePass s).pending = s.pending ∧ (State.cadencePass s).localCount = s.localCount ∧
    (State.cadencePass s).line = s.line ∧ (State.cadencePass s).tables = s.tables ∧
    (State.cadencePass s).member = s.member ∧ (State.cadencePass s).follower = s.follower ∧
    (State.cadencePass s).ports = s.ports ∧ (State.cadencePass s).note = s.note ∧
    (State.cadencePass s).startUp = s.startUp ∧ (State.cadencePass s).store.memory = s.store.memory ∧
    (State.cadencePass s).store.regions = s.store.regions ∧ (State.cadencePass s).store.retained = s.store.retained ∧
    (State.cadencePass s).store.retention = s.store.retention ∧
    (State.cadencePass s).store.pinHeld = s.store.pinHeld ∧ (State.cadencePass s).host.response = s.host.response ∧
    (State.cadencePass s).host.shifted = s.host.shifted ∧ (State.cadencePass s).host.stayAwake = s.host.stayAwake := by
  refine ⟨?_, ?_, ?_, ?_, ?_, ?_, ?_, ?_, ?_, ?_, ?_, ?_, ?_, ?_, ?_, ?_, ?_⟩ <;>
  (unfold State.cadencePass; (try dsimp only); (repeat' split) <;> first | (with_reducible rfl) | (simp; done) | (simp_all; done))

@[simp] theorem State.cadenceSample_frame (s : State) :
    (State.cadenceSample s).pending = s.pending ∧ (State.cadenceSample s).localCount = s.localCount ∧
    (State.cadenceSample s).line = s.line ∧ (State.cadenceSample s).tables = s.tables ∧
    (State.cadenceSample s).member = s.member ∧ (State.cadenceSample s).follower = s.follower ∧
    (State.cadenceSample s).ports = s.ports ∧ (State.cadenceSample s).store = s.store ∧
    (State.cadenceSample s).mixer = s.mixer ∧ (State.cadenceSample s).blend = s.blend ∧
    (State.cadenceSample s).call = s.call ∧ (State.cadenceSample s).note = s.note ∧
    (State.cadenceSample s).host = s.host ∧ (State.cadenceSample s).startUp = s.startUp ∧
    (State.cadenceSample s).announce.clips = s.announce.clips ∧
    (State.cadenceSample s).announce.plays = s.announce.plays := by
  refine ⟨?_, ?_, ?_, ?_, ?_, ?_, ?_, ?_, ?_, ?_, ?_, ?_, ?_, ?_, ?_, ?_⟩ <;>
  first
  | (unfold State.cadenceSample; first | (with_reducible rfl) | (simp; done))
  | (unfold State.cadenceSample; (try dsimp only); (repeat' split) <;> first | (with_reducible rfl) | (simp; done) | (simp_all; done))

@[simp] theorem State.cadenceSet_frame (s : State) (c : Nat) (setup : CadenceSetup) :
    (State.cadenceSet s c setup).1.pending = s.pending ∧ (State.cadenceSet s c setup).1.localCount = s.localCount ∧
    (State.cadenceSet s c setup).1.line = s.line ∧ (State.cadenceSet s c setup).1.tables = s.tables ∧
    (State.cadenceSet s c setup).1.member = s.member ∧ (State.cadenceSet s c setup).1.follower = s.follower ∧
    (State.cadenceSet s c setup).1.ports = s.ports ∧ (State.cadenceSet s c setup).1.store = s.store ∧
    (State.cadenceSet s c setup).1.mixer = s.mixer ∧ (State.cadenceSet s c setup).1.blend = s.blend ∧
    (State.cadenceSet s c setup).1.call = s.call ∧ (State.cadenceSet s c setup).1.note = s.note ∧
    (State.cadenceSet s c setup).1.host = s.host ∧ (State.cadenceSet s c setup).1.startUp = s.startUp ∧
    (State.cadenceSet s c setup).1.announce.clips = s.announce.clips ∧
    (State.cadenceSet s c setup).1.announce.plays = s.announce.plays := by
  refine ⟨?_, ?_, ?_, ?_, ?_, ?_, ?_, ?_, ?_, ?_, ?_, ?_, ?_, ?_, ?_, ?_⟩ <;>
  first
  | (unfold State.cadenceSet; first | (with_reducible rfl) | (simp; done))
  | (unfold State.cadenceSet; (try dsimp only); (repeat' split) <;> first | (with_reducible rfl) | (simp; done) | (simp_all; done))

@[simp] theorem State.cadenceStart_frame (s : State) (c : Nat) :
    (State.cadenceStart s c).1.pending = s.pending ∧ (State.cadenceStart s c).1.localCount = s.localCount ∧
    (State.cadenceStart s c).1.line = s.line ∧ (State.cadenceStart s c).1.tables = s.tables ∧
    (State.cadenceStart s c).1.member = s.member ∧ (State.cadenceStart s c).1.follower = s.follower ∧
    (State.cadenceStart s c).1.ports = s.ports ∧ (State.cadenceStart s c).1.note = s.note ∧
    (State.cadenceStart s c).1.startUp = s.startUp ∧ (State.cadenceStart s c).1.store.memory = s.store.memory ∧
    (State.cadenceStart s c).1.store.regions = s.store.regions ∧
    (State.cadenceStart s c).1.store.retained = s.store.retained ∧
    (State.cadenceStart s c).1.store.retention = s.store.retention ∧
    (State.cadenceStart s c).1.store.pinHeld = s.store.pinHeld ∧
    (State.cadenceStart s c).1.host.response = s.host.response ∧
    (State.cadenceStart s c).1.host.shifted = s.host.shifted ∧
    (State.cadenceStart s c).1.host.stayAwake = s.host.stayAwake := by
  refine ⟨?_, ?_, ?_, ?_, ?_, ?_, ?_, ?_, ?_, ?_, ?_, ?_, ?_, ?_, ?_, ?_, ?_⟩ <;>
  (unfold State.cadenceStart; (try dsimp only); (repeat' split) <;> first | (with_reducible rfl) | (simp; done) | (simp_all; done))

@[simp] theorem State.cadenceStop_frame (s : State) (c : Nat) :
    (State.cadenceStop s c).1.pending = s.pending ∧ (State.cadenceStop s c).1.localCount = s.localCount ∧
    (State.cadenceStop s c).1.line = s.line ∧ (State.cadenceStop s c).1.tables = s.tables ∧
    (State.cadenceStop s c).1.member = s.member ∧ (State.cadenceStop s c).1.follower = s.follower ∧
    (State.cadenceStop s c).1.ports = s.ports ∧ (State.cadenceStop s c).1.store = s.store ∧
    (State.cadenceStop s c).1.mixer = s.mixer ∧ (State.cadenceStop s c).1.blend = s.blend ∧
    (State.cadenceStop s c).1.call = s.call ∧ (State.cadenceStop s c).1.note = s.note ∧
    (State.cadenceStop s c).1.startUp = s.startUp ∧ (State.cadenceStop s c).1.host.response = s.host.response ∧
    (State.cadenceStop s c).1.host.shifted = s.host.shifted ∧
    (State.cadenceStop s c).1.host.stayAwake = s.host.stayAwake ∧
    (State.cadenceStop s c).1.announce.clips = s.announce.clips := by
  refine ⟨?_, ?_, ?_, ?_, ?_, ?_, ?_, ?_, ?_, ?_, ?_, ?_, ?_, ?_, ?_, ?_, ?_⟩ <;>
  (unfold State.cadenceStop; (try dsimp only); (repeat' split) <;> first | (with_reducible rfl) | (simp; done) | (simp_all; done))

@[simp] theorem State.stopCadences_frame (s : State) :
    (State.stopCadences s).pending = s.pending ∧ (State.stopCadences s).localCount = s.localCount ∧
    (State.stopCadences s).line = s.line ∧ (State.stopCadences s).tables = s.tables ∧
    (State.stopCadences s).member = s.member ∧ (State.stopCadences s).follower = s.follower ∧
    (State.stopCadences s).ports = s.ports ∧ (State.stopCadences s).store = s.store ∧
    (State.stopCadences s).mixer = s.mixer ∧ (State.stopCadences s).blend = s.blend ∧
    (State.stopCadences s).call = s.call ∧ (State.stopCadences s).note = s.note ∧
    (State.stopCadences s).host = s.host ∧ (State.stopCadences s).startUp = s.startUp ∧
    (State.stopCadences s).announce.clips = s.announce.clips ∧
    (State.stopCadences s).announce.plays = s.announce.plays := by
  refine ⟨?_, ?_, ?_, ?_, ?_, ?_, ?_, ?_, ?_, ?_, ?_, ?_, ?_, ?_, ?_, ?_⟩ <;>
  first
  | (unfold State.stopCadences; first | (with_reducible rfl) | (simp; done))
  | (unfold State.stopCadences; (try dsimp only); (repeat' split) <;> first | (with_reducible rfl) | (simp; done) | (simp_all; done))

end Sys2Proof.Machine
end

