-- ==== Sys2Proof/Laws/FramesBlendEngine.lean ====
section
/-! SUPPORT. Frames: what each operation of the blend engine leaves alone, one lemma for an operation. -/

namespace Sys2Proof.Machine

set_option maxRecDepth 20000

@[simp] theorem State.goBlend_frame (s : State) (new : BlendState) (cause : Cause) :
    (State.goBlend s new cause).pending = s.pending ∧ (State.goBlend s new cause).localCount = s.localCount ∧
    (State.goBlend s new cause).line = s.line ∧ (State.goBlend s new cause).tables = s.tables ∧
    (State.goBlend s new cause).member = s.member ∧ (State.goBlend s new cause).follower = s.follower ∧
    (State.goBlend s new cause).ports = s.ports ∧ (State.goBlend s new cause).store = s.store ∧
    (State.goBlend s new cause).mixer = s.mixer ∧ (State.goBlend s new cause).announce = s.announce ∧
    (State.goBlend s new cause).call = s.call ∧ (State.goBlend s new cause).note = s.note ∧
    (State.goBlend s new cause).startUp = s.startUp ∧ (State.goBlend s new cause).host.response = s.host.response ∧
    (State.goBlend s new cause).host.shifted = s.host.shifted ∧
    (State.goBlend s new cause).host.stayAwake = s.host.stayAwake := by
  refine ⟨?_, ?_, ?_, ?_, ?_, ?_, ?_, ?_, ?_, ?_, ?_, ?_, ?_, ?_, ?_, ?_⟩ <;>
  first
  | (unfold State.goBlend; first | (with_reducible rfl) | (simp; done))
  | (unfold State.goBlend; (try dsimp only); (repeat' split) <;> first | (with_reducible rfl) | (simp; done) | (simp_all; done))

@[simp] theorem State.fallBack_frame (s : State) (cause : Cause) (fast : Bool) :
    (State.fallBack s cause fast).pending = s.pending ∧ (State.fallBack s cause fast).localCount = s.localCount ∧
    (State.fallBack s cause fast).line = s.line ∧ (State.fallBack s cause fast).tables = s.tables ∧
    (State.fallBack s cause fast).member = s.member ∧ (State.fallBack s cause fast).follower = s.follower ∧
    (State.fallBack s cause fast).ports = s.ports ∧ (State.fallBack s cause fast).store = s.store ∧
    (State.fallBack s cause fast).mixer = s.mixer ∧ (State.fallBack s cause fast).announce = s.announce ∧
    (State.fallBack s cause fast).call = s.call ∧ (State.fallBack s cause fast).note = s.note ∧
    (State.fallBack s cause fast).startUp = s.startUp ∧
    (State.fallBack s cause fast).host.response = s.host.response ∧
    (State.fallBack s cause fast).host.shifted = s.host.shifted ∧
    (State.fallBack s cause fast).host.stayAwake = s.host.stayAwake := by
  refine ⟨?_, ?_, ?_, ?_, ?_, ?_, ?_, ?_, ?_, ?_, ?_, ?_, ?_, ?_, ?_, ?_⟩ <;>
  first
  | (unfold State.fallBack; first | (with_reducible rfl) | (simp; done))
  | (unfold State.fallBack; (try dsimp only); (repeat' split) <;> first | (with_reducible rfl) | (simp; done) | (simp_all; done))

@[simp] theorem State.reactToQuality_frame (s : State) (q : Quality) :
    (State.reactToQuality s q).pending = s.pending ∧ (State.reactToQuality s q).localCount = s.localCount ∧
    (State.reactToQuality s q).line = s.line ∧ (State.reactToQuality s q).tables = s.tables ∧
    (State.reactToQuality s q).member = s.member ∧ (State.reactToQuality s q).follower = s.follower ∧
    (State.reactToQuality s q).ports = s.ports ∧ (State.reactToQuality s q).store = s.store ∧
    (State.reactToQuality s q).mixer = s.mixer ∧ (State.reactToQuality s q).announce = s.announce ∧
    (State.reactToQuality s q).call = s.call ∧ (State.reactToQuality s q).note = s.note ∧
    (State.reactToQuality s q).startUp = s.startUp ∧ (State.reactToQuality s q).host.response = s.host.response ∧
    (State.reactToQuality s q).host.shifted = s.host.shifted ∧
    (State.reactToQuality s q).host.stayAwake = s.host.stayAwake := by
  refine ⟨?_, ?_, ?_, ?_, ?_, ?_, ?_, ?_, ?_, ?_, ?_, ?_, ?_, ?_, ?_, ?_⟩ <;>
  first
  | (unfold State.reactToQuality; first | (with_reducible rfl) | (simp; done))
  | (unfold State.reactToQuality; (try dsimp only); (repeat' split) <;> first | (with_reducible rfl) | (simp; done) | (simp_all; done))

@[simp] theorem State.handQuality_frame (s : State) (q : Quality) :
    (State.handQuality s q).pending = s.pending ∧ (State.handQuality s q).localCount = s.localCount ∧
    (State.handQuality s q).line = s.line ∧ (State.handQuality s q).tables = s.tables ∧
    (State.handQuality s q).member = s.member ∧ (State.handQuality s q).follower = s.follower ∧
    (State.handQuality s q).ports = s.ports ∧ (State.handQuality s q).store = s.store ∧
    (State.handQuality s q).mixer = s.mixer ∧ (State.handQuality s q).announce = s.announce ∧
    (State.handQuality s q).call = s.call ∧ (State.handQuality s q).note = s.note ∧
    (State.handQuality s q).startUp = s.startUp ∧ (State.handQuality s q).host.response = s.host.response ∧
    (State.handQuality s q).host.shifted = s.host.shifted ∧ (State.handQuality s q).host.stayAwake = s.host.stayAwake := by
  refine ⟨?_, ?_, ?_, ?_, ?_, ?_, ?_, ?_, ?_, ?_, ?_, ?_, ?_, ?_, ?_, ?_⟩ <;>
  first
  | (unfold State.handQuality; first | (with_reducible rfl) | (simp; done))
  | (unfold State.handQuality; (try dsimp only); (repeat' split) <;> first | (with_reducible rfl) | (simp; done) | (simp_all; done))

@[simp] theorem State.qualityBlock_frame (s : State) :
    (State.qualityBlock s).pending = s.pending ∧ (State.qualityBlock s).localCount = s.localCount ∧
    (State.qualityBlock s).line = s.line ∧ (State.qualityBlock s).tables = s.tables ∧
    (State.qualityBlock s).member = s.member ∧ (State.qualityBlock s).follower = s.follower ∧
    (State.qualityBlock s).store = s.store ∧ (State.qualityBlock s).mixer = s.mixer ∧
    (State.qualityBlock s).announce = s.announce ∧ (State.qualityBlock s).call = s.call ∧
    (State.qualityBlock s).note = s.note ∧ (State.qualityBlock s).startUp = s.startUp ∧
    (State.qualityBlock s).host.response = s.host.response ∧ (State.qualityBlock s).host.shifted = s.host.shifted ∧
    (State.qualityBlock s).host.stayAwake = s.host.stayAwake := by
  refine ⟨?_, ?_, ?_, ?_, ?_, ?_, ?_, ?_, ?_, ?_, ?_, ?_, ?_, ?_, ?_⟩ <;>
  first
  | (unfold State.qualityBlock; first | (with_reducible rfl) | (simp; done))
  | (unfold State.qualityBlock; (try dsimp only); (repeat' split) <;> first | (with_reducible rfl) | (simp; done) | (simp_all; done))

@[simp] theorem State.arrivalGap_frame (s : State) :
    (State.arrivalGap s).pending = s.pending ∧ (State.arrivalGap s).localCount = s.localCount ∧
    (State.arrivalGap s).line = s.line ∧ (State.arrivalGap s).tables = s.tables ∧
    (State.arrivalGap s).member = s.member ∧ (State.arrivalGap s).follower = s.follower ∧
    (State.arrivalGap s).store = s.store ∧ (State.arrivalGap s).mixer = s.mixer ∧
    (State.arrivalGap s).announce = s.announce ∧ (State.arrivalGap s).call = s.call ∧
    (State.arrivalGap s).note = s.note ∧ (State.arrivalGap s).startUp = s.startUp ∧
    (State.arrivalGap s).host.response = s.host.response ∧ (State.arrivalGap s).host.shifted = s.host.shifted ∧
    (State.arrivalGap s).host.stayAwake = s.host.stayAwake := by
  refine ⟨?_, ?_, ?_, ?_, ?_, ?_, ?_, ?_, ?_, ?_, ?_, ?_, ?_, ?_, ?_⟩ <;>
  first
  | (unfold State.arrivalGap; first | (with_reducible rfl) | (simp; done))
  | (unfold State.arrivalGap; (try dsimp only); (repeat' split) <;> first | (with_reducible rfl) | (simp; done) | (simp_all; done))

@[simp] theorem State.slipLimit_frame (s : State) :
    (State.slipLimit s).pending = s.pending ∧ (State.slipLimit s).localCount = s.localCount ∧
    (State.slipLimit s).line = s.line ∧ (State.slipLimit s).tables = s.tables ∧
    (State.slipLimit s).member = s.member ∧ (State.slipLimit s).follower = s.follower ∧
    (State.slipLimit s).ports = s.ports ∧ (State.slipLimit s).store = s.store ∧ (State.slipLimit s).mixer = s.mixer ∧
    (State.slipLimit s).announce = s.announce ∧ (State.slipLimit s).call = s.call ∧
    (State.slipLimit s).note = s.note ∧ (State.slipLimit s).startUp = s.startUp ∧
    (State.slipLimit s).host.response = s.host.response ∧ (State.slipLimit s).host.shifted = s.host.shifted ∧
    (State.slipLimit s).host.stayAwake = s.host.stayAwake := by
  refine ⟨?_, ?_, ?_, ?_, ?_, ?_, ?_, ?_, ?_, ?_, ?_, ?_, ?_, ?_, ?_, ?_⟩ <;>
  first
  | (unfold State.slipLimit; first | (with_reducible rfl) | (simp; done))
  | (unfold State.slipLimit; (try dsimp only); (repeat' split) <;> first | (with_reducible rfl) | (simp; done) | (simp_all; done))

@[simp] theorem State.slipNotice_frame (s : State) (before : Int) :
    (State.slipNotice s before).pending = s.pending ∧ (State.slipNotice s before).localCount = s.localCount ∧
    (State.slipNotice s before).line = s.line ∧ (State.slipNotice s before).tables = s.tables ∧
    (State.slipNotice s before).member = s.member ∧ (State.slipNotice s before).follower = s.follower ∧
    (State.slipNotice s before).ports = s.ports ∧ (State.slipNotice s before).store = s.store ∧
    (State.slipNotice s before).mixer = s.mixer ∧ (State.slipNotice s before).announce = s.announce ∧
    (State.slipNotice s before).call = s.call ∧ (State.slipNotice s before).note = s.note ∧
    (State.slipNotice s before).startUp = s.startUp ∧ (State.slipNotice s before).host.response = s.host.response ∧
    (State.slipNotice s before).host.shifted = s.host.shifted ∧
    (State.slipNotice s before).host.stayAwake = s.host.stayAwake := by
  refine ⟨?_, ?_, ?_, ?_, ?_, ?_, ?_, ?_, ?_, ?_, ?_, ?_, ?_, ?_, ?_, ?_⟩ <;>
  first
  | (unfold State.slipNotice; first | (with_reducible rfl) | (simp; done))
  | (unfold State.slipNotice; (try dsimp only); (repeat' split) <;> first | (with_reducible rfl) | (simp; done) | (simp_all; done))

@[simp] theorem State.blendWork_frame (s : State) :
    (State.blendWork s).pending = s.pending ∧ (State.blendWork s).localCount = s.localCount ∧
    (State.blendWork s).line = s.line ∧ (State.blendWork s).tables = s.tables ∧
    (State.blendWork s).member = s.member ∧ (State.blendWork s).follower = s.follower ∧
    (State.blendWork s).ports = s.ports ∧ (State.blendWork s).store = s.store ∧ (State.blendWork s).mixer = s.mixer ∧
    (State.blendWork s).announce = s.announce ∧ (State.blendWork s).call = s.call ∧
    (State.blendWork s).note = s.note ∧ (State.blendWork s).host = s.host ∧ (State.blendWork s).startUp = s.startUp := by
  refine ⟨?_, ?_, ?_, ?_, ?_, ?_, ?_, ?_, ?_, ?_, ?_, ?_, ?_, ?_⟩ <;>
  first
  | (unfold State.blendWork; first | (with_reducible rfl) | (simp; done))
  | (unfold State.blendWork; (try dsimp only); (repeat' split) <;> first | (with_reducible rfl) | (simp; done) | (simp_all; done))

@[simp] theorem State.blendBurst_frame (s : State) (access : Access) (group : Nat) (right : Bool) (data : List (Nat × Sample)) (purpose : Purpose) :
    (State.blendBurst s access group right data purpose).pending = s.pending ∧
    (State.blendBurst s access group right data purpose).localCount = s.localCount ∧
    (State.blendBurst s access group right data purpose).line = s.line ∧
    (State.blendBurst s access group right data purpose).tables = s.tables ∧
    (State.blendBurst s access group right data purpose).member = s.member ∧
    (State.blendBurst s access group right data purpose).follower = s.follower ∧
    (State.blendBurst s access group right data purpose).ports = s.ports ∧
    (State.blendBurst s access group right data purpose).note = s.note ∧
    (State.blendBurst s access group right data purpose).startUp = s.startUp ∧
    (State.blendBurst s access group right data purpose).host.response = s.host.response ∧
    (State.blendBurst s access group right data purpose).host.shifted = s.host.shifted ∧
    (State.blendBurst s access group right data purpose).host.stayAwake = s.host.stayAwake ∧
    (State.blendBurst s access group right data purpose).announce.channels = s.announce.channels ∧
    (State.blendBurst s access group right data purpose).store.memory = s.store.memory ∧
    (State.blendBurst s access group right data purpose).store.regions = s.store.regions ∧
    (State.blendBurst s access group right data purpose).store.retained = s.store.retained ∧
    (State.blendBurst s access group right data purpose).store.retention = s.store.retention ∧
    (State.blendBurst s access group right data purpose).store.pinHeld = s.store.pinHeld := by
  refine ⟨?_, ?_, ?_, ?_, ?_, ?_, ?_, ?_, ?_, ?_, ?_, ?_, ?_, ?_, ?_, ?_, ?_, ?_⟩ <;>
  first
  | (unfold State.blendBurst; first | (with_reducible rfl) | (simp; done))
  | (unfold State.blendBurst; (try dsimp only); (repeat' split) <;> first | (with_reducible rfl) | (simp; done) | (simp_all; done))

@[simp] theorem State.blendWrites_frame (s : State) :
    (State.blendWrites s).pending = s.pending ∧ (State.blendWrites s).localCount = s.localCount ∧
    (State.blendWrites s).line = s.line ∧ (State.blendWrites s).tables = s.tables ∧
    (State.blendWrites s).member = s.member ∧ (State.blendWrites s).follower = s.follower ∧
    (State.blendWrites s).ports = s.ports ∧ (State.blendWrites s).note = s.note ∧
    (State.blendWrites s).startUp = s.startUp ∧ (State.blendWrites s).host.response = s.host.response ∧
    (State.blendWrites s).host.shifted = s.host.shifted ∧ (State.blendWrites s).host.stayAwake = s.host.stayAwake ∧
    (State.blendWrites s).announce.channels = s.announce.channels ∧
    (State.blendWrites s).store.memory = s.store.memory ∧ (State.blendWrites s).store.regions = s.store.regions ∧
    (State.blendWrites s).store.retained = s.store.retained ∧
    (State.blendWrites s).store.retention = s.store.retention ∧ (State.blendWrites s).store.pinHeld = s.store.pinHeld := by
  refine ⟨?_, ?_, ?_, ?_, ?_, ?_, ?_, ?_, ?_, ?_, ?_, ?_, ?_, ?_, ?_, ?_, ?_, ?_⟩ <;>
  first
  | (unfold State.blendWrites; first | (with_reducible rfl) | (simp; done))
  | (unfold State.blendWrites; (try dsimp only); (repeat' split) <;> first | (with_reducible rfl) | (simp; done) | (simp_all; done))

@[simp] theorem State.blendReads_frame (s : State) (tap : Nat) (groups : List Nat) :
    (State.blendReads s tap groups).pending = s.pending ∧ (State.blendReads s tap groups).localCount = s.localCount ∧
    (State.blendReads s tap groups).line = s.line ∧ (State.blendReads s tap groups).tables = s.tables ∧
    (State.blendReads s tap groups).member = s.member ∧ (State.blendReads s tap groups).follower = s.follower ∧
    (State.blendReads s tap groups).ports = s.ports ∧ (State.blendReads s tap groups).note = s.note ∧
    (State.blendReads s tap groups).startUp = s.startUp ∧
    (State.blendReads s tap groups).host.response = s.host.response ∧
    (State.blendReads s tap groups).host.shifted = s.host.shifted ∧
    (State.blendReads s tap groups).host.stayAwake = s.host.stayAwake ∧
    (State.blendReads s tap groups).announce.channels = s.announce.channels ∧
    (State.blendReads s tap groups).store.memory = s.store.memory ∧
    (State.blendReads s tap groups).store.regions = s.store.regions ∧
    (State.blendReads s tap groups).store.retained = s.store.retained ∧
    (State.blendReads s tap groups).store.retention = s.store.retention ∧
    (State.blendReads s tap groups).store.pinHeld = s.store.pinHeld := by
  refine ⟨?_, ?_, ?_, ?_, ?_, ?_, ?_, ?_, ?_, ?_, ?_, ?_, ?_, ?_, ?_, ?_, ?_, ?_⟩ <;>
  first
  | (unfold State.blendReads; first | (with_reducible rfl) | (simp; done))
  | (unfold State.blendReads; (try dsimp only); (repeat' split) <;> first | (with_reducible rfl) | (simp; done) | (simp_all; done))

@[simp] theorem State.blendTurn_frame (s : State) :
    (State.blendTurn s).pending = s.pending ∧ (State.blendTurn s).localCount = s.localCount ∧
    (State.blendTurn s).line = s.line ∧ (State.blendTurn s).tables = s.tables ∧
    (State.blendTurn s).member = s.member ∧ (State.blendTurn s).follower = s.follower ∧
    (State.blendTurn s).ports = s.ports ∧ (State.blendTurn s).note = s.note ∧
    (State.blendTurn s).startUp = s.startUp ∧ (State.blendTurn s).host.response = s.host.response ∧
    (State.blendTurn s).host.shifted = s.host.shifted ∧ (State.blendTurn s).host.stayAwake = s.host.stayAwake ∧
    (State.blendTurn s).announce.channels = s.announce.channels ∧ (State.blendTurn s).store.memory = s.store.memory ∧
    (State.blendTurn s).store.regions = s.store.regions ∧ (State.blendTurn s).store.retained = s.store.retained ∧
    (State.blendTurn s).store.retention = s.store.retention ∧ (State.blendTurn s).store.pinHeld = s.store.pinHeld := by
  refine ⟨?_, ?_, ?_, ?_, ?_, ?_, ?_, ?_, ?_, ?_, ?_, ?_, ?_, ?_, ?_, ?_, ?_, ?_⟩ <;>
  first
  | (unfold State.blendTurn; first | (with_reducible rfl) | (simp; done))
  | (unfold State.blendTurn; (try dsimp only); (repeat' split) <;> first | (with_reducible rfl) | (simp; done) | (simp_all; done))

@[simp] theorem State.blendSample_frame (s : State) :
    (State.blendSample s).pending = s.pending ∧ (State.blendSample s).localCount = s.localCount ∧
    (State.blendSample s).line = s.line ∧ (State.blendSample s).tables = s.tables ∧
    (State.blendSample s).member = s.member ∧ (State.blendSample s).follower = s.follower ∧
    (State.blendSample s).ports = s.ports ∧ (State.blendSample s).note = s.note ∧
    (State.blendSample s).startUp = s.startUp ∧ (State.blendSample s).host.response = s.host.response ∧
    (State.blendSample s).host.shifted = s.host.shifted ∧ (State.blendSample s).host.stayAwake = s.host.stayAwake ∧
    (State.blendSample s).announce.channels = s.announce.channels ∧
    (State.blendSample s).store.memory = s.store.memory ∧ (State.blendSample s).store.regions = s.store.regions ∧
    (State.blendSample s).store.retained = s.store.retained ∧
    (State.blendSample s).store.retention = s.store.retention ∧ (State.blendSample s).store.pinHeld = s.store.pinHeld := by
  refine ⟨?_, ?_, ?_, ?_, ?_, ?_, ?_, ?_, ?_, ?_, ?_, ?_, ?_, ?_, ?_, ?_, ?_, ?_⟩ <;>
  first
  | (unfold State.blendSample; first | (with_reducible rfl) | (simp; done))
  | (unfold State.blendSample; (try dsimp only); (repeat' split) <;> first | (with_reducible rfl) | (simp; done) | (simp_all; done))

@[simp] theorem State.beginWindow_frame (s : State) :
    (State.beginWindow s).pending = s.pending ∧ (State.beginWindow s).localCount = s.localCount ∧
    (State.beginWindow s).line = s.line ∧ (State.beginWindow s).tables = s.tables ∧
    (State.beginWindow s).member = s.member ∧ (State.beginWindow s).follower = s.follower ∧
    (State.beginWindow s).ports = s.ports ∧ (State.beginWindow s).store = s.store ∧
    (State.beginWindow s).mixer = s.mixer ∧ (State.beginWindow s).announce = s.announce ∧
    (State.beginWindow s).call = s.call ∧ (State.beginWindow s).note = s.note ∧ (State.beginWindow s).host = s.host ∧
    (State.beginWindow s).startUp = s.startUp := by
  refine ⟨?_, ?_, ?_, ?_, ?_, ?_, ?_, ?_, ?_, ?_, ?_, ?_, ?_, ?_⟩ <;>
  first
  | (unfold State.beginWindow; first | (with_reducible rfl) | (simp; done))
  | (unfold State.beginWindow; (try dsimp only); (repeat' split) <;> first | (with_reducible rfl) | (simp; done) | (simp_all; done))

@[simp] theorem State.primingDone_frame (s : State) :
    (State.primingDone s).pending = s.pending ∧ (State.primingDone s).localCount = s.localCount ∧
    (State.primingDone s).line = s.line ∧ (State.primingDone s).tables = s.tables ∧
    (State.primingDone s).member = s.member ∧ (State.primingDone s).follower = s.follower ∧
    (State.primingDone s).ports = s.ports ∧ (State.primingDone s).store = s.store ∧
    (State.primingDone s).mixer = s.mixer ∧ (State.primingDone s).announce = s.announce ∧
    (State.primingDone s).call = s.call ∧ (State.primingDone s).note = s.note ∧ (State.primingDone s).host = s.host ∧
    (State.primingDone s).startUp = s.startUp := by
  refine ⟨?_, ?_, ?_, ?_, ?_, ?_, ?_, ?_, ?_, ?_, ?_, ?_, ?_, ?_⟩ <;>
  first
  | (unfold State.primingDone; first | (with_reducible rfl) | (simp; done))
  | (unfold State.primingDone; (try dsimp only); (repeat' split) <;> first | (with_reducible rfl) | (simp; done) | (simp_all; done))

@[simp] theorem State.found_frame (s : State) (candidate correction : Int) :
    (State.found s candidate correction).pending = s.pending ∧
    (State.found s candidate correction).localCount = s.localCount ∧
    (State.found s candidate correction).line = s.line ∧ (State.found s candidate correction).tables = s.tables ∧
    (State.found s candidate correction).member = s.member ∧
    (State.found s candidate correction).follower = s.follower ∧
    (State.found s candidate correction).store = s.store ∧ (State.found s candidate correction).mixer = s.mixer ∧
    (State.found s candidate correction).announce = s.announce ∧ (State.found s candidate correction).call = s.call ∧
    (State.found s candidate correction).note = s.note ∧ (State.found s candidate correction).startUp = s.startUp ∧
    (State.found s candidate correction).host.response = s.host.response ∧
    (State.found s candidate correction).host.shifted = s.host.shifted ∧
    (State.found s candidate correction).host.stayAwake = s.host.stayAwake := by
  refine ⟨?_, ?_, ?_, ?_, ?_, ?_, ?_, ?_, ?_, ?_, ?_, ?_, ?_, ?_, ?_⟩ <;>
  first
  | (unfold State.found; first | (with_reducible rfl) | (simp; done))
  | (unfold State.found; (try dsimp only); (repeat' split) <;> first | (with_reducible rfl) | (simp; done) | (simp_all; done))

@[simp] theorem State.notFound_frame (s : State) :
    (State.notFound s).pending = s.pending ∧ (State.notFound s).localCount = s.localCount ∧
    (State.notFound s).line = s.line ∧ (State.notFound s).tables = s.tables ∧ (State.notFound s).member = s.member ∧
    (State.notFound s).follower = s.follower ∧ (State.notFound s).ports = s.ports ∧
    (State.notFound s).store = s.store ∧ (State.notFound s).mixer = s.mixer ∧
    (State.notFound s).announce = s.announce ∧ (State.notFound s).call = s.call ∧ (State.notFound s).note = s.note ∧
    (State.notFound s).startUp = s.startUp ∧ (State.notFound s).host.response = s.host.response ∧
    (State.notFound s).host.shifted = s.host.shifted ∧ (State.notFound s).host.stayAwake = s.host.stayAwake := by
  refine ⟨?_, ?_, ?_, ?_, ?_, ?_, ?_, ?_, ?_, ?_, ?_, ?_, ?_, ?_, ?_, ?_⟩ <;>
  first
  | (unfold State.notFound; first | (with_reducible rfl) | (simp; done))
  | (unfold State.notFound; (try dsimp only); (repeat' split) <;> first | (with_reducible rfl) | (simp; done) | (simp_all; done))

@[simp] theorem State.correlationResult_frame (s : State) :
    (State.correlationResult s).pending = s.pending ∧ (State.correlationResult s).localCount = s.localCount ∧
    (State.correlationResult s).line = s.line ∧ (State.correlationResult s).tables = s.tables ∧
    (State.correlationResult s).member = s.member ∧ (State.correlationResult s).follower = s.follower ∧
    (State.correlationResult s).store = s.store ∧ (State.correlationResult s).mixer = s.mixer ∧
    (State.correlationResult s).announce = s.announce ∧ (State.correlationResult s).call = s.call ∧
    (State.correlationResult s).note = s.note ∧ (State.correlationResult s).startUp = s.startUp ∧
    (State.correlationResult s).host.response = s.host.response ∧
    (State.correlationResult s).host.shifted = s.host.shifted ∧
    (State.correlationResult s).host.stayAwake = s.host.stayAwake := by
  refine ⟨?_, ?_, ?_, ?_, ?_, ?_, ?_, ?_, ?_, ?_, ?_, ?_, ?_, ?_, ?_⟩ <;>
  first
  | (unfold State.correlationResult; first | (with_reducible rfl) | (simp; done))
  | (unfold State.correlationResult; (try dsimp only); (repeat' split) <;> first | (with_reducible rfl) | (simp; done) | (simp_all; done))

@[simp] theorem State.crossfadeEnd_frame (s : State) :
    (State.crossfadeEnd s).pending = s.pending ∧ (State.crossfadeEnd s).localCount = s.localCount ∧
    (State.crossfadeEnd s).line = s.line ∧ (State.crossfadeEnd s).tables = s.tables ∧
    (State.crossfadeEnd s).member = s.member ∧ (State.crossfadeEnd s).follower = s.follower ∧
    (State.crossfadeEnd s).ports = s.ports ∧ (State.crossfadeEnd s).store = s.store ∧
    (State.crossfadeEnd s).mixer = s.mixer ∧ (State.crossfadeEnd s).announce = s.announce ∧
    (State.crossfadeEnd s).call = s.call ∧ (State.crossfadeEnd s).note = s.note ∧
    (State.crossfadeEnd s).host = s.host ∧ (State.crossfadeEnd s).startUp = s.startUp := by
  refine ⟨?_, ?_, ?_, ?_, ?_, ?_, ?_, ?_, ?_, ?_, ?_, ?_, ?_, ?_⟩ <;>
  first
  | (unfold State.crossfadeEnd; first | (with_reducible rfl) | (simp; done))
  | (unfold State.crossfadeEnd; (try dsimp only); (repeat' split) <;> first | (with_reducible rfl) | (simp; done) | (simp_all; done))

@[simp] theorem State.filled_frame (s : State) :
    (State.filled s).pending = s.pending ∧ (State.filled s).localCount = s.localCount ∧
    (State.filled s).line = s.line ∧ (State.filled s).tables = s.tables ∧ (State.filled s).member = s.member ∧
    (State.filled s).follower = s.follower ∧ (State.filled s).ports = s.ports ∧ (State.filled s).store = s.store ∧
    (State.filled s).mixer = s.mixer ∧ (State.filled s).announce = s.announce ∧ (State.filled s).call = s.call ∧
    (State.filled s).note = s.note ∧ (State.filled s).startUp = s.startUp ∧
    (State.filled s).host.response = s.host.response ∧ (State.filled s).host.shifted = s.host.shifted ∧
    (State.filled s).host.stayAwake = s.host.stayAwake := by
  refine ⟨?_, ?_, ?_, ?_, ?_, ?_, ?_, ?_, ?_, ?_, ?_, ?_, ?_, ?_, ?_, ?_⟩ <;>
  first
  | (unfold State.filled; first | (with_reducible rfl) | (simp; done))
  | (unfold State.filled; (try dsimp only); (repeat' split) <;> first | (with_reducible rfl) | (simp; done) | (simp_all; done))

@[simp] theorem State.toDigitalComplete_frame (s : State) :
    (State.toDigitalComplete s).pending = s.pending ∧ (State.toDigitalComplete s).localCount = s.localCount ∧
    (State.toDigitalComplete s).line = s.line ∧ (State.toDigitalComplete s).tables = s.tables ∧
    (State.toDigitalComplete s).member = s.member ∧ (State.toDigitalComplete s).follower = s.follower ∧
    (State.toDigitalComplete s).ports = s.ports ∧ (State.toDigitalComplete s).store = s.store ∧
    (State.toDigitalComplete s).mixer = s.mixer ∧ (State.toDigitalComplete s).announce = s.announce ∧
    (State.toDigitalComplete s).call = s.call ∧ (State.toDigitalComplete s).note = s.note ∧
    (State.toDigitalComplete s).startUp = s.startUp ∧ (State.toDigitalComplete s).host.response = s.host.response ∧
    (State.toDigitalComplete s).host.shifted = s.host.shifted ∧
    (State.toDigitalComplete s).host.stayAwake = s.host.stayAwake := by
  refine ⟨?_, ?_, ?_, ?_, ?_, ?_, ?_, ?_, ?_, ?_, ?_, ?_, ?_, ?_, ?_, ?_⟩ <;>
  first
  | (unfold State.toDigitalComplete; first | (with_reducible rfl) | (simp; done))
  | (unfold State.toDigitalComplete; (try dsimp only); (repeat' split) <;> first | (with_reducible rfl) | (simp; done) | (simp_all; done))

@[simp] theorem State.toAnalogueComplete_frame (s : State) :
    (State.toAnalogueComplete s).pending = s.pending ∧ (State.toAnalogueComplete s).localCount = s.localCount ∧
    (State.toAnalogueComplete s).line = s.line ∧ (State.toAnalogueComplete s).tables = s.tables ∧
    (State.toAnalogueComplete s).member = s.member ∧ (State.toAnalogueComplete s).follower = s.follower ∧
    (State.toAnalogueComplete s).ports = s.ports ∧ (State.toAnalogueComplete s).store = s.store ∧
    (State.toAnalogueComplete s).mixer = s.mixer ∧ (State.toAnalogueComplete s).announce = s.announce ∧
    (State.toAnalogueComplete s).call = s.call ∧ (State.toAnalogueComplete s).note = s.note ∧
    (State.toAnalogueComplete s).startUp = s.startUp ∧ (State.toAnalogueComplete s).host.response = s.host.response ∧
    (State.toAnalogueComplete s).host.shifted = s.host.shifted ∧
    (State.toAnalogueComplete s).host.stayAwake = s.host.stayAwake := by
  refine ⟨?_, ?_, ?_, ?_, ?_, ?_, ?_, ?_, ?_, ?_, ?_, ?_, ?_, ?_, ?_, ?_⟩ <;>
  first
  | (unfold State.toAnalogueComplete; first | (with_reducible rfl) | (simp; done))
  | (unfold State.toAnalogueComplete; (try dsimp only); (repeat' split) <;> first | (with_reducible rfl) | (simp; done) | (simp_all; done))

@[simp] theorem State.enableFromIdle_frame (s : State) :
    (State.enableFromIdle s).1.pending = s.pending ∧ (State.enableFromIdle s).1.localCount = s.localCount ∧
    (State.enableFromIdle s).1.line = s.line ∧ (State.enableFromIdle s).1.tables = s.tables ∧
    (State.enableFromIdle s).1.member = s.member ∧ (State.enableFromIdle s).1.follower = s.follower ∧
    (State.enableFromIdle s).1.store = s.store ∧ (State.enableFromIdle s).1.mixer = s.mixer ∧
    (State.enableFromIdle s).1.announce = s.announce ∧ (State.enableFromIdle s).1.call = s.call ∧
    (State.enableFromIdle s).1.note = s.note ∧ (State.enableFromIdle s).1.startUp = s.startUp ∧
    (State.enableFromIdle s).1.host.response = s.host.response ∧
    (State.enableFromIdle s).1.host.shifted = s.host.shifted ∧
    (State.enableFromIdle s).1.host.stayAwake = s.host.stayAwake := by
  refine ⟨?_, ?_, ?_, ?_, ?_, ?_, ?_, ?_, ?_, ?_, ?_, ?_, ?_, ?_, ?_⟩ <;>
  first
  | (unfold State.enableFromIdle; first | (with_reducible rfl) | (simp; done))
  | (unfold State.enableFromIdle; (try dsimp only); (repeat' split) <;> first | (with_reducible rfl) | (simp; done) | (simp_all; done))

@[simp] theorem State.blendEnable_frame (s : State) :
    (State.blendEnable s).1.pending = s.pending ∧ (State.blendEnable s).1.localCount = s.localCount ∧
    (State.blendEnable s).1.line = s.line ∧ (State.blendEnable s).1.tables = s.tables ∧
    (State.blendEnable s).1.member = s.member ∧ (State.blendEnable s).1.follower = s.follower ∧
    (State.blendEnable s).1.store = s.store ∧ (State.blendEnable s).1.mixer = s.mixer ∧
    (State.blendEnable s).1.announce = s.announce ∧ (State.blendEnable s).1.call = s.call ∧
    (State.blendEnable s).1.note = s.note ∧ (State.blendEnable s).1.startUp = s.startUp ∧
    (State.blendEnable s).1.host.response = s.host.response ∧ (State.blendEnable s).1.host.shifted = s.host.shifted ∧
    (State.blendEnable s).1.host.stayAwake = s.host.stayAwake := by
  refine ⟨?_, ?_, ?_, ?_, ?_, ?_, ?_, ?_, ?_, ?_, ?_, ?_, ?_, ?_, ?_⟩ <;>
  first
  | (unfold State.blendEnable; first | (with_reducible rfl) | (simp; done))
  | (unfold State.blendEnable; (try dsimp only); (repeat' split) <;> first | (with_reducible rfl) | (simp; done) | (simp_all; done))

@[simp] theorem State.blendDisable_frame (s : State) :
    (State.blendDisable s).pending = s.pending ∧ (State.blendDisable s).localCount = s.localCount ∧
    (State.blendDisable s).line = s.line ∧ (State.blendDisable s).tables = s.tables ∧
    (State.blendDisable s).member = s.member ∧ (State.blendDisable s).follower = s.follower ∧
    (State.blendDisable s).ports = s.ports ∧ (State.blendDisable s).store = s.store ∧
    (State.blendDisable s).mixer = s.mixer ∧ (State.blendDisable s).announce = s.announce ∧
    (State.blendDisable s).call = s.call ∧ (State.blendDisable s).note = s.note ∧
    (State.blendDisable s).startUp = s.startUp ∧ (State.blendDisable s).host.response = s.host.response ∧
    (State.blendDisable s).host.shifted = s.host.shifted ∧ (State.blendDisable s).host.stayAwake = s.host.stayAwake := by
  refine ⟨?_, ?_, ?_, ?_, ?_, ?_, ?_, ?_, ?_, ?_, ?_, ?_, ?_, ?_, ?_, ?_⟩ <;>
  first
  | (unfold State.blendDisable; first | (with_reducible rfl) | (simp; done))
  | (unfold State.blendDisable; (try dsimp only); (repeat' split) <;> first | (with_reducible rfl) | (simp; done) | (simp_all; done))

@[simp] theorem State.tuned_frame (s : State) :
    (State.tuned s).1.pending = s.pending ∧ (State.tuned s).1.localCount = s.localCount ∧
    (State.tuned s).1.line = s.line ∧ (State.tuned s).1.tables = s.tables ∧ (State.tuned s).1.member = s.member ∧
    (State.tuned s).1.follower = s.follower ∧ (State.tuned s).1.store = s.store ∧ (State.tuned s).1.mixer = s.mixer ∧
    (State.tuned s).1.announce = s.announce ∧ (State.tuned s).1.call = s.call ∧ (State.tuned s).1.note = s.note ∧
    (State.tuned s).1.startUp = s.startUp ∧ (State.tuned s).1.host.response = s.host.response ∧
    (State.tuned s).1.host.shifted = s.host.shifted ∧ (State.tuned s).1.host.stayAwake = s.host.stayAwake := by
  refine ⟨?_, ?_, ?_, ?_, ?_, ?_, ?_, ?_, ?_, ?_, ?_, ?_, ?_, ?_, ?_⟩ <;>
  first
  | (unfold State.tuned; first | (with_reducible rfl) | (simp; done))
  | (unfold State.tuned; (try dsimp only); (repeat' split) <;> first | (with_reducible rfl) | (simp; done) | (simp_all; done))

@[simp] theorem State.autostart_frame (s : State) :
    (State.autostart s).pending = s.pending ∧ (State.autostart s).localCount = s.localCount ∧
    (State.autostart s).line = s.line ∧ (State.autostart s).tables = s.tables ∧
    (State.autostart s).member = s.member ∧ (State.autostart s).follower = s.follower ∧
    (State.autostart s).store = s.store ∧ (State.autostart s).mixer = s.mixer ∧
    (State.autostart s).announce = s.announce ∧ (State.autostart s).call = s.call ∧
    (State.autostart s).note = s.note ∧ (State.autostart s).startUp = s.startUp ∧
    (State.autostart s).host.response = s.host.response ∧ (State.autostart s).host.shifted = s.host.shifted ∧
    (State.autostart s).host.stayAwake = s.host.stayAwake := by
  refine ⟨?_, ?_, ?_, ?_, ?_, ?_, ?_, ?_, ?_, ?_, ?_, ?_, ?_, ?_, ?_⟩ <;>
  first
  | (unfold State.autostart; first | (with_reducible rfl) | (simp; done))
  | (unfold State.autostart; (try dsimp only); (repeat' split) <;> first | (with_reducible rfl) | (simp; done) | (simp_all; done))

end Sys2Proof.Machine
end

