-- ==== Sys2Proof/Laws/FramesCallAudio.lean ====
section
/-! SUPPORT. Frames: what each operation of the call unit leaves alone, one lemma for an operation. -/

namespace Sys2Proof.Machine

set_option maxRecDepth 20000

@[simp] theorem State.historySample_frame (s : State) :
    (State.historySample s).pending = s.pending ∧ (State.historySample s).localCount = s.localCount ∧
    (State.historySample s).line = s.line ∧ (State.historySample s).tables = s.tables ∧
    (State.historySample s).member = s.member ∧ (State.historySample s).follower = s.follower ∧
    (State.historySample s).ports = s.ports ∧ (State.historySample s).store = s.store ∧
    (State.historySample s).mixer = s.mixer ∧ (State.historySample s).announce = s.announce ∧
    (State.historySample s).blend = s.blend ∧ (State.historySample s).note = s.note ∧
    (State.historySample s).host = s.host ∧ (State.historySample s).startUp = s.startUp := by
  refine ⟨?_, ?_, ?_, ?_, ?_, ?_, ?_, ?_, ?_, ?_, ?_, ?_, ?_, ?_⟩ <;>
  first
  | (unfold State.historySample; first | (with_reducible rfl) | (simp; done))
  | (unfold State.historySample; (try dsimp only); (repeat' split) <;> first | (with_reducible rfl) | (simp; done) | (simp_all; done))

@[simp] theorem State.stepFallback_frame (s : State) :
    (State.stepFallback s).pending = s.pending ∧ (State.stepFallback s).localCount = s.localCount ∧
    (State.stepFallback s).line = s.line ∧ (State.stepFallback s).tables = s.tables ∧
    (State.stepFallback s).member = s.member ∧ (State.stepFallback s).follower = s.follower ∧
    (State.stepFallback s).ports = s.ports ∧ (State.stepFallback s).store = s.store ∧
    (State.stepFallback s).mixer = s.mixer ∧ (State.stepFallback s).announce = s.announce ∧
    (State.stepFallback s).blend = s.blend ∧ (State.stepFallback s).note = s.note ∧
    (State.stepFallback s).host = s.host ∧ (State.stepFallback s).startUp = s.startUp := by
  refine ⟨?_, ?_, ?_, ?_, ?_, ?_, ?_, ?_, ?_, ?_, ?_, ?_, ?_, ?_⟩ <;>
  first
  | (unfold State.stepFallback; first | (with_reducible rfl) | (simp; done))
  | (unfold State.stepFallback; (try dsimp only); (repeat' split) <;> first | (with_reducible rfl) | (simp; done) | (simp_all; done))

@[simp] theorem State.testReference_frame (s : State) :
    (State.testReference s).pending = s.pending ∧ (State.testReference s).localCount = s.localCount ∧
    (State.testReference s).line = s.line ∧ (State.testReference s).tables = s.tables ∧
    (State.testReference s).member = s.member ∧ (State.testReference s).follower = s.follower ∧
    (State.testReference s).ports = s.ports ∧ (State.testReference s).store = s.store ∧
    (State.testReference s).mixer = s.mixer ∧ (State.testReference s).announce = s.announce ∧
    (State.testReference s).blend = s.blend ∧ (State.testReference s).note = s.note ∧
    (State.testReference s).startUp = s.startUp ∧ (State.testReference s).host.response = s.host.response ∧
    (State.testReference s).host.shifted = s.host.shifted ∧ (State.testReference s).host.stayAwake = s.host.stayAwake := by
  refine ⟨?_, ?_, ?_, ?_, ?_, ?_, ?_, ?_, ?_, ?_, ?_, ?_, ?_, ?_, ?_, ?_⟩ <;>
  first
  | (unfold State.testReference; first | (with_reducible rfl) | (simp; done))
  | (unfold State.testReference; (try dsimp only); (repeat' split) <;> first | (with_reducible rfl) | (simp; done) | (simp_all; done))

@[simp] theorem State.cancelSample_frame (s : State) :
    (State.cancelSample s).pending = s.pending ∧ (State.cancelSample s).localCount = s.localCount ∧
    (State.cancelSample s).line = s.line ∧ (State.cancelSample s).tables = s.tables ∧
    (State.cancelSample s).member = s.member ∧ (State.cancelSample s).follower = s.follower ∧
    (State.cancelSample s).ports = s.ports ∧ (State.cancelSample s).store = s.store ∧
    (State.cancelSample s).mixer = s.mixer ∧ (State.cancelSample s).announce = s.announce ∧
    (State.cancelSample s).blend = s.blend ∧ (State.cancelSample s).note = s.note ∧
    (State.cancelSample s).startUp = s.startUp ∧ (State.cancelSample s).host.response = s.host.response ∧
    (State.cancelSample s).host.shifted = s.host.shifted ∧ (State.cancelSample s).host.stayAwake = s.host.stayAwake := by
  refine ⟨?_, ?_, ?_, ?_, ?_, ?_, ?_, ?_, ?_, ?_, ?_, ?_, ?_, ?_, ?_, ?_⟩ <;>
  first
  | (unfold State.cancelSample; first | (with_reducible rfl) | (simp; done))
  | (unfold State.cancelSample; (try dsimp only); (repeat' split) <;> first | (with_reducible rfl) | (simp; done) | (simp_all; done))

@[simp] theorem State.echoWrite_frame (s : State) :
    (State.echoWrite s).pending = s.pending ∧ (State.echoWrite s).localCount = s.localCount ∧
    (State.echoWrite s).line = s.line ∧ (State.echoWrite s).tables = s.tables ∧
    (State.echoWrite s).member = s.member ∧ (State.echoWrite s).follower = s.follower ∧
    (State.echoWrite s).ports = s.ports ∧ (State.echoWrite s).note = s.note ∧
    (State.echoWrite s).startUp = s.startUp ∧ (State.echoWrite s).host.response = s.host.response ∧
    (State.echoWrite s).host.shifted = s.host.shifted ∧ (State.echoWrite s).host.stayAwake = s.host.stayAwake ∧
    (State.echoWrite s).announce.channels = s.announce.channels ∧ (State.echoWrite s).store.memory = s.store.memory ∧
    (State.echoWrite s).store.regions = s.store.regions ∧ (State.echoWrite s).store.retained = s.store.retained ∧
    (State.echoWrite s).store.retention = s.store.retention ∧ (State.echoWrite s).store.pinHeld = s.store.pinHeld := by
  refine ⟨?_, ?_, ?_, ?_, ?_, ?_, ?_, ?_, ?_, ?_, ?_, ?_, ?_, ?_, ?_, ?_, ?_, ?_⟩ <;>
  first
  | (unfold State.echoWrite; first | (with_reducible rfl) | (simp; done))
  | (unfold State.echoWrite; (try dsimp only); (repeat' split) <;> first | (with_reducible rfl) | (simp; done) | (simp_all; done))

@[simp] theorem State.echoReads_frame (s : State) :
    (State.echoReads s).pending = s.pending ∧ (State.echoReads s).localCount = s.localCount ∧
    (State.echoReads s).line = s.line ∧ (State.echoReads s).tables = s.tables ∧
    (State.echoReads s).member = s.member ∧ (State.echoReads s).follower = s.follower ∧
    (State.echoReads s).ports = s.ports ∧ (State.echoReads s).note = s.note ∧
    (State.echoReads s).startUp = s.startUp ∧ (State.echoReads s).host.response = s.host.response ∧
    (State.echoReads s).host.shifted = s.host.shifted ∧ (State.echoReads s).host.stayAwake = s.host.stayAwake ∧
    (State.echoReads s).announce.channels = s.announce.channels ∧ (State.echoReads s).store.memory = s.store.memory ∧
    (State.echoReads s).store.regions = s.store.regions ∧ (State.echoReads s).store.retained = s.store.retained ∧
    (State.echoReads s).store.retention = s.store.retention ∧ (State.echoReads s).store.pinHeld = s.store.pinHeld := by
  refine ⟨?_, ?_, ?_, ?_, ?_, ?_, ?_, ?_, ?_, ?_, ?_, ?_, ?_, ?_, ?_, ?_, ?_, ?_⟩ <;>
  first
  | (unfold State.echoReads; first | (with_reducible rfl) | (simp; done))
  | (unfold State.echoReads; (try dsimp only); (repeat' split) <;> first | (with_reducible rfl) | (simp; done) | (simp_all; done))

@[simp] theorem State.echoTurn_frame (s : State) :
    (State.echoTurn s).pending = s.pending ∧ (State.echoTurn s).localCount = s.localCount ∧
    (State.echoTurn s).line = s.line ∧ (State.echoTurn s).tables = s.tables ∧ (State.echoTurn s).member = s.member ∧
    (State.echoTurn s).follower = s.follower ∧ (State.echoTurn s).ports = s.ports ∧ (State.echoTurn s).note = s.note ∧
    (State.echoTurn s).startUp = s.startUp ∧ (State.echoTurn s).host.response = s.host.response ∧
    (State.echoTurn s).host.shifted = s.host.shifted ∧ (State.echoTurn s).host.stayAwake = s.host.stayAwake ∧
    (State.echoTurn s).announce.channels = s.announce.channels ∧ (State.echoTurn s).store.memory = s.store.memory ∧
    (State.echoTurn s).store.regions = s.store.regions ∧ (State.echoTurn s).store.retained = s.store.retained ∧
    (State.echoTurn s).store.retention = s.store.retention ∧ (State.echoTurn s).store.pinHeld = s.store.pinHeld := by
  refine ⟨?_, ?_, ?_, ?_, ?_, ?_, ?_, ?_, ?_, ?_, ?_, ?_, ?_, ?_, ?_, ?_, ?_, ?_⟩ <;>
  first
  | (unfold State.echoTurn; first | (with_reducible rfl) | (simp; done))
  | (unfold State.echoTurn; (try dsimp only); (repeat' split) <;> first | (with_reducible rfl) | (simp; done) | (simp_all; done))

@[simp] theorem State.callSample_frame (s : State) :
    (State.callSample s).pending = s.pending ∧ (State.callSample s).localCount = s.localCount ∧
    (State.callSample s).line = s.line ∧ (State.callSample s).tables = s.tables ∧
    (State.callSample s).member = s.member ∧ (State.callSample s).follower = s.follower ∧
    (State.callSample s).ports = s.ports ∧ (State.callSample s).note = s.note ∧
    (State.callSample s).startUp = s.startUp ∧ (State.callSample s).host.response = s.host.response ∧
    (State.callSample s).host.shifted = s.host.shifted ∧ (State.callSample s).host.stayAwake = s.host.stayAwake ∧
    (State.callSample s).announce.channels = s.announce.channels ∧
    (State.callSample s).store.memory = s.store.memory ∧ (State.callSample s).store.regions = s.store.regions ∧
    (State.callSample s).store.retained = s.store.retained ∧
    (State.callSample s).store.retention = s.store.retention ∧ (State.callSample s).store.pinHeld = s.store.pinHeld := by
  refine ⟨?_, ?_, ?_, ?_, ?_, ?_, ?_, ?_, ?_, ?_, ?_, ?_, ?_, ?_, ?_, ?_, ?_, ?_⟩ <;>
  first
  | (unfold State.callSample; first | (with_reducible rfl) | (simp; done))
  | (unfold State.callSample; (try dsimp only); (repeat' split) <;> first | (with_reducible rfl) | (simp; done) | (simp_all; done))

@[simp] theorem State.blockConverging_frame (s : State) :
    (State.blockConverging s).pending = s.pending ∧ (State.blockConverging s).localCount = s.localCount ∧
    (State.blockConverging s).line = s.line ∧ (State.blockConverging s).tables = s.tables ∧
    (State.blockConverging s).member = s.member ∧ (State.blockConverging s).follower = s.follower ∧
    (State.blockConverging s).ports = s.ports ∧ (State.blockConverging s).store = s.store ∧
    (State.blockConverging s).mixer = s.mixer ∧ (State.blockConverging s).announce = s.announce ∧
    (State.blockConverging s).blend = s.blend ∧ (State.blockConverging s).note = s.note ∧
    (State.blockConverging s).startUp = s.startUp ∧ (State.blockConverging s).host.response = s.host.response ∧
    (State.blockConverging s).host.shifted = s.host.shifted ∧
    (State.blockConverging s).host.stayAwake = s.host.stayAwake := by
  refine ⟨?_, ?_, ?_, ?_, ?_, ?_, ?_, ?_, ?_, ?_, ?_, ?_, ?_, ?_, ?_, ?_⟩ <;>
  (unfold State.blockConverging; extract_lets; split <;> first | rfl | (simp; done) | (simp; rfl))

@[simp] theorem State.blockConverged_frame (s : State) :
    (State.blockConverged s).pending = s.pending ∧ (State.blockConverged s).localCount = s.localCount ∧
    (State.blockConverged s).line = s.line ∧ (State.blockConverged s).tables = s.tables ∧
    (State.blockConverged s).member = s.member ∧ (State.blockConverged s).follower = s.follower ∧
    (State.blockConverged s).ports = s.ports ∧ (State.blockConverged s).store = s.store ∧
    (State.blockConverged s).mixer = s.mixer ∧ (State.blockConverged s).announce = s.announce ∧
    (State.blockConverged s).blend = s.blend ∧ (State.blockConverged s).note = s.note ∧
    (State.blockConverged s).startUp = s.startUp ∧ (State.blockConverged s).host.response = s.host.response ∧
    (State.blockConverged s).host.shifted = s.host.shifted ∧
    (State.blockConverged s).host.stayAwake = s.host.stayAwake := by
  refine ⟨?_, ?_, ?_, ?_, ?_, ?_, ?_, ?_, ?_, ?_, ?_, ?_, ?_, ?_, ?_, ?_⟩ <;>
  (unfold State.blockConverged; extract_lets; split <;> first | (simp; done) | (split <;> first | rfl | (simp; done) | (simp; rfl)))

@[simp] theorem State.blockDoubleTalk_frame (s : State) :
    (State.blockDoubleTalk s).pending = s.pending ∧ (State.blockDoubleTalk s).localCount = s.localCount ∧
    (State.blockDoubleTalk s).line = s.line ∧ (State.blockDoubleTalk s).tables = s.tables ∧
    (State.blockDoubleTalk s).member = s.member ∧ (State.blockDoubleTalk s).follower = s.follower ∧
    (State.blockDoubleTalk s).ports = s.ports ∧ (State.blockDoubleTalk s).store = s.store ∧
    (State.blockDoubleTalk s).mixer = s.mixer ∧ (State.blockDoubleTalk s).announce = s.announce ∧
    (State.blockDoubleTalk s).blend = s.blend ∧ (State.blockDoubleTalk s).note = s.note ∧
    (State.blockDoubleTalk s).startUp = s.startUp ∧ (State.blockDoubleTalk s).host.response = s.host.response ∧
    (State.blockDoubleTalk s).host.shifted = s.host.shifted ∧
    (State.blockDoubleTalk s).host.stayAwake = s.host.stayAwake := by
  refine ⟨?_, ?_, ?_, ?_, ?_, ?_, ?_, ?_, ?_, ?_, ?_, ?_, ?_, ?_, ?_, ?_⟩ <;>
  (unfold State.blockDoubleTalk; extract_lets; split <;> first | rfl | (simp; done) | (simp; rfl))

@[simp] theorem State.cancellerBlock_frame (s : State) :
    (State.cancellerBlock s).pending = s.pending ∧ (State.cancellerBlock s).localCount = s.localCount ∧
    (State.cancellerBlock s).line = s.line ∧ (State.cancellerBlock s).tables = s.tables ∧
    (State.cancellerBlock s).member = s.member ∧ (State.cancellerBlock s).follower = s.follower ∧
    (State.cancellerBlock s).ports = s.ports ∧ (State.cancellerBlock s).store = s.store ∧
    (State.cancellerBlock s).mixer = s.mixer ∧ (State.cancellerBlock s).announce = s.announce ∧
    (State.cancellerBlock s).blend = s.blend ∧ (State.cancellerBlock s).note = s.note ∧
    (State.cancellerBlock s).startUp = s.startUp ∧ (State.cancellerBlock s).host.response = s.host.response ∧
    (State.cancellerBlock s).host.shifted = s.host.shifted ∧
    (State.cancellerBlock s).host.stayAwake = s.host.stayAwake := by
  refine ⟨?_, ?_, ?_, ?_, ?_, ?_, ?_, ?_, ?_, ?_, ?_, ?_, ?_, ?_, ?_, ?_⟩
  · unfold State.cancellerBlock; split <;> first | rfl | (extract_lets c judged noted reacted; show reacted.pending = _; simp only [reacted]; split <;> simp [noted])
  · unfold State.cancellerBlock; split <;> first | rfl | (extract_lets c judged noted reacted; show reacted.localCount = _; simp only [reacted]; split <;> simp [noted])
  · unfold State.cancellerBlock; split <;> first | rfl | (extract_lets c judged noted reacted; show reacted.line = _; simp only [reacted]; split <;> simp [noted])
  · unfold State.cancellerBlock; split <;> first | rfl | (extract_lets c judged noted reacted; show reacted.tables = _; simp only [reacted]; split <;> simp [noted])
  · unfold State.cancellerBlock; split <;> first | rfl | (extract_lets c judged noted reacted; show reacted.member = _; simp only [reacted]; split <;> simp [noted])
  · unfold State.cancellerBlock; split <;> first | rfl | (extract_lets c judged noted reacted; show reacted.follower = _; simp only [reacted]; split <;> simp [noted])
  · unfold State.cancellerBlock; split <;> first | rfl | (extract_lets c judged noted reacted; show reacted.ports = _; simp only [reacted]; split <;> simp [noted])
  · unfold State.cancellerBlock; split <;> first | rfl | (extract_lets c judged noted reacted; show reacted.store = _; simp only [reacted]; split <;> simp [noted])
  · unfold State.cancellerBlock; split <;> first | rfl | (extract_lets c judged noted reacted; show reacted.mixer = _; simp only [reacted]; split <;> simp [noted])
  · unfold State.cancellerBlock; split <;> first | rfl | (extract_lets c judged noted reacted; show reacted.announce = _; simp only [reacted]; split <;> simp [noted])
  · unfold State.cancellerBlock; split <;> first | rfl | (extract_lets c judged noted reacted; show reacted.blend = _; simp only [reacted]; split <;> simp [noted])
  · unfold State.cancellerBlock; split <;> first | rfl | (extract_lets c judged noted reacted; show reacted.note = _; simp only [reacted]; split <;> simp [noted])
  · unfold State.cancellerBlock; split <;> first | rfl | (extract_lets c judged noted reacted; show reacted.startUp = _; simp only [reacted]; split <;> simp [noted])
  · unfold State.cancellerBlock; split <;> first | rfl | (extract_lets c judged noted reacted; show reacted.host.response = _; simp only [reacted]; split <;> simp [noted])
  · unfold State.cancellerBlock; split <;> first | rfl | (extract_lets c judged noted reacted; show reacted.host.shifted = _; simp only [reacted]; split <;> simp [noted])
  · unfold State.cancellerBlock; split <;> first | rfl | (extract_lets c judged noted reacted; show reacted.host.stayAwake = _; simp only [reacted]; split <;> simp [noted])

@[simp] theorem State.freezeEnd_frame (s : State) :
    (State.freezeEnd s).pending = s.pending ∧ (State.freezeEnd s).localCount = s.localCount ∧
    (State.freezeEnd s).line = s.line ∧ (State.freezeEnd s).tables = s.tables ∧
    (State.freezeEnd s).member = s.member ∧ (State.freezeEnd s).follower = s.follower ∧
    (State.freezeEnd s).ports = s.ports ∧ (State.freezeEnd s).store = s.store ∧ (State.freezeEnd s).mixer = s.mixer ∧
    (State.freezeEnd s).announce = s.announce ∧ (State.freezeEnd s).blend = s.blend ∧
    (State.freezeEnd s).note = s.note ∧ (State.freezeEnd s).host = s.host ∧ (State.freezeEnd s).startUp = s.startUp := by
  refine ⟨?_, ?_, ?_, ?_, ?_, ?_, ?_, ?_, ?_, ?_, ?_, ?_, ?_, ?_⟩ <;>
  (unfold State.freezeEnd; (try dsimp only); (repeat' split) <;> first | (with_reducible rfl) | (simp; done) | (simp_all; done))

@[simp] theorem State.referenceLost_frame (s : State) :
    (State.referenceLost s).pending = s.pending ∧ (State.referenceLost s).localCount = s.localCount ∧
    (State.referenceLost s).line = s.line ∧ (State.referenceLost s).tables = s.tables ∧
    (State.referenceLost s).member = s.member ∧ (State.referenceLost s).follower = s.follower ∧
    (State.referenceLost s).ports = s.ports ∧ (State.referenceLost s).store = s.store ∧
    (State.referenceLost s).mixer = s.mixer ∧ (State.referenceLost s).announce = s.announce ∧
    (State.referenceLost s).blend = s.blend ∧ (State.referenceLost s).note = s.note ∧
    (State.referenceLost s).startUp = s.startUp ∧ (State.referenceLost s).host.response = s.host.response ∧
    (State.referenceLost s).host.shifted = s.host.shifted ∧ (State.referenceLost s).host.stayAwake = s.host.stayAwake := by
  refine ⟨?_, ?_, ?_, ?_, ?_, ?_, ?_, ?_, ?_, ?_, ?_, ?_, ?_, ?_, ?_, ?_⟩ <;>
  (unfold State.referenceLost; (try dsimp only); (repeat' split) <;> first | (with_reducible rfl) | (simp; done) | (simp_all; done))

end Sys2Proof.Machine
end

