-- ==== Sys2Proof/Laws/FramesNotes.lean ====
section
/-! SUPPORT. Frames: what each operation of the note unit leaves alone, one lemma for an operation. -/

namespace Sys2Proof.Machine

set_option maxRecDepth 20000

@[simp] theorem State.noteStall_frame (s : State) :
    (State.noteStall s).pending = s.pending ∧ (State.noteStall s).localCount = s.localCount ∧
    (State.noteStall s).line = s.line ∧ (State.noteStall s).tables = s.tables ∧
    (State.noteStall s).member = s.member ∧ (State.noteStall s).follower = s.follower ∧
    (State.noteStall s).ports = s.ports ∧ (State.noteStall s).store = s.store ∧ (State.noteStall s).mixer = s.mixer ∧
    (State.noteStall s).announce = s.announce ∧ (State.noteStall s).blend = s.blend ∧
    (State.noteStall s).call = s.call ∧ (State.noteStall s).startUp = s.startUp ∧
    (State.noteStall s).host.response = s.host.response ∧ (State.noteStall s).host.shifted = s.host.shifted ∧
    (State.noteStall s).host.stayAwake = s.host.stayAwake ∧ (State.noteStall s).note.outbound = s.note.outbound := by
  refine ⟨?_, ?_, ?_, ?_, ?_, ?_, ?_, ?_, ?_, ?_, ?_, ?_, ?_, ?_, ?_, ?_, ?_⟩ <;>
  (unfold State.noteStall; (try dsimp only); (repeat' split) <;> first | (with_reducible rfl) | (simp; done) | (simp_all; done))

@[simp] theorem State.noteExpiry_frame (s : State) :
    (State.noteExpiry s).pending = s.pending ∧ (State.noteExpiry s).localCount = s.localCount ∧
    (State.noteExpiry s).line = s.line ∧ (State.noteExpiry s).tables = s.tables ∧
    (State.noteExpiry s).member = s.member ∧ (State.noteExpiry s).follower = s.follower ∧
    (State.noteExpiry s).ports = s.ports ∧ (State.noteExpiry s).store = s.store ∧
    (State.noteExpiry s).mixer = s.mixer ∧ (State.noteExpiry s).announce = s.announce ∧
    (State.noteExpiry s).blend = s.blend ∧ (State.noteExpiry s).call = s.call ∧
    (State.noteExpiry s).startUp = s.startUp ∧ (State.noteExpiry s).host.response = s.host.response ∧
    (State.noteExpiry s).host.shifted = s.host.shifted ∧ (State.noteExpiry s).host.stayAwake = s.host.stayAwake ∧
    (State.noteExpiry s).note.outbound = s.note.outbound := by
  refine ⟨?_, ?_, ?_, ?_, ?_, ?_, ?_, ?_, ?_, ?_, ?_, ?_, ?_, ?_, ?_, ?_, ?_⟩ <;>
  (unfold State.noteExpiry; (try dsimp only); (repeat' split) <;> first | (with_reducible rfl) | (simp; done) | (simp_all; done))

@[simp] theorem State.beginNote_frame (s : State) (target total : Nat) (data : List Byte) :
    (State.beginNote s target total data).pending = s.pending ∧
    (State.beginNote s target total data).localCount = s.localCount ∧
    (State.beginNote s target total data).tables = s.tables ∧
    (State.beginNote s target total data).member = s.member ∧
    (State.beginNote s target total data).follower = s.follower ∧
    (State.beginNote s target total data).ports = s.ports ∧ (State.beginNote s target total data).store = s.store ∧
    (State.beginNote s target total data).mixer = s.mixer ∧
    (State.beginNote s target total data).announce = s.announce ∧
    (State.beginNote s target total data).blend = s.blend ∧ (State.beginNote s target total data).host = s.host ∧
    (State.beginNote s target total data).startUp = s.startUp ∧
    (State.beginNote s target total data).line.timerExpired = s.line.timerExpired ∧
    (State.beginNote s target total data).line.silentCount = s.line.silentCount ∧
    (State.beginNote s target total data).line.silent = s.line.silent ∧
    (State.beginNote s target total data).line.lead = s.line.lead ∧
    (State.beginNote s target total data).line.phase = s.line.phase ∧
    (State.beginNote s target total data).line.field = s.line.field ∧
    (State.beginNote s target total data).line.sent = s.line.sent ∧
    (State.beginNote s target total data).line.vetoing = s.line.vetoing ∧
    (State.beginNote s target total data).line.bindings = s.line.bindings ∧
    (State.beginNote s target total data).line.driven = s.line.driven ∧
    (State.beginNote s target total data).line.lineSamples = s.line.lineSamples ∧
    (State.beginNote s target total data).line.presenceCounter = s.line.presenceCounter ∧
    (State.beginNote s target total data).line.presenceDue = s.line.presenceDue ∧
    (State.beginNote s target total data).line.selfVeto = s.line.selfVeto ∧
    (State.beginNote s target total data).note.box = s.note.box := by
  refine ⟨?_, ?_, ?_, ?_, ?_, ?_, ?_, ?_, ?_, ?_, ?_, ?_, ?_, ?_, ?_, ?_, ?_, ?_, ?_, ?_, ?_, ?_, ?_, ?_, ?_, ?_, ?_⟩ <;>
  (unfold State.beginNote; (try dsimp only); (repeat' split) <;> first | (with_reducible rfl) | (simp; done) | (simp_all; done))

end Sys2Proof.Machine
end

