-- ==== Sys2Proof/Laws/FramesLocalSample.lean ====
section
/-! SUPPORT. Frames: what each operation of the local sample leaves alone, one lemma for an operation. -/

namespace Sys2Proof.Machine

set_option maxRecDepth 20000

@[simp] theorem State.portSample_frame (s : State) (i : InputSamples) :
    (State.portSample s i).pending = s.pending ∧ (State.portSample s i).localCount = s.localCount ∧
    (State.portSample s i).line = s.line ∧ (State.portSample s i).tables = s.tables ∧
    (State.portSample s i).member = s.member ∧ (State.portSample s i).follower = s.follower ∧
    (State.portSample s i).store = s.store ∧ (State.portSample s i).mixer = s.mixer ∧
    (State.portSample s i).announce = s.announce ∧ (State.portSample s i).call = s.call ∧
    (State.portSample s i).note = s.note ∧ (State.portSample s i).startUp = s.startUp ∧
    (State.portSample s i).host.response = s.host.response ∧ (State.portSample s i).host.shifted = s.host.shifted ∧
    (State.portSample s i).host.stayAwake = s.host.stayAwake := by
  refine ⟨?_, ?_, ?_, ?_, ?_, ?_, ?_, ?_, ?_, ?_, ?_, ?_, ?_, ?_, ?_⟩ <;>
  (unfold State.portSample; (try dsimp only); (repeat' split) <;> first | (with_reducible rfl) | (simp; done) | (simp_all; done))

@[simp] theorem State.localSample_frame (s : State) (i : InputSamples) :
    (State.localSample s i).pending = s.pending ∧ (State.localSample s i).line = s.line ∧
    (State.localSample s i).tables = s.tables ∧ (State.localSample s i).member = s.member ∧
    (State.localSample s i).note = s.note ∧ (State.localSample s i).startUp = s.startUp ∧
    (State.localSample s i).store.memory = s.store.memory ∧ (State.localSample s i).store.regions = s.store.regions ∧
    (State.localSample s i).store.retained = s.store.retained ∧
    (State.localSample s i).store.retention = s.store.retention ∧
    (State.localSample s i).store.pinHeld = s.store.pinHeld ∧
    (State.localSample s i).host.response = s.host.response ∧ (State.localSample s i).host.shifted = s.host.shifted ∧
    (State.localSample s i).host.stayAwake = s.host.stayAwake := by
  refine ⟨?_, ?_, ?_, ?_, ?_, ?_, ?_, ?_, ?_, ?_, ?_, ?_, ?_, ?_⟩ <;>
  (unfold State.localSample; (try dsimp only); (repeat' split) <;> first | (with_reducible rfl) | (simp; done) | (simp_all; done))

@[simp] theorem State.overdue_frame (s : State) (bank : Nat) :
    (State.overdue s bank).pending = s.pending ∧ (State.overdue s bank).localCount = s.localCount ∧
    (State.overdue s bank).line = s.line ∧ (State.overdue s bank).tables = s.tables ∧
    (State.overdue s bank).member = s.member ∧ (State.overdue s bank).follower = s.follower ∧
    (State.overdue s bank).ports = s.ports ∧ (State.overdue s bank).store = s.store ∧
    (State.overdue s bank).mixer = s.mixer ∧ (State.overdue s bank).blend = s.blend ∧
    (State.overdue s bank).call = s.call ∧ (State.overdue s bank).note = s.note ∧
    (State.overdue s bank).startUp = s.startUp ∧ (State.overdue s bank).host.response = s.host.response ∧
    (State.overdue s bank).host.shifted = s.host.shifted ∧ (State.overdue s bank).host.stayAwake = s.host.stayAwake ∧
    (State.overdue s bank).announce.channels = s.announce.channels := by
  refine ⟨?_, ?_, ?_, ?_, ?_, ?_, ?_, ?_, ?_, ?_, ?_, ?_, ?_, ?_, ?_, ?_, ?_⟩ <;>
  (unfold State.overdue; (try dsimp only); (repeat' split) <;> first | (with_reducible rfl) | (simp; done) | (simp_all; done))

@[simp] theorem State.refreshDebtRise_frame (s : State) :
    (State.refreshDebtRise s).pending = s.pending ∧ (State.refreshDebtRise s).localCount = s.localCount ∧
    (State.refreshDebtRise s).line = s.line ∧ (State.refreshDebtRise s).tables = s.tables ∧
    (State.refreshDebtRise s).member = s.member ∧ (State.refreshDebtRise s).follower = s.follower ∧
    (State.refreshDebtRise s).ports = s.ports ∧ (State.refreshDebtRise s).mixer = s.mixer ∧
    (State.refreshDebtRise s).blend = s.blend ∧ (State.refreshDebtRise s).call = s.call ∧
    (State.refreshDebtRise s).note = s.note ∧ (State.refreshDebtRise s).startUp = s.startUp ∧
    (State.refreshDebtRise s).store.memory = s.store.memory ∧
    (State.refreshDebtRise s).store.regions = s.store.regions ∧
    (State.refreshDebtRise s).store.retained = s.store.retained ∧
    (State.refreshDebtRise s).store.retention = s.store.retention ∧
    (State.refreshDebtRise s).store.pinHeld = s.store.pinHeld ∧
    (State.refreshDebtRise s).host.response = s.host.response ∧
    (State.refreshDebtRise s).host.shifted = s.host.shifted ∧
    (State.refreshDebtRise s).host.stayAwake = s.host.stayAwake ∧
    (State.refreshDebtRise s).announce.channels = s.announce.channels := by
  refine ⟨?_, ?_, ?_, ?_, ?_, ?_, ?_, ?_, ?_, ?_, ?_, ?_, ?_, ?_, ?_, ?_, ?_, ?_, ?_, ?_, ?_⟩ <;>
  (unfold State.refreshDebtRise; (try dsimp only); (repeat' split) <;> first | (with_reducible rfl) | (simp; done) | (simp_all; done))

@[simp] theorem State.decoderArrives_frame (s : State) (x : Stereo) (q : Quality) :
    (State.decoderArrives s x q).pending = s.pending ∧ (State.decoderArrives s x q).localCount = s.localCount ∧
    (State.decoderArrives s x q).line = s.line ∧ (State.decoderArrives s x q).tables = s.tables ∧
    (State.decoderArrives s x q).member = s.member ∧ (State.decoderArrives s x q).follower = s.follower ∧
    (State.decoderArrives s x q).store = s.store ∧ (State.decoderArrives s x q).mixer = s.mixer ∧
    (State.decoderArrives s x q).announce = s.announce ∧ (State.decoderArrives s x q).blend = s.blend ∧
    (State.decoderArrives s x q).call = s.call ∧ (State.decoderArrives s x q).note = s.note ∧
    (State.decoderArrives s x q).host = s.host ∧ (State.decoderArrives s x q).startUp = s.startUp := by
  refine ⟨?_, ?_, ?_, ?_, ?_, ?_, ?_, ?_, ?_, ?_, ?_, ?_, ?_, ?_⟩ <;>
  (unfold State.decoderArrives; (try dsimp only); (repeat' split) <;> first | (with_reducible rfl) | (simp; done) | (simp_all; done))

end Sys2Proof.Machine
end

