-- ==== Sys2Proof/Laws/FramesStartUp.lean ====
section
/-! SUPPORT. Frames: what each operation of start-up and dormancy leaves alone, one lemma for an operation. -/

namespace Sys2Proof.Machine

set_option maxRecDepth 20000

@[simp] theorem State.installRoute_frame (s : State) (zones : List ZoneDefinition) (t : AutonomousRoute) :
    (State.installRoute s zones t).pending = s.pending ∧ (State.installRoute s zones t).localCount = s.localCount ∧
    (State.installRoute s zones t).line = s.line ∧ (State.installRoute s zones t).tables = s.tables ∧
    (State.installRoute s zones t).member = s.member ∧ (State.installRoute s zones t).follower = s.follower ∧
    (State.installRoute s zones t).ports = s.ports ∧ (State.installRoute s zones t).store = s.store ∧
    (State.installRoute s zones t).announce = s.announce ∧ (State.installRoute s zones t).blend = s.blend ∧
    (State.installRoute s zones t).call = s.call ∧ (State.installRoute s zones t).note = s.note ∧
    (State.installRoute s zones t).host = s.host ∧ (State.installRoute s zones t).startUp = s.startUp := by
  refine ⟨?_, ?_, ?_, ?_, ?_, ?_, ?_, ?_, ?_, ?_, ?_, ?_, ?_, ?_⟩ <;>
  (unfold State.installRoute; (try dsimp only); (repeat' split) <;> first | (with_reducible rfl) | (simp; done) | (simp_all; done))

@[simp] theorem State.setUp_frame (s : State) (r : StartUpRecord) :
    (State.setUp s r).pending = s.pending ∧ (State.setUp s r).localCount = s.localCount ∧
    (State.setUp s r).line = s.line ∧ (State.setUp s r).tables = s.tables ∧ (State.setUp s r).member = s.member ∧
    (State.setUp s r).follower = s.follower ∧ (State.setUp s r).call = s.call ∧ (State.setUp s r).note = s.note ∧
    (State.setUp s r).store.memory = s.store.memory ∧ (State.setUp s r).store.retention = s.store.retention ∧
    (State.setUp s r).store.pinHeld = s.store.pinHeld ∧ (State.setUp s r).host.response = s.host.response ∧
    (State.setUp s r).host.shifted = s.host.shifted ∧ (State.setUp s r).host.stayAwake = s.host.stayAwake ∧
    (State.setUp s r).announce.channels = s.announce.channels := by
  refine ⟨?_, ?_, ?_, ?_, ?_, ?_, ?_, ?_, ?_, ?_, ?_, ?_, ?_, ?_, ?_⟩ <;>
  (unfold State.setUp; (try dsimp only); (repeat' split) <;> first | (with_reducible rfl) | (simp; done) | (simp_all; done))

@[simp] theorem State.recordRead_frame (s : State) (read : RecordRead) :
    (State.recordRead s read).pending = s.pending ∧ (State.recordRead s read).localCount = s.localCount ∧
    (State.recordRead s read).follower = s.follower ∧
    (State.recordRead s read).line.timerExpired = s.line.timerExpired ∧
    (State.recordRead s read).line.silentCount = s.line.silentCount ∧
    (State.recordRead s read).line.silent = s.line.silent ∧ (State.recordRead s read).line.lead = s.line.lead ∧
    (State.recordRead s read).line.phase = s.line.phase ∧ (State.recordRead s read).line.field = s.line.field ∧
    (State.recordRead s read).line.driven = s.line.driven ∧
    (State.recordRead s read).line.lineSamples = s.line.lineSamples ∧
    (State.recordRead s read).store.memory = s.store.memory ∧
    (State.recordRead s read).store.retention = s.store.retention ∧
    (State.recordRead s read).store.pinHeld = s.store.pinHeld ∧
    (State.recordRead s read).host.response = s.host.response ∧
    (State.recordRead s read).host.shifted = s.host.shifted ∧
    (State.recordRead s read).host.stayAwake = s.host.stayAwake ∧
    (State.recordRead s read).tables.frameCount = s.tables.frameCount ∧
    (State.recordRead s read).announce.channels = s.announce.channels := by
  refine ⟨?_, ?_, ?_, ?_, ?_, ?_, ?_, ?_, ?_, ?_, ?_, ?_, ?_, ?_, ?_, ?_, ?_, ?_, ?_⟩ <;>
  (unfold State.recordRead; (try dsimp only); (repeat' split) <;> first | (with_reducible rfl) | (simp; done) | (simp_all; done))

@[simp] theorem State.assertPin_frame (s : State) :
    (State.assertPin s).pending = s.pending ∧ (State.assertPin s).localCount = s.localCount ∧
    (State.assertPin s).line = s.line ∧ (State.assertPin s).tables = s.tables ∧
    (State.assertPin s).member = s.member ∧ (State.assertPin s).follower = s.follower ∧
    (State.assertPin s).ports = s.ports ∧ (State.assertPin s).mixer = s.mixer ∧
    (State.assertPin s).announce = s.announce ∧ (State.assertPin s).blend = s.blend ∧
    (State.assertPin s).call = s.call ∧ (State.assertPin s).note = s.note ∧ (State.assertPin s).host = s.host ∧
    (State.assertPin s).startUp = s.startUp := by
  refine ⟨?_, ?_, ?_, ?_, ?_, ?_, ?_, ?_, ?_, ?_, ?_, ?_, ?_, ?_⟩ <;>
  (unfold State.assertPin; (try dsimp only); (repeat' split) <;> first | (with_reducible rfl) | (simp; done) | (simp_all; done))

@[simp] theorem State.wake_frame (s : State) (cause : Cause) (stayAwake : Bool) :
    (State.wake s cause stayAwake).host.shifted = s.host.shifted := by
  (unfold State.wake; (try dsimp only); (repeat' split) <;> first | (with_reducible rfl) | (simp; done) | (simp_all; done))

@[simp] theorem State.startSeen_frame (s : State) (inWindow : Bool) :
    (State.startSeen s inWindow).host.shifted = s.host.shifted := by
  (unfold State.startSeen; (try dsimp only); (repeat' split) <;> first | (with_reducible rfl) | (simp; done) | (simp_all; done))

@[simp] theorem State.followerAsleep_frame (s : State) :
    (State.followerAsleep s).pending = s.pending ∧ (State.followerAsleep s).localCount = s.localCount ∧
    (State.followerAsleep s).line = s.line ∧ (State.followerAsleep s).tables = s.tables ∧
    (State.followerAsleep s).member = s.member ∧ (State.followerAsleep s).ports = s.ports ∧
    (State.followerAsleep s).store = s.store ∧ (State.followerAsleep s).mixer = s.mixer ∧
    (State.followerAsleep s).announce = s.announce ∧ (State.followerAsleep s).blend = s.blend ∧
    (State.followerAsleep s).call = s.call ∧ (State.followerAsleep s).note = s.note ∧
    (State.followerAsleep s).startUp = s.startUp ∧ (State.followerAsleep s).host.response = s.host.response ∧
    (State.followerAsleep s).host.shifted = s.host.shifted ∧
    (State.followerAsleep s).host.stayAwake = s.host.stayAwake := by
  refine ⟨?_, ?_, ?_, ?_, ?_, ?_, ?_, ?_, ?_, ?_, ?_, ?_, ?_, ?_, ?_, ?_⟩ <;>
  (unfold State.followerAsleep; (try dsimp only); (repeat' split) <;> first | (with_reducible rfl) | (simp; done) | (simp_all; done))

@[simp] theorem State.cancellerAsleep_frame (s : State) :
    (State.cancellerAsleep s).pending = s.pending ∧ (State.cancellerAsleep s).localCount = s.localCount ∧
    (State.cancellerAsleep s).line = s.line ∧ (State.cancellerAsleep s).tables = s.tables ∧
    (State.cancellerAsleep s).member = s.member ∧ (State.cancellerAsleep s).follower = s.follower ∧
    (State.cancellerAsleep s).ports = s.ports ∧ (State.cancellerAsleep s).store = s.store ∧
    (State.cancellerAsleep s).mixer = s.mixer ∧ (State.cancellerAsleep s).announce = s.announce ∧
    (State.cancellerAsleep s).blend = s.blend ∧ (State.cancellerAsleep s).note = s.note ∧
    (State.cancellerAsleep s).host = s.host ∧ (State.cancellerAsleep s).startUp = s.startUp := by
  refine ⟨?_, ?_, ?_, ?_, ?_, ?_, ?_, ?_, ?_, ?_, ?_, ?_, ?_, ?_⟩ <;>
  (unfold State.cancellerAsleep; (try dsimp only); (repeat' split) <;> first | (with_reducible rfl) | (simp; done) | (simp_all; done))

@[simp] theorem State.enterDormant_frame (s : State) :
    (State.enterDormant s).pending = s.pending ∧ (State.enterDormant s).localCount = s.localCount ∧
    (State.enterDormant s).host.shifted = s.host.shifted ∧ (State.enterDormant s).host.stayAwake = s.host.stayAwake ∧
    (State.enterDormant s).startUp.record = s.startUp.record ∧
    (State.enterDormant s).startUp.reading = s.startUp.reading ∧
    (State.enterDormant s).tables.frameCount = s.tables.frameCount := by
  refine ⟨?_, ?_, ?_, ?_, ?_, ?_, ?_⟩ <;>
  (unfold State.enterDormant; (try dsimp only); (repeat' split) <;> first | (with_reducible rfl) | (simp; done) | (simp_all; done))

end Sys2Proof.Machine
end

