-- ==== Sys2Proof/Laws/FramesSettle.lean ====
section
/-! SUPPORT. Frames: what each operation of the pass over what is due leaves alone, one lemma for an operation. -/

namespace Sys2Proof.Machine

set_option maxRecDepth 20000

@[simp] theorem State.carryRetry_frame (s : State) (i : Nat) :
    (State.carryRetry s i).pending = s.pending ∧ (State.carryRetry s i).localCount = s.localCount ∧
    (State.carryRetry s i).tables = s.tables ∧ (State.carryRetry s i).member = s.member ∧
    (State.carryRetry s i).follower = s.follower ∧ (State.carryRetry s i).ports = s.ports ∧
    (State.carryRetry s i).store = s.store ∧ (State.carryRetry s i).mixer = s.mixer ∧
    (State.carryRetry s i).announce = s.announce ∧ (State.carryRetry s i).blend = s.blend ∧
    (State.carryRetry s i).note = s.note ∧ (State.carryRetry s i).host = s.host ∧
    (State.carryRetry s i).line.timerExpired = s.line.timerExpired ∧
    (State.carryRetry s i).line.silentCount = s.line.silentCount ∧
    (State.carryRetry s i).line.silent = s.line.silent ∧ (State.carryRetry s i).line.lead = s.line.lead ∧
    (State.carryRetry s i).line.phase = s.line.phase ∧ (State.carryRetry s i).line.field = s.line.field ∧
    (State.carryRetry s i).line.sent = s.line.sent ∧ (State.carryRetry s i).line.vetoing = s.line.vetoing ∧
    (State.carryRetry s i).line.bindings = s.line.bindings ∧ (State.carryRetry s i).line.driven = s.line.driven ∧
    (State.carryRetry s i).line.lineSamples = s.line.lineSamples ∧
    (State.carryRetry s i).line.presenceCounter = s.line.presenceCounter ∧
    (State.carryRetry s i).line.presenceDue = s.line.presenceDue ∧
    (State.carryRetry s i).line.selfVeto = s.line.selfVeto ∧
    (State.carryRetry s i).startUp.record = s.startUp.record ∧
    (State.carryRetry s i).startUp.reading = s.startUp.reading := by
  refine ⟨?_, ?_, ?_, ?_, ?_, ?_, ?_, ?_, ?_, ?_, ?_, ?_, ?_, ?_, ?_, ?_, ?_, ?_, ?_, ?_, ?_, ?_, ?_, ?_, ?_, ?_, ?_, ?_⟩ <;>
  (unfold State.carryRetry; (try dsimp only); (repeat' split) <;> first | (with_reducible rfl) | (simp; done) | (simp_all; done))

@[simp] theorem State.endRamps_frame (s : State) (z : Nat) :
    (State.endRamps s z).pending = s.pending ∧ (State.endRamps s z).localCount = s.localCount ∧
    (State.endRamps s z).line = s.line ∧ (State.endRamps s z).tables = s.tables ∧
    (State.endRamps s z).member = s.member ∧ (State.endRamps s z).follower = s.follower ∧
    (State.endRamps s z).ports = s.ports ∧ (State.endRamps s z).store = s.store ∧
    (State.endRamps s z).announce = s.announce ∧ (State.endRamps s z).blend = s.blend ∧
    (State.endRamps s z).call = s.call ∧ (State.endRamps s z).note = s.note ∧ (State.endRamps s z).host = s.host ∧
    (State.endRamps s z).startUp = s.startUp := by
  refine ⟨?_, ?_, ?_, ?_, ?_, ?_, ?_, ?_, ?_, ?_, ?_, ?_, ?_, ?_⟩ <;>
  (unfold State.endRamps; (try dsimp only); (repeat' split) <;> first | (with_reducible rfl) | (simp; done) | (simp_all; done))

@[simp] theorem State.settleLine_frame (s : State) :
    (State.settleLine s).pending = s.pending ∧ (State.settleLine s).localCount = s.localCount ∧
    (State.settleLine s).host.shifted = s.host.shifted ∧ (State.settleLine s).host.stayAwake = s.host.stayAwake ∧
    (State.settleLine s).startUp.record = s.startUp.record ∧ (State.settleLine s).startUp.reading = s.startUp.reading := by
  refine ⟨?_, ?_, ?_, ?_, ?_, ?_⟩ <;>
  (unfold State.settleLine; (try dsimp only); (repeat' split) <;> first | (with_reducible rfl) | (simp; done) | (simp_all; done))

@[simp] theorem State.settleBlocks_frame (s : State) :
    (State.settleBlocks s).pending = s.pending ∧ (State.settleBlocks s).localCount = s.localCount ∧
    (State.settleBlocks s).line = s.line ∧ (State.settleBlocks s).tables = s.tables ∧
    (State.settleBlocks s).member = s.member ∧ (State.settleBlocks s).note = s.note ∧
    (State.settleBlocks s).startUp = s.startUp ∧ (State.settleBlocks s).store.memory = s.store.memory ∧
    (State.settleBlocks s).store.regions = s.store.regions ∧
    (State.settleBlocks s).store.retained = s.store.retained ∧
    (State.settleBlocks s).store.retention = s.store.retention ∧
    (State.settleBlocks s).store.pinHeld = s.store.pinHeld ∧ (State.settleBlocks s).host.response = s.host.response ∧
    (State.settleBlocks s).host.shifted = s.host.shifted ∧ (State.settleBlocks s).host.stayAwake = s.host.stayAwake ∧
    (State.settleBlocks s).follower.state = s.follower.state := by
  refine ⟨?_, ?_, ?_, ?_, ?_, ?_, ?_, ?_, ?_, ?_, ?_, ?_, ?_, ?_, ?_, ?_⟩ <;>
  (unfold State.settleBlocks; (try dsimp only); (repeat' split) <;> first | (with_reducible rfl) | (simp; done) | (simp_all; done))

@[simp] theorem State.settle_frame (s : State) :
    (State.settle s).pending = s.pending ∧ (State.settle s).localCount = s.localCount ∧
    (State.settle s).host.shifted = s.host.shifted ∧ (State.settle s).host.stayAwake = s.host.stayAwake ∧
    (State.settle s).startUp.record = s.startUp.record ∧ (State.settle s).startUp.reading = s.startUp.reading := by
  refine ⟨?_, ?_, ?_, ?_, ?_, ?_⟩ <;>
  (unfold State.settle; (try dsimp only); (repeat' split) <;> first | (with_reducible rfl) | (simp; done) | (simp_all; done))

end Sys2Proof.Machine
end

