-- ==== Sys2Proof/Laws/FramesHostPort.lean ====
section
/-! SUPPORT. Frames: what each operation of the exchange leaves alone, one lemma for an operation. -/

namespace Sys2Proof.Machine

set_option maxRecDepth 20000

@[simp] theorem State.shiftOut_frame (s : State) :
    (State.shiftOut s).pending = s.pending ∧ (State.shiftOut s).localCount = s.localCount ∧
    (State.shiftOut s).line = s.line ∧ (State.shiftOut s).tables = s.tables ∧ (State.shiftOut s).member = s.member ∧
    (State.shiftOut s).follower = s.follower ∧ (State.shiftOut s).ports = s.ports ∧
    (State.shiftOut s).store = s.store ∧ (State.shiftOut s).mixer = s.mixer ∧
    (State.shiftOut s).announce = s.announce ∧ (State.shiftOut s).blend = s.blend ∧ (State.shiftOut s).call = s.call ∧
    (State.shiftOut s).note = s.note ∧ (State.shiftOut s).startUp = s.startUp ∧
    (State.shiftOut s).host.stayAwake = s.host.stayAwake := by
  refine ⟨?_, ?_, ?_, ?_, ?_, ?_, ?_, ?_, ?_, ?_, ?_, ?_, ?_, ?_, ?_⟩ <;>
  (rfl)

@[simp] theorem State.respond_frame (s : State) (code : Nat) (status : Status) (results : List Byte) :
    (State.respond s code status results).pending = s.pending ∧
    (State.respond s code status results).localCount = s.localCount ∧
    (State.respond s code status results).line = s.line ∧ (State.respond s code status results).tables = s.tables ∧
    (State.respond s code status results).member = s.member ∧
    (State.respond s code status results).follower = s.follower ∧
    (State.respond s code status results).ports = s.ports ∧ (State.respond s code status results).store = s.store ∧
    (State.respond s code status results).mixer = s.mixer ∧
    (State.respond s code status results).announce = s.announce ∧
    (State.respond s code status results).blend = s.blend ∧ (State.respond s code status results).call = s.call ∧
    (State.respond s code status results).note = s.note ∧ (State.respond s code status results).startUp = s.startUp ∧
    (State.respond s code status results).host.shifted = s.host.shifted ∧
    (State.respond s code status results).host.stayAwake = s.host.stayAwake := by
  refine ⟨?_, ?_, ?_, ?_, ?_, ?_, ?_, ?_, ?_, ?_, ?_, ?_, ?_, ?_, ?_, ?_⟩ <;>
  (rfl)

@[simp] theorem State.queueHost_frame (s : State) (m : Message) (auto : Bool) (companion : Option Binding) :
    (State.queueHost s m auto companion).1.pending = s.pending ∧
    (State.queueHost s m auto companion).1.localCount = s.localCount ∧
    (State.queueHost s m auto companion).1.tables = s.tables ∧
    (State.queueHost s m auto companion).1.member = s.member ∧
    (State.queueHost s m auto companion).1.follower = s.follower ∧
    (State.queueHost s m auto companion).1.ports = s.ports ∧ (State.queueHost s m auto companion).1.store = s.store ∧
    (State.queueHost s m auto companion).1.mixer = s.mixer ∧
    (State.queueHost s m auto companion).1.announce = s.announce ∧
    (State.queueHost s m auto companion).1.blend = s.blend ∧ (State.queueHost s m auto companion).1.call = s.call ∧
    (State.queueHost s m auto companion).1.note = s.note ∧ (State.queueHost s m auto companion).1.host = s.host ∧
    (State.queueHost s m auto companion).1.startUp = s.startUp ∧
    (State.queueHost s m auto companion).1.line.timerExpired = s.line.timerExpired ∧
    (State.queueHost s m auto companion).1.line.silentCount = s.line.silentCount ∧
    (State.queueHost s m auto companion).1.line.silent = s.line.silent ∧
    (State.queueHost s m auto companion).1.line.lead = s.line.lead ∧
    (State.queueHost s m auto companion).1.line.phase = s.line.phase ∧
    (State.queueHost s m auto companion).1.line.field = s.line.field ∧
    (State.queueHost s m auto companion).1.line.sent = s.line.sent ∧
    (State.queueHost s m auto companion).1.line.vetoing = s.line.vetoing ∧
    (State.queueHost s m auto companion).1.line.waiting = s.line.waiting ∧
    (State.queueHost s m auto companion).1.line.bindings = s.line.bindings ∧
    (State.queueHost s m auto companion).1.line.driven = s.line.driven ∧
    (State.queueHost s m auto companion).1.line.lineSamples = s.line.lineSamples ∧
    (State.queueHost s m auto companion).1.line.presenceCounter = s.line.presenceCounter ∧
    (State.queueHost s m auto companion).1.line.presenceDue = s.line.presenceDue ∧
    (State.queueHost s m auto companion).1.line.selfVeto = s.line.selfVeto := by
  refine ⟨?_, ?_, ?_, ?_, ?_, ?_, ?_, ?_, ?_, ?_, ?_, ?_, ?_, ?_, ?_, ?_, ?_, ?_, ?_, ?_, ?_, ?_, ?_, ?_, ?_, ?_, ?_, ?_, ?_⟩ <;>
  (unfold State.queueHost; (try dsimp only); (repeat' split) <;> first | (with_reducible rfl) | (simp; done) | (simp_all; done))

end Sys2Proof.Machine
end

