-- ==== Sys2Proof/Laws/FramesStationRequests.lean ====
section
/-! SUPPORT. Frames: what each operation of the requests of the areas Station, Streams, Zones and Events leaves alone, one lemma for an operation. -/

namespace Sys2Proof.Machine

set_option maxRecDepth 20000

@[simp] theorem State.leaveLine_frame (s : State) :
    (State.leaveLine s).1.pending = s.pending ∧ (State.leaveLine s).1.localCount = s.localCount ∧
    (State.leaveLine s).1.follower = s.follower ∧ (State.leaveLine s).1.ports = s.ports ∧
    (State.leaveLine s).1.store = s.store ∧ (State.leaveLine s).1.announce = s.announce ∧
    (State.leaveLine s).1.blend = s.blend ∧ (State.leaveLine s).1.line.timerExpired = s.line.timerExpired ∧
    (State.leaveLine s).1.line.silentCount = s.line.silentCount ∧ (State.leaveLine s).1.line.silent = s.line.silent ∧
    (State.leaveLine s).1.line.lead = s.line.lead ∧ (State.leaveLine s).1.line.phase = s.line.phase ∧
    (State.leaveLine s).1.line.field = s.line.field ∧ (State.leaveLine s).1.line.driven = s.line.driven ∧
    (State.leaveLine s).1.line.lineSamples = s.line.lineSamples ∧
    (State.leaveLine s).1.host.response = s.host.response ∧ (State.leaveLine s).1.host.shifted = s.host.shifted ∧
    (State.leaveLine s).1.host.stayAwake = s.host.stayAwake ∧
    (State.leaveLine s).1.startUp.record = s.startUp.record ∧
    (State.leaveLine s).1.startUp.reading = s.startUp.reading ∧
    (State.leaveLine s).1.tables.frameCount = s.tables.frameCount := by
  refine ⟨?_, ?_, ?_, ?_, ?_, ?_, ?_, ?_, ?_, ?_, ?_, ?_, ?_, ?_, ?_, ?_, ?_, ?_, ?_, ?_, ?_⟩ <;>
  (unfold State.leaveLine; (try dsimp only); (repeat' split) <;> first | (with_reducible rfl) | (simp; done) | (simp_all; done))

@[simp] theorem State.rejoin_frame (s : State) :
    (State.rejoin s).1.pending = s.pending ∧ (State.rejoin s).1.localCount = s.localCount ∧
    (State.rejoin s).1.follower = s.follower ∧ (State.rejoin s).1.ports = s.ports ∧
    (State.rejoin s).1.store = s.store ∧ (State.rejoin s).1.announce = s.announce ∧
    (State.rejoin s).1.blend = s.blend ∧ (State.rejoin s).1.line.timerExpired = s.line.timerExpired ∧
    (State.rejoin s).1.line.silentCount = s.line.silentCount ∧ (State.rejoin s).1.line.silent = s.line.silent ∧
    (State.rejoin s).1.line.lead = s.line.lead ∧ (State.rejoin s).1.line.phase = s.line.phase ∧
    (State.rejoin s).1.line.field = s.line.field ∧ (State.rejoin s).1.line.driven = s.line.driven ∧
    (State.rejoin s).1.line.lineSamples = s.line.lineSamples ∧ (State.rejoin s).1.host.response = s.host.response ∧
    (State.rejoin s).1.host.shifted = s.host.shifted ∧ (State.rejoin s).1.host.stayAwake = s.host.stayAwake ∧
    (State.rejoin s).1.startUp.record = s.startUp.record ∧ (State.rejoin s).1.startUp.reading = s.startUp.reading ∧
    (State.rejoin s).1.tables.frameCount = s.tables.frameCount := by
  refine ⟨?_, ?_, ?_, ?_, ?_, ?_, ?_, ?_, ?_, ?_, ?_, ?_, ?_, ?_, ?_, ?_, ?_, ?_, ?_, ?_, ?_⟩ <;>
  (unfold State.rejoin; (try dsimp only); (repeat' split) <;> first | (with_reducible rfl) | (simp; done) | (simp_all; done))

@[simp] theorem State.wakeRequest_frame (s : State) (flag : Byte) :
    (State.wakeRequest s flag).host.shifted = s.host.shifted := by
  (unfold State.wakeRequest; (try dsimp only); (repeat' split) <;> first | (with_reducible rfl) | (simp; done) | (simp_all; done))

@[simp] theorem State.offerOwn_frame (s : State) (index kind channels cls : Byte) (b : Binding) :
    (State.offerOwn s index kind channels cls b).1.pending = s.pending ∧
    (State.offerOwn s index kind channels cls b).1.localCount = s.localCount ∧
    (State.offerOwn s index kind channels cls b).1.tables = s.tables ∧
    (State.offerOwn s index kind channels cls b).1.member = s.member ∧
    (State.offerOwn s index kind channels cls b).1.follower = s.follower ∧
    (State.offerOwn s index kind channels cls b).1.ports = s.ports ∧
    (State.offerOwn s index kind channels cls b).1.store = s.store ∧
    (State.offerOwn s index kind channels cls b).1.mixer = s.mixer ∧
    (State.offerOwn s index kind channels cls b).1.announce = s.announce ∧
    (State.offerOwn s index kind channels cls b).1.blend = s.blend ∧
    (State.offerOwn s index kind channels cls b).1.call = s.call ∧
    (State.offerOwn s index kind channels cls b).1.note = s.note ∧
    (State.offerOwn s index kind channels cls b).1.host = s.host ∧
    (State.offerOwn s index kind channels cls b).1.startUp = s.startUp ∧
    (State.offerOwn s index kind channels cls b).1.line.timerExpired = s.line.timerExpired ∧
    (State.offerOwn s index kind channels cls b).1.line.silentCount = s.line.silentCount ∧
    (State.offerOwn s index kind channels cls b).1.line.silent = s.line.silent ∧
    (State.offerOwn s index kind channels cls b).1.line.lead = s.line.lead ∧
    (State.offerOwn s index kind channels cls b).1.line.phase = s.line.phase ∧
    (State.offerOwn s index kind channels cls b).1.line.field = s.line.field ∧
    (State.offerOwn s index kind channels cls b).1.line.sent = s.line.sent ∧
    (State.offerOwn s index kind channels cls b).1.line.vetoing = s.line.vetoing ∧
    (State.offerOwn s index kind channels cls b).1.line.waiting = s.line.waiting ∧
    (State.offerOwn s index kind channels cls b).1.line.bindings = s.line.bindings ∧
    (State.offerOwn s index kind channels cls b).1.line.driven = s.line.driven ∧
    (State.offerOwn s index kind channels cls b).1.line.lineSamples = s.line.lineSamples ∧
    (State.offerOwn s index kind channels cls b).1.line.presenceCounter = s.line.presenceCounter ∧
    (State.offerOwn s index kind channels cls b).1.line.presenceDue = s.line.presenceDue ∧
    (State.offerOwn s index kind channels cls b).1.line.selfVeto = s.line.selfVeto := by
  refine ⟨?_, ?_, ?_, ?_, ?_, ?_, ?_, ?_, ?_, ?_, ?_, ?_, ?_, ?_, ?_, ?_, ?_, ?_, ?_, ?_, ?_, ?_, ?_, ?_, ?_, ?_, ?_, ?_, ?_⟩ <;>
  (unfold State.offerOwn; (try dsimp only); (repeat' split) <;> first | (with_reducible rfl) | (simp; done) | (simp_all; done))

@[simp] theorem State.carryOwn_frame (s : State) (index first : Byte) :
    (State.carryOwn s index first).1.pending = s.pending ∧
    (State.carryOwn s index first).1.localCount = s.localCount ∧ (State.carryOwn s index first).1.tables = s.tables ∧
    (State.carryOwn s index first).1.member = s.member ∧ (State.carryOwn s index first).1.follower = s.follower ∧
    (State.carryOwn s index first).1.ports = s.ports ∧ (State.carryOwn s index first).1.store = s.store ∧
    (State.carryOwn s index first).1.mixer = s.mixer ∧ (State.carryOwn s index first).1.announce = s.announce ∧
    (State.carryOwn s index first).1.blend = s.blend ∧ (State.carryOwn s index first).1.call = s.call ∧
    (State.carryOwn s index first).1.note = s.note ∧ (State.carryOwn s index first).1.host = s.host ∧
    (State.carryOwn s index first).1.startUp = s.startUp ∧
    (State.carryOwn s index first).1.line.timerExpired = s.line.timerExpired ∧
    (State.carryOwn s index first).1.line.silentCount = s.line.silentCount ∧
    (State.carryOwn s index first).1.line.silent = s.line.silent ∧
    (State.carryOwn s index first).1.line.lead = s.line.lead ∧
    (State.carryOwn s index first).1.line.phase = s.line.phase ∧
    (State.carryOwn s index first).1.line.field = s.line.field ∧
    (State.carryOwn s index first).1.line.sent = s.line.sent ∧
    (State.carryOwn s index first).1.line.vetoing = s.line.vetoing ∧
    (State.carryOwn s index first).1.line.waiting = s.line.waiting ∧
    (State.carryOwn s index first).1.line.bindings = s.line.bindings ∧
    (State.carryOwn s index first).1.line.driven = s.line.driven ∧
    (State.carryOwn s index first).1.line.lineSamples = s.line.lineSamples ∧
    (State.carryOwn s index first).1.line.presenceCounter = s.line.presenceCounter ∧
    (State.carryOwn s index first).1.line.presenceDue = s.line.presenceDue ∧
    (State.carryOwn s index first).1.line.selfVeto = s.line.selfVeto := by
  refine ⟨?_, ?_, ?_, ?_, ?_, ?_, ?_, ?_, ?_, ?_, ?_, ?_, ?_, ?_, ?_, ?_, ?_, ?_, ?_, ?_, ?_, ?_, ?_, ?_, ?_, ?_, ?_, ?_, ?_⟩ <;>
  (unfold State.carryOwn; (try dsimp only); (repeat' split) <;> first | (with_reducible rfl) | (simp; done) | (simp_all; done))

@[simp] theorem State.readZone_frame (s : State) (zone : Byte) :
    (State.readZone s zone).1.pending = s.pending ∧ (State.readZone s zone).1.localCount = s.localCount ∧
    (State.readZone s zone).1.line = s.line ∧ (State.readZone s zone).1.tables = s.tables ∧
    (State.readZone s zone).1.member = s.member ∧ (State.readZone s zone).1.follower = s.follower ∧
    (State.readZone s zone).1.ports = s.ports ∧ (State.readZone s zone).1.store = s.store ∧
    (State.readZone s zone).1.mixer = s.mixer ∧ (State.readZone s zone).1.announce = s.announce ∧
    (State.readZone s zone).1.blend = s.blend ∧ (State.readZone s zone).1.call = s.call ∧
    (State.readZone s zone).1.note = s.note ∧ (State.readZone s zone).1.host = s.host ∧
    (State.readZone s zone).1.startUp = s.startUp := by
  refine ⟨?_, ?_, ?_, ?_, ?_, ?_, ?_, ?_, ?_, ?_, ?_, ?_, ?_, ?_, ?_⟩ <;>
  (unfold State.readZone; (try dsimp only); (repeat' split) <;> first | (with_reducible rfl) | (simp; done) | (simp_all; done))

@[simp] theorem State.readEvents_frame (s : State) :
    (State.readEvents s).1.pending = s.pending ∧ (State.readEvents s).1.localCount = s.localCount ∧
    (State.readEvents s).1.line = s.line ∧ (State.readEvents s).1.tables = s.tables ∧
    (State.readEvents s).1.member = s.member ∧ (State.readEvents s).1.follower = s.follower ∧
    (State.readEvents s).1.ports = s.ports ∧ (State.readEvents s).1.store = s.store ∧
    (State.readEvents s).1.mixer = s.mixer ∧ (State.readEvents s).1.announce = s.announce ∧
    (State.readEvents s).1.blend = s.blend ∧ (State.readEvents s).1.call = s.call ∧
    (State.readEvents s).1.note = s.note ∧ (State.readEvents s).1.startUp = s.startUp ∧
    (State.readEvents s).1.host.response = s.host.response ∧ (State.readEvents s).1.host.shifted = s.host.shifted ∧
    (State.readEvents s).1.host.stayAwake = s.host.stayAwake := by
  refine ⟨?_, ?_, ?_, ?_, ?_, ?_, ?_, ?_, ?_, ?_, ?_, ?_, ?_, ?_, ?_, ?_, ?_⟩ <;>
  (unfold State.readEvents; (try dsimp only); (repeat' split) <;> first | (with_reducible rfl) | (simp; done) | (simp_all; done))

@[simp] theorem State.refuseTransfer_frame (s : State) (bytes : List Byte) (status : Status) :
    (State.refuseTransfer s bytes status).pending = s.pending ∧ (State.refuseTransfer s bytes status).localCount = s.localCount ∧
    (State.refuseTransfer s bytes status).line = s.line ∧ (State.refuseTransfer s bytes status).tables = s.tables ∧
    (State.refuseTransfer s bytes status).member = s.member ∧ (State.refuseTransfer s bytes status).follower = s.follower ∧
    (State.refuseTransfer s bytes status).ports = s.ports ∧ (State.refuseTransfer s bytes status).store = s.store ∧
    (State.refuseTransfer s bytes status).mixer = s.mixer ∧ (State.refuseTransfer s bytes status).announce = s.announce ∧
    (State.refuseTransfer s bytes status).blend = s.blend ∧ (State.refuseTransfer s bytes status).call = s.call ∧
    (State.refuseTransfer s bytes status).note = s.note ∧ (State.refuseTransfer s bytes status).startUp = s.startUp ∧
    (State.refuseTransfer s bytes status).host.stayAwake = s.host.stayAwake := by
  refine ⟨?_, ?_, ?_, ?_, ?_, ?_, ?_, ?_, ?_, ?_, ?_, ?_, ?_, ?_, ?_⟩ <;>
  (unfold State.refuseTransfer; (try dsimp only); (repeat' split) <;> first | (with_reducible rfl) | (simp; done) | (simp_all; done))

end Sys2Proof.Machine
end

