-- ==== Sys2Proof/Laws/FramesBlockRequests.lean ====
section
/-! SUPPORT. Frames: what each operation of the requests of the areas Clips, Radio, Calls and Notes leaves alone, one lemma for an operation. -/

namespace Sys2Proof.Machine

set_option maxRecDepth 20000

@[simp] theorem State.clipLoadBegin_frame (s : State) (i offset length : Nat) :
    (State.clipLoadBegin s i offset length).1.pending = s.pending ∧
    (State.clipLoadBegin s i offset length).1.localCount = s.localCount ∧
    (State.clipLoadBegin s i offset length).1.line = s.line ∧
    (State.clipLoadBegin s i offset length).1.tables = s.tables ∧
    (State.clipLoadBegin s i offset length).1.member = s.member ∧
    (State.clipLoadBegin s i offset length).1.follower = s.follower ∧
    (State.clipLoadBegin s i offset length).1.ports = s.ports ∧
    (State.clipLoadBegin s i offset length).1.store = s.store ∧
    (State.clipLoadBegin s i offset length).1.mixer = s.mixer ∧
    (State.clipLoadBegin s i offset length).1.blend = s.blend ∧
    (State.clipLoadBegin s i offset length).1.call = s.call ∧
    (State.clipLoadBegin s i offset length).1.note = s.note ∧
    (State.clipLoadBegin s i offset length).1.host = s.host ∧
    (State.clipLoadBegin s i offset length).1.startUp = s.startUp ∧
    (State.clipLoadBegin s i offset length).1.announce.channels = s.announce.channels ∧
    (State.clipLoadBegin s i offset length).1.announce.plays = s.announce.plays := by
  refine ⟨?_, ?_, ?_, ?_, ?_, ?_, ?_, ?_, ?_, ?_, ?_, ?_, ?_, ?_, ?_, ?_⟩ <;>
  (unfold State.clipLoadBegin; (try dsimp only); (repeat' split) <;> first | (with_reducible rfl) | (simp; done) | (simp_all; done))

@[simp] theorem State.clipData_frame (s : State) (i : Nat) (samples : List Sample) :
    (State.clipData s i samples).1.pending = s.pending ∧ (State.clipData s i samples).1.localCount = s.localCount ∧
    (State.clipData s i samples).1.line = s.line ∧ (State.clipData s i samples).1.tables = s.tables ∧
    (State.clipData s i samples).1.member = s.member ∧ (State.clipData s i samples).1.follower = s.follower ∧
    (State.clipData s i samples).1.ports = s.ports ∧ (State.clipData s i samples).1.note = s.note ∧
    (State.clipData s i samples).1.startUp = s.startUp ∧
    (State.clipData s i samples).1.store.memory = s.store.memory ∧
    (State.clipData s i samples).1.store.regions = s.store.regions ∧
    (State.clipData s i samples).1.store.retained = s.store.retained ∧
    (State.clipData s i samples).1.store.retention = s.store.retention ∧
    (State.clipData s i samples).1.store.pinHeld = s.store.pinHeld ∧
    (State.clipData s i samples).1.host.response = s.host.response ∧
    (State.clipData s i samples).1.host.shifted = s.host.shifted ∧
    (State.clipData s i samples).1.host.stayAwake = s.host.stayAwake ∧
    (State.clipData s i samples).1.announce.channels = s.announce.channels := by
  refine ⟨?_, ?_, ?_, ?_, ?_, ?_, ?_, ?_, ?_, ?_, ?_, ?_, ?_, ?_, ?_, ?_, ?_, ?_⟩ <;>
  (unfold State.clipData; (try dsimp only); (repeat' split) <;> first | (with_reducible rfl) | (simp; done) | (simp_all; done))

@[simp] theorem State.clipLoadEnd_frame (s : State) (i : Nat) :
    (State.clipLoadEnd s i).1.pending = s.pending ∧ (State.clipLoadEnd s i).1.localCount = s.localCount ∧
    (State.clipLoadEnd s i).1.line = s.line ∧ (State.clipLoadEnd s i).1.tables = s.tables ∧
    (State.clipLoadEnd s i).1.member = s.member ∧ (State.clipLoadEnd s i).1.follower = s.follower ∧
    (State.clipLoadEnd s i).1.ports = s.ports ∧ (State.clipLoadEnd s i).1.store = s.store ∧
    (State.clipLoadEnd s i).1.mixer = s.mixer ∧ (State.clipLoadEnd s i).1.blend = s.blend ∧
    (State.clipLoadEnd s i).1.call = s.call ∧ (State.clipLoadEnd s i).1.note = s.note ∧
    (State.clipLoadEnd s i).1.host = s.host ∧ (State.clipLoadEnd s i).1.startUp = s.startUp ∧
    (State.clipLoadEnd s i).1.announce.channels = s.announce.channels ∧
    (State.clipLoadEnd s i).1.announce.plays = s.announce.plays := by
  refine ⟨?_, ?_, ?_, ?_, ?_, ?_, ?_, ?_, ?_, ?_, ?_, ?_, ?_, ?_, ?_, ?_⟩ <;>
  (unfold State.clipLoadEnd; (try dsimp only); (repeat' split) <;> first | (with_reducible rfl) | (simp; done) | (simp_all; done))

@[simp] theorem State.clipLock_frame (s : State) (i : Nat) :
    (State.clipLock s i).1.pending = s.pending ∧ (State.clipLock s i).1.localCount = s.localCount ∧
    (State.clipLock s i).1.line = s.line ∧ (State.clipLock s i).1.tables = s.tables ∧
    (State.clipLock s i).1.member = s.member ∧ (State.clipLock s i).1.follower = s.follower ∧
    (State.clipLock s i).1.ports = s.ports ∧ (State.clipLock s i).1.store = s.store ∧
    (State.clipLock s i).1.mixer = s.mixer ∧ (State.clipLock s i).1.blend = s.blend ∧
    (State.clipLock s i).1.call = s.call ∧ (State.clipLock s i).1.note = s.note ∧
    (State.clipLock s i).1.host = s.host ∧ (State.clipLock s i).1.startUp = s.startUp ∧
    (State.clipLock s i).1.announce.channels = s.announce.channels ∧
    (State.clipLock s i).1.announce.plays = s.announce.plays := by
  refine ⟨?_, ?_, ?_, ?_, ?_, ?_, ?_, ?_, ?_, ?_, ?_, ?_, ?_, ?_, ?_, ?_⟩ <;>
  (unfold State.clipLock; (try dsimp only); (repeat' split) <;> first | (with_reducible rfl) | (simp; done) | (simp_all; done))

@[simp] theorem State.noteRequest_frame (s : State) (target total : Nat) (data : List Byte) :
    (State.noteRequest s target total data).1.pending = s.pending ∧
    (State.noteRequest s target total data).1.localCount = s.localCount ∧
    (State.noteRequest s target total data).1.tables = s.tables ∧
    (State.noteRequest s target total data).1.member = s.member ∧
    (State.noteRequest s target total data).1.follower = s.follower ∧
    (State.noteRequest s target total data).1.ports = s.ports ∧
    (State.noteRequest s target total data).1.store = s.store ∧
    (State.noteRequest s target total data).1.mixer = s.mixer ∧
    (State.noteRequest s target total data).1.announce = s.announce ∧
    (State.noteRequest s target total data).1.blend = s.blend ∧
    (State.noteRequest s target total data).1.host = s.host ∧
    (State.noteRequest s target total data).1.startUp = s.startUp ∧
    (State.noteRequest s target total data).1.line.timerExpired = s.line.timerExpired ∧
    (State.noteRequest s target total data).1.line.silentCount = s.line.silentCount ∧
    (State.noteRequest s target total data).1.line.silent = s.line.silent ∧
    (State.noteRequest s target total data).1.line.lead = s.line.lead ∧
    (State.noteRequest s target total data).1.line.phase = s.line.phase ∧
    (State.noteRequest s target total data).1.line.field = s.line.field ∧
    (State.noteRequest s target total data).1.line.sent = s.line.sent ∧
    (State.noteRequest s target total data).1.line.vetoing = s.line.vetoing ∧
    (State.noteRequest s target total data).1.line.bindings = s.line.bindings ∧
    (State.noteRequest s target total data).1.line.driven = s.line.driven ∧
    (State.noteRequest s target total data).1.line.lineSamples = s.line.lineSamples ∧
    (State.noteRequest s target total data).1.line.presenceCounter = s.line.presenceCounter ∧
    (State.noteRequest s target total data).1.line.presenceDue = s.line.presenceDue ∧
    (State.noteRequest s target total data).1.line.selfVeto = s.line.selfVeto ∧
    (State.noteRequest s target total data).1.note.box = s.note.box := by
  refine ⟨?_, ?_, ?_, ?_, ?_, ?_, ?_, ?_, ?_, ?_, ?_, ?_, ?_, ?_, ?_, ?_, ?_, ?_, ?_, ?_, ?_, ?_, ?_, ?_, ?_, ?_, ?_⟩ <;>
  (unfold State.noteRequest; (try dsimp only); (repeat' split) <;> first | (with_reducible rfl) | (simp; done) | (simp_all; done))

@[simp] theorem State.noteRead_frame (s : State) (offset count : Nat) :
    (State.noteRead s offset count).1.pending = s.pending ∧
    (State.noteRead s offset count).1.localCount = s.localCount ∧ (State.noteRead s offset count).1.line = s.line ∧
    (State.noteRead s offset count).1.tables = s.tables ∧ (State.noteRead s offset count).1.member = s.member ∧
    (State.noteRead s offset count).1.follower = s.follower ∧ (State.noteRead s offset count).1.ports = s.ports ∧
    (State.noteRead s offset count).1.store = s.store ∧ (State.noteRead s offset count).1.mixer = s.mixer ∧
    (State.noteRead s offset count).1.announce = s.announce ∧ (State.noteRead s offset count).1.blend = s.blend ∧
    (State.noteRead s offset count).1.call = s.call ∧ (State.noteRead s offset count).1.host = s.host ∧
    (State.noteRead s offset count).1.startUp = s.startUp ∧
    (State.noteRead s offset count).1.note.outbound = s.note.outbound := by
  refine ⟨?_, ?_, ?_, ?_, ?_, ?_, ?_, ?_, ?_, ?_, ?_, ?_, ?_, ?_, ?_⟩ <;>
  (unfold State.noteRead; (try dsimp only); (repeat' split) <;> first | (with_reducible rfl) | (simp; done) | (simp_all; done))

end Sys2Proof.Machine
end

