-- ==== Sys2Proof/Laws/Transfers.lean ====
section
/-! SUPPORT. What a transfer by its bytes comes to: a refusal, or what another command does. -/

namespace Sys2Proof.Machine

/-- Whether a command is a transfer by its bytes. -/
def isTransfer : Instr → Bool
  | .badTransfer _ => true
  | _ => false

/-- A request taken by its bytes does what its own command does; anything else reads. -/
theorem takeRequest_exec (i : Instr) (s : State) :
    ∃ c, isTransfer c = false ∧ isReset c = false ∧ takeRequest i s = exec c s := by
  cases i
  case getInfo a => exact ⟨.getInfo a, rfl, rfl, rfl⟩
  case getStatus => exact ⟨.getStatus, rfl, rfl, rfl⟩
  case leaveLine => exact ⟨.leaveLine, rfl, rfl, rfl⟩
  case rejoin => exact ⟨.rejoin, rfl, rfl, rfl⟩
  case stayAwake a => exact ⟨.stayAwake a, rfl, rfl, rfl⟩
  case wake a => exact ⟨.wake a, rfl, rfl, rfl⟩
  case offerStream a b c d e f => exact ⟨.offerStream a b c d e f, rfl, rfl, rfl⟩
  case carryStream a b => exact ⟨.carryStream a b, rfl, rfl, rfl⟩
  case dropStream a => exact ⟨.dropStream a, rfl, rfl, rfl⟩
  case withdrawStream a => exact ⟨.withdrawStream a, rfl, rfl, rfl⟩
  case readDirectory a b => exact ⟨.readDirectory a b, rfl, rfl, rfl⟩
  case readSlots => exact ⟨.readSlots, rfl, rfl, rfl⟩
  case route a b c d => exact ⟨.route a b c d, rfl, rfl, rfl⟩
  case readZone a => exact ⟨.readZone a, rfl, rfl, rfl⟩
  case clipLoadBegin a b c => exact ⟨.clipLoadBegin a b c, rfl, rfl, rfl⟩
  case clipData a b => exact ⟨.clipData a b, rfl, rfl, rfl⟩
  case clipLoadEnd a => exact ⟨.clipLoadEnd a, rfl, rfl, rfl⟩
  case clipLock a => exact ⟨.clipLock a, rfl, rfl, rfl⟩
  case clipStatus a b => exact ⟨.clipStatus a b, rfl, rfl, rfl⟩
  case play a b c => exact ⟨.play a b c, rfl, rfl, rfl⟩
  case cadenceSet a b => exact ⟨.cadenceSet a b, rfl, rfl, rfl⟩
  case cadenceStart a => exact ⟨.cadenceStart a, rfl, rfl, rfl⟩
  case cadenceStop a => exact ⟨.cadenceStop a, rfl, rfl, rfl⟩
  case readCadence a => exact ⟨.readCadence a, rfl, rfl, rfl⟩
  case blendEnable => exact ⟨.blendEnable, rfl, rfl, rfl⟩
  case blendDisable => exact ⟨.blendDisable, rfl, rfl, rfl⟩
  case tuned => exact ⟨.tuned, rfl, rfl, rfl⟩
  case readBlend => exact ⟨.readBlend, rfl, rfl, rfl⟩
  case callRing a b c => exact ⟨.callRing a b c, rfl, rfl, rfl⟩
  case callAnswer a b c d => exact ⟨.callAnswer a b c d, rfl, rfl, rfl⟩
  case callHold a => exact ⟨.callHold a, rfl, rfl, rfl⟩
  case callResume a => exact ⟨.callResume a, rfl, rfl, rfl⟩
  case callZones a b => exact ⟨.callZones a b, rfl, rfl, rfl⟩
  case callEnd a => exact ⟨.callEnd a, rfl, rfl, rfl⟩
  case readCalls => exact ⟨.readCalls, rfl, rfl, rfl⟩
  case readCanceller => exact ⟨.readCanceller, rfl, rfl, rfl⟩
  case noteSend a b c => exact ⟨.noteSend a b c, rfl, rfl, rfl⟩
  case noteRead a b => exact ⟨.noteRead a b, rfl, rfl, rfl⟩
  case noteStatus => exact ⟨.noteStatus, rfl, rfl, rfl⟩
  case readEvents => exact ⟨.readEvents, rfl, rfl, rfl⟩
  all_goals exact ⟨.transferForReading, rfl, rfl, rfl⟩

/-- A transfer by its bytes is refused, or does what another command does, which is no reset. -/
theorem badTransfer_cases (bytes : List Byte) (s : State) :
    (∃ status, judgeTransfer bytes = some status
      ∧ exec (.badTransfer bytes) s = .next (s.act (fun t => t.refuseTransfer bytes status)))
    ∨ (judgeTransfer bytes = none ∧ ∃ c, isTransfer c = false ∧ isReset c = false
      ∧ exec (.badTransfer bytes) s = exec c s) := by
  cases hj : judgeTransfer bytes with
  | some status =>
    refine .inl ⟨status, rfl, ?_⟩
    show execBadTransfer bytes s = _
    unfold execBadTransfer
    rw [hj]
  | none =>
    refine .inr ⟨rfl, ?_⟩
    show ∃ c, _ ∧ _ ∧ execBadTransfer bytes s = _
    unfold execBadTransfer
    rw [hj]
    cases transferRequest bytes with
    | none => exact ⟨.transferForReading, rfl, rfl, rfl⟩
    | some i => exact takeRequest_exec i s

end Sys2Proof.Machine
end

