-- ==== Sys2Proof/Laws/Kept.lean ====
section
/-! SUPPORT. What a property of states must be kept by, for every step to keep it: one field for an operation, and the theorem that a
property kept by each is kept by every step. -/

namespace Sys2Proof.Machine

/-- A property that every operation of the block keeps. -/
structure Kept (P : State → Prop) : Prop where
  lineSilent : ∀ (s : State), P s → P s.lineSilent
  enterDormant : ∀ (s : State), P s → P s.enterDormant
  selfVetoDue : ∀ (s : State), P s → P s.selfVetoDue
  listenEnd : ∀ (s : State), P s → P s.listenEnd
  agedOut : ∀ (s : State) (n : Nat), P s → P (s.agedOut n)
  freeSlot : ∀ (s : State) (n : Nat), P s → P (s.freeSlot n)
  readyEntries : ∀ (s : State), P s → P s.readyEntries
  presenceFallsDue : ∀ (s : State), P s → P s.presenceFallsDue
  silenceEnded : ∀ (s : State), P s → P s.silenceEnded
  noteStall : ∀ (s : State), P s → P s.noteStall
  noteExpiry : ∀ (s : State), P s → P s.noteExpiry
  uplinkRetry : ∀ (s : State), P s → P s.uplinkRetry
  carryRetry : ∀ (s : State) (n : Nat), P s → P (s.carryRetry n)
  arrivalGap : ∀ (s : State), P s → P s.arrivalGap
  qualityBlock : ∀ (s : State), P s → P s.qualityBlock
  endGateRamp : ∀ (s : State), P s → P s.endGateRamp
  endEntryRamp : ∀ (s : State) (n : Nat) (m : Nat), P s → P (s.endEntryRamp n m)
  endPositionRamp : ∀ (s : State) (n : Nat), P s → P (s.endPositionRamp n)
  refreshDebtRise : ∀ (s : State), P s → P s.refreshDebtRise
  filled : ∀ (s : State), P s → P s.filled
  primingDone : ∀ (s : State), P s → P s.primingDone
  correlationResult : ∀ (s : State), P s → P s.correlationResult
  crossfadeEnd : ∀ (s : State), P s → P s.crossfadeEnd
  toDigitalComplete : ∀ (s : State), P s → P s.toDigitalComplete
  toAnalogueComplete : ∀ (s : State), P s → P s.toAnalogueComplete
  cancellerBlock : ∀ (s : State), P s → P s.cancellerBlock
  freezeEnd : ∀ (s : State), P s → P s.freezeEnd
  referenceLost : ∀ (s : State), P s → P s.referenceLost
  triggerFollowers : ∀ (s : State) (n : Nat), P s → P (s.triggerFollowers n)
  countRepetition : ∀ (s : State) (n : Nat), P s → P (s.countRepetition n)
  fire : ∀ (s : State) (n : Nat), P s → P (s.fire n)
  playCompleted : ∀ (s : State) (n : Nat), P s → P (s.playCompleted n)
  recordRead : ∀ (s : State) (read : RecordRead), P s → P (s.recordRead read)
  startSeen : ∀ (s : State) (b : Bool), P s → P (s.startSeen b)
  leadStart : ∀ (s : State), P s → P s.leadStart
  expireTimer : ∀ (s : State), P s → P s.expireTimer
  missFurther : ∀ (s : State), P s → P s.missFurther
  controlField : ∀ (s : State) (others : Option (BitVec 187)) (b : Bool), P s → P (s.controlField others b)
  audioSlots : ∀ (s : State) (reads : List SlotRead), P s → P (s.audioSlots reads)
  tailEnd : ∀ (s : State) (b : Bool), P s → P (s.tailEnd b)
  messageEffect : ∀ (s : State) (n : Nat) (m : Message), P s → P (s.messageEffect n m)
  localSample : ∀ (s : State) (inputs : InputSamples), P s → P (s.localSample inputs)
  decoderArrives : ∀ (s : State) (sample : Stereo) (quality : Quality), P s → P (s.decoderArrives sample quality)
  burstComplete : ∀ (s : State) (n : Nat), P s → P (s.burstComplete n)
  completeOpen : ∀ (s : State) (n : Nat), P s → P { s with store := s.store.completeOpen n }
  completeClose : ∀ (s : State) (n : Nat), P s → P { s with store := s.store.completeClose n }
  completeRefresh : ∀ (s : State) (n : Nat), P s → P { s with store := s.store.completeRefresh n }
  keepUpStart : ∀ (s : State), P s → P s.keepUpStart
  host : ∀ (s : State) (h : HostPort), P s → P { s with host := h }
  noteBox : ∀ (s : State) (b : NoteBox), P s → P { s with note.box := b }
  rest : ∀ (s : State) (queue : List Instr), P s → P (s.withPending queue)
  enterHost : ∀ (s : State) (m : Message) (auto : Bool) (b : Option Binding), s.queueFull = false → P s → P (s.enter (newEntry m .host auto b))
  leaveLine : ∀ (s : State), P s → P s.leaveLine.1
  goToListening : ∀ (s : State), P s → P (s.goTo .listening .rejoin)
  wake : ∀ (s : State) (cause : Cause) (b : Bool), P s → P (s.wake cause b)
  judgeRoute : ∀ (s : State) (z x a l : Nat), P s → P (s.judgeRoute z x a l).1
  clipLoadBegin : ∀ (s : State) (i offset length : Nat), P s → P (s.clipLoadBegin i offset length).1
  clipData : ∀ (s : State) (i : Nat) (samples : List Sample), P s → P (s.clipData i samples).1
  clipLoadEnd : ∀ (s : State) (i : Nat), P s → P (s.clipLoadEnd i).1
  clipLock : ∀ (s : State) (i : Nat), P s → P (s.clipLock i).1
  startPlay : ∀ (s u : State) (clip level repeats place : Nat), s.startPlay clip level repeats .host = some (place, u) → P s → P u
  cadenceSet : ∀ (s : State) (c : Nat) (setup : CadenceSetup), P s → P (s.cadenceSet c setup).1
  cadenceStart : ∀ (s : State) (c : Nat), P s → P (s.cadenceStart c).1
  cadenceStop : ∀ (s : State) (c : Nat), P s → P (s.cadenceStop c).1
  blendEnable : ∀ (s : State), P s → P s.blendEnable.1
  blendDisable : ∀ (s : State), P s → P s.blendDisable
  tuned : ∀ (s : State), P s → P s.tuned.1
  beginNote : ∀ (s : State) (target total : Nat) (data : List Byte), P s → P (s.beginNote target total data)
  powerOn : ∀ (s : State), P s → P s.powerOn
  assertPin : ∀ (s : State), P s → P s.assertPin
  resetLine : ∀ (s : State), P s → P s.resetLine

theorem forEach_holds {P : State → Prop} (n : Nat) (f : Nat → State → State) (h : ∀ i s, P s → P (f i s)) (s : State)
    (hs : P s) : P (forEach n f s) := by
  unfold forEach
  generalize List.range n = l
  induction l generalizing s with
  | nil => exact hs
  | cons a l ih => exact ih _ (h a s hs)

theorem foldl_holds {P : State → Prop} {α : Type} (f : State → α → State) (h : ∀ s x, P s → P (f s x)) :
    ∀ (l : List α) (s : State), P s → P (l.foldl f s)
  | [], _, hs => hs
  | x :: l, s, hs => foldl_holds f h l _ (h s x hs)

theorem Kept.endRamps {P : State → Prop} (k : Kept P) (s : State) (z : Nat) (h : P s) : P (s.endRamps z) :=
  k.endPositionRamp _ _ (foldl_holds _ (fun s e hs => k.endEntryRamp s z e.stream hs) _ _ h)

theorem Kept.endRamp {P : State → Prop} (k : Kept P) (s : State) (z : Nat) (r : RampOf) (h : P s) : P (s.endRamp z r) := by
  cases r
  · exact k.endEntryRamp _ _ _ h
  · exact k.endPositionRamp _ _ h

theorem Kept.fireFollowers {P : State → Prop} (k : Kept P) (s : State) (c : Nat) (h : P s) : P (s.fireFollowers c) :=
  foldl_holds _ (fun s c hs => k.fire s c hs) _ _ h

theorem Kept.followerFires {P : State → Prop} (k : Kept P) (s : State) (c : Nat) (h : P s) : P (s.followerFires c) := by
  unfold State.followerFires
  (repeat' split) <;> first | exact h | exact k.fire _ _ h

theorem Kept.cadenceExpiry {P : State → Prop} (k : Kept P) (s : State) (c : Nat) (h : P s) : P (s.cadenceExpiry c) := by
  unfold State.cadenceExpiry
  split
  · exact k.countRepetition _ _ (k.fireFollowers _ _ (k.triggerFollowers _ _ h))
  · exact h

/-- What is due keeps what every operation keeps. -/
theorem Kept.settle {P : State → Prop} (k : Kept P) (s : State) (h : P s) : P s.settle := by
  have line : P s.settleLine := by
    unfold State.settleLine
    refine k.enterDormant _ (k.lineSilent _ (k.listenEnd _ (k.selfVetoDue _ (k.silenceEnded _ ?_))))
    refine forEach_holds 4 _ (fun i s h => k.carryRetry s i h) _ ?_
    refine k.uplinkRetry _ (k.noteExpiry _ (k.noteStall _ (k.presenceFallsDue _ (k.readyEntries _ ?_))))
    exact forEach_holds 40 _ (fun i s h => k.freeSlot s i h) _ (forEach_holds 16 _ (fun i s h => k.agedOut s i h) _ h)
  show P s.settleLine.settleBlocks
  unfold State.settleBlocks
  refine k.freezeEnd _ (k.cancellerBlock _ (k.referenceLost _ (k.arrivalGap _ (k.qualityBlock _ ?_))))
  refine k.toAnalogueComplete _ (k.toDigitalComplete _ (k.crossfadeEnd _ (k.correlationResult _ (k.primingDone _ (k.filled _ ?_)))))
  refine forEach_holds 4 _ (fun z s h => k.endRamps s z h) _ (k.endGateRamp _ ?_)
  refine forEach_holds 4 _ (fun p s h => k.playCompleted s p h) _ ?_
  unfold State.cadencePass
  exact foldl_holds _ (fun s c hs => k.countRepetition s c hs) _ _ (forEach_holds 8 _ (fun c s h => k.fire s c h) _
    (foldl_holds _ (fun s c hs => k.triggerFollowers s c hs) _ _ (k.refreshDebtRise _ line)))

theorem Kept.act {P : State → Prop} (k : Kept P) (s : State) (f : State → State) (hf : ∀ t, P t → P (f t)) (h : P s) :
    P (s.act f) := by
  unfold State.act
  split
  · exact h
  · exact k.keepUpStart _ (hf _ (k.settle _ h))

theorem Kept.fallDue {P : State → Prop} (k : Kept P) (s : State) (f : State → State) (hf : ∀ t, P t → P (f t)) (h : P s) :
    P (s.fallDue f) := by
  unfold State.fallDue
  split
  · exact h
  · exact k.keepUpStart _ (hf _ h)

theorem Kept.exchange {P : State → Prop} (k : Kept P) (t : State) (code : Nat) (f : State → Answer)
    (hf : ∀ u, P u → P (f u).1) (h : P t) : P (t.exchange code f) := by
  have h1 : P t.shiftOut := k.host t _ h
  have h2 : P (t.shiftOut.deal code f).1 := by
    unfold State.deal
    split
    · exact h1
    · split
      · exact hf _ h1
      · exact h1
    · exact hf _ h1
  exact k.host _ _ h2

theorem Kept.hostCommand {P : State → Prop} (k : Kept P) (s u : State) (code : Nat) (f : State → Answer)
    (e : s.hostCommand code f = .next u) (hf : ∀ u, P u → P (f u).1) (h : P s) : P u := by
  unfold State.hostCommand at e
  injection e with e
  subst e
  exact k.act s _ (fun t ht => k.exchange t code f hf ht) h

theorem checked_holds {P : State → Prop} (b : Bool) (f : State → Answer) (hf : ∀ u, P u → P (f u).1) (u : State) (h : P u) :
    P (checked b f u).1 := by
  unfold checked
  split
  · exact hf _ h
  · exact h

theorem asMember_holds {P : State → Prop} (f : State → Answer) (hf : ∀ u, P u → P (f u).1) (u : State) (h : P u) :
    P (u.asMember f).1 := by
  unfold State.asMember
  split
  · exact hf _ h
  · exact h
  · exact h

theorem Kept.queueHost {P : State → Prop} (k : Kept P) (m : Message) (auto : Bool) (b : Option Binding) (u : State) (h : P u) :
    P (u.queueHost m auto b).1 := by
  unfold State.queueHost
  split
  · exact h
  · next hq => exact k.enterHost u m auto b (by simpa using hq) h

theorem Kept.outside {P : State → Prop} (k : Kept P) (s u : State) (f : State → State)
    (e : Host.Outcome.next (φ := Fault) (ρ := Refusal) (s.act f) = .next u) (hf : ∀ t, P t → P (f t)) (h : P s) : P u := by
  injection e with e
  subst e
  exact k.act s f hf h

theorem Kept.due {P : State → Prop} (k : Kept P) (s u : State) (f : State → State)
    (e : Host.Outcome.next (φ := Fault) (ρ := Refusal) (s.fallDue f) = .next u) (hf : ∀ t, P t → P (f t)) (h : P s) : P u := by
  injection e with e
  subst e
  exact k.fallDue s f hf h

theorem readZone_state (t : State) (z : Byte) : (t.readZone z).1 = t := by
  unfold State.readZone; repeat' split
  all_goals rfl

theorem Kept.rejoin {P : State → Prop} (k : Kept P) (t : State) (h : P t) : P t.rejoin.1 := by
  unfold State.rejoin; split
  · dsimp only; exact k.goToListening t h
  · dsimp only; exact k.goToListening t h
  · exact h

theorem Kept.noteRead {P : State → Prop} (k : Kept P) (t : State) (offset count : Nat) (h : P t) : P (t.noteRead offset count).1 := by
  unfold State.noteRead
  split
  · split
    · exact h
    · dsimp only; split
      · exact k.noteBox t .free h
      · exact h
  · exact h

theorem Kept.offerOwn {P : State → Prop} (k : Kept P) (t : State) (index kind channels cls : Byte) (b : Binding) (h : P t) :
    P (t.offerOwn index kind channels cls b).1 := by
  unfold State.offerOwn
  split
  · exact h
  · split
    · exact k.queueHost _ _ _ t h
    · exact h

theorem Kept.carryOwn {P : State → Prop} (k : Kept P) (t : State) (index first : Byte) (h : P t) :
    P (t.carryOwn index first).1 := by
  unfold State.carryOwn
  repeat' split
  · exact h
  · exact k.queueHost _ _ _ t h
  · exact k.queueHost _ _ _ t h

theorem Kept.routeRequest {P : State → Prop} (k : Kept P) (t : State) (zone stream action level : Byte) (h : P t) :
    P (t.routeRequest zone stream action level).1 := by
  unfold State.routeRequest
  split
  · exact k.judgeRoute _ _ _ _ _ h
  · split
    · exact asMember_holds _ (fun t ht => k.queueHost _ _ _ t ht) t h
    · exact h

theorem Kept.playRequest {P : State → Prop} (k : Kept P) (t : State) (clip level repeats : Nat) (h : P t) :
    P (t.playRequest clip level repeats).1 := by
  unfold State.playRequest
  split
  · exact h
  · split
    · next place u e => exact k.startPlay t u _ _ _ place e h
    · exact h

theorem Kept.wakeRequest {P : State → Prop} (k : Kept P) (t : State) (flag : Byte) (h : P t) :
    P (t.shiftOut.wakeRequest flag) := by
  have h1 : P t.shiftOut := k.host t _ h
  unfold State.wakeRequest
  split
  · split
    · exact k.host _ _ (k.wake _ _ _ h1)
    · exact k.host _ _ h1
  · exact k.host _ _ h1
  · exact k.host _ _ h1

theorem Kept.refuseTransfer {P : State → Prop} (k : Kept P) (t : State) (bytes : List Byte) (status : Status) (h : P t) :
    P (t.refuseTransfer bytes status) := by
  unfold State.refuseTransfer
  exact k.host _ _ (k.host t _ h)

theorem Kept.noteSend {P : State → Prop} (k : Kept P) (s u : State) (target : Byte) (total : BitVec 16) (data : List Byte)
    (e : execNoteSend target total data s = .next u) (h : P s) : P u := by
  unfold execNoteSend at e
  split at e
  · refine k.hostCommand _ _ _ _ e (fun t ht => checked_holds _ _ (fun t ht => asMember_holds _ (fun t ht => ?_) t ht) t ht) h
    unfold State.noteRequest
    repeat' split
    · exact ht
    · exact ht
    · exact k.beginNote _ _ _ _ ht
  · exact k.outside s u _ e (fun t ht => k.host _ _ (k.host t _ ht)) h

/-- A property that every operation keeps is kept by every command that is no transfer by its bytes. -/
theorem Kept.execOther {P : State → Prop} (k : Kept P) (c : Instr) (s u : State) (hc : isTransfer c = false)
    (e : Machine.exec c s = .next u) (h : P s) : P u := by
  cases c
  case powerOn => injection (show Host.Outcome.next (φ := Fault) (ρ := Refusal) s.powerOn = .next u from e) with e; subst e; exact k.powerOn s h
  case resetPinAsserted => injection (show Host.Outcome.next (φ := Fault) (ρ := Refusal) s.assertPin = .next u from e) with e; subst e; exact k.assertPin s h
  case resetLine => injection (show Host.Outcome.next (φ := Fault) (ρ := Refusal) s.resetLine = .next u from e) with e; subst e; exact k.resetLine s h
  case startUpRecordRead a0 => exact k.outside s u _ e (fun t ht => k.recordRead t _ ht) h
  case frameStart a0 => exact k.outside s u _ e (fun t ht => k.startSeen t _ ht) h
  case leadStart => exact k.outside s u _ e (fun t ht => k.leadStart t ht) h
  case frameTimerExpiry => exact k.outside s u _ e (fun t ht => k.expireTimer t ht) h
  case missingStart => exact k.outside s u _ e (fun t ht => k.missFurther t ht) h
  case silentLine => exact k.due s u _ e (fun t ht => k.lineSilent t ht) h
  case dormancyEntry => exact k.due s u _ e (fun t ht => k.enterDormant t ht) h
  case controlField a0 a1 => exact k.outside s u _ e (fun t ht => k.controlField t _ _ ht) h
  case audioSlots a0 => exact k.outside s u _ e (fun t ht => k.audioSlots t _ ht) h
  case tailEnd a0 => exact k.outside s u _ e (fun t ht => k.tailEnd t _ ht) h
  case selfVeto => exact k.due s u _ e (fun t ht => k.selfVetoDue t ht) h
  case listenEnd => exact k.due s u _ e (fun t ht => k.listenEnd t ht) h
  case join a0 a1 a2 a3 a4 => exact k.outside s u _ e (fun t ht => k.messageEffect t _ _ ht) h
  case presence a0 a1 a2 a3 a4 a5 => exact k.outside s u _ e (fun t ht => k.messageEffect t _ _ ht) h
  case leave a0 => exact k.outside s u _ e (fun t ht => k.messageEffect t _ _ ht) h
  case offer a0 a1 a2 a3 a4 => exact k.outside s u _ e (fun t ht => k.messageEffect t _ _ ht) h
  case withdraw a0 a1 => exact k.outside s u _ e (fun t ht => k.messageEffect t _ _ ht) h
  case claim a0 a1 a2 => exact k.outside s u _ e (fun t ht => k.messageEffect t _ _ ht) h
  case release a0 a1 => exact k.outside s u _ e (fun t ht => k.messageEffect t _ _ ht) h
  case add a0 a1 a2 a3 => exact k.outside s u _ e (fun t ht => k.messageEffect t _ _ ht) h
  case setLevel a0 a1 a2 a3 => exact k.outside s u _ e (fun t ht => k.messageEffect t _ _ ht) h
  case remove a0 a1 a2 a3 => exact k.outside s u _ e (fun t ht => k.messageEffect t _ _ ht) h
  case routeAnswer a0 a1 a2 a3 a4 => exact k.outside s u _ e (fun t ht => k.messageEffect t _ _ ht) h
  case ring a0 a1 a2 => exact k.outside s u _ e (fun t ht => k.messageEffect t _ _ ht) h
  case answer a0 a1 a2 => exact k.outside s u _ e (fun t ht => k.messageEffect t _ _ ht) h
  case hold a0 a1 a2 => exact k.outside s u _ e (fun t ht => k.messageEffect t _ _ ht) h
  case resume a0 a1 a2 => exact k.outside s u _ e (fun t ht => k.messageEffect t _ _ ht) h
  case zones a0 a1 a2 => exact k.outside s u _ e (fun t ht => k.messageEffect t _ _ ht) h
  case endCall a0 a1 a2 => exact k.outside s u _ e (fun t ht => k.messageEffect t _ _ ht) h
  case notePart a0 a1 a2 a3 a4 => exact k.outside s u _ e (fun t ht => k.messageEffect t _ _ ht) h
  case agedOut a0 => exact k.due s u _ e (fun t ht => k.agedOut t _ ht) h
  case holdExpiry a0 => exact k.due s u _ e (fun t ht => k.freeSlot t _ ht) h
  case queueHoldExpiry => exact k.due s u _ e (fun t ht => k.readyEntries t ht) h
  case presenceDue => exact k.due s u _ e (fun t ht => k.presenceFallsDue t ht) h
  case silenceEnded => exact k.due s u _ e (fun t ht => k.silenceEnded t ht) h
  case noteStall => exact k.due s u _ e (fun t ht => k.noteStall t ht) h
  case noteExpiry => exact k.due s u _ e (fun t ht => k.noteExpiry t ht) h
  case uplinkRetry => exact k.due s u _ e (fun t ht => k.uplinkRetry t ht) h
  case carryRetry a0 => exact k.due s u _ e (fun t ht => k.carryRetry t _ ht) h
  case localSample a0 => exact k.outside s u _ e (fun t ht => k.localSample t _ ht) h
  case decoderArrival a0 a1 => exact k.outside s u _ e (fun t ht => k.decoderArrives t _ _ ht) h
  case arrivalGap => exact k.due s u _ e (fun t ht => k.arrivalGap t ht) h
  case qualityBlock => exact k.due s u _ e (fun t ht => k.qualityBlock t ht) h
  case gateRampEnd => exact k.due s u _ e (fun t ht => k.endGateRamp t ht) h
  case rampEnd a0 a1 => exact k.due s u _ e (fun t ht => k.endRamp t _ _ ht) h
  case refreshDebtRise => exact k.due s u _ e (fun t ht => k.refreshDebtRise t ht) h
  case openComplete a0 => exact k.outside s u _ e (fun t ht => k.completeOpen t _ ht) h
  case burstComplete a0 => exact k.outside s u _ e (fun t ht => k.burstComplete t _ ht) h
  case closeComplete a0 => exact k.outside s u _ e (fun t ht => k.completeClose t _ ht) h
  case refreshComplete a0 => exact k.outside s u _ e (fun t ht => k.completeRefresh t _ ht) h
  case filled => exact k.due s u _ e (fun t ht => k.filled t ht) h
  case primingDone => exact k.due s u _ e (fun t ht => k.primingDone t ht) h
  case correlationResult => exact k.due s u _ e (fun t ht => k.correlationResult t ht) h
  case tapCrossfadeEnd => exact k.due s u _ e (fun t ht => k.crossfadeEnd t ht) h
  case toDigitalComplete => exact k.due s u _ e (fun t ht => k.toDigitalComplete t ht) h
  case toAnalogueComplete => exact k.due s u _ e (fun t ht => k.toAnalogueComplete t ht) h
  case cancellerBlock => exact k.due s u _ e (fun t ht => k.cancellerBlock t ht) h
  case freezeEnd => exact k.due s u _ e (fun t ht => k.freezeEnd t ht) h
  case referenceLost => exact k.due s u _ e (fun t ht => k.referenceLost t ht) h
  case cadenceExpiry a0 => exact k.due s u _ e (fun t ht => k.cadenceExpiry t _ ht) h
  case followerFire a0 => exact k.due s u _ e (fun t ht => k.followerFires t _ ht) h
  case playCompleted a0 => exact k.due s u _ e (fun t ht => k.playCompleted t _ ht) h
  case transferForReading => exact k.outside s u _ e (fun t ht => k.host t _ ht) h
  case getInfo a0 => exact k.hostCommand _ _ _ _ e (fun t ht => checked_holds _ _ (fun t ht => ht) t ht) h
  case getStatus => exact k.hostCommand _ _ _ _ e (fun t ht => ht) h
  case leaveLine => exact k.hostCommand _ _ _ _ e (fun t ht => asMember_holds _ (fun t ht => k.leaveLine t ht) t ht) h
  case rejoin => exact k.hostCommand _ _ _ _ e (fun t ht => k.rejoin t ht) h
  case stayAwake a0 => exact k.hostCommand _ _ _ _ e (fun t ht => checked_holds _ _ (fun t ht => k.host t _ ht) t ht) h
  case wake a0 => exact k.outside s u _ e (fun t ht => k.wakeRequest t _ ht) h
  case offerStream a0 a1 a2 a3 a4 a5 => exact k.hostCommand _ _ _ _ e (fun t ht => checked_holds _ _ (fun t ht => asMember_holds _ (fun t ht => k.offerOwn t _ _ _ _ _ ht) t ht) t ht) h
  case carryStream a0 a1 => exact k.hostCommand _ _ _ _ e (fun t ht => checked_holds _ _ (fun t ht => asMember_holds _ (fun t ht => k.carryOwn t _ _ ht) t ht) t ht) h
  case dropStream a0 => exact k.hostCommand _ _ _ _ e (fun t ht => checked_holds _ _ (fun t ht => asMember_holds _ (fun t ht => k.queueHost _ _ _ t ht) t ht) t ht) h
  case withdrawStream a0 => exact k.hostCommand _ _ _ _ e (fun t ht => checked_holds _ _ (fun t ht => asMember_holds _ (fun t ht => k.queueHost _ _ _ t ht) t ht) t ht) h
  case readDirectory a0 a1 => exact k.hostCommand _ _ _ _ e (fun t ht => checked_holds _ _ (fun t ht => ht) t ht) h
  case readSlots => exact k.hostCommand _ _ _ _ e (fun t ht => ht) h
  case route a0 a1 a2 a3 => exact k.hostCommand _ _ _ _ e (fun t ht => checked_holds _ _ (fun t ht => k.routeRequest t _ _ _ _ ht) t ht) h
  case readZone a0 => exact k.hostCommand _ _ _ _ e (fun t ht => by rw [readZone_state]; exact ht) h
  case clipLoadBegin a0 a1 a2 => exact k.hostCommand _ _ _ _ e (fun t ht => k.clipLoadBegin t _ _ _ ht) h
  case clipData a0 a1 => exact k.hostCommand _ _ _ _ e (fun t ht => k.clipData t _ _ ht) h
  case clipLoadEnd a0 => exact k.hostCommand _ _ _ _ e (fun t ht => checked_holds _ _ (fun t ht => k.clipLoadEnd t _ ht) t ht) h
  case clipLock a0 => exact k.hostCommand _ _ _ _ e (fun t ht => checked_holds _ _ (fun t ht => k.clipLock t _ ht) t ht) h
  case clipStatus a0 a1 => exact k.hostCommand _ _ _ _ e (fun t ht => checked_holds _ _ (fun t ht => ht) t ht) h
  case play a0 a1 a2 => exact k.hostCommand _ _ _ _ e (fun t ht => checked_holds _ _ (fun t ht => k.playRequest t _ _ _ ht) t ht) h
  case cadenceSet a0 a1 => exact k.hostCommand _ _ _ _ e (fun t ht => k.cadenceSet t _ _ ht) h
  case cadenceStart a0 => exact k.hostCommand _ _ _ _ e (fun t ht => k.cadenceStart t _ ht) h
  case cadenceStop a0 => exact k.hostCommand _ _ _ _ e (fun t ht => k.cadenceStop t _ ht) h
  case readCadence a0 => exact k.hostCommand _ _ _ _ e (fun t ht => checked_holds _ _ (fun t ht => ht) t ht) h
  case blendEnable => exact k.hostCommand _ _ _ _ e (fun t ht => k.blendEnable t ht) h
  case blendDisable => exact k.hostCommand _ _ _ _ e (fun t ht => k.blendDisable t ht) h
  case tuned => exact k.hostCommand _ _ _ _ e (fun t ht => k.tuned t ht) h
  case readBlend => exact k.hostCommand _ _ _ _ e (fun t ht => ht) h
  case callRing a0 a1 a2 => exact k.hostCommand _ _ _ _ e (fun t ht => checked_holds _ _ (fun t ht => asMember_holds _ (fun t ht => k.queueHost _ _ _ t ht) t ht) t ht) h
  case callAnswer a0 a1 a2 a3 => exact k.hostCommand _ _ _ _ e (fun t ht => checked_holds _ _ (fun t ht => asMember_holds _ (fun t ht => k.queueHost _ _ _ t ht) t ht) t ht) h
  case callHold a0 => exact k.hostCommand _ _ _ _ e (fun t ht => checked_holds _ _ (fun t ht => asMember_holds _ (fun t ht => k.queueHost _ _ _ t ht) t ht) t ht) h
  case callResume a0 => exact k.hostCommand _ _ _ _ e (fun t ht => checked_holds _ _ (fun t ht => asMember_holds _ (fun t ht => k.queueHost _ _ _ t ht) t ht) t ht) h
  case callZones a0 a1 => exact k.hostCommand _ _ _ _ e (fun t ht => checked_holds _ _ (fun t ht => asMember_holds _ (fun t ht => k.queueHost _ _ _ t ht) t ht) t ht) h
  case callEnd a0 => exact k.hostCommand _ _ _ _ e (fun t ht => checked_holds _ _ (fun t ht => asMember_holds _ (fun t ht => k.queueHost _ _ _ t ht) t ht) t ht) h
  case readCalls => exact k.hostCommand _ _ _ _ e (fun t ht => ht) h
  case readCanceller => exact k.hostCommand _ _ _ _ e (fun t ht => ht) h
  case noteSend a0 a1 a2 => exact k.noteSend s u _ _ _ e h
  case noteRead a0 a1 => exact k.hostCommand _ _ _ _ e (fun t ht => checked_holds _ _ (fun t ht => k.noteRead t _ _ ht) t ht) h
  case noteStatus => exact k.hostCommand _ _ _ _ e (fun t ht => ht) h
  case readEvents => exact k.hostCommand _ _ _ _ e (fun t ht => k.host t _ ht) h
  case badTransfer a0 => exact absurd hc (by simp [isTransfer])

/-- A property that every operation keeps is kept by every command. -/
theorem Kept.exec {P : State → Prop} (k : Kept P) (c : Instr) (s u : State) (e : Machine.exec c s = .next u) (h : P s) :
    P u := by
  by_cases hc : isTransfer c = false
  · exact k.execOther c s u hc e h
  · cases c with
    | badTransfer bytes =>
      rcases badTransfer_cases bytes s with ⟨status, _, e1⟩ | ⟨_, d, hd, _, e1⟩
      · exact k.outside s u _ (e1.symm.trans e) (fun t ht => k.refuseTransfer t _ _ ht) h
      · exact k.execOther d s u hd (e1.symm.trans e) h
    | _ => exact absurd rfl hc

/-- A property that every operation keeps is kept by every step. -/
theorem Kept.step {P : State → Prop} (k : Kept P) (s u : State) (h : P s) (e : step s = .next u) : P u := by
  unfold Machine.step at e
  split at e
  · injection e with e; subst e; exact h
  · exact k.exec _ _ _ e (k.rest s _ h)

end Sys2Proof.Machine
end

