-- ==== Sys2Proof/Laws/Sized.lean ====
section
/-! SUPPORT. The fixed sizes of the tables, a component at a time: what an operation on a component keeps. -/

namespace Sys2Proof.Machine

set_option maxRecDepth 20000
set_option linter.unusedSimpArgs false
set_option linter.unusedVariables false

/-- Four bindings (R57). -/
def BindingsSized (l : List (Option Binding)) : Prop := l.length = 4
/-- Sixteen stations, 64 streams, 40 slots, two call records. -/
def TablesSized (t : LineTables) : Prop := t.roster.length = 16 ∧ t.directory.length = 64 ∧ t.slots.length = 40 ∧ t.calls.length = 2
/-- Eight banks, five queues. -/
def StoreSized (t : Store) : Prop := t.banks.length = 8 ∧ t.queues.length = 5
/-- Four zones, six paths. -/
def MixerSized (t : Mixer) : Prop := t.zones.length = 4 ∧ t.paths.length = 6
/-- Thirty-two clips, four places for plays, eight channels with staged periods of 48 or more. -/
def AnnounceSized (t : Announce) : Prop := t.clips.length = 32 ∧ t.plays.length = 4 ∧ t.channels.length = 8 ∧ ∀ k, k ∈ t.channels → 48 ≤ k.stagedPeriod
@[simp] theorem TablesSized_mk (a r d s c) : TablesSized ⟨a, r, d, s, c⟩ ↔ (r.length = 16 ∧ d.length = 64 ∧ s.length = 40 ∧ c.length = 2) := Iff.rfl
@[simp] theorem TablesSized.roster {t : LineTables} (h : TablesSized t) : t.roster.length = 16 := h.1
@[simp] theorem TablesSized.directory {t : LineTables} (h : TablesSized t) : t.directory.length = 64 := h.2.1
@[simp] theorem TablesSized.slots {t : LineTables} (h : TablesSized t) : t.slots.length = 40 := h.2.2.1
@[simp] theorem TablesSized.calls {t : LineTables} (h : TablesSized t) : t.calls.length = 2 := h.2.2.2
theorem foldl_length {α β : Type} (f : List α → β → List α) (h : ∀ l x, (f l x).length = l.length) : ∀ (xs : List β) (l : List α), (xs.foldl f l).length = l.length
  | [], _ => rfl
  | x :: xs, l => by rw [List.foldl_cons, foldl_length f h xs, h]
@[simp] theorem holdSlots_length (x : Nat) (l : List Slot) : (holdSlots x l).length = l.length := by
  unfold holdSlots; simp
@[simp] theorem ownRun_length (x f c : Nat) (l : List Slot) : (ownRun x f c l).length = l.length := by
  unfold ownRun; exact foldl_length _ (by intro l x; simp) _ _
theorem foldl_tablesSized {β : Type} (f : LineTables → β → LineTables) (h : ∀ t x, TablesSized t → TablesSized (f t x)) : ∀ (xs : List β) (t : LineTables), TablesSized t → TablesSized (xs.foldl f t)
  | [], _, ht => ht
  | x :: xs, t, ht => by rw [List.foldl_cons]; exact foldl_tablesSized f h xs _ (h t x ht)
@[simp] theorem setEntry_sized (t : LineTables) (x e) (h : TablesSized t) : TablesSized (t.setEntry x e) := by
  unfold LineTables.setEntry; simp [h]
@[simp] theorem endStream_sized (t : LineTables) (x) (h : TablesSized t) : TablesSized (t.endStream x) := by
  unfold LineTables.endStream; simp [h]
@[simp] theorem offerStream_sized (t : LineTables) (x p) (h : TablesSized t) : TablesSized (t.offerStream x p) := by
  unfold LineTables.offerStream; simp [h]
@[simp] theorem carryStream_sized (t : LineTables) (x p f) (h : TablesSized t) : TablesSized (t.carryStream x p f) := by
  unfold LineTables.carryStream; simp [h]
@[simp] theorem setCall_sized (t : LineTables) (x e) (h : TablesSized t) : TablesSized (t.setCall x e) := by
  unfold LineTables.setCall; simp [h]
@[simp] theorem activate_sized (t : LineTables) (x e) (h : TablesSized t) : TablesSized (t.activate x e) := by
  unfold LineTables.activate; dsimp only; split <;> simp [h]
@[simp] theorem strip_sized (t u : LineTables) (h : TablesSized t) : TablesSized (t.strip u) := by
  unfold LineTables.strip; simp [h]
@[simp] theorem setStation_sized (t : LineTables) (x e) (h : TablesSized t) : TablesSized (t.setStation x e) := by
  unfold LineTables.setStation; simp [h]
@[simp] theorem onStation_sized (t : LineTables) (x e) (h : TablesSized t) : TablesSized (t.onStation x e) := by
  unfold LineTables.onStation; simp [h]
@[simp] theorem removeStation_sized (t : LineTables) (x) (h : TablesSized t) : TablesSized (t.removeStation x) := by
  unfold LineTables.removeStation; dsimp only
  have : TablesSized ((List.range 4).foldl (fun acc i => acc.endStream (x * 4 + i)) t) := foldl_tablesSized _ (fun t i h => by simp [h]) _ _ h
  generalize (List.range 4).foldl (fun acc i => acc.endStream (x * 4 + i)) t = u at this
  simp [this]
@[simp] theorem restartCompleteness_sized (t : LineTables) (h : TablesSized t) : TablesSized t.restartCompleteness := by
  unfold LineTables.restartCompleteness; simp [h]
@[simp] theorem tables_reset_sized : TablesSized LineTables.reset := by simp [LineTables.reset]
@[simp] theorem tables_cleared_sized (t : LineTables) : TablesSized t.cleared := by
  simp [LineTables.cleared, LineTables.reset]
@[simp] theorem atStart_sized (t : LineTables) (h : TablesSized t) : TablesSized t.atStart := by
  unfold LineTables.atStart; simp [h]
@[simp] theorem displace_sized (t : LineTables) (x) (h : TablesSized t) : TablesSized (t.displace x) := by
  unfold LineTables.displace; split <;> simp [h]
@[simp] theorem applyStream_sized (t : LineTables) (x s p f) (h : TablesSized t) : TablesSized (t.applyStream x s p f) := by
  unfold LineTables.applyStream; split
  · split <;> simp [h]
  · simp [h]
  · dsimp only; exact carryStream_sized _ _ _ _ (foldl_tablesSized _ (fun t i h => by simp [h]) _ _ (by simp [h]))
@[simp] theorem markCalls_sized (t : LineTables) (x s) (h : TablesSized t) : TablesSized (t.markCalls x s) := by
  unfold LineTables.markCalls; split
  · simp [h]
  · split
    · dsimp only; exact onStation_sized _ _ _ (foldl_tablesSized _ (fun t i h => by split <;> simp [h]) _ _ h)
    · exact h
@[simp] theorem applyDescriptor_sized (t : LineTables) (x s) (h : TablesSized t) : TablesSized (t.applyDescriptor x s) := by
  unfold LineTables.applyDescriptor; split
  · dsimp only; split <;> simp [h]
  · dsimp only; split <;> simp [h]
  · exact h
@[simp] theorem offer_sized (t : LineTables) (x p) (h : TablesSized t) : TablesSized (t.offer x p).1 := by
  unfold LineTables.offer; (repeat' split) <;> simp [h]
@[simp] theorem claim_sized (t : LineTables) (x p) (h : TablesSized t) : TablesSized (t.claim x p).1 := by
  unfold LineTables.claim; (repeat' split) <;> simp [h]
@[simp] theorem release_sized (t : LineTables) (x) (h : TablesSized t) : TablesSized (t.release x).1 := by
  unfold LineTables.release; (repeat' split) <;> simp [h]
@[simp] theorem withdraw_sized (t : LineTables) (x) (h : TablesSized t) : TablesSized (t.withdraw x).1 := by
  unfold LineTables.withdraw; (repeat' split) <;> simp [h]
@[simp] theorem judgeCall_sized (t : LineTables) (x j a f) (h : TablesSized t) : TablesSized (t.judgeCall x j a f).1 := by
  unfold LineTables.judgeCall; dsimp only; repeat' split
  all_goals try simp [h]
  · unfold LineTables.ring; dsimp only; (repeat' split) <;> simp [h]
  · unfold LineTables.answer; dsimp only; (repeat' split) <;> simp [h]
  · unfold LineTables.callZones; dsimp only; (repeat' split) <;> simp [h]
@[simp] theorem BindingsSized_replicate (x) : BindingsSized (List.replicate 4 x) := by simp [BindingsSized]
@[simp] theorem BindingsSized_set (l) (i x) (h : BindingsSized l) : BindingsSized (l.set i x) := by
  simpa [BindingsSized] using h
@[simp] theorem BindingsSized_none (x y z w) : BindingsSized [x, y, z, w] := rfl
@[simp] theorem BindingsSized_map {α} (l : List α) (f) (h : l.length = 4) : BindingsSized (l.map f) := by
  simpa [BindingsSized] using h
theorem BindingsSized.len {l} (h : BindingsSized l) : l.length = 4 := h
@[simp] theorem atStart_bindings (l : LineInterface) (a b) : (l.atStart a b).bindings = l.bindings := rfl
@[simp] theorem asleep_bindings (l : LineInterface) : l.asleep.bindings = l.bindings := rfl

/-- The numbers of banks and of queues. -/
def Store.dims (st : Store) : Nat × Nat := (st.banks.length, st.queues.length)
@[simp] theorem Store.onBank_dims (st : Store) (b : Nat) (f : Bank → Bank) : (st.onBank b f).dims = st.dims := by
  simp [Store.dims, Store.onBank, Store.onQueue, Store.beginBurst, Store.beginClose, Store.grantOpen, Store.grantRefresh]
@[simp] theorem Store.onQueue_dims (st : Store) (q : QueueId) (f : List Request → List Request) :
    (st.onQueue q f).dims = st.dims := by simp [Store.dims, Store.onBank, Store.onQueue, Store.beginBurst, Store.beginClose, Store.grantOpen, Store.grantRefresh]
@[simp] theorem Store.beginBurst_dims (st : Store) (b : Nat) (q : QueueId) : (st.beginBurst b q).dims = st.dims := by
  simp [Store.dims, Store.onBank, Store.onQueue, Store.beginBurst, Store.beginClose, Store.grantOpen, Store.grantRefresh]
@[simp] theorem Store.beginClose_dims (st : Store) (b : Nat) : (st.beginClose b).dims = st.dims := by
  simp [Store.dims, Store.onBank, Store.onQueue, Store.beginBurst, Store.beginClose, Store.grantOpen, Store.grantRefresh]
@[simp] theorem Store.grantOpen_dims (st : Store) (b row : Nat) : (st.grantOpen b row).dims = st.dims := by
  simp [Store.dims, Store.onBank, Store.onQueue, Store.beginBurst, Store.beginClose, Store.grantOpen, Store.grantRefresh]
@[simp] theorem Store.grantRefresh_dims (st : Store) (b : Nat) : (st.grantRefresh b).dims = st.dims := by
  simp [Store.dims, Store.onBank, Store.onQueue, Store.beginBurst, Store.beginClose, Store.grantOpen, Store.grantRefresh]
@[simp] theorem Store.urgentStep_dims (st : Store) (b : Nat) : (st.urgentStep b).1.dims = st.dims := by
  unfold Store.urgentStep; repeat' split
  all_goals first | rfl | simp
@[simp] theorem Store.ordinaryStep_dims (st : Store) (b : Nat) : (st.ordinaryStep b).1.dims = st.dims := by
  unfold Store.ordinaryStep; split
  · exact Store.grantRefresh_dims st b
  · rfl
@[simp] theorem Store.headStep_dims (st : Store) (q : QueueId) (b row : Nat) :
    (st.headStep q b row).1.dims = st.dims := by
  unfold Store.headStep; repeat' split
  all_goals first | rfl | simp
theorem claim_dims (b : Nat) (f : Store → Store × Bool) (a : Arbitration) (h : ∀ st, (f st).1.dims = st.dims) :
    (claim b f a).1.dims = a.1.dims := by
  unfold claim; split
  · rfl
  · exact h _
theorem claimHead_dims (q : QueueId) (a : Arbitration) : (claimHead q a).1.dims = a.1.dims := by
  unfold claimHead; repeat' split
  all_goals first | rfl | (apply claim_dims; intro st; simp)
theorem foldl_dims {α : Type} (f : Arbitration → α → Arbitration) (h : ∀ a x, (f a x).1.dims = a.1.dims) :
    ∀ (l : List α) (a : Arbitration), (l.foldl f a).1.dims = a.1.dims
  | [], _ => rfl
  | x :: l, a => by rw [List.foldl_cons, foldl_dims f h l, h]
@[simp] theorem Store.arbitrate_dims (st : Store) : st.arbitrate.dims = st.dims := by
  unfold Store.arbitrate
  split
  · rfl
  · dsimp only
    rw [claimHead_dims, foldl_dims, foldl_dims, foldl_dims]
    · intro a b; exact claim_dims _ _ _ (fun st => by simp)
    · intro a q; exact claimHead_dims q a
    · intro a b; exact claim_dims _ _ _ (fun st => by simp)

theorem StoreSized_iff (st : Store) : StoreSized st ↔ st.dims = (8, 5) := by simp [StoreSized, Store.dims]
@[simp] theorem arbitrate_sized (st : Store) (h : StoreSized st) : StoreSized st.arbitrate := by rw [StoreSized_iff] at *; rw [Store.arbitrate_dims, h]
@[simp] theorem enqueue_sized (st : Store) (r) (h : StoreSized st) : StoreSized (st.enqueue r) := by
  unfold Store.enqueue; dsimp only; split
  · exact arbitrate_sized _ (by rw [StoreSized_iff] at *; simpa using h)
  · rw [StoreSized_iff] at *; simpa using h
@[simp] theorem StoreSized_mk (a b c d e f g h i j k l m n) : StoreSized ⟨a, b, c, d, e, f, g, h, i, j, k, l, m, n⟩ ↔ (b.length = 8 ∧ e.length = 5) := Iff.rfl
@[simp] theorem StoreSized.banks {t : Store} (h : StoreSized t) : t.banks.length = 8 := h.1
@[simp] theorem StoreSized.queues {t : Store} (h : StoreSized t) : t.queues.length = 5 := h.2
@[simp] theorem newFrame_sized (st : Store) (h : StoreSized st) : StoreSized st.newFrame := h
@[simp] theorem storeWithdraw_sized (st : Store) (h : StoreSized st) : StoreSized st.withdraw := by
  unfold Store.withdraw; simp [h]; rfl
@[simp] theorem writeWord_dims (st : Store) (a v) : (st.writeWord a v).dims = st.dims := by
  unfold Store.writeWord; dsimp only; (repeat' split) <;> simp [Store.dims, Store.onBank]
@[simp] theorem writeBurst_dims (st : Store) (r) : (st.writeBurst r).dims = st.dims := by
  unfold Store.writeBurst; split
  · next a ha =>
    clear ha; generalize r.data = l
    induction l generalizing st with
    | nil => rfl
    | cons c l ih =>
      rw [List.foldl_cons, ih]
      split <;> simp
  · rfl
@[simp] theorem completeBurst_sized (st : Store) (b) (h : StoreSized st) : StoreSized (st.completeBurst b).1 := by
  unfold Store.completeBurst; split
  · exact h
  · split
    · rw [StoreSized_iff] at *; simpa using h
    · dsimp only; rw [StoreSized_iff] at *
      rw [Store.onBank_dims, Store.onQueue_dims]; split <;> simp [h]
@[simp] theorem completeOpen_sized (st : Store) (b) (h : StoreSized st) : StoreSized (st.completeOpen b) := by
  unfold Store.completeOpen; split
  · exact arbitrate_sized _ (by rw [StoreSized_iff] at *; simpa using h)
  · exact h
@[simp] theorem completeClose_sized (st : Store) (b) (h : StoreSized st) : StoreSized (st.completeClose b) := by
  unfold Store.completeClose; split
  · exact arbitrate_sized _ (by rw [StoreSized_iff] at *; simpa using h)
  · exact h
@[simp] theorem completeRefresh_sized (st : Store) (b) (h : StoreSized st) : StoreSized (st.completeRefresh b) := by
  unfold Store.completeRefresh; split
  · exact arbitrate_sized _ (by rw [StoreSized_iff] at *; simpa using h)
  · exact h
@[simp] theorem retain_sized (st : Store) : StoreSized st.retain := by unfold Store.retain; simp
@[simp] theorem afterReset_sized (st : Store) : StoreSized st.afterReset := by
  unfold Store.afterReset; simp [Store.reset]
@[simp] theorem store_reset_sized : StoreSized Store.reset := ⟨rfl, rfl⟩
@[simp] theorem storeReset_sized : StoreSized State.reset.store := ⟨rfl, rfl⟩
@[simp] theorem riseDebts_sized (st : Store) (h : StoreSized st) : StoreSized st.riseDebts := by
  unfold Store.riseDebts; dsimp only
  generalize st.reachingOverdue = l
  have key : ∀ (l : List Nat) (st : Store), StoreSized st → StoreSized (l.foldl (fun acc b =>
    { acc.onBank b (fun k => { k with loss := some acc.lossEvents, rewritten := [] }) with
      lossEvents := acc.lossEvents + 1, overdue := min 65535 (acc.overdue + 1) }) st) := by
    intro l
    induction l with
    | nil => intro st h; exact h
    | cons b l ih => intro st h; rw [List.foldl_cons]; apply ih; simp [Store.onBank, h]
  simp [key l st h]

@[simp] theorem forEach_tablesSized (n f) (s : State) (h : ∀ i s, TablesSized s.tables → TablesSized (f i s).tables) (hs : TablesSized s.tables) : TablesSized (forEach n f s).tables := forEach_holds (P := fun s => TablesSized s.tables) n f h s hs
@[simp] theorem forEach_storeSized (n f) (s : State) (h : ∀ i s, StoreSized s.store → StoreSized (f i s).store) (hs : StoreSized s.store) : StoreSized (forEach n f s).store := forEach_holds (P := fun s => StoreSized s.store) n f h s hs
@[simp] theorem forEach_mixerSized (n f) (s : State) (h : ∀ i s, MixerSized s.mixer → MixerSized (f i s).mixer) (hs : MixerSized s.mixer) : MixerSized (forEach n f s).mixer := forEach_holds (P := fun s => MixerSized s.mixer) n f h s hs
@[simp] theorem forEach_announceSized (n f) (s : State) (h : ∀ i s, AnnounceSized s.announce → AnnounceSized (f i s).announce) (hs : AnnounceSized s.announce) : AnnounceSized (forEach n f s).announce := forEach_holds (P := fun s => AnnounceSized s.announce) n f h s hs
@[simp] theorem foldl_storeSized {α : Type} (f : State → α → State) (l : List α) (s : State) (h : ∀ s x, StoreSized s.store → StoreSized (f s x).store) (hs : StoreSized s.store) : StoreSized (l.foldl f s).store := foldl_holds (P := fun s => StoreSized s.store) f h l s hs
@[simp] theorem foldl_mixerSized {α : Type} (f : State → α → State) (l : List α) (s : State) (h : ∀ s x, MixerSized s.mixer → MixerSized (f s x).mixer) (hs : MixerSized s.mixer) : MixerSized (l.foldl f s).mixer := foldl_holds (P := fun s => MixerSized s.mixer) f h l s hs
@[simp] theorem foldl_announceSized {α : Type} (f : State → α → State) (l : List α) (s : State) (h : ∀ s x, AnnounceSized s.announce → AnnounceSized (f s x).announce) (hs : AnnounceSized s.announce) : AnnounceSized (l.foldl f s).announce := foldl_holds (P := fun s => AnnounceSized s.announce) f h l s hs
@[simp] theorem MixerSized_mk (z p a b) : MixerSized ⟨z, p, a, b⟩ ↔ (z.length = 4 ∧ p.length = 6) := Iff.rfl
@[simp] theorem MixerSized.zones {t : Mixer} (h : MixerSized t) : t.zones.length = 4 := h.1
@[simp] theorem MixerSized.paths {t : Mixer} (h : MixerSized t) : t.paths.length = 6 := h.2
@[simp] theorem reset_mixerSized : MixerSized State.reset.mixer := ⟨rfl, rfl⟩
@[simp] theorem forZones_mixerSized (f) (s : State) (h : ∀ i s, MixerSized s.mixer → MixerSized (f i s).mixer) (hs : MixerSized s.mixer) : MixerSized (s.forZones f).mixer := forEach_mixerSized 4 f s h hs
@[simp] theorem reset_announceSized : AnnounceSized State.reset.announce := by
  refine ⟨rfl, rfl, rfl, ?_⟩; decide
@[simp] theorem AnnounceSized.clips {t : Announce} (h : AnnounceSized t) : t.clips.length = 32 := h.1
@[simp] theorem AnnounceSized.plays {t : Announce} (h : AnnounceSized t) : t.plays.length = 4 := h.2.1
@[simp] theorem AnnounceSized.channels {t : Announce} (h : AnnounceSized t) : t.channels.length = 8 := h.2.2.1
/-- Eight channels, their staged periods at 48 or more. -/
def ChannelsSized (l : List CadenceChannel) : Prop := l.length = 8 ∧ ∀ k, k ∈ l → 48 ≤ k.stagedPeriod
@[simp] theorem AnnounceSized_mk (a b c d e f g h i) : AnnounceSized ⟨a, b, c, d, e, f, g, h, i⟩ ↔ (a.length = 32 ∧ f.length = 4 ∧ ChannelsSized i) := Iff.rfl
@[simp] theorem AnnounceSized.channelsSized {t : Announce} (h : AnnounceSized t) : ChannelsSized t.channels := ⟨h.2.2.1, h.2.2.2⟩
@[simp] theorem ChannelsSized_map (l : List CadenceChannel) (f) (h : ChannelsSized l) (hf : ∀ k, 48 ≤ k.stagedPeriod → 48 ≤ (f k : CadenceChannel).stagedPeriod) : ChannelsSized (l.map f) := by
  refine ⟨by simpa using h.1, ?_⟩
  intro k hk
  obtain ⟨j, hj, rfl⟩ := List.mem_map.mp hk
  exact hf _ (h.2 j hj)
theorem mem_modify {α : Type} (l : List α) (c : Nat) (f : α → α) (k : α) (h : k ∈ l.modify c f) : k ∈ l ∨ ∃ j ∈ l, k = f j := by
  induction l generalizing c with
  | nil => simp at h
  | cons a l ih =>
    cases c with
    | zero =>
      simp only [List.modify_zero_cons, List.mem_cons] at h
      rcases h with h | h
      · exact .inr ⟨a, by simp, h⟩
      · exact .inl (by simp [h])
    | succ c =>
      simp only [List.modify_succ_cons, List.mem_cons] at h
      rcases h with h | h
      · exact .inl (by simp [h])
      · rcases ih c h with h | ⟨j, hj, e⟩
        · exact .inl (by simp [h])
        · exact .inr ⟨j, by simp [hj], e⟩
@[simp] theorem ChannelsSized_modify (l : List CadenceChannel) (c) (f) (h : ChannelsSized l) (hf : ∀ k, 48 ≤ k.stagedPeriod → 48 ≤ (f k : CadenceChannel).stagedPeriod) : ChannelsSized (l.modify c f) := by
  refine ⟨by simpa using h.1, ?_⟩
  intro k hk
  rcases mem_modify _ _ _ _ hk with hk | ⟨j, hj, rfl⟩
  · exact h.2 k hk
  · exact hf _ (h.2 j hj)
@[simp] theorem count_staged (c : CadenceChannel) : c.count.stagedPeriod = c.stagedPeriod := by
  unfold CadenceChannel.count; (repeat' split) <;> rfl
@[simp] theorem triggered_staged (c : CadenceChannel) : c.triggered.stagedPeriod = c.stagedPeriod := rfl
theorem become_staged (c : CadenceChannel) (r) (h : 48 ≤ c.stagedPeriod) : 48 ≤ (c.become r).stagedPeriod := by
  unfold CadenceChannel.become; (repeat' split) <;> first | exact h | decide
@[simp] theorem announceReset_plays : Announce.reset.plays.length = 4 := rfl
@[simp] theorem announceReset_channels : ChannelsSized Announce.reset.channels := ⟨rfl, by decide⟩

end Sys2Proof.Machine
end

