-- ==== Sys2Proof/Laws/AnnounceSized.lean ====
section
/-! SUPPORT. Every operation keeps the sizes of the clips, plays and channels. -/

namespace Sys2Proof.Machine

set_option maxRecDepth 20000
set_option linter.unusedSimpArgs false
set_option linter.unusedVariables false

@[simp] theorem State.settleClipRead_announceSized (s : State) (play repetition group : Nat) (part : Part)
    (h : AnnounceSized s.announce) :
    AnnounceSized (State.settleClipRead s play repetition group part).announce := by
  unfold State.settleClipRead; (try dsimp only); (repeat' split) <;>
    first | (simp (maxDischargeDepth := 12) +contextual [h]; done) | (simp_all (maxDischargeDepth := 12); done)
@[simp] theorem State.settleClipWrite_announceSized (s : State) (load words : Nat)
    (h : AnnounceSized s.announce) : AnnounceSized (State.settleClipWrite s load words).announce := by
  unfold State.settleClipWrite; (try dsimp only); (repeat' split) <;>
    first | (simp (maxDischargeDepth := 12) +contextual [h]; done) | (simp_all (maxDischargeDepth := 12); done)
@[simp] theorem State.takeServed_announceSized (s : State) (r : Request) (words : List Sample)
    (h : AnnounceSized s.announce) : AnnounceSized (State.takeServed s r words).announce := by
  unfold State.takeServed; (try dsimp only); (repeat' split) <;>
    first | (simp (maxDischargeDepth := 12) +contextual [h]; done) | (simp_all (maxDischargeDepth := 12); done)
@[simp] theorem State.takeGap_announceSized (s : State) (r : Request)
    (h : AnnounceSized s.announce) : AnnounceSized (State.takeGap s r).announce := by
  unfold State.takeGap; (try dsimp only); (repeat' split) <;>
    first | (simp (maxDischargeDepth := 12) +contextual [h]; done) | (simp_all (maxDischargeDepth := 12); done)
@[simp] theorem State.endRequest_announceSized (s : State) (r : Request) (e : RequestEnd)
    (h : AnnounceSized s.announce) : AnnounceSized (State.endRequest s r e).announce := by
  unfold State.endRequest; (try dsimp only); (repeat' split) <;>
    first | (simp (maxDischargeDepth := 12) +contextual [h]; done) | (simp_all (maxDischargeDepth := 12); done)
@[simp] theorem State.request_announceSized (s : State) (r : Request)
    (h : AnnounceSized s.announce) : AnnounceSized (State.request s r).announce := by
  unfold State.request; (try dsimp only); (repeat' split) <;>
    first | (simp (maxDischargeDepth := 12) +contextual [h]; done) | (simp_all (maxDischargeDepth := 12); done)
@[simp] theorem State.loadOne_announceSized (s : State)
    (h : AnnounceSized s.announce) : AnnounceSized (State.loadOne s).announce := by
  unfold State.loadOne; (try dsimp only); (repeat' split) <;>
    first | (simp (maxDischargeDepth := 12) +contextual [h]; done) | (simp_all (maxDischargeDepth := 12); done)
@[simp] theorem State.feedLoader_announceSized (s : State)
    (h : AnnounceSized s.announce) : AnnounceSized (State.feedLoader s).announce := by
  unfold State.feedLoader; (try dsimp only); (repeat' split) <;>
    first | (simp (maxDischargeDepth := 12) +contextual [h]; done) | (simp_all (maxDischargeDepth := 12); done)
@[simp] theorem State.storeBoundary_announceSized (s : State)
    (h : AnnounceSized s.announce) : AnnounceSized (State.storeBoundary s).announce := by
  unfold State.storeBoundary; (try dsimp only); (repeat' split) <;>
    first | (simp (maxDischargeDepth := 12) +contextual [h]; done) | (simp_all (maxDischargeDepth := 12); done)
@[simp] theorem State.burstComplete_announceSized (s : State) (bank : Nat)
    (h : AnnounceSized s.announce) : AnnounceSized (State.burstComplete s bank).announce := by
  unfold State.burstComplete; (try dsimp only); (repeat' split) <;>
    first | (simp (maxDischargeDepth := 12) +contextual [h]; done) | (simp_all (maxDischargeDepth := 12); done)
@[simp] theorem State.start_announceSized (s : State) (emitted inWindow : Bool)
    (h : AnnounceSized s.announce) : AnnounceSized (State.start s emitted inWindow).announce := by
  unfold State.start; (try dsimp only); (repeat' split) <;>
    first | (simp (maxDischargeDepth := 12) +contextual [h]; done) | (simp_all (maxDischargeDepth := 12); done)
@[simp] theorem State.missStart_announceSized (s : State)
    (h : AnnounceSized s.announce) : AnnounceSized (State.missStart s).announce := by
  unfold State.missStart; (try dsimp only); (repeat' split) <;>
    first | (simp (maxDischargeDepth := 12) +contextual [h]; done) | (simp_all (maxDischargeDepth := 12); done)
@[simp] theorem State.leadStart_announceSized (s : State)
    (h : AnnounceSized s.announce) : AnnounceSized (State.leadStart s).announce := by
  unfold State.leadStart; (try dsimp only); (repeat' split) <;>
    first | (simp (maxDischargeDepth := 12) +contextual [h]; done) | (simp_all (maxDischargeDepth := 12); done)
@[simp] theorem State.expireTimer_announceSized (s : State)
    (h : AnnounceSized s.announce) : AnnounceSized (State.expireTimer s).announce := by
  unfold State.expireTimer; (try dsimp only); (repeat' split) <;>
    first | (simp (maxDischargeDepth := 12) +contextual [h]; done) | (simp_all (maxDischargeDepth := 12); done)
@[simp] theorem State.missFurther_announceSized (s : State)
    (h : AnnounceSized s.announce) : AnnounceSized (State.missFurther s).announce := by
  unfold State.missFurther; (try dsimp only); (repeat' split) <;>
    first | (simp (maxDischargeDepth := 12) +contextual [h]; done) | (simp_all (maxDischargeDepth := 12); done)
@[simp] theorem State.keepUpStart_announceSized (s : State)
    (h : AnnounceSized s.announce) : AnnounceSized (State.keepUpStart s).announce := by
  unfold State.keepUpStart; (try dsimp only); (repeat' split) <;>
    first | (simp (maxDischargeDepth := 12) +contextual [h]; done) | (simp_all (maxDischargeDepth := 12); done)
@[simp] theorem State.alignBurst_announceSized (s : State) (access : Access) (pair group : Nat) (right : Bool) (data : List (Nat × Sample)) (purpose : Purpose)
    (h : AnnounceSized s.announce) :
    AnnounceSized (State.alignBurst s access pair group right data purpose).announce := by
  unfold State.alignBurst; (try dsimp only); (repeat' split) <;>
    first | (simp (maxDischargeDepth := 12) +contextual [h]; done) | (simp_all (maxDischargeDepth := 12); done)
@[simp] theorem State.alignWrites_announceSized (s : State) (pair : Nat)
    (h : AnnounceSized s.announce) : AnnounceSized (State.alignWrites s pair).announce := by
  unfold State.alignWrites; (try dsimp only); (repeat' split) <;>
    first | (simp (maxDischargeDepth := 12) +contextual [h]; done) | (simp_all (maxDischargeDepth := 12); done)
@[simp] theorem State.alignReads_announceSized (s : State) (pair delay : Nat)
    (h : AnnounceSized s.announce) : AnnounceSized (State.alignReads s pair delay).announce := by
  unfold State.alignReads; (try dsimp only); (repeat' split) <;>
    first | (simp (maxDischargeDepth := 12) +contextual [h]; done) | (simp_all (maxDischargeDepth := 12); done)
@[simp] theorem State.alignTurn_announceSized (s : State)
    (h : AnnounceSized s.announce) : AnnounceSized (State.alignTurn s).announce := by
  unfold State.alignTurn; (try dsimp only); (repeat' split) <;>
    first | (simp (maxDischargeDepth := 12) +contextual [h]; done) | (simp_all (maxDischargeDepth := 12); done)
@[simp] theorem State.playPairs_announceSized (s : State)
    (h : AnnounceSized s.announce) : AnnounceSized (State.playPairs s).announce := by
  unfold State.playPairs; (try dsimp only); (repeat' split) <;>
    first | (simp (maxDischargeDepth := 12) +contextual [h]; done) | (simp_all (maxDischargeDepth := 12); done)
@[simp] theorem State.onClip_announceSized (s : State) (i : Nat) (f : Clip → Clip)
    (h : AnnounceSized s.announce) : AnnounceSized (State.onClip s i f).announce := by
  unfold State.onClip; (try dsimp only); (repeat' split) <;>
    first | (simp (maxDischargeDepth := 12) +contextual [h]; done) | (simp_all (maxDischargeDepth := 12); done)
@[simp] theorem State.dropBuffer_announceSized (s : State) (i : Nat)
    (h : AnnounceSized s.announce) : AnnounceSized (State.dropBuffer s i).announce := by
  unfold State.dropBuffer; (try dsimp only); (repeat' split) <;>
    first | (simp (maxDischargeDepth := 12) +contextual [h]; done) | (simp_all (maxDischargeDepth := 12); done)
@[simp] theorem State.endPlay_announceSized (s : State) (place : Nat) (cause : Option Cause)
    (h : AnnounceSized s.announce) : AnnounceSized (State.endPlay s place cause).announce := by
  unfold State.endPlay; (try dsimp only); (repeat' split) <;>
    first | (simp (maxDischargeDepth := 12) +contextual [h]; done) | (simp_all (maxDischargeDepth := 12); done)
@[simp] theorem State.endPlays_announceSized (s : State) (p : Play → Bool) (cause : Option Cause)
    (h : AnnounceSized s.announce) : AnnounceSized (State.endPlays s p cause).announce := by
  unfold State.endPlays; (try dsimp only)
  (repeat (refine forEach_announceSized _ _ _ (fun i s h => ?_) ?_)) <;> first | with_reducible exact h | ((repeat' split) <;> first | with_reducible exact h | (simp (maxDischargeDepth := 12) [h]; done))
@[simp] theorem State.loseClip_announceSized (s : State) (i : Nat) (cause : Cause)
    (h : AnnounceSized s.announce) : AnnounceSized (State.loseClip s i cause).announce := by
  unfold State.loseClip; (try dsimp only); (repeat' split) <;>
    first | (simp (maxDischargeDepth := 12) +contextual [h]; done) | (simp_all (maxDischargeDepth := 12); done)
@[simp] theorem State.bankLost_announceSized (s : State) (bank : Nat)
    (h : AnnounceSized s.announce) : AnnounceSized (State.bankLost s bank).announce := by
  unfold State.bankLost; (try dsimp only)
  (repeat (refine forEach_announceSized _ _ _ (fun i s h => ?_) ?_)) <;> first | with_reducible exact h | ((repeat' split) <;> first | with_reducible exact h | (simp (maxDischargeDepth := 12) [h]; done))
@[simp] theorem State.emptyLoads_announceSized (s : State)
    (h : AnnounceSized s.announce) : AnnounceSized (State.emptyLoads s).announce := by
  unfold State.emptyLoads; (try dsimp only); (repeat' split) <;>
    first | (simp (maxDischargeDepth := 12) +contextual [h]; done) | (simp_all (maxDischargeDepth := 12); done)
@[simp] theorem State.contentReport_announceSized (s : State) (report : Nat → Bool)
    (h : AnnounceSized s.announce) : AnnounceSized (State.contentReport s report).announce := by
  unfold State.contentReport; dsimp only
  refine forEach_announceSized _ _ _ (fun i s h => ?_) (forEach_announceSized _ _ _ (fun i s h => ?_) ?_)
  · split <;> simp [h]
  · split <;> simp [h]
  · simp [h]
@[simp] theorem State.requestGroup_announceSized (s : State) (place : Nat) (offset repetition group due : Nat)
    (h : AnnounceSized s.announce) :
    AnnounceSized (State.requestGroup s place offset repetition group due).announce := by
  unfold State.requestGroup; (try dsimp only); (repeat' split) <;>
    first | (simp (maxDischargeDepth := 12) +contextual [h]; done) | (simp_all (maxDischargeDepth := 12); done)
@[simp] theorem State.requestGroups_announceSized (s : State) (place : Nat)
    (h : AnnounceSized s.announce) : AnnounceSized (State.requestGroups s place).announce := by
  unfold State.requestGroups; (try dsimp only); (repeat' split) <;>
    first | (simp (maxDischargeDepth := 12) +contextual [h]; done) | (simp_all (maxDischargeDepth := 12); done)
@[simp] theorem State.soundPlays_announceSized (s : State)
    (h : AnnounceSized s.announce) : AnnounceSized (State.soundPlays s).announce := by
  unfold State.soundPlays; (try dsimp only); (repeat' split) <;>
    first | (simp (maxDischargeDepth := 12) +contextual [h]; done) | (simp_all (maxDischargeDepth := 12); done)
@[simp] theorem State.announceSample_announceSized (s : State)
    (h : AnnounceSized s.announce) : AnnounceSized (State.announceSample s).announce := by
  unfold State.announceSample; (try dsimp only); (repeat' split) <;>
    first | (simp (maxDischargeDepth := 12) +contextual [h]; done) | (simp_all (maxDischargeDepth := 12); done)
@[simp] theorem State.playCompleted_announceSized (s : State) (place : Nat)
    (h : AnnounceSized s.announce) : AnnounceSized (State.playCompleted s place).announce := by
  unfold State.playCompleted; (try dsimp only); (repeat' split) <;>
    first | (simp (maxDischargeDepth := 12) +contextual [h]; done) | (simp_all (maxDischargeDepth := 12); done)
@[simp] theorem State.onChannel_announceSized (s : State) (c : Nat) (f : CadenceChannel → CadenceChannel)
    (h : AnnounceSized s.announce) (hf : ∀ k, 48 ≤ k.stagedPeriod → 48 ≤ (f k : CadenceChannel).stagedPeriod) :
    AnnounceSized (State.onChannel s c f).announce := by
  unfold State.onChannel; simp only [AnnounceSized_mk]
  exact ⟨h.clips, h.plays, ChannelsSized_modify _ _ _ h.channelsSized hf⟩
@[simp] theorem State.onFollowers_announceSized (s : State) (leader : Nat) (f : CadenceChannel → CadenceChannel)
    (h : AnnounceSized s.announce) (hf : ∀ k, 48 ≤ k.stagedPeriod → 48 ≤ (f k : CadenceChannel).stagedPeriod) :
    AnnounceSized (State.onFollowers s leader f).announce := by
  unfold State.onFollowers; simp only [AnnounceSized_mk]
  refine ⟨h.clips, h.plays, ChannelsSized_map _ _ h.channelsSized ?_⟩
  intro k hk; split
  · exact hf k hk
  · exact hk
@[simp] theorem State.loadStaged_announceSized (s : State) (leader : Nat)
    (h : AnnounceSized s.announce) : AnnounceSized (State.loadStaged s leader).announce := by
  unfold State.loadStaged; (try dsimp only); (repeat' split) <;>
    first | (simp (maxDischargeDepth := 12) +contextual [h]; done) | (simp_all (maxDischargeDepth := 12); done)
theorem State.startPlay_announceSized (s : State) (clip level repeats : Nat) (starter : Starter) (x : Nat × State)
    (e : s.startPlay clip level repeats starter = some x) (h : AnnounceSized s.announce) : AnnounceSized x.2.announce := by
  unfold State.startPlay at e
  split at e
  · split at e
    · simp at e
    · simp only [Option.some.injEq] at e; subst e; simp (maxDischargeDepth := 12) [h]
  · simp at e
@[simp] theorem State.fire_announceSized (s : State) (c : Nat)
    (h : AnnounceSized s.announce) : AnnounceSized (State.fire s c).announce := by
  unfold State.fire; (try dsimp only); (repeat' split) <;>
    first | (with_reducible exact h) | (simp (maxDischargeDepth := 12) [h]; done) | (rename_i e; have := State.startPlay_announceSized _ _ _ _ _ _ e; simp (maxDischargeDepth := 12) [h] at this; simp_all; done)
@[simp] theorem State.fireFollowers_announceSized (s : State) (leader : Nat)
    (h : AnnounceSized s.announce) : AnnounceSized (State.fireFollowers s leader).announce := by
  unfold State.fireFollowers; (try dsimp only); (repeat' split) <;>
    first | (simp (maxDischargeDepth := 12) +contextual [h]; done) | (simp_all (maxDischargeDepth := 12); done)
@[simp] theorem State.countRepetition_announceSized (s : State) (c : Nat)
    (h : AnnounceSized s.announce) : AnnounceSized (State.countRepetition s c).announce := by
  unfold State.countRepetition; (try dsimp only); (repeat' split) <;>
    first | (simp (maxDischargeDepth := 12) +contextual [h]; done) | (simp_all (maxDischargeDepth := 12); done)
@[simp] theorem State.triggerFollowers_announceSized (s : State) (c : Nat)
    (h : AnnounceSized s.announce) : AnnounceSized (State.triggerFollowers s c).announce :=
  State.onFollowers_announceSized _ _ _ (State.loadStaged_announceSized _ _ h) (fun _ hk => hk)
@[simp] theorem State.cadenceExpiry_announceSized (s : State) (c : Nat)
    (h : AnnounceSized s.announce) : AnnounceSized (State.cadenceExpiry s c).announce := by
  unfold State.cadenceExpiry; (try dsimp only); (repeat' split) <;>
    first | (simp (maxDischargeDepth := 12) +contextual [h]; done) | (simp_all (maxDischargeDepth := 12); done)
@[simp] theorem State.cadencePass_announceSized (s : State)
    (h : AnnounceSized s.announce) : AnnounceSized (State.cadencePass s).announce := by
  unfold State.cadencePass; (try dsimp only); (repeat' split) <;>
    first | (simp (maxDischargeDepth := 12) +contextual [h]; done) | (simp_all (maxDischargeDepth := 12); done)
@[simp] theorem State.cadenceSample_announceSized (s : State)
    (h : AnnounceSized s.announce) : AnnounceSized (State.cadenceSample s).announce := by
  unfold State.cadenceSample; simp only [AnnounceSized_mk]
  exact ⟨h.clips, h.plays, ChannelsSized_map _ _ h.channelsSized (fun k hk => by rw [count_staged]; exact hk)⟩
@[simp] theorem State.cadenceSet_announceSized (s : State) (c : Nat) (setup : CadenceSetup)
    (h : AnnounceSized s.announce) : AnnounceSized (State.cadenceSet s c setup).1.announce := by
  unfold State.cadenceSet
  split
  · exact h
  · split
    · exact h
    · next role e =>
      split
      · exact h
      · split
        · exact h
        · dsimp only
          refine State.onChannel_announceSized _ _ _ h ?_
          intro k hk
          have hb := become_staged k role hk
          generalize k.become role = j at hb
          unfold CadenceChannel.stage
          cases setup with
          | leader p r t =>
            unfold State.roleWanted at e; dsimp only at e; split at e
            · next hp => exact hp.1
            · simp at e
          | _ => exact hb
@[simp] theorem State.cadenceStart_announceSized (s : State) (c : Nat)
    (h : AnnounceSized s.announce) : AnnounceSized (State.cadenceStart s c).1.announce := by
  unfold State.cadenceStart; dsimp only; (repeat' split) <;> first | (with_reducible exact h) | skip
  · refine State.fireFollowers_announceSized _ _ (State.onFollowers_announceSized _ _ _ ?_ (fun k hk => hk))
    refine State.onFollowers_announceSized _ _ _ (State.onChannel_announceSized _ _ _ (State.loadStaged_announceSized _ _ h) (fun k hk => hk)) (fun k hk => hk)
  · refine State.onFollowers_announceSized _ _ _ (State.onChannel_announceSized _ _ _ (State.loadStaged_announceSized _ _ h) (fun k hk => hk)) (fun k hk => hk)
@[simp] theorem State.cadenceStop_announceSized (s : State) (c : Nat)
    (h : AnnounceSized s.announce) : AnnounceSized (State.cadenceStop s c).1.announce := by
  unfold State.cadenceStop; (try dsimp only); (repeat' split) <;>
    first | (simp (maxDischargeDepth := 12) +contextual [h]; done) | (simp_all (maxDischargeDepth := 12); done)
@[simp] theorem State.stopCadences_announceSized (s : State)
    (h : AnnounceSized s.announce) : AnnounceSized (State.stopCadences s).announce := by
  unfold State.stopCadences; (try dsimp only); (repeat' split) <;>
    first | (simp (maxDischargeDepth := 12) +contextual [h]; done) | (simp_all (maxDischargeDepth := 12); done)
@[simp] theorem State.blendBurst_announceSized (s : State) (access : Access) (group : Nat) (right : Bool) (data : List (Nat × Sample)) (purpose : Purpose)
    (h : AnnounceSized s.announce) :
    AnnounceSized (State.blendBurst s access group right data purpose).announce := by
  unfold State.blendBurst; (try dsimp only); (repeat' split) <;>
    first | (simp (maxDischargeDepth := 12) +contextual [h]; done) | (simp_all (maxDischargeDepth := 12); done)
@[simp] theorem State.blendWrites_announceSized (s : State)
    (h : AnnounceSized s.announce) : AnnounceSized (State.blendWrites s).announce := by
  unfold State.blendWrites; (try dsimp only); (repeat' split) <;>
    first | (simp (maxDischargeDepth := 12) +contextual [h]; done) | (simp_all (maxDischargeDepth := 12); done)
@[simp] theorem State.blendReads_announceSized (s : State) (tap : Nat) (groups : List Nat)
    (h : AnnounceSized s.announce) : AnnounceSized (State.blendReads s tap groups).announce := by
  unfold State.blendReads; (try dsimp only); (repeat' split) <;>
    first | (simp (maxDischargeDepth := 12) +contextual [h]; done) | (simp_all (maxDischargeDepth := 12); done)
@[simp] theorem State.blendTurn_announceSized (s : State)
    (h : AnnounceSized s.announce) : AnnounceSized (State.blendTurn s).announce := by
  unfold State.blendTurn; (try dsimp only); (repeat' split) <;>
    first | (simp (maxDischargeDepth := 12) +contextual [h]; done) | (simp_all (maxDischargeDepth := 12); done)
@[simp] theorem State.blendSample_announceSized (s : State)
    (h : AnnounceSized s.announce) : AnnounceSized (State.blendSample s).announce := by
  unfold State.blendSample; (try dsimp only); (repeat' split) <;>
    first | (simp (maxDischargeDepth := 12) +contextual [h]; done) | (simp_all (maxDischargeDepth := 12); done)
@[simp] theorem State.echoWrite_announceSized (s : State)
    (h : AnnounceSized s.announce) : AnnounceSized (State.echoWrite s).announce := by
  unfold State.echoWrite; (try dsimp only); (repeat' split) <;>
    first | (simp (maxDischargeDepth := 12) +contextual [h]; done) | (simp_all (maxDischargeDepth := 12); done)
@[simp] theorem State.echoReads_announceSized (s : State)
    (h : AnnounceSized s.announce) : AnnounceSized (State.echoReads s).announce := by
  unfold State.echoReads; (try dsimp only); (repeat' split) <;>
    first | (simp (maxDischargeDepth := 12) +contextual [h]; done) | (simp_all (maxDischargeDepth := 12); done)
@[simp] theorem State.echoTurn_announceSized (s : State)
    (h : AnnounceSized s.announce) : AnnounceSized (State.echoTurn s).announce := by
  unfold State.echoTurn; (try dsimp only); (repeat' split) <;>
    first | (simp (maxDischargeDepth := 12) +contextual [h]; done) | (simp_all (maxDischargeDepth := 12); done)
@[simp] theorem State.callSample_announceSized (s : State)
    (h : AnnounceSized s.announce) : AnnounceSized (State.callSample s).announce := by
  unfold State.callSample; (try dsimp only); (repeat' split) <;>
    first | (simp (maxDischargeDepth := 12) +contextual [h]; done) | (simp_all (maxDischargeDepth := 12); done)
@[simp] theorem State.localSample_announceSized (s : State) (i : InputSamples)
    (h : AnnounceSized s.announce) : AnnounceSized (State.localSample s i).announce := by
  unfold State.localSample; (try dsimp only); (repeat' split) <;>
    first | (simp (maxDischargeDepth := 12) +contextual [h]; done) | (simp_all (maxDischargeDepth := 12); done)
@[simp] theorem State.overdue_announceSized (s : State) (bank : Nat)
    (h : AnnounceSized s.announce) : AnnounceSized (State.overdue s bank).announce := by
  unfold State.overdue; (try dsimp only); (repeat' split) <;>
    first | (simp (maxDischargeDepth := 12) +contextual [h]; done) | (simp_all (maxDischargeDepth := 12); done)
@[simp] theorem State.refreshDebtRise_announceSized (s : State)
    (h : AnnounceSized s.announce) : AnnounceSized (State.refreshDebtRise s).announce := by
  unfold State.refreshDebtRise; (try dsimp only); (repeat' split) <;>
    first | (simp (maxDischargeDepth := 12) +contextual [h]; done) | (simp_all (maxDischargeDepth := 12); done)
@[simp] theorem State.setUp_announceSized (s : State) (r : StartUpRecord)
    (h : AnnounceSized s.announce) : AnnounceSized (State.setUp s r).announce := by
  unfold State.setUp; (try dsimp only); (repeat' split) <;>
    first | (simp (maxDischargeDepth := 12) +contextual [h]; done) | (simp_all (maxDischargeDepth := 12); done)
@[simp] theorem State.recordRead_announceSized (s : State) (read : RecordRead)
    (h : AnnounceSized s.announce) : AnnounceSized (State.recordRead s read).announce := by
  unfold State.recordRead; (try dsimp only); (repeat' split) <;>
    first | (simp (maxDischargeDepth := 12) +contextual [h]; done) | (simp_all (maxDischargeDepth := 12); done)
@[simp] theorem State.wake_announceSized (s : State) (cause : Cause) (stayAwake : Bool)
    (h : AnnounceSized s.announce) : AnnounceSized (State.wake s cause stayAwake).announce := by
  unfold State.wake; split
  · exact h
  · dsimp only; simp (maxDischargeDepth := 12) [State.keepingReset, Announce.keptClips, h]
@[simp] theorem State.startSeen_announceSized (s : State) (inWindow : Bool)
    (h : AnnounceSized s.announce) : AnnounceSized (State.startSeen s inWindow).announce := by
  unfold State.startSeen; (try dsimp only); (repeat' split) <;>
    first | (simp (maxDischargeDepth := 12) +contextual [h]; done) | (simp_all (maxDischargeDepth := 12); done)
@[simp] theorem State.enterDormant_announceSized (s : State)
    (h : AnnounceSized s.announce) : AnnounceSized (State.enterDormant s).announce := by
  unfold State.enterDormant; (try dsimp only); (repeat' split) <;>
    first | (simp (maxDischargeDepth := 12) +contextual [h]; done) | (simp_all (maxDischargeDepth := 12); done)
@[simp] theorem State.wakeRequest_announceSized (s : State) (flag : Byte)
    (h : AnnounceSized s.announce) : AnnounceSized (State.wakeRequest s flag).announce := by
  unfold State.wakeRequest; (try dsimp only); (repeat' split) <;>
    first | (simp (maxDischargeDepth := 12) +contextual [h]; done) | (simp_all (maxDischargeDepth := 12); done)
@[simp] theorem State.clipLoadBegin_announceSized (s : State) (i offset length : Nat)
    (h : AnnounceSized s.announce) : AnnounceSized (State.clipLoadBegin s i offset length).1.announce := by
  unfold State.clipLoadBegin; (try dsimp only); (repeat' split) <;>
    first | (simp (maxDischargeDepth := 12) +contextual [h]; done) | (simp_all (maxDischargeDepth := 12); done)
@[simp] theorem State.clipData_announceSized (s : State) (i : Nat) (samples : List Sample)
    (h : AnnounceSized s.announce) : AnnounceSized (State.clipData s i samples).1.announce := by
  unfold State.clipData; (try dsimp only); (repeat' split) <;>
    first | (simp (maxDischargeDepth := 12) +contextual [h]; done) | (simp_all (maxDischargeDepth := 12); done)
@[simp] theorem State.clipLoadEnd_announceSized (s : State) (i : Nat)
    (h : AnnounceSized s.announce) : AnnounceSized (State.clipLoadEnd s i).1.announce := by
  unfold State.clipLoadEnd; (try dsimp only); (repeat' split) <;>
    first | (simp (maxDischargeDepth := 12) +contextual [h]; done) | (simp_all (maxDischargeDepth := 12); done)
@[simp] theorem State.clipLock_announceSized (s : State) (i : Nat)
    (h : AnnounceSized s.announce) : AnnounceSized (State.clipLock s i).1.announce := by
  unfold State.clipLock; (try dsimp only); (repeat' split) <;>
    first | (simp (maxDischargeDepth := 12) +contextual [h]; done) | (simp_all (maxDischargeDepth := 12); done)

/-- Every operation keeps these sizes. -/
theorem announceSized_kept : Kept (fun s => AnnounceSized s.announce) where
  lineSilent := by intro a0 h; simp (maxDischargeDepth := 12) [h]
  enterDormant := by intro a0 h; simp (maxDischargeDepth := 12) [h]
  selfVetoDue := by intro a0 h; simp (maxDischargeDepth := 12) [h]
  listenEnd := by intro a0 h; simp (maxDischargeDepth := 12) [h]
  agedOut := by intro a0 a1 h; simp (maxDischargeDepth := 12) [h]
  freeSlot := by intro a0 a1 h; simp (maxDischargeDepth := 12) [h]
  readyEntries := by intro a0 h; simp (maxDischargeDepth := 12) [h]
  presenceFallsDue := by intro a0 h; simp (maxDischargeDepth := 12) [h]
  silenceEnded := by intro a0 h; simp (maxDischargeDepth := 12) [h]
  noteStall := by intro a0 h; simp (maxDischargeDepth := 12) [h]
  noteExpiry := by intro a0 h; simp (maxDischargeDepth := 12) [h]
  uplinkRetry := by intro a0 h; simp (maxDischargeDepth := 12) [h]
  carryRetry := by intro a0 a1 h; simp (maxDischargeDepth := 12) [h]
  arrivalGap := by intro a0 h; simp (maxDischargeDepth := 12) [h]
  qualityBlock := by intro a0 h; simp (maxDischargeDepth := 12) [h]
  endGateRamp := by intro a0 h; simp (maxDischargeDepth := 12) [h]
  endEntryRamp := by intro a0 a1 a2 h; simp (maxDischargeDepth := 12) [h]
  endPositionRamp := by intro a0 a1 h; simp (maxDischargeDepth := 12) [h]
  refreshDebtRise := by intro a0 h; simp (maxDischargeDepth := 12) [h]
  filled := by intro a0 h; simp (maxDischargeDepth := 12) [h]
  primingDone := by intro a0 h; simp (maxDischargeDepth := 12) [h]
  correlationResult := by intro a0 h; simp (maxDischargeDepth := 12) [h]
  crossfadeEnd := by intro a0 h; simp (maxDischargeDepth := 12) [h]
  toDigitalComplete := by intro a0 h; simp (maxDischargeDepth := 12) [h]
  toAnalogueComplete := by intro a0 h; simp (maxDischargeDepth := 12) [h]
  cancellerBlock := by intro a0 h; simp (maxDischargeDepth := 12) [h]
  freezeEnd := by intro a0 h; simp (maxDischargeDepth := 12) [h]
  referenceLost := by intro a0 h; simp (maxDischargeDepth := 12) [h]
  triggerFollowers := by intro a0 a1 h; simp (maxDischargeDepth := 12) [h]
  countRepetition := by intro a0 a1 h; simp (maxDischargeDepth := 12) [h]
  fire := by intro a0 a1 h; simp (maxDischargeDepth := 12) [h]
  playCompleted := by intro a0 a1 h; simp (maxDischargeDepth := 12) [h]
  recordRead := by intro a0 a1 h; simp (maxDischargeDepth := 12) [h]
  startSeen := by intro a0 a1 h; simp (maxDischargeDepth := 12) [h]
  leadStart := by intro a0 h; simp (maxDischargeDepth := 12) [h]
  expireTimer := by intro a0 h; simp (maxDischargeDepth := 12) [h]
  missFurther := by intro a0 h; simp (maxDischargeDepth := 12) [h]
  controlField := by intro a0 a1 a2 h; simp (maxDischargeDepth := 12) [h]
  audioSlots := by intro a0 a1 h; simp (maxDischargeDepth := 12) [h]
  tailEnd := by intro a0 a1 h; simp (maxDischargeDepth := 12) [h]
  messageEffect := by intro a0 a1 a2 h; simp (maxDischargeDepth := 12) [h]
  localSample := by intro a0 a1 h; simp (maxDischargeDepth := 12) [h]
  decoderArrives := by intro a0 a1 a2 h; simp (maxDischargeDepth := 12) [h]
  burstComplete := by intro a0 a1 h; simp (maxDischargeDepth := 12) [h]
  completeOpen := by intro a0 a1 h; simp (maxDischargeDepth := 12) [h]
  completeClose := by intro a0 a1 h; simp (maxDischargeDepth := 12) [h]
  completeRefresh := by intro a0 a1 h; simp (maxDischargeDepth := 12) [h]
  keepUpStart := by intro a0 h; simp (maxDischargeDepth := 12) [h]
  host := by intro a0 a1 h; simp (maxDischargeDepth := 12) [h]
  noteBox := by intro a0 a1 h; simp (maxDischargeDepth := 12) [h]
  rest := by intro s q h; exact h
  enterHost := by intro a0 a1 a2 a3 q h; simp (maxDischargeDepth := 12) [h]
  leaveLine := by intro a0 h; simp (maxDischargeDepth := 12) [h]
  goToListening := by intro a0 h; simp (maxDischargeDepth := 12) [h]
  wake := by intro a0 a1 a2 h; simp (maxDischargeDepth := 12) [h]
  judgeRoute := by intro a0 a1 a2 a3 a4 h; simp (maxDischargeDepth := 12) [h]
  clipLoadBegin := by intro a0 a1 a2 a3 h; simp (maxDischargeDepth := 12) [h]
  clipData := by intro a0 a1 a2 h; simp (maxDischargeDepth := 12) [h]
  clipLoadEnd := by intro a0 a1 h; simp (maxDischargeDepth := 12) [h]
  clipLock := by intro a0 a1 h; simp (maxDischargeDepth := 12) [h]
  startPlay := by
    intro s u c l r p e h; exact State.startPlay_announceSized s c l r .host (p, u) e h
  cadenceSet := by intro a0 a1 a2 h; simp (maxDischargeDepth := 12) [h]
  cadenceStart := by intro a0 a1 h; simp (maxDischargeDepth := 12) [h]
  cadenceStop := by intro a0 a1 h; simp (maxDischargeDepth := 12) [h]
  blendEnable := by intro a0 h; simp (maxDischargeDepth := 12) [h]
  blendDisable := by intro a0 h; simp (maxDischargeDepth := 12) [h]
  tuned := by intro a0 h; simp (maxDischargeDepth := 12) [h]
  beginNote := by intro a0 a1 a2 a3 h; simp (maxDischargeDepth := 12) [h]
  powerOn := by
    intro s h; exact reset_announceSized
  assertPin := by intro a0 h; simp (maxDischargeDepth := 12) [h]
  resetLine := by
    intro s h; show AnnounceSized (s.assertPin.keepingReset .resetLine).announce; simp (maxDischargeDepth := 12) [State.keepingReset, Announce.keptClips, h]

end Sys2Proof.Machine
end

