-- ==== Sys2Proof/Laws/TablesLawful.lean ====
section
/-! SUPPORT. Every operation keeps the sizes and the laws of the line tables: streams only of stations present (R45), at most one record ACTIVE (R150). -/

namespace Sys2Proof.Machine

set_option maxRecDepth 20000
set_option linter.unusedSimpArgs false
set_option linter.unusedVariables false

/-- The stream part of the law: streams only of stations present (R45). -/
def Streams (t : LineTables) : Prop := ∀ x, x < 64 → t.entry x ≠ .none → (t.station (x / 4)).present = true
/-- At most one record ACTIVE (R150). -/
def OneActive (t : LineTables) : Prop := ¬((t.call 0).state = .active ∧ (t.call 1).state = .active)
/-- The sizes and the laws of the line tables. -/
structure TablesLawful (t : LineTables) : Prop where
  sized : TablesSized t
  streams : Streams t
  one : OneActive t
theorem getD_set {α} (l : List α) (i j : Nat) (a d : α) : (l.set i a).getD j d = if j = i ∧ i < l.length then a else l.getD j d := by
  simp only [List.getD_eq_getElem?_getD, List.getElem?_set]
  by_cases h : i = j
  · subst h; by_cases h2 : i < l.length <;> simp [h2]
  · simp [h, Ne.symm h]
theorem getD_modify {α} (l : List α) (i j : Nat) (f : α → α) (d : α) : (l.modify i f).getD j d = if j = i ∧ i < l.length then f (l.getD j d) else l.getD j d := by
  simp only [List.getD_eq_getElem?_getD, List.getElem?_modify]
  by_cases h : i = j
  · subst h; by_cases h2 : i < l.length <;> simp [h2]
  · simp [h, Ne.symm h]
theorem getD_map {α β} (l : List α) (f : α → β) (j : Nat) (d : α) (e : β) (h : f d = e) : (l.map f).getD j e = f (l.getD j d) := by
  subst h
  by_cases hj : j < l.length <;> simp [List.getD_eq_getElem?_getD, hj]
theorem setEntry_streams (t : LineTables) (x) (e) (h : Streams t) (hx : e = .none ∨ (t.station (x / 4)).present = true) : Streams (t.setEntry x e) := by
  intro y hy hne
  show (t.station (y / 4)).present = true
  have : (t.setEntry x e).entry y = if y = x ∧ x < t.directory.length then e else t.entry y := getD_set _ _ _ _ _
  rw [this] at hne
  split at hne
  · next hc => rw [hc.1]; exact hx.resolve_left hne
  · exact h y hy hne
theorem setEntry_lawful (t : LineTables) (x) (e) (h : TablesLawful t) (hx : e = .none ∨ (t.station (x / 4)).present = true) : TablesLawful (t.setEntry x e) :=
  ⟨setEntry_sized t x e h.sized, setEntry_streams t x e h.streams hx, h.one⟩
theorem slots_lawful (t : LineTables) (l : List Slot) (h : TablesLawful t) (hl : l.length = 40) : TablesLawful { t with slots := l } :=
  ⟨⟨h.sized.1, h.sized.2.1, hl, h.sized.2.2.2⟩, h.streams, h.one⟩
theorem endStream_lawful (t : LineTables) (x) (h : TablesLawful t) : TablesLawful (t.endStream x) :=
  slots_lawful _ _ (setEntry_lawful t x .none h (.inl rfl)) (by simp [h.sized])
theorem offerStream_lawful (t : LineTables) (x p) (h : TablesLawful t) (hx : (t.station (x / 4)).present = true) : TablesLawful (t.offerStream x p) :=
  slots_lawful _ _ (setEntry_lawful t x _ h (.inr hx)) (by simp [h.sized])
theorem carryStream_lawful (t : LineTables) (x p f) (h : TablesLawful t) (hx : (t.station (x / 4)).present = true) : TablesLawful (t.carryStream x p f) :=
  slots_lawful _ _ (setEntry_lawful t x _ h (.inr hx)) (by simp [h.sized])
theorem call_setCall (t : LineTables) (j k) (c) : (t.setCall j c).call k = if k = j ∧ j < t.calls.length then c else t.call k := getD_set _ _ _ _ _
theorem setCall_lawful (t : LineTables) (j) (c) (h : TablesLawful t) (hc : c.state ≠ .active ∨ c.state = (t.call j).state) : TablesLawful (t.setCall j c) := by
  refine ⟨setCall_sized t j c h.sized, h.streams, ?_⟩
  intro ⟨h0, h1⟩
  rw [call_setCall] at h0 h1
  apply h.one
  refine ⟨?_, ?_⟩
  · split at h0
    · next e => rw [e.1]; rcases hc with hc | hc; exact absurd h0 hc; rw [← hc, h0]
    · exact h0
  · split at h1
    · next e => rw [e.1]; rcases hc with hc | hc; exact absurd h1 hc; rw [← hc, h1]
    · exact h1
theorem activate_lawful (t : LineTables) (j) (c) (h : TablesLawful t) : TablesLawful (t.activate j c) := by
  refine ⟨activate_sized t j c h.sized, ?_, ?_⟩
  · unfold LineTables.activate; dsimp only; split <;> exact h.streams
  · unfold LineTables.activate; dsimp only
    have hl : t.calls.length = 2 := h.sized.2.2.2
    intro ⟨h0, h1⟩
    rw [call_setCall] at h0 h1
    have ho := h.one
    by_cases hj : j = 0
    · subst hj
      rw [if_neg (by omega)] at h1
      have ho1 : otherCall 0 = 1 := rfl
      rw [ho1] at h1
      by_cases he : (t.call 1).state = .active
      · rw [if_pos he, call_setCall] at h1; simp [hl] at h1
      · rw [if_neg he] at h1; exact he h1
    · by_cases hj1 : j = 1
      · subst hj1
        rw [if_neg (by omega)] at h0
        have ho1 : otherCall 1 = 0 := rfl
        rw [ho1] at h0
        by_cases he : (t.call 0).state = .active
        · rw [if_pos he, call_setCall] at h0; simp [hl] at h0
        · rw [if_neg he] at h0; exact he h0
      · rw [if_neg (by omega)] at h0 h1
        have hoth : otherCall j = 0 := by unfold otherCall; omega
        rw [hoth] at h0 h1
        split at h0
        · rw [call_setCall] at h0; simp [hl] at h0
        · next he => exact he h0
theorem onStation_lawful (t : LineTables) (n) (f : RosterEntry → RosterEntry) (h : TablesLawful t) (hf : ∀ e, e.present = true → (f e).present = true) : TablesLawful (t.onStation n f) := by
  refine ⟨onStation_sized t n f h.sized, ?_, h.one⟩
  intro x hx hne
  have := h.streams x hx hne
  have e : (t.onStation n f).station (x / 4) = if x / 4 = n ∧ n < t.roster.length then f (t.station (x / 4)) else t.station (x / 4) := getD_modify _ _ _ _ _
  rw [e]; split
  · exact hf _ this
  · exact this
theorem roster_map_lawful (t : LineTables) (f : RosterEntry → RosterEntry) (h : TablesLawful t) (hf : ∀ e, (f e).present = e.present) (ha : f .absent = .absent) : TablesLawful { t with roster := t.roster.map f } := by
  refine ⟨⟨by simp [h.sized], h.sized.2⟩, ?_, h.one⟩
  intro x hx hne
  have := h.streams x hx hne
  have e : (({ t with roster := t.roster.map f } : LineTables)).station (x / 4) = f (t.station (x / 4)) := getD_map _ _ _ _ _ ha
  rw [e, hf]; exact this
theorem restart_lawful (t : LineTables) (h : TablesLawful t) : TablesLawful t.restartCompleteness := roster_map_lawful t _ h (fun _ => rfl) rfl
theorem lawful_ext (t u : LineTables) (h : TablesLawful t) (h1 : u.roster = t.roster) (h2 : u.directory = t.directory) (h3 : u.slots.length = 40) (h4 : u.calls = t.calls) : TablesLawful u := by
  obtain ⟨fc, r, d, s, c⟩ := u
  obtain ⟨fc', r', d', s', c'⟩ := t
  dsimp only at h1 h2 h3 h4
  subst h1 h2 h4
  exact ⟨⟨h.sized.1, h.sized.2.1, h3, h.sized.2.2.2⟩, h.streams, h.one⟩
theorem atStart_lawful (t : LineTables) (h : TablesLawful t) : TablesLawful t.atStart := by
  have h1 := roster_map_lawful t (fun e => if e.present then { e with age := e.age + 1 } else e) h (fun e => by split <;> rfl) rfl
  exact lawful_ext _ _ h1 rfl rfl (by simp [LineTables.atStart, h.sized]) rfl
theorem calls_map_lawful (t : LineTables) (f : CallRecord → CallRecord) (h : TablesLawful t) (hf : ∀ c, (f c).state = .active → c.state = .active) (ha : f .none = .none) : TablesLawful { t with calls := t.calls.map f } := by
  refine ⟨⟨h.sized.1, h.sized.2.1, h.sized.2.2.1, by simp [h.sized]⟩, h.streams, ?_⟩
  have e : ∀ j, (({ t with calls := t.calls.map f } : LineTables)).call j = f (t.call j) := fun j => getD_map _ _ _ _ _ ha
  intro ⟨h0, h1⟩
  rw [e] at h0 h1
  exact h.one ⟨hf _ h0, hf _ h1⟩
theorem strip_lawful (t b : LineTables) (h : TablesLawful t) : TablesLawful (t.strip b) := calls_map_lawful t _ h (fun _ h => h) rfl
theorem setStation_lawful (t : LineTables) (n e) (h : TablesLawful t) (hn : e.present = true ∨ ∀ x, x < 64 → x / 4 = n → t.entry x = .none) : TablesLawful (t.setStation n e) := by
  refine ⟨setStation_sized t n e h.sized, ?_, h.one⟩
  intro x hx hne
  have hp := h.streams x hx hne
  have es : (t.setStation n e).station (x / 4) = if x / 4 = n ∧ n < t.roster.length then e else t.station (x / 4) := getD_set _ _ _ _ _
  rw [es]; split
  · next hc =>
    rcases hn with hn | hn
    · exact hn
    · exact absurd (hn x hx hc.1) hne
  · exact hp
theorem removeStation_lawful (t : LineTables) (n) (h : TablesLawful t) : TablesLawful (t.removeStation n) := by
  unfold LineTables.removeStation; dsimp only
  have key : ∀ (l : List Nat) (u : LineTables), TablesLawful u → TablesLawful (l.foldl (fun acc i => acc.endStream (n * 4 + i)) u) ∧
      (∀ x, u.entry x = .none → (l.foldl (fun acc i => acc.endStream (n * 4 + i)) u).entry x = .none) ∧
      (∀ i, i ∈ l → n * 4 + i < 64 → (l.foldl (fun acc i => acc.endStream (n * 4 + i)) u).entry (n * 4 + i) = .none) := by
    intro l
    induction l with
    | nil => intro u hu; exact ⟨hu, fun _ hx => hx, fun i hi => by simp at hi⟩
    | cons a l ih =>
      intro u hu
      have hen : ∀ x, (u.endStream (n * 4 + a)).entry x = if x = n * 4 + a ∧ n * 4 + a < u.directory.length then .none else u.entry x := fun x => getD_set _ _ _ _ _
      obtain ⟨i1, i2, i3⟩ := ih _ (endStream_lawful u (n * 4 + a) hu)
      refine ⟨i1, ?_, ?_⟩
      · intro x hx; apply i2; rw [hen]; split
        · rfl
        · exact hx
      · intro i hi hlt
        rcases List.mem_cons.mp hi with rfl | hi
        · apply i2; rw [hen, if_pos ⟨rfl, by rw [hu.sized.2.1]; exact hlt⟩]
        · exact i3 i hi hlt
  obtain ⟨k1, k2, k3⟩ := key (List.range 4) t h
  generalize (List.range 4).foldl (fun acc i => acc.endStream (n * 4 + i)) t = u at k1 k2 k3
  refine setStation_lawful _ n _ (calls_map_lawful u _ k1 ?_ ?_) (.inr ?_)
  · intro c hc; unfold callAfterRemoval at hc; split at hc
    · exact absurd hc (by decide)
    · split at hc
      · exact hc
      · exact hc
  · unfold callAfterRemoval; split
    · rfl
    · split <;> rfl
  · intro x hx hxn
    have : x = n * 4 + x % 4 := by omega
    show u.entry x = .none
    rw [this]; exact k3 (x % 4) (by simp; omega) (by omega)
theorem entry_lt (t : LineTables) (y) (h : TablesSized t) (hy : t.entry y ≠ .none) : y < 64 := by
  by_cases hl : y < 64
  · exact hl
  · exact absurd (by unfold LineTables.entry; rw [List.getD_eq_getElem?_getD, List.getElem?_eq_none (by rw [h.2.1]; omega)]; rfl) hy
theorem displace_lawful (t : LineTables) (y) (h : TablesLawful t) : TablesLawful (t.displace y) := by
  unfold LineTables.displace; split
  · next p e =>
    have hy := entry_lt t y h.sized (by intro hn; rw [hn] at e; simp [StreamEntry.parameters] at e)
    exact offerStream_lawful t y p h (h.streams y hy (by intro hn; rw [hn] at e; simp [StreamEntry.parameters] at e))
  · exact h

theorem displace_roster (t : LineTables) (y) : (t.displace y).roster = t.roster := by
  unfold LineTables.displace; split <;> rfl
theorem applyStream_lawful (t : LineTables) (x st p f) (h : TablesLawful t) (hx : (t.station (x / 4)).present = true) : TablesLawful (t.applyStream x st p f) := by
  unfold LineTables.applyStream; split
  · split
    · exact h
    · exact endStream_lawful t x h
  · exact offerStream_lawful t x p h hx
  · dsimp only
    have key : ∀ (l : List Nat) (u : LineTables), TablesLawful u → TablesLawful (l.foldl (fun acc y => acc.displace y) u) ∧ (l.foldl (fun acc y => acc.displace y) u).roster = u.roster := by
      intro l
      induction l with
      | nil => intro u hu; exact ⟨hu, rfl⟩
      | cons a l ih => intro u hu; rw [List.foldl_cons]; obtain ⟨a1, a2⟩ := ih _ (displace_lawful u a hu); exact ⟨a1, by rw [a2, displace_roster]⟩
    obtain ⟨k1, k2⟩ := key (t.ownersIn x f p.channels) _ (slots_lawful t (holdSlots x t.slots) h (by simp [h.sized]))
    refine carryStream_lawful _ _ _ _ k1 ?_
    unfold LineTables.station at *
    rw [k2]; exact hx
theorem applyStream_roster (t : LineTables) (x st p f) : (t.applyStream x st p f).roster = t.roster := by
  unfold LineTables.applyStream; split
  · split <;> rfl
  · rfl
  · dsimp only
    have key : ∀ (l : List Nat) (u : LineTables), (l.foldl (fun acc y => acc.displace y) u).roster = u.roster := by
      intro l; induction l with
      | nil => intro u; rfl
      | cons a l ih => intro u; rw [List.foldl_cons, ih, displace_roster]
    exact key _ _
theorem setEntry_far (t : LineTables) (x) (e) (h : TablesLawful t) (hx : 64 ≤ x) : TablesLawful (t.setEntry x e) := by
  refine ⟨setEntry_sized t x e h.sized, ?_, h.one⟩
  intro y hy hne
  have : (t.setEntry x e).entry y = if y = x ∧ x < t.directory.length then e else t.entry y := getD_set _ _ _ _ _
  rw [this, if_neg (by omega)] at hne
  exact h.streams y hy hne
theorem applyStream_far (t : LineTables) (x st p f) (h : TablesLawful t) (hx : 64 ≤ x) : TablesLawful (t.applyStream x st p f) := by
  unfold LineTables.applyStream; split
  · split
    · exact h
    · exact endStream_lawful t x h
  · exact slots_lawful _ _ (setEntry_far t x _ h hx) (by simp [h.sized])
  · dsimp only
    have key : ∀ (l : List Nat) (u : LineTables), TablesLawful u → TablesLawful (l.foldl (fun acc y => acc.displace y) u) := by
      intro l
      induction l with
      | nil => intro u hu; exact hu
      | cons a l ih => intro u hu; rw [List.foldl_cons]; exact ih _ (displace_lawful u a hu)
    have k1 := key (t.ownersIn x f p.channels) _ (slots_lawful t (holdSlots x t.slots) h (by simp [h.sized]))
    exact slots_lawful _ _ (setEntry_far _ x _ k1 hx) (by simp [k1.sized])
theorem markCalls_lawful (t : LineTables) (n i) (h : TablesLawful t) : TablesLawful (t.markCalls n i) := by
  unfold LineTables.markCalls; split
  · exact onStation_lawful _ _ _ h (fun _ h => h)
  · split
    · dsimp only
      refine onStation_lawful _ _ _ ?_ (fun _ h => h)
      have key : ∀ (l : List Nat) (u : LineTables), TablesLawful u → TablesLawful (l.foldl (fun acc j => if (acc.call j).owner = some n then acc.setCall j .none else acc) u) := by
        intro l; induction l with
        | nil => intro u hu; exact hu
        | cons a l ih =>
          intro u hu; rw [List.foldl_cons]; apply ih; split
          · exact setCall_lawful _ _ _ hu (.inl (by decide))
          · exact hu
      exact key _ _ h
    · exact h
theorem applyDescriptor_lawful (t : LineTables) (n d) (h : TablesLawful t) (hd : descriptorInRange d = true) (hp : n < 16 → (t.station n).present = true) : TablesLawful (t.applyDescriptor n d) := by
  unfold LineTables.applyDescriptor; split
  · next i st k c l f =>
    dsimp only
    refine markCalls_lawful _ _ _ ?_
    split
    · exact h
    · have hi : i.toNat ≤ 3 := by simp [descriptorInRange] at hd; omega
      by_cases hn : n < 16
      · exact applyStream_lawful _ _ _ _ _ h (by rw [show (n * 4 + i.toNat) / 4 = n by omega]; exact hp hn)
      · exact applyStream_far _ _ _ _ _ h (by omega)
  · dsimp only
    refine onStation_lawful _ _ _ ?_ (fun _ h => h)
    split
    · exact activate_lawful _ _ _ h
    · next hc => exact setCall_lawful _ _ _ h (.inl hc)
  · exact h

theorem offer_lawful (t : LineTables) (x p) (h : TablesLawful t) (hx : (t.station (x / 4)).present = true) : TablesLawful (t.offer x p).1 := by
  unfold LineTables.offer; (repeat' split) <;> first | exact h | exact setEntry_lawful _ _ _ h (.inr hx)
theorem claim_lawful (t : LineTables) (x f) (h : TablesLawful t) (hx : (t.station (x / 4)).present = true) : TablesLawful (t.claim x f).1 := by
  unfold LineTables.claim; (repeat' split) <;> first | exact h | exact carryStream_lawful _ _ _ _ h hx
theorem release_lawful (t : LineTables) (x) (h : TablesLawful t) (hx : (t.station (x / 4)).present = true) : TablesLawful (t.release x).1 := by
  unfold LineTables.release; (repeat' split) <;> first | exact h | exact offerStream_lawful _ _ _ h hx
theorem withdraw_lawful (t : LineTables) (x) (h : TablesLawful t) : TablesLawful (t.withdraw x).1 := by
  unfold LineTables.withdraw; (repeat' split) <;> first | exact h | exact endStream_lawful _ _ h
theorem judgeCall_lawful (t : LineTables) (x j a f) (h : TablesLawful t) : TablesLawful (t.judgeCall x j a f).1 := by
  unfold LineTables.judgeCall; dsimp only; (repeat' split) <;> first | exact h | skip
  · unfold LineTables.ring; dsimp only; (repeat' split) <;> first | exact h | exact setCall_lawful _ _ _ h (.inl (by simp))
  · unfold LineTables.answer; dsimp only; (repeat' split) <;> first | exact h | exact activate_lawful _ _ _ h
  · exact setCall_lawful _ _ _ h (.inl (by simp))
  · exact activate_lawful _ _ _ h
  · unfold LineTables.callZones; dsimp only; (repeat' split) <;> first | exact h | exact setCall_lawful _ _ _ h (.inr rfl)
  · exact setCall_lawful _ _ _ h (.inl (by decide))
theorem tablesReset_lawful : TablesLawful LineTables.reset := ⟨tables_reset_sized, by
  intro x hx hne
  exact absurd (show (List.replicate 64 StreamEntry.none).getD x .none = .none by simp only [List.getD_eq_getElem?_getD, List.getElem?_replicate]; split <;> rfl) hne, fun hh => absurd hh.1 (by decide)⟩
theorem cleared_lawful (t : LineTables) : TablesLawful t.cleared := lawful_ext _ _ tablesReset_lawful rfl rfl rfl rfl
theorem State.changeTables_tables (s : State) (ch : LineTables) (c : Cause) (cc : Nat → Cause) :
    (s.changeTables ch c cc).tables = ch.strip s.tables := by
  unfold State.changeTables
  dsimp only
  have key : ∀ (b : State) (l : List StreamNotice) (a : State), (l.foldl (fun acc n => ((acc.noticeHost n).zonesAtNotice b n).lookAtUplink) a).tables = a.tables := by
    intro b l; induction l with
    | nil => intro a; rfl
    | cons n l ih => intro a; simp only [List.foldl_cons]; rw [ih]; simp
  split
  · rw [key]; simp
  · simp [key]


theorem own_station (n i : Nat) (h : i ≤ 3) : (n * 4 + i) / 4 = n := by omega
@[simp] theorem forEach_tablesLawful (n f) (s : State) (h : ∀ i s, TablesLawful s.tables → TablesLawful (f i s).tables) (hs : TablesLawful s.tables) : TablesLawful (forEach n f s).tables := forEach_holds (P := fun s => TablesLawful s.tables) n f h s hs
@[simp] theorem State.changeTables_tablesLawful (s : State) (changed : LineTables) (cause : Cause) (callCause : Nat → Cause)
    (h : TablesLawful s.tables) (hc : TablesLawful changed) :
    TablesLawful (State.changeTables s changed cause callCause).tables := by
  rw [State.changeTables_tables]; exact strip_lawful _ _ hc
@[simp] theorem State.dropTables_tablesLawful (s : State)
    (h : TablesLawful s.tables) : TablesLawful (State.dropTables s).tables := by
  unfold State.dropTables; simp [cleared_lawful]
@[simp] theorem State.goTo_tablesLawful (s : State) (new : StationState) (cause : Cause)
    (h : TablesLawful s.tables) : TablesLawful (State.goTo s new cause).tables := by
  unfold State.goTo; (try dsimp only); (repeat' split) <;>
    first | (simp (maxDischargeDepth := 12) +contextual [h]; done) | (simp_all (maxDischargeDepth := 12); done)
@[simp] theorem State.removeStation_tablesLawful (s : State) (n : Nat) (cause : Cause)
    (h : TablesLawful s.tables) : TablesLawful (State.removeStation s n cause).tables := by
  unfold State.removeStation; simp; exact State.changeTables_tablesLawful _ _ _ _ h (removeStation_lawful _ _ h)
@[simp] theorem State.ownRemoved_tablesLawful (s : State)
    (h : TablesLawful s.tables) : TablesLawful (State.ownRemoved s).tables := by
  unfold State.ownRemoved; (try dsimp only); (repeat' split) <;>
    first | (simp (maxDischargeDepth := 12) +contextual [h]; done) | (simp_all (maxDischargeDepth := 12); done)
@[simp] theorem State.judgeJoin_tablesLawful (s : State) (sender : Nat) (roles : Byte) (zones privateZones : ZoneSet) (serial : BitVec 32)
    (h : TablesLawful s.tables) :
    TablesLawful (State.judgeJoin s sender roles zones privateZones serial).1.tables := by
  unfold State.judgeJoin; split
  · simp; exact setStation_lawful _ _ _ h (.inl rfl)
  · exact h
@[simp] theorem State.countDescriptor_tablesLawful (s : State) (before : LineTables) (sender : Nat) (owned : SlotSet) (d : Descriptor)
    (h : TablesLawful s.tables) : TablesLawful (State.countDescriptor s before sender owned d).tables := by
  unfold State.countDescriptor; split
  · dsimp only
    refine onStation_lawful _ _ _ ?_ (fun _ h => h)
    split
    · exact restart_lawful _ h
    · exact h
  · exact h
@[simp] theorem State.judgePresence_tablesLawful (s : State) (sender : Nat) (roles : Byte) (zones privateZones : ZoneSet) (owned : SlotSet) (d : Descriptor)
    (h : TablesLawful s.tables) (hd : descriptorInRange d = true) :
    TablesLawful (State.judgePresence s sender roles zones privateZones owned d).1.tables := by
  unfold State.judgePresence; dsimp only; split
  · exact h
  · next hn =>
    refine State.countDescriptor_tablesLawful _ _ _ _ _ (State.changeTables_tablesLawful _ _ _ _ (by split <;> simp [h]) ?_)
    refine applyDescriptor_lawful _ _ _ (onStation_lawful _ _ _ h (fun _ _ => rfl)) hd ?_
    intro hlt
    have e : (s.tables.onStation sender (fun e => e.declare roles zones privateZones)).station sender = (s.tables.station sender).declare roles zones privateZones := by
      have := getD_modify s.tables.roster sender sender (fun e => RosterEntry.declare e roles zones privateZones) .absent
      rw [if_pos ⟨rfl, by rw [h.sized.1]; exact hlt⟩] at this; exact this
    rw [e]; rfl
@[simp] theorem State.judgeLeave_tablesLawful (s : State) (sender : Nat)
    (h : TablesLawful s.tables) : TablesLawful (State.judgeLeave s sender).1.tables := by
  unfold State.judgeLeave; (try dsimp only); (repeat' split) <;>
    first | (simp (maxDischargeDepth := 12) +contextual [h]; done) | (simp_all (maxDischargeDepth := 12); done)
@[simp] theorem State.judgeStream_tablesLawful (s : State) (sender : Nat) (kind : Cause) (verdict : LineTables → LineTables × Cause)
    (h : TablesLawful s.tables) (hv : (s.tables.station sender).present = true → TablesLawful (verdict s.tables).1) :
    TablesLawful (State.judgeStream s sender kind verdict).1.tables := by
  unfold State.judgeStream; split
  · next hp => exact State.changeTables_tablesLawful _ _ _ _ h (hv hp)
  · exact h
@[simp] theorem State.judgeCallMessage_tablesLawful (s : State) (sender j action : Nat) (f : CallFields)
    (h : TablesLawful s.tables) : TablesLawful (State.judgeCallMessage s sender j action f).1.tables := by
  unfold State.judgeCallMessage; exact State.changeTables_tablesLawful _ _ _ _ h (judgeCall_lawful _ _ _ _ _ h)
@[simp] theorem State.judge_tablesLawful (s : State) (sender : Nat) (m : Message)
    (h : TablesLawful s.tables) : TablesLawful (State.judge s sender m).1.tables := by
  unfold State.judge; cases m <;> dsimp only <;> (try split) <;> first | exact h | (simp [h]; done) | skip
  · next hr => exact State.judgePresence_tablesLawful _ _ _ _ _ _ _ h (by simp [Message.inRange] at hr; exact hr.2.2)
  · next hr => exact State.judgeStream_tablesLawful _ _ _ _ h (fun hp => offer_lawful _ _ _ h (by simp [Message.inRange] at hr; rw [own_station _ _ hr.1]; exact hp))
  · exact State.judgeStream_tablesLawful _ _ _ _ h (fun hp => withdraw_lawful _ _ h)
  · next hr => exact State.judgeStream_tablesLawful _ _ _ _ h (fun hp => claim_lawful _ _ _ h (by simp [Message.inRange] at hr; rw [own_station _ _ hr.1]; exact hp))
  · next hr => exact State.judgeStream_tablesLawful _ _ _ _ h (fun hp => release_lawful _ _ h (by simp [Message.inRange] at hr; rw [own_station _ _ hr]; exact hp))
@[simp] theorem State.refreshAge_tablesLawful (s : State) (sender : Nat)
    (h : TablesLawful s.tables) : TablesLawful (State.refreshAge s sender).tables := by
  unfold State.refreshAge; exact onStation_lawful _ _ _ h (fun _ h => h)
@[simp] theorem State.moveByMessage_tablesLawful (s : State) (own : Bool) (sender : Nat) (m : Message) (verdict : Cause)
    (h : TablesLawful s.tables) : TablesLawful (State.moveByMessage s own sender m verdict).tables := by
  unfold State.moveByMessage; cases m <;> dsimp only <;> (repeat' split) <;>
    first | with_reducible exact h | with_reducible exact State.goTo_tablesLawful _ _ _ h | with_reducible exact State.ownRemoved_tablesLawful _ h
@[simp] theorem State.takeEffect_tablesLawful (s : State) (sender : Nat) (m : Message)
    (h : TablesLawful s.tables) : TablesLawful (State.takeEffect s sender m).tables := by
  unfold State.takeEffect; (try dsimp only); (repeat' split) <;>
    first | (simp (maxDischargeDepth := 12) +contextual [h]; done) | (simp_all (maxDischargeDepth := 12); done)
@[simp] theorem State.start_tablesLawful (s : State) (emitted inWindow : Bool)
    (h : TablesLawful s.tables) : TablesLawful (State.start s emitted inWindow).tables := by
  unfold State.start; simp; exact atStart_lawful _ h
@[simp] theorem State.leadStart_tablesLawful (s : State)
    (h : TablesLawful s.tables) : TablesLawful (State.leadStart s).tables := by
  unfold State.leadStart; (try dsimp only); (repeat' split) <;>
    first | (simp (maxDischargeDepth := 12) +contextual [h]; done) | (simp_all (maxDischargeDepth := 12); done)
@[simp] theorem State.expireTimer_tablesLawful (s : State)
    (h : TablesLawful s.tables) : TablesLawful (State.expireTimer s).tables := by
  unfold State.expireTimer; (try dsimp only); (repeat' split) <;>
    first | (simp (maxDischargeDepth := 12) +contextual [h]; done) | (simp_all (maxDischargeDepth := 12); done)
@[simp] theorem State.keepUpStart_tablesLawful (s : State)
    (h : TablesLawful s.tables) : TablesLawful (State.keepUpStart s).tables := by
  unfold State.keepUpStart; (try dsimp only); (repeat' split) <;>
    first | (simp (maxDischargeDepth := 12) +contextual [h]; done) | (simp_all (maxDischargeDepth := 12); done)
@[simp] theorem State.listenAtTail_tablesLawful (s : State) (vetoed : Bool)
    (h : TablesLawful s.tables) : TablesLawful (State.listenAtTail s vetoed).tables := by
  unfold State.listenAtTail; (repeat' split) <;> first | exact h | exact restart_lawful _ h
@[simp] theorem State.joinVetoed_tablesLawful (s : State) (e : QueueEntry)
    (h : TablesLawful s.tables) : TablesLawful (State.joinVetoed s e).tables := by
  unfold State.joinVetoed; (try dsimp only); (repeat' split) <;>
    first | (simp (maxDischargeDepth := 12) +contextual [h]; done) | (simp_all (maxDischargeDepth := 12); done)
@[simp] theorem State.abandon_tablesLawful (s : State) (e : QueueEntry)
    (h : TablesLawful s.tables) : TablesLawful (State.abandon s e).tables := by
  unfold State.abandon; (try dsimp only); (repeat' split) <;>
    first | (simp (maxDischargeDepth := 12) +contextual [h]; done) | (simp_all (maxDischargeDepth := 12); done)
@[simp] theorem State.ownVetoed_tablesLawful (s : State)
    (h : TablesLawful s.tables) : TablesLawful (State.ownVetoed s).tables := by
  unfold State.ownVetoed; (try dsimp only); (repeat' split) <;>
    first | (simp (maxDischargeDepth := 12) +contextual [h]; done) | (simp_all (maxDischargeDepth := 12); done)
@[simp] theorem State.tail_tablesLawful (s : State) (message : Option (Nat × Message)) (veto : Bool)
    (h : TablesLawful s.tables) : TablesLawful (State.tail s message veto).tables := by
  unfold State.tail; (try dsimp only); (repeat' split) <;>
    first | (simp (maxDischargeDepth := 12) +contextual [h]; done) | (simp_all (maxDischargeDepth := 12); done)
@[simp] theorem State.tailEnd_tablesLawful (s : State) (veto : Bool)
    (h : TablesLawful s.tables) : TablesLawful (State.tailEnd s veto).tables := by
  unfold State.tailEnd; (try dsimp only); (repeat' split) <;>
    first | (simp (maxDischargeDepth := 12) +contextual [h]; done) | (simp_all (maxDischargeDepth := 12); done)
@[simp] theorem State.messageEffect_tablesLawful (s : State) (sender : Nat) (m : Message)
    (h : TablesLawful s.tables) : TablesLawful (State.messageEffect s sender m).tables := by
  unfold State.messageEffect; (try dsimp only); (repeat' split) <;>
    first | (simp (maxDischargeDepth := 12) +contextual [h]; done) | (simp_all (maxDischargeDepth := 12); done)
@[simp] theorem State.selfVetoDue_tablesLawful (s : State)
    (h : TablesLawful s.tables) : TablesLawful (State.selfVetoDue s).tables := by
  unfold State.selfVetoDue; (try dsimp only); (repeat' split) <;>
    first | (simp (maxDischargeDepth := 12) +contextual [h]; done) | (simp_all (maxDischargeDepth := 12); done)
@[simp] theorem State.listenEnd_tablesLawful (s : State)
    (h : TablesLawful s.tables) : TablesLawful (State.listenEnd s).tables := by
  unfold State.listenEnd; (try dsimp only); (repeat' split) <;>
    first | (simp (maxDischargeDepth := 12) +contextual [h]; done) | (simp_all (maxDischargeDepth := 12); done)
@[simp] theorem State.agedOut_tablesLawful (s : State) (n : Nat)
    (h : TablesLawful s.tables) : TablesLawful (State.agedOut s n).tables := by
  unfold State.agedOut; (try dsimp only); (repeat' split) <;>
    first | (simp (maxDischargeDepth := 12) +contextual [h]; done) | (simp_all (maxDischargeDepth := 12); done)
@[simp] theorem State.freeSlot_tablesLawful (s : State) (slot : Nat)
    (h : TablesLawful s.tables) : TablesLawful (State.freeSlot s slot).tables := by
  unfold State.freeSlot; split
  · exact slots_lawful _ _ h (by simp [h.sized])
  · exact h
@[simp] theorem State.silenceEnded_tablesLawful (s : State)
    (h : TablesLawful s.tables) : TablesLawful (State.silenceEnded s).tables := by
  unfold State.silenceEnded; (try dsimp only); (repeat' split) <;>
    first | (simp (maxDischargeDepth := 12) +contextual [h]; done) | (simp_all (maxDischargeDepth := 12); done)
@[simp] theorem State.recordRead_tablesLawful (s : State) (read : RecordRead)
    (h : TablesLawful s.tables) : TablesLawful (State.recordRead s read).tables := by
  unfold State.recordRead; (try dsimp only); (repeat' split) <;>
    first | (simp (maxDischargeDepth := 12) +contextual [h]; done) | (simp_all (maxDischargeDepth := 12); done)
@[simp] theorem State.wake_tablesLawful (s : State) (cause : Cause) (stayAwake : Bool)
    (h : TablesLawful s.tables) : TablesLawful (State.wake s cause stayAwake).tables := by
  unfold State.wake; split
  · exact h
  · dsimp only; exact State.goTo_tablesLawful _ _ _ (by simp; exact tablesReset_lawful)
@[simp] theorem State.startSeen_tablesLawful (s : State) (inWindow : Bool)
    (h : TablesLawful s.tables) : TablesLawful (State.startSeen s inWindow).tables := by
  unfold State.startSeen; (try dsimp only); (repeat' split) <;>
    first | (simp (maxDischargeDepth := 12) +contextual [h]; done) | (simp_all (maxDischargeDepth := 12); done)
@[simp] theorem State.enterDormant_tablesLawful (s : State)
    (h : TablesLawful s.tables) : TablesLawful (State.enterDormant s).tables := by
  unfold State.enterDormant; (try dsimp only); (repeat' split) <;>
    first | (simp (maxDischargeDepth := 12) +contextual [h]; done) | (simp_all (maxDischargeDepth := 12); done)
@[simp] theorem State.leaveLine_tablesLawful (s : State)
    (h : TablesLawful s.tables) : TablesLawful (State.leaveLine s).1.tables := by
  unfold State.leaveLine; (try dsimp only); (repeat' split) <;>
    first | (simp (maxDischargeDepth := 12) +contextual [h]; done) | (simp_all (maxDischargeDepth := 12); done)
@[simp] theorem State.rejoin_tablesLawful (s : State)
    (h : TablesLawful s.tables) : TablesLawful (State.rejoin s).1.tables := by
  unfold State.rejoin; (try dsimp only); (repeat' split) <;>
    first | (simp (maxDischargeDepth := 12) +contextual [h]; done) | (simp_all (maxDischargeDepth := 12); done)
@[simp] theorem State.wakeRequest_tablesLawful (s : State) (flag : Byte)
    (h : TablesLawful s.tables) : TablesLawful (State.wakeRequest s flag).tables := by
  unfold State.wakeRequest; (try dsimp only); (repeat' split) <;>
    first | (simp (maxDischargeDepth := 12) +contextual [h]; done) | (simp_all (maxDischargeDepth := 12); done)

/-- Every operation keeps the laws of the line tables. -/
theorem tablesLawful_kept : Kept (fun s => TablesLawful s.tables) where
  lineSilent := by intro a0 h; simp (maxDischargeDepth := 12) [h]
  enterDormant := by intro a0 h; simp (maxDischargeDepth := 12) [h]
  selfVetoDue := by intro a0 h; simp (maxDischargeDepth := 12) [h]
  listenEnd := by intro a0 h; simp (maxDischargeDepth := 12) [h]
  agedOut := by intro a0 a1 h; simp (maxDischargeDepth := 12) [h]
  freeSlot := by intro a0 a1 h; simp (maxDischargeDepth := 12) [h]
  readyEntries := by intro a0 h; simp (maxDischargeDepth := 12) [h]
  presenceFallsDue := by intro a0 h; simp (maxDischargeDepth := 12) [h]
  silenceEnded := by intro a0 h; simp (maxDischargeDepth := 12) [h]
  noteStall := by intro a0 h; simp (maxDischargeDepth := 12) [h]
  noteExpiry := by intro a0 h; simp (maxDischargeDepth := 12) [h]
  uplinkRetry := by intro a0 h; simp (maxDischargeDepth := 12) [h]
  carryRetry := by intro a0 a1 h; simp (maxDischargeDepth := 12) [h]
  arrivalGap := by intro a0 h; simp (maxDischargeDepth := 12) [h]
  qualityBlock := by intro a0 h; simp (maxDischargeDepth := 12) [h]
  endGateRamp := by intro a0 h; simp (maxDischargeDepth := 12) [h]
  endEntryRamp := by intro a0 a1 a2 h; simp (maxDischargeDepth := 12) [h]
  endPositionRamp := by intro a0 a1 h; simp (maxDischargeDepth := 12) [h]
  refreshDebtRise := by intro a0 h; simp (maxDischargeDepth := 12) [h]
  filled := by intro a0 h; simp (maxDischargeDepth := 12) [h]
  primingDone := by intro a0 h; simp (maxDischargeDepth := 12) [h]
  correlationResult := by intro a0 h; simp (maxDischargeDepth := 12) [h]
  crossfadeEnd := by intro a0 h; simp (maxDischargeDepth := 12) [h]
  toDigitalComplete := by intro a0 h; simp (maxDischargeDepth := 12) [h]
  toAnalogueComplete := by intro a0 h; simp (maxDischargeDepth := 12) [h]
  cancellerBlock := by intro a0 h; simp (maxDischargeDepth := 12) [h]
  freezeEnd := by intro a0 h; simp (maxDischargeDepth := 12) [h]
  referenceLost := by intro a0 h; simp (maxDischargeDepth := 12) [h]
  triggerFollowers := by intro a0 a1 h; simp (maxDischargeDepth := 12) [h]
  countRepetition := by intro a0 a1 h; simp (maxDischargeDepth := 12) [h]
  fire := by intro a0 a1 h; simp (maxDischargeDepth := 12) [h]
  playCompleted := by intro a0 a1 h; simp (maxDischargeDepth := 12) [h]
  recordRead := by intro a0 a1 h; simp (maxDischargeDepth := 12) [h]
  startSeen := by intro a0 a1 h; simp (maxDischargeDepth := 12) [h]
  leadStart := by intro a0 h; simp (maxDischargeDepth := 12) [h]
  expireTimer := by intro a0 h; simp (maxDischargeDepth := 12) [h]
  missFurther := by intro a0 h; simp (maxDischargeDepth := 12) [h]
  controlField := by intro a0 a1 a2 h; simp (maxDischargeDepth := 12) [h]
  audioSlots := by intro a0 a1 h; simp (maxDischargeDepth := 12) [h]
  tailEnd := by intro a0 a1 h; simp (maxDischargeDepth := 12) [h]
  messageEffect := by intro a0 a1 a2 h; simp (maxDischargeDepth := 12) [h]
  localSample := by intro a0 a1 h; simp (maxDischargeDepth := 12) [h]
  decoderArrives := by intro a0 a1 a2 h; simp (maxDischargeDepth := 12) [h]
  burstComplete := by intro a0 a1 h; simp (maxDischargeDepth := 12) [h]
  completeOpen := by intro a0 a1 h; simp (maxDischargeDepth := 12) [h]
  completeClose := by intro a0 a1 h; simp (maxDischargeDepth := 12) [h]
  completeRefresh := by intro a0 a1 h; simp (maxDischargeDepth := 12) [h]
  keepUpStart := by intro a0 h; simp (maxDischargeDepth := 12) [h]
  host := by intro a0 a1 h; simp (maxDischargeDepth := 12) [h]
  noteBox := by intro a0 a1 h; simp (maxDischargeDepth := 12) [h]
  rest := by intro s q h; exact h
  enterHost := by intro a0 a1 a2 a3 q h; simp (maxDischargeDepth := 12) [h]
  leaveLine := by intro a0 h; simp (maxDischargeDepth := 12) [h]
  goToListening := by intro a0 h; simp (maxDischargeDepth := 12) [h]
  wake := by intro a0 a1 a2 h; simp (maxDischargeDepth := 12) [h]
  judgeRoute := by intro a0 a1 a2 a3 a4 h; simp (maxDischargeDepth := 12) [h]
  clipLoadBegin := by intro a0 a1 a2 a3 h; simp (maxDischargeDepth := 12) [h]
  clipData := by intro a0 a1 a2 h; simp (maxDischargeDepth := 12) [h]
  clipLoadEnd := by intro a0 a1 h; simp (maxDischargeDepth := 12) [h]
  clipLock := by intro a0 a1 h; simp (maxDischargeDepth := 12) [h]
  startPlay := by
    intro s u c l r p e h; have := State.startPlay_frame s c l r .host (p, u) e; simp only at this; simp [this, h]
  cadenceSet := by intro a0 a1 a2 h; simp (maxDischargeDepth := 12) [h]
  cadenceStart := by intro a0 a1 h; simp (maxDischargeDepth := 12) [h]
  cadenceStop := by intro a0 a1 h; simp (maxDischargeDepth := 12) [h]
  blendEnable := by intro a0 h; simp (maxDischargeDepth := 12) [h]
  blendDisable := by intro a0 h; simp (maxDischargeDepth := 12) [h]
  tuned := by intro a0 h; simp (maxDischargeDepth := 12) [h]
  beginNote := by intro a0 a1 a2 a3 h; simp (maxDischargeDepth := 12) [h]
  powerOn := by
    intro s h; exact tablesReset_lawful
  assertPin := by intro a0 h; simp (maxDischargeDepth := 12) [h]
  resetLine := by
    intro s h; exact tablesReset_lawful

end Sys2Proof.Machine
end

