-- ==== Sys2Proof/Laws/Commands.lean ====
section
/-! SUPPORT. How a command acts: after what is due, or when it falls due itself; the keep-up start. -/

namespace Sys2Proof.Machine

set_option maxRecDepth 20000
set_option linter.unusedVariables false
set_option linter.unusedSimpArgs false

theorem act_released (s : State) (f : State → State) (h : s.released) : s.act f = (f s.settle).keepUpStart := by
  unfold State.released at h; simp [State.act, h]

theorem fallDue_released (s : State) (f : State → State) (h : s.released) : s.fallDue f = (f s).keepUpStart := by
  unfold State.released at h; simp [State.fallDue, h]

theorem keepUpStart_idle (s : State)
    (h : s.line.timerExpired = false ∨ s.keepUp = false ∨ s.member.station.onLine = false) : s.keepUpStart = s := by
  unfold State.keepUpStart State.mayLead
  rcases h with h | h | h <;> simp [h]

theorem exec_outside (c : Instr) (s : State) (f : State → State) (e : exec c s = .next (s.act f)) (h : s.released) :
    exec c s = .next (f s.settle).keepUpStart := by rw [e, act_released s f h]

theorem exec_due (c : Instr) (s : State) (f : State → State) (e : exec c s = .next (s.fallDue f)) (h : s.released) :
    exec c s = .next (f s).keepUpStart := by rw [e, fallDue_released s f h]

theorem start_keepUp (s : State) (e w : Bool) : (s.start e w).keepUpStart = s.start e w := by
  apply keepUpStart_idle; left; unfold State.start; simp [LineInterface.atStart]

/-- Every command but a reset and a transfer by its bytes acts through act or fallDue. -/
theorem exec_formOther (c : Instr) (s : State) (h : isReset c = false) (hc : isTransfer c = false) :
    ∃ f : State → State, exec c s = .next (s.act f) ∨ exec c s = .next (s.fallDue f) := by
  cases c
  case powerOn => simp [isReset] at h
  case resetPinAsserted => simp [isReset] at h
  case resetLine => simp [isReset] at h
  case noteSend a b d =>
    simp only [exec, execNoteSend]
    split
    · exact ⟨_, .inl rfl⟩
    · exact ⟨_, .inl rfl⟩
  case route => exact ⟨_, .inl rfl⟩
  case play => exact ⟨_, .inl rfl⟩
  case wake => exact ⟨_, .inl rfl⟩
  case join => exact ⟨_, .inl rfl⟩
  case presence => exact ⟨_, .inl rfl⟩
  case leave => exact ⟨_, .inl rfl⟩
  case offer => exact ⟨_, .inl rfl⟩
  case withdraw => exact ⟨_, .inl rfl⟩
  case claim => exact ⟨_, .inl rfl⟩
  case release => exact ⟨_, .inl rfl⟩
  case add => exact ⟨_, .inl rfl⟩
  case setLevel => exact ⟨_, .inl rfl⟩
  case remove => exact ⟨_, .inl rfl⟩
  case routeAnswer => exact ⟨_, .inl rfl⟩
  case ring => exact ⟨_, .inl rfl⟩
  case answer => exact ⟨_, .inl rfl⟩
  case hold => exact ⟨_, .inl rfl⟩
  case resume => exact ⟨_, .inl rfl⟩
  case zones => exact ⟨_, .inl rfl⟩
  case endCall => exact ⟨_, .inl rfl⟩
  case notePart => exact ⟨_, .inl rfl⟩
  case silentLine => exact ⟨_, .inr rfl⟩
  case dormancyEntry => exact ⟨_, .inr rfl⟩
  case selfVeto => exact ⟨_, .inr rfl⟩
  case listenEnd => exact ⟨_, .inr rfl⟩
  case agedOut => exact ⟨_, .inr rfl⟩
  case holdExpiry => exact ⟨_, .inr rfl⟩
  case queueHoldExpiry => exact ⟨_, .inr rfl⟩
  case presenceDue => exact ⟨_, .inr rfl⟩
  case silenceEnded => exact ⟨_, .inr rfl⟩
  case noteStall => exact ⟨_, .inr rfl⟩
  case noteExpiry => exact ⟨_, .inr rfl⟩
  case uplinkRetry => exact ⟨_, .inr rfl⟩
  case carryRetry => exact ⟨_, .inr rfl⟩
  case arrivalGap => exact ⟨_, .inr rfl⟩
  case qualityBlock => exact ⟨_, .inr rfl⟩
  case gateRampEnd => exact ⟨_, .inr rfl⟩
  case rampEnd => exact ⟨_, .inr rfl⟩
  case refreshDebtRise => exact ⟨_, .inr rfl⟩
  case filled => exact ⟨_, .inr rfl⟩
  case primingDone => exact ⟨_, .inr rfl⟩
  case correlationResult => exact ⟨_, .inr rfl⟩
  case tapCrossfadeEnd => exact ⟨_, .inr rfl⟩
  case toDigitalComplete => exact ⟨_, .inr rfl⟩
  case toAnalogueComplete => exact ⟨_, .inr rfl⟩
  case cancellerBlock => exact ⟨_, .inr rfl⟩
  case freezeEnd => exact ⟨_, .inr rfl⟩
  case referenceLost => exact ⟨_, .inr rfl⟩
  case cadenceExpiry => exact ⟨_, .inr rfl⟩
  case followerFire => exact ⟨_, .inr rfl⟩
  case playCompleted => exact ⟨_, .inr rfl⟩
  case startUpRecordRead => exact ⟨_, .inl rfl⟩
  case frameStart => exact ⟨_, .inl rfl⟩
  case leadStart => exact ⟨_, .inl rfl⟩
  case frameTimerExpiry => exact ⟨_, .inl rfl⟩
  case missingStart => exact ⟨_, .inl rfl⟩
  case controlField => exact ⟨_, .inl rfl⟩
  case audioSlots => exact ⟨_, .inl rfl⟩
  case tailEnd => exact ⟨_, .inl rfl⟩
  case localSample => exact ⟨_, .inl rfl⟩
  case decoderArrival => exact ⟨_, .inl rfl⟩
  case openComplete => exact ⟨_, .inl rfl⟩
  case burstComplete => exact ⟨_, .inl rfl⟩
  case closeComplete => exact ⟨_, .inl rfl⟩
  case refreshComplete => exact ⟨_, .inl rfl⟩
  case transferForReading => exact ⟨_, .inl rfl⟩
  case badTransfer => simp [isTransfer] at hc
  case getStatus => exact ⟨_, .inl rfl⟩
  case rejoin => exact ⟨_, .inl rfl⟩
  case readSlots => exact ⟨_, .inl rfl⟩
  case readZone => exact ⟨_, .inl rfl⟩
  case clipLoadBegin => exact ⟨_, .inl rfl⟩
  case clipData => exact ⟨_, .inl rfl⟩
  case cadenceSet => exact ⟨_, .inl rfl⟩
  case cadenceStart => exact ⟨_, .inl rfl⟩
  case cadenceStop => exact ⟨_, .inl rfl⟩
  case blendEnable => exact ⟨_, .inl rfl⟩
  case blendDisable => exact ⟨_, .inl rfl⟩
  case tuned => exact ⟨_, .inl rfl⟩
  case readBlend => exact ⟨_, .inl rfl⟩
  case readCalls => exact ⟨_, .inl rfl⟩
  case readCanceller => exact ⟨_, .inl rfl⟩
  case noteStatus => exact ⟨_, .inl rfl⟩
  case readEvents => exact ⟨_, .inl rfl⟩
  case callRing => exact ⟨_, .inl rfl⟩
  case callAnswer => exact ⟨_, .inl rfl⟩
  case callHold => exact ⟨_, .inl rfl⟩
  case callResume => exact ⟨_, .inl rfl⟩
  case callZones => exact ⟨_, .inl rfl⟩
  case callEnd => exact ⟨_, .inl rfl⟩
  case leaveLine => exact ⟨_, .inl rfl⟩
  case getInfo => exact ⟨_, .inl rfl⟩
  case stayAwake => exact ⟨_, .inl rfl⟩
  case readDirectory => exact ⟨_, .inl rfl⟩
  case clipLoadEnd => exact ⟨_, .inl rfl⟩
  case clipLock => exact ⟨_, .inl rfl⟩
  case clipStatus => exact ⟨_, .inl rfl⟩
  case readCadence => exact ⟨_, .inl rfl⟩
  case noteRead => exact ⟨_, .inl rfl⟩
  case offerStream => exact ⟨_, .inl rfl⟩
  case carryStream => exact ⟨_, .inl rfl⟩
  case dropStream => exact ⟨_, .inl rfl⟩
  case withdrawStream => exact ⟨_, .inl rfl⟩

/-- Every command but a reset acts through act or fallDue. -/
theorem exec_form (c : Instr) (s : State) (h : isReset c = false) :
    ∃ f : State → State, exec c s = .next (s.act f) ∨ exec c s = .next (s.fallDue f) := by
  by_cases hc : isTransfer c = false
  · exact exec_formOther c s h hc
  · cases c with
    | badTransfer bytes =>
      rcases badTransfer_cases bytes s with ⟨status, _, e⟩ | ⟨_, d, hd, hr, e⟩
      · exact ⟨_, .inl e⟩
      · obtain ⟨f, hf⟩ := exec_formOther d s hr hd
        exact ⟨f, by rw [e]; exact hf⟩
    | _ => exact absurd rfl hc

theorem start_facts (s : State) (e w : Bool) : (s.start e w).line.timerExpired = false ∧ (s.start e w).line.lead = e ∧ (s.start e w).line.silentCount = 0 ∧ (s.start e w).tables.frameCount = s.tables.frameCount + 1 := by
  unfold State.start
  simp [LineInterface.atStart, LineTables.atStart]

end Sys2Proof.Machine
end

