-- ==== Sys2Proof/Laws/Pending.lean ====
section
/-! SUPPORT. The operations of the commands leave the queue of waiting commands alone. -/

namespace Sys2Proof.Machine

set_option maxRecDepth 20000
set_option linter.unusedVariables false
set_option linter.unusedSimpArgs false

theorem keepingReset_pending (s : State) (c : Cause) : (s.keepingReset c).pending = s.pending := rfl

@[simp] theorem wake_pending (s : State) (c : Cause) (b : Bool) : (s.wake c b).pending = s.pending := by
  unfold State.wake; split
  · rfl
  · simp [keepingReset_pending]

@[simp] theorem startSeen_pending (s : State) (w : Bool) : (s.startSeen w).pending = s.pending := by
  unfold State.startSeen; split <;> simp

@[simp] theorem resetLine_pending (s : State) : (s.resetLine).pending = s.pending := by
  unfold State.resetLine; rw [keepingReset_pending]; simp

theorem act_pending (s : State) (f : State → State) (h : ∀ t, (f t).pending = t.pending) : (s.act f).pending = s.pending := by
  unfold State.act; split
  · rfl
  · simp [h]

theorem fallDue_pending (s : State) (f : State → State) (h : ∀ t, (f t).pending = t.pending) : (s.fallDue f).pending = s.pending := by
  unfold State.fallDue; split
  · rfl
  · simp [h]

theorem deal_pending (s : State) (code : Nat) (f : State → Answer) (h : ∀ t, (f t).1.pending = t.pending) : (s.deal code f).1.pending = s.pending := by
  unfold State.deal; repeat' split
  all_goals simp [h]

theorem exchange_pending (s : State) (code : Nat) (f : State → Answer) (h : ∀ t, (f t).1.pending = t.pending) : (s.exchange code f).pending = s.pending := by
  unfold State.exchange; simp [deal_pending _ _ _ h]

theorem host_pending (s : State) (code : Nat) (f : State → Answer) (h : ∀ t, (f t).1.pending = t.pending) : ∃ u, s.hostCommand code f = .next u ∧ u.pending = s.pending :=
  ⟨_, rfl, act_pending s _ (fun t => exchange_pending t code f h)⟩

theorem checked_pending (b : Bool) (f : State → Answer) (h : ∀ t, (f t).1.pending = t.pending) (s : State) : (checked b f s).1.pending = s.pending := by
  unfold checked; split <;> simp [h]

theorem asMember_pending (s : State) (f : State → Answer) (h : ∀ t, (f t).1.pending = t.pending) : (s.asMember f).1.pending = s.pending := by
  unfold State.asMember; split <;> simp [h]

theorem wakeRequest_pending (s : State) (b : Byte) : (s.wakeRequest b).pending = s.pending := by
  unfold State.wakeRequest; repeat' split
  all_goals simp

theorem msg_pending (s : State) (n : Fin 16) (m : Message) : ∃ u, s.messageCommand n m = .next u ∧ u.pending = s.pending :=
  ⟨_, rfl, act_pending s _ (fun t => by simp)⟩

theorem due_pending (s : State) (f : State → State) (h : ∀ t, (f t).pending = t.pending) : ∃ u, (Host.Outcome.next (s.fallDue f) : Host.Outcome State Fault Refusal) = .next u ∧ u.pending = s.pending := ⟨_, rfl, fallDue_pending s f h⟩

theorem ext_pending (s : State) (f : State → State) (h : ∀ t, (f t).pending = t.pending) : ∃ u, (Host.Outcome.next (s.act f) : Host.Outcome State Fault Refusal) = .next u ∧ u.pending = s.pending := ⟨_, rfl, act_pending s f h⟩

theorem callRequest_pending (b : Bool) (i a : Byte) (f) (s : State): (callRequest b i a f s).1.pending = s.pending := checked_pending _ _ (fun t => asMember_pending _ _ (fun u => by simp)) s

theorem routeRequest_pending (s : State) (a b c d : Byte) : (s.routeRequest a b c d).1.pending = s.pending := by
  unfold State.routeRequest; repeat' split
  all_goals first | (simp; done) | exact asMember_pending _ _ (fun u => by simp) | skip
  rename_i h
  have h' := congrArg (fun x => x.1.pending) h
  simpa using h'.symm

theorem playRequest_pending (s : State) (a b c  : Nat) : (s.playRequest a b c).1.pending = s.pending := by
  unfold State.playRequest; repeat' split
  all_goals first | (simp; done) | (rename_i h; have h' := State.startPlay_frame _ _ _ _ _ _ h; simp_all)

end Sys2Proof.Machine
end

