-- ==== Sys2Proof/Laws/Moves.lean ====
section
/-! SUPPORT. What a change of station state does (R22, R27, R33, R41): the state and its cause, the tables, the queue. -/

namespace Sys2Proof.Machine

set_option maxRecDepth 20000
set_option linter.unusedVariables false
set_option linter.unusedSimpArgs false

@[simp] theorem goTo_station (s : State) (new : StationState) (cause : Cause) :
    (s.goTo new cause).member.station = new ∧ (s.goTo new cause).member.cause = some cause := by
  unfold State.goTo
  refine ⟨?_, ?_⟩ <;> simp [State.zonesAtStation] <;> (repeat' split) <;> simp <;> (unfold State.enterStation) <;> (repeat' split) <;> simp <;> (repeat' split) <;> simp

/-- No change of the station state moves the presence-due counter (R28). -/
theorem goTo_counter (s : State) (new : StationState) (cause : Cause) :
    (s.goTo new cause).line.presenceCounter = s.line.presenceCounter := by
  have enter : ∀ (t : State), (t.enterStation new).line.presenceCounter = t.line.presenceCounter := by
    intro t; cases new <;> rfl
  unfold State.goTo
  simp only [State.checkServed_frame, State.zonesAtStation_frame]
  have moved : (raise .stationChanged [stationCode new] (some cause)
    { s with member.station := new, member.cause := some cause }).line.presenceCounter = s.line.presenceCounter := by simp
  generalize raise .stationChanged [stationCode new] (some cause) { s with member.station := new, member.cause := some cause } = t at moved ⊢
  (repeat' split) <;> simp [enter, moved]
theorem goTo_tables (s : State) (new : StationState) (cause : Cause) :
    (s.goTo new cause).tables = if new.dropsTables then s.tables.cleared else s.tables := by
  unfold State.goTo
  dsimp only
  cases hd : new.dropsTables <;> simp <;> (repeat' split) <;> simp [State.dropTables]

@[simp] theorem cleared_station (t : LineTables) (n : Nat) : t.cleared.station n = .absent := by
  show (List.replicate 16 RosterEntry.absent).getD n .absent = _
  simp only [List.getD_eq_getElem?_getD, List.getElem?_replicate]; split <;> rfl

@[simp] theorem cleared_entry (t : LineTables) (n : Nat) : t.cleared.entry n = .none := by
  show (List.replicate 64 StreamEntry.none).getD n .none = _
  simp only [List.getD_eq_getElem?_getD, List.getElem?_replicate]; split <;> rfl

@[simp] theorem cleared_call (t : LineTables) (n : Nat) : t.cleared.call n = .none := by
  show (List.replicate 2 CallRecord.none).getD n .none = _
  simp only [List.getD_eq_getElem?_getD, List.getElem?_replicate]; split <;> rfl

@[simp] theorem cleared_slot (t : LineTables) (n : Nat) : t.cleared.slots.getD n .free = .free := by
  show (List.replicate 40 Slot.free).getD n .free = _
  simp only [List.getD_eq_getElem?_getD, List.getElem?_replicate]; split <;> rfl

theorem setUp_facts (s : State) (r : StartUpRecord) : (s.setUp r).startUp.record = some r ∧
    (s.setUp r).startUp.reading = false ∧ (s.setUp r).store.regions = r.regions ∧
    (s.setUp r).store.retained = r.retained := by
  unfold State.setUp
  refine ⟨?_, ?_, ?_, ?_⟩ <;> simp

theorem tell_dropped_queue (s : State) (e : QueueEntry) (h : s.member.station.drives = false) :
    (s.tell e .dropped).line.queue = s.line.queue ∧ (s.tell e .dropped).line.waiting = s.line.waiting ∧
    (s.tell e .dropped).member = s.member := by
  unfold State.tell
  split
  · simp
  · unfold State.startUpTold; (repeat' split) <;> simp
  · simp
  · simp
  · simp [State.lookAtUplink, h]
  · unfold State.noteUnitTold; cases hs : s.note.outbound.state <;> simp

theorem dropAll_queue (s : State) (h : s.member.station.drives = false) :
    s.dropAll.line.queue = [] ∧ s.dropAll.line.waiting = [] := by
  unfold State.dropAll
  dsimp only
  have key : ∀ (l : List QueueEntry) (t : State), t.member.station.drives = false → t.line.queue = [] →
      t.line.waiting = [] → (l.foldl (fun acc e => acc.tell e .dropped) t).line.queue = [] ∧
      (l.foldl (fun acc e => acc.tell e .dropped) t).line.waiting = [] := by
    intro l
    induction l with
    | nil => intro t _ a b; exact ⟨a, b⟩
    | cons e l ih =>
      intro t a b c
      obtain ⟨x, y, z⟩ := tell_dropped_queue t e a
      exact ih _ (by rw [z]; exact a) (by rw [x]; exact b) (by rw [y]; exact c)
  exact key _ _ h rfl rfl

theorem goTo_queue_off (s : State) (new : StationState) (cause : Cause) (h : new.takesPart = false)
    (hq : s.member.station.takesPart = true ∨ (s.line.queue = [] ∧ s.line.waiting = [])) :
    (s.goTo new cause).line.queue = [] ∧ (s.goTo new cause).line.waiting = [] := by
  have hd : new.drives = false := by cases new <;> simp_all [StationState.takesPart, StationState.drives]
  have hm : new ≠ .member := by rintro rfl; simp [StationState.takesPart] at h
  unfold State.goTo
  dsimp only
  rw [if_neg (fun hh => hm hh.2)]
  simp only [hd, h, Bool.not_false, Bool.and_true]
  generalize hx : (if s.member.station.takesPart = true then State.leaveTakingPart _ else _) = x
  have hxq : x.line.queue = [] ∧ x.line.waiting = [] ∧ x.member.station = new := by
    rw [← hx]
    split
    · unfold State.leaveTakingPart
      refine ⟨?_, ?_, ?_⟩
      · simp; exact (dropAll_queue _ (by simp [hd])).1
      · simp; exact (dropAll_queue _ (by simp [hd])).2
      · simp
    · next h' => simp; exact hq.resolve_left h'
  clear hx
  obtain ⟨a, b, c⟩ := hxq
  have e1 : (if new.dropsTables = true then x.dropTables else x).line.queue = [] ∧ (if new.dropsTables = true then x.dropTables else x).line.waiting = [] ∧ (if new.dropsTables = true then x.dropTables else x).member.station = new := by
    split <;> simp [a, b, c]
  generalize (if new.dropsTables = true then x.dropTables else x) = y at e1
  obtain ⟨a, b, c⟩ := e1
  have e2 : (y.enterStation new).line.queue = [] ∧ (y.enterStation new).line.waiting = [] ∧ (y.enterStation new).member.station = new := by
    simp [a, b, c]
  generalize (y.enterStation new) = z at e2
  obtain ⟨a, b, c⟩ := e2
  simp [State.lookAtUplink, hd, a, b, c]

theorem enterDormant_no (s : State) (h : s.line.silentCount < 48000 ∨ s.host.stayAwake = true ∨ s.member.station = .offline
        ∨ s.member.station = .dormant) : s.enterDormant = s := by
  unfold State.enterDormant; rw [if_neg]
  unfold State.fallsAsleep
  rcases h with h | h | h | h
  · simp; omega
  · simp [h]
  · simp [h]
  · simp [h]

end Sys2Proof.Machine
end

