-- ==== Sys2Proof/Laws/Messages.lean ====
section
/-! SUPPORT. Messages that take effect: what a tail leaves behind, and single entries of the tables after a change. -/

namespace Sys2Proof.Machine

set_option maxRecDepth 20000
set_option linter.unusedVariables false
set_option linter.unusedSimpArgs false

/-- The counts of the tail of a frame without a veto. -/
def State.tailCounts (t : State) : State :=
  ({ t with line.selfVeto := t.line.selfVetoAtTail }).listenAtTail false

theorem State.tailCounts_tables (t : State) (h : t.line.field ≠ .failed) : t.tailCounts.tables = t.tables := by
  unfold State.tailCounts State.listenAtTail
  (repeat' split) <;> simp_all

theorem State.tailCounts_kept (t : State) : t.tailCounts.member.station = t.member.station ∧
    t.tailCounts.member.cause = t.member.cause ∧ t.tailCounts.line.sent = t.line.sent ∧
    t.tailCounts.startUp = t.startUp ∧ t.tailCounts.mixer = t.mixer ∧ t.tailCounts.call = t.call ∧
    t.tailCounts.note = t.note ∧ t.tailCounts.host = t.host ∧ State.sameAudio t t.tailCounts ∧
    t.tailCounts.line.queue = t.line.queue ∧ t.tailCounts.line.waiting = t.line.waiting := by
  simp [State.tailCounts, State.sameAudio]

theorem State.messageEffect_hears (t : State) (n : Nat) (m : Message) (h : t.hears) :
    t.messageEffect n m = (t.tailCounts.takeEffect n m).closeFrame := by
  obtain ⟨a, b, c, d⟩ := h
  unfold State.messageEffect State.tail
  rw [if_neg b, if_pos a]
  simp [State.vetoes, d, c, State.tailCounts]

/-- Whether a message moves the station that hears it (R27, R38, R39, R43). -/
def Message.mayMove (m : Message) : Bool :=
  match m with
  | .join .. | .leave => true
  | _ => false

theorem State.moveByMessage_stays (s : State) (own : Bool) (n : Nat) (m : Message) (v : Cause)
    (h : m.mayMove = false) : s.moveByMessage own n m v = s := by
  unfold Message.mayMove at h
  unfold State.moveByMessage
  cases m
  all_goals dsimp only at h ⊢
  all_goals contradiction

theorem State.takeEffect_stays (s : State) (n : Nat) (m : Message) (h : m.mayMove = false) :
    (s.takeEffect n m).tables = ((s.refreshAge n).judge n m).1.tables ∧
    (s.takeEffect n m).mixer = ((s.refreshAge n).judge n m).1.mixer ∧
    (s.takeEffect n m).member.station = s.member.station ∧ (s.takeEffect n m).member.cause = s.member.cause := by
  unfold State.takeEffect
  dsimp only
  rw [State.moveByMessage_stays _ _ _ _ _ h]
  split <;> simp

/-- What a message that moves no station leaves behind, at a station that hears it. -/
theorem State.messageEffect_stays (t : State) (n : Nat) (m : Message) (h : t.hears) (hm : m.mayMove = false) :
    (t.messageEffect n m).tables = ((t.tailCounts.refreshAge n).judge n m).1.tables ∧
    (t.messageEffect n m).mixer = ((t.tailCounts.refreshAge n).judge n m).1.mixer ∧
    (t.messageEffect n m).member.station = t.member.station ∧
    (t.messageEffect n m).member.cause = t.member.cause ∧
    State.sameAudio t (t.messageEffect n m) := by
  rw [t.messageEffect_hears n m h]
  have k := t.tailCounts.takeEffect_stays n m hm
  have c := t.tailCounts_kept
  simp only [State.closeFrame_frame]
  refine ⟨k.1, k.2.1, k.2.2.1.trans c.1, k.2.2.2.trans c.2.1, ?_⟩
  simp [State.sameAudio, State.tailCounts]

theorem exec_message (sender : Fin 16) (m : Message) (c : Instr) (s : State)
    (e : exec c s = s.messageCommand sender m) (h : s.released) :
    exec c s = .next (s.settle.messageEffect sender.val m).keepUpStart := by
  rw [e]; unfold State.messageCommand; rw [act_released _ _ h]

theorem zonesAtNotice_tables (s a : State) (n : StreamNotice) : (s.zonesAtNotice a n).tables = s.tables := by simp

theorem getD_set_ne {α} (l : List α) (i j : Nat) (a d : α) (h : j ≠ i) : (l.set i a).getD j d = l.getD j d := by
  simp only [List.getD_eq_getElem?_getD]; rw [List.getElem?_set_ne (Ne.symm h)]

theorem getD_set_eq {α} (l : List α) (i : Nat) (a d : α) (h : i < l.length) : (l.set i a).getD i d = a := by
  simp [List.getD_eq_getElem?_getD, h]

theorem getD_modify_ne {α} (l : List α) (i j : Nat) (f : α → α) (d : α) (h : j ≠ i) : (l.modify i f).getD j d = l.getD j d := by
  simp only [List.getD_eq_getElem?_getD]; rw [List.getElem?_modify]; simp [Ne.symm h]

theorem getD_modify_eq {α} (l : List α) (i : Nat) (f : α → α) (d : α) (h : i < l.length) : (l.modify i f).getD i d = f (l.getD i d) := by
  simp [List.getD_eq_getElem?_getD, h]

theorem onStation_ne (t : LineTables) (n m : Nat) (f) (h : m ≠ n) : (t.onStation n f).station m = t.station m :=
  getD_modify_ne _ _ _ _ _ h

theorem onStation_eq (t : LineTables) (n : Nat) (f) (h : n < t.roster.length) : (t.onStation n f).station n = f (t.station n) :=
  getD_modify_eq _ _ _ _ h

theorem setStation_ne (t : LineTables) (n m : Nat) (e) (h : m ≠ n) : (t.setStation n e).station m = t.station m :=
  getD_set_ne _ _ _ _ _ h

theorem setStation_eq (t : LineTables) (n : Nat) (e) (h : n < t.roster.length) : (t.setStation n e).station n = e :=
  getD_set_eq _ _ _ _ h

theorem setEntry_ne (t : LineTables) (x y : Nat) (e) (h : y ≠ x) : (t.setEntry x e).entry y = t.entry y :=
  getD_set_ne _ _ _ _ _ h

theorem setEntry_eq (t : LineTables) (x : Nat) (e) (h : x < t.directory.length) : (t.setEntry x e).entry x = e :=
  getD_set_eq _ _ _ _ h

theorem setCall_ne (t : LineTables) (x y : Nat) (e) (h : y ≠ x) : (t.setCall x e).call y = t.call y :=
  getD_set_ne _ _ _ _ _ h

theorem setCall_eq (t : LineTables) (x : Nat) (e) (h : x < t.calls.length) : (t.setCall x e).call x = e :=
  getD_set_eq _ _ _ _ h

theorem holdSlots_at (x i : Nat) (l : List Slot) : (holdSlots x l).getD i .free = if l.getD i .free = .owned x then .held 64 else l.getD i .free := by
  unfold holdSlots; exact getD_map l (fun e => if e = Slot.owned x then Slot.held 64 else e) i .free .free (by simp)

theorem strip_id (t before : LineTables) (h : ∀ x, wentNone before t x = false) : t.strip before = t := by
  have : ∀ f, withoutGone (wentNone before t) f = f := by
    intro f; cases f <;> simp [withoutGone, h]
  unfold LineTables.strip
  simp [this]

@[simp] theorem strip_keeps (t before : LineTables) : (t.strip before).roster = t.roster ∧ (t.strip before).directory = t.directory ∧
    (t.strip before).slots = t.slots ∧ (t.strip before).frameCount = t.frameCount := ⟨rfl, rfl, rfl, rfl⟩

@[simp] theorem strip_entry (t before : LineTables) (x : Nat) : (t.strip before).entry x = t.entry x := rfl

@[simp] theorem strip_station (t before : LineTables) (x : Nat) : (t.strip before).station x = t.station x := rfl

theorem strip_call (t before : LineTables) (j : Nat) : (t.strip before).call j =
    { t.call j with downlink := withoutGone (wentNone before t) (t.call j).downlink,
                    uplink := withoutGone (wentNone before t) (t.call j).uplink,
                    reference := withoutGone (wentNone before t) (t.call j).reference } := by
  unfold LineTables.strip LineTables.call
  exact getD_map t.calls _ j CallRecord.none CallRecord.none rfl

end Sys2Proof.Machine
end

