-- ==== Sys2Proof/Laws/Offers.lean ====
section
/-! SUPPORT. The line tables as a message hears them, and what an OFFER does (R49). -/

namespace Sys2Proof.Machine

set_option maxRecDepth 20000
set_option linter.unusedVariables false
set_option linter.unusedSimpArgs false

theorem heardTables (t : State) (n : Nat) (h : t.hears) :
    (t.tailCounts.refreshAge n).tables = t.tables.onStation n (fun e => { e with age := 0 }) := by
  unfold State.refreshAge
  show LineTables.onStation t.tailCounts.tables _ _ = _
  rw [State.tailCounts_tables t h.2.2.1]

/-- The judged tables of a stream message. -/
theorem judgeStream_tables (s : State) (n : Nat) (k : Cause) (v : LineTables → LineTables × Cause) :
    (s.judgeStream n k v).1.tables =
      (if (s.tables.station n).present then ((v s.tables).1.strip s.tables) else s.tables) ∧
    (s.judgeStream n k v).2 = (if (s.tables.station n).present then (v s.tables).2 else .notPresent) := by
  unfold State.judgeStream
  split <;> simp [State.changeTables_tables]

theorem strip_same (t : LineTables) : t.strip t = t := strip_id t t (by intro x; unfold wentNone; cases t.entry x <;> simp)

theorem kindOf_getD (k : Nat) (x : StreamKind) (h : kindOf k = some x) : (kindOf k).getD .programme = x := by rw [h]; rfl

@[simp] theorem onStation_keeps (t : LineTables) (n : Nat) (f) : (t.onStation n f).directory = t.directory ∧
   (t.onStation n f).slots = t.slots ∧ (t.onStation n f).calls = t.calls ∧ (t.onStation n f).frameCount = t.frameCount := ⟨rfl,rfl,rfl,rfl⟩

@[simp] theorem onStation_entry (t : LineTables) (n : Nat) (f) (x : Nat) : (t.onStation n f).entry x = t.entry x := rfl

@[simp] theorem onStation_call (t : LineTables) (n : Nat) (f) (x : Nat) : (t.onStation n f).call x = t.call x := rfl

theorem onStation_present (t : LineTables) (n m : Nat) (f : RosterEntry → RosterEntry) (h : ∀ e, (f e).present = e.present) :
    ((t.onStation n f).station m).present = (t.station m).present := by
  by_cases hm : m = n
  · subst hm
    by_cases hl : m < t.roster.length
    · rw [onStation_eq _ _ _ hl, h]
    · unfold LineTables.onStation LineTables.station
      simp [List.getD_eq_getElem?_getD, hl]
  · rw [onStation_ne _ _ _ _ hm]

theorem offer_state (T : LineTables) (x : Nat) (p : StreamParameters) :
   (T.offer x p).1.slots = T.slots ∧ (T.offer x p).1.calls = T.calls ∧ (T.offer x p).1.roster = T.roster ∧
   (∀ y, y ≠ x → (T.offer x p).1.entry y = T.entry y) ∧ (T.offer x p).1.strip T = (T.offer x p).1 := by
  have hst : (T.setEntry x (.offered p)).strip T = T.setEntry x (.offered p) := by
    apply strip_id; intro y; unfold wentNone
    by_cases hy : y = x
    · subst hy
      by_cases hl : y < T.directory.length
      · rw [setEntry_eq _ _ _ hl]; simp
      · have : (T.entry y) = .none := by unfold LineTables.entry; simp [List.getD_eq_getElem?_getD, hl]
        simp [this]
    · rw [setEntry_ne _ _ _ _ hy]; cases T.entry y <;> simp
  unfold LineTables.offer
  split
  · exact ⟨rfl, rfl, rfl, fun _ _ => rfl, strip_same T⟩
  · split
    · exact ⟨rfl, rfl, rfl, fun y hy => setEntry_ne _ _ _ _ hy, hst⟩
    · split <;> exact ⟨rfl, rfl, rfl, fun _ _ => rfl, strip_same T⟩

end Sys2Proof.Machine
end

