-- ==== Sys2Proof/Laws/Streams.lean ====
section
/-! SUPPORT. What a CLAIM, a RELEASE and a WITHDRAW do to the directory and the slots (R50 to R52). -/

namespace Sys2Proof.Machine

set_option maxRecDepth 20000
set_option linter.unusedVariables false
set_option linter.unusedSimpArgs false

/-- Tables with a sender's age at 0. -/
abbrev aged (T : LineTables) (n : Nat) : LineTables := T.onStation n (fun e => { e with age := 0 })

theorem strip_rise (T U : LineTables) (x : Nat) (hne : ∀ y, y ≠ x → U.entry y = T.entry y)
    (hx : T.entry x ≠ .none → U.entry x ≠ .none) : U.strip T = U := by
  apply strip_id; intro y; unfold wentNone
  by_cases hy : y = x
  · subst hy
    cases h : T.entry y <;> simp
    all_goals exact hx (by simp [h])
  · rw [hne y hy]; cases T.entry y <;> simp

theorem ownRun_at (x f c : Nat) (l : List Slot) (i : Nat) :
    (ownRun x f c l).getD i .free = if f ≤ i ∧ i < f + c ∧ i < l.length then .owned x else l.getD i .free := by
  unfold ownRun run
  rw [List.foldl_map]
  induction c with
  | zero => simp; intro a b; omega
  | succ c ih =>
    rw [List.range_succ, List.foldl_append]
    have hl : ((List.range c).foldl (fun acc i => acc.set (f + i) (Slot.owned x)) l).length = l.length := by
      clear ih
      induction c with
      | zero => rfl
      | succ c ih => rw [List.range_succ, List.foldl_append]; simp [ih]
    simp only [List.foldl_cons, List.foldl_nil]
    by_cases hi : i = f + c
    · subst hi
      by_cases hb : f + c < l.length
      · rw [getD_set_eq _ _ _ _ (by rw [hl]; exact hb), if_pos ⟨by omega, by omega, hb⟩]
      · rw [if_neg (by omega)]
        simp only [List.getD_eq_getElem?_getD]
        rw [List.getElem?_eq_none (by simp [hl]; omega), List.getElem?_eq_none (by omega)]
    · rw [getD_set_ne _ _ _ _ _ hi, ih]
      by_cases h1 : f ≤ i ∧ i < f + c ∧ i < l.length
      · rw [if_pos h1, if_pos (by omega)]
      · rw [if_neg h1, if_neg (by omega)]

theorem carryStream_facts (T : LineTables) (x : Nat) (p : StreamParameters) (f : Nat) :
    (T.carryStream x p f).calls = T.calls ∧ (T.carryStream x p f).roster = T.roster ∧
    (∀ y, y ≠ x → (T.carryStream x p f).entry y = T.entry y) ∧
    (x < T.directory.length → (T.carryStream x p f).entry x = .carried p f) ∧
    (∀ i, (T.carryStream x p f).slots.getD i .free = if f ≤ i ∧ i < f + p.channels ∧ i < T.slots.length then .owned x else T.slots.getD i .free) :=
  ⟨rfl, rfl, fun y hy => setEntry_ne _ _ _ _ hy, fun h => setEntry_eq _ _ _ h, fun i => ownRun_at x f p.channels T.slots i⟩

theorem runFree_iff (T : LineTables) (f c : Nat) : T.runFree f c = true ↔ ∀ i, i < c → T.slots.getD (f + i) (.held 0) = .free := by
  unfold LineTables.runFree run
  simp only [List.all_eq_true, List.mem_map, List.mem_range]
  constructor
  · intro h i hi; simpa using h (f + i) ⟨i, hi, rfl⟩
  · rintro h _ ⟨i, hi, rfl⟩; simpa using h i hi

theorem claim_keeps (T : LineTables) (x f : Nat) : (T.claim x f).1.calls = T.calls ∧ (T.claim x f).1.roster = T.roster ∧
    (T.claim x f).1.strip T = (T.claim x f).1 ∧ ((T.claim x f).2 ≠ .taken → (T.claim x f).1 = T) := by
  unfold LineTables.claim
  split
  · exact ⟨rfl, rfl, strip_same T, fun _ => rfl⟩
  · exact ⟨rfl, rfl, strip_same T, fun _ => rfl⟩
  · next p h =>
    split
    · exact ⟨rfl, rfl, strip_same T, fun _ => rfl⟩
    split
    · exact ⟨rfl, rfl, strip_same T, fun _ => rfl⟩
    split
    · exact ⟨rfl, rfl, strip_same T, fun _ => rfl⟩
    · refine ⟨rfl, rfl, ?_, fun h => absurd rfl h⟩
      refine strip_rise T _ x (fun y hy => setEntry_ne _ _ _ _ hy) (fun _ => ?_)
      by_cases hx : x < T.directory.length
      · rw [show (T.carryStream x p f).entry x = .carried p f from setEntry_eq _ _ _ hx]; simp
      · intro; simp [LineTables.entry, List.getD_eq_getElem?_getD, hx] at h

theorem offerStream_facts (T : LineTables) (x : Nat) (p : StreamParameters) :
    (T.offerStream x p).calls = T.calls ∧ (T.offerStream x p).roster = T.roster ∧
    (∀ y, y ≠ x → (T.offerStream x p).entry y = T.entry y) ∧
    (x < T.directory.length → (T.offerStream x p).entry x = .offered p) ∧
    (∀ i, (T.offerStream x p).slots.getD i .free = if T.slots.getD i .free = .owned x then .held 64 else T.slots.getD i .free) :=
  ⟨rfl, rfl, fun y hy => setEntry_ne _ _ _ _ hy, fun h => setEntry_eq _ _ _ h, fun i => holdSlots_at x i T.slots⟩

theorem endStream_facts (T : LineTables) (x : Nat) :
    (T.endStream x).calls = T.calls ∧ (T.endStream x).roster = T.roster ∧
    (∀ y, y ≠ x → (T.endStream x).entry y = T.entry y) ∧
    (x < T.directory.length → (T.endStream x).entry x = .none) ∧
    (∀ i, (T.endStream x).slots.getD i .free = if T.slots.getD i .free = .owned x then .held 64 else T.slots.getD i .free) :=
  ⟨rfl, rfl, fun y hy => setEntry_ne _ _ _ _ hy, fun h => setEntry_eq _ _ _ h, fun i => holdSlots_at x i T.slots⟩

end Sys2Proof.Machine
end

