-- ==== Sys2Proof/Laws/Movement.lean ====
section
/-! SUPPORT. How a JOIN or LEAVE that takes effect moves the station (R27, R38, R39, R43). -/

namespace Sys2Proof.Machine

set_option maxRecDepth 20000
set_option linter.unusedVariables false
set_option linter.unusedSimpArgs false

theorem aged_zones (T : LineTables) (n : Nat) : (aged T n).zonesPresent = T.zonesPresent := by
  unfold LineTables.zonesPresent
  have key : ∀ (l : List RosterEntry) (n : Nat) (a : ZoneSet),
     (l.modify n (fun e => { e with age := 0 })).foldl (fun acc e => if e.present then acc ||| e.zones else acc) a =
     l.foldl (fun acc e => if e.present then acc ||| e.zones else acc) a := by
    intro l
    induction l with
    | nil => intro n a; cases n <;> rfl
    | cons e l ih =>
      intro n a
      cases n with
      | zero => rfl
      | succ n => simp only [List.modify_succ_cons, List.foldl_cons]; exact ih n _
  exact key _ _ _

theorem tailCounts_isOwn (t : State) (n : Nat) (m : Message) : t.tailCounts.isOwn n m = t.isOwn n m := by
  unfold State.isOwn State.number
  simp [State.tailCounts]

/-- What stands when the own message has left the queue and before the station moves. -/
theorem takeEffect_split (t : State) (n : Nat) (m : Message) :
    ∃ v : State, t.tailCounts.takeEffect n m = v.moveByMessage (t.isOwn n m) n m ((t.tailCounts.refreshAge n).judge n m).2
      ∧ v.tables = ((t.tailCounts.refreshAge n).judge n m).1.tables ∧ v.member.station = t.member.station
      ∧ v.member.cause = t.member.cause ∧ v.startUp.record = t.startUp.record ∧ State.sameAudio t v := by
  refine ⟨match t.isOwn n m, t.tailCounts.line.sent with
    | true, some sent => ((t.tailCounts.refreshAge n).judge n m).1.concludeOwn t.tailCounts.tables sent ((t.tailCounts.refreshAge n).judge n m).2
    | _, _ => ((t.tailCounts.refreshAge n).judge n m).1, ?_, ?_, ?_, ?_, ?_, ?_⟩
  · unfold State.takeEffect
    simp only [tailCounts_isOwn] <;> rfl
  all_goals (split <;> simp [State.tailCounts, State.sameAudio])

theorem sameAudio_trans (a b c : State) (h : State.sameAudio a b) (k : State.sameAudio b c) : State.sameAudio a c := by
  obtain ⟨h1, h2, h3, h4, h5, h6⟩ := h
  obtain ⟨k1, k2, k3, k4, k5, k6⟩ := k
  exact ⟨k1.trans h1, k2.trans h2, k3.trans h3, k4.trans h4, k5.trans h5, k6.trans h6⟩

theorem moveByMessage_audio (v : State) (o : Bool) (n : Nat) (m : Message) (c : Cause) : State.sameAudio v (v.moveByMessage o n m c) := by
  simp [State.sameAudio]

end Sys2Proof.Machine
end

