-- ==== Sys2Proof/Laws/Removal.lean ====
section
/-! SUPPORT. What the removal of a station does to the tables (R26, R27). -/

namespace Sys2Proof.Machine

set_option maxRecDepth 20000
set_option linter.unusedVariables false
set_option linter.unusedSimpArgs false

theorem endFour (T : LineTables) (n : Nat) (k : Nat) :
   let U := (List.range k).foldl (fun acc i => LineTables.endStream acc (n * 4 + i)) T
   U.calls = T.calls ∧ U.roster = T.roster ∧ U.frameCount = T.frameCount ∧ U.directory.length = T.directory.length ∧
   (∀ y, U.entry y = if n * 4 ≤ y ∧ y < n * 4 + k then .none else T.entry y) ∧
   (∀ i, U.slots.getD i .free = match T.slots.getD i .free with
      | .owned x => if n * 4 ≤ x ∧ x < n * 4 + k then .held 64 else .owned x
      | e => e) := by
  induction k with
  | zero => refine ⟨rfl, rfl, rfl, rfl, fun y => by rw [if_neg (by omega)]; rfl, fun i => ?_⟩
            simp only [List.range_zero, List.foldl_nil]
            split
            · next x h => rw [if_neg (by omega)]; exact h
            · rfl
  | succ k ih =>
    rw [List.range_succ, List.foldl_append]
    simp only [List.foldl_cons, List.foldl_nil]
    obtain ⟨a, b, c, d, e, f⟩ := ih
    refine ⟨a, b, c, by simpa [LineTables.endStream, LineTables.setEntry] using d, ?_, ?_⟩
    · intro y
      by_cases hy : y = n * 4 + k
      · subst hy
        rw [if_pos (by omega)]
        by_cases hl : n * 4 + k < T.directory.length
        · exact setEntry_eq _ _ _ (by rw [d]; exact hl)
        · unfold LineTables.entry
          rw [List.getD_eq_getElem?_getD, List.getElem?_eq_none]; rfl
          show List.length (List.set _ _ _) ≤ _
          rw [List.length_set, d]; omega
      · rw [show LineTables.entry (LineTables.endStream _ (n * 4 + k)) y = LineTables.entry _ y from setEntry_ne _ _ _ _ hy, e]
        by_cases h1 : n * 4 ≤ y ∧ y < n * 4 + k
        · rw [if_pos h1, if_pos (by omega)]
        · rw [if_neg h1, if_neg (by omega)]
    · intro i
      rw [show (LineTables.slots (LineTables.endStream _ (n * 4 + k))).getD i .free = _ from holdSlots_at (n * 4 + k) i _, f]
      cases h : T.slots.getD i .free with
      | free => simp
      | held m => simp
      | owned x =>
        simp only
        by_cases h1 : n * 4 ≤ x ∧ x < n * 4 + k
        · have h3 : n * 4 ≤ x ∧ x < n * 4 + (k + 1) := by omega
          simp [h1, h3]
        · by_cases h2 : x = n * 4 + k
          · have h3 : n * 4 ≤ x ∧ x < n * 4 + (k + 1) := by omega
            rw [if_neg h1, if_pos h3, if_pos (by rw [h2])]
          · have h3 : ¬(n * 4 ≤ x ∧ x < n * 4 + (k + 1)) := by omega
            rw [if_neg h1, if_neg h3, if_neg (by simpa using h2)]

theorem removed_facts (T : LineTables) (n : Nat) (hn : n < T.roster.length) :
   (T.removeStation n).frameCount = T.frameCount ∧
   (T.removeStation n).station n = .absent ∧ (∀ m, m ≠ n → (T.removeStation n).station m = T.station m) ∧
   (∀ y, (T.removeStation n).entry y = if y / 4 = n then .none else T.entry y) ∧
   (∀ i, (T.removeStation n).slots.getD i .free = match T.slots.getD i .free with
      | .owned x => if x / 4 = n then .held 64 else .owned x
      | e => e) ∧
   (∀ j, (T.removeStation n).call j = callAfterRemoval n (T.call j)) := by
  obtain ⟨a, b, c, d, e, f⟩ := endFour T n 4
  unfold LineTables.removeStation
  refine ⟨c, setStation_eq _ _ _ (by simp only [b]; exact hn), ?_, ?_, ?_, ?_⟩
  · intro m hm; rw [setStation_ne _ _ _ _ hm]; unfold LineTables.station; simp only [b]
  · intro y; refine (e y).trans ?_
    by_cases h : y / 4 = n
    · rw [if_pos h, if_pos (by omega)]
    · rw [if_neg h, if_neg (by omega)]
  · intro i; refine (f i).trans ?_
    split <;> try rfl
    next x h =>
      by_cases h : x / 4 = n
      · rw [if_pos h, if_pos (by omega)]
      · rw [if_neg h, if_neg (by omega)]
  · intro j
    show (List.map _ (LineTables.calls _)).getD j CallRecord.none = _
    rw [a]
    exact getD_map T.calls _ j CallRecord.none CallRecord.none (by unfold callAfterRemoval; simp [CallRecord.none])

theorem removeStation_tables (s : State) (n : Nat) (c : Cause) : (s.removeStation n c).tables = (s.tables.removeStation n).strip s.tables := by
  unfold State.removeStation
  simp [State.changeTables_tables]

theorem ownRemoved_facts (v : State) : (v.member.station = .member → v.ownRemoved.member.station = .listening ∧ v.ownRemoved.member.cause = some .agedOut)
   ∧ (v.member.station = .leaving → v.ownRemoved.member.station = .detached ∧ v.ownRemoved.member.cause = some .left) := by
  have e : v.ownRemoved = if v.member.station = .member then v.goTo .listening .agedOut else if v.member.station = .leaving then v.goTo .detached .left else v := by
    unfold State.ownRemoved; split <;> simp_all
  rw [e]
  constructor <;> (intro h; simp only [h, if_true, reduceCtorEq, if_false]; exact goTo_station _ _ _)

theorem moveByMessage_leave (v : State) (n : Nat) (c : Cause) :
    v.moveByMessage true n .leave c = v.goTo .detached .left ∧
    v.moveByMessage false n .leave c = if n = v.number ∧ c = .taken then v.ownRemoved else v := by
  constructor
  · unfold State.moveByMessage; simp only [if_true]
  · unfold State.moveByMessage; simp only [Bool.false_eq_true, if_false]

end Sys2Proof.Machine
end

