-- ==== Sys2Proof/Laws/Descriptors.lean ====
section
/-! SUPPORT. What a descriptor changes and what it leaves as declared (R31, R32, R35). -/

namespace Sys2Proof.Machine

set_option maxRecDepth 20000
set_option linter.unusedVariables false
set_option linter.unusedSimpArgs false

/-- What a station declares, and its age, are the same in two entries. -/
def SameDeclared (e f : RosterEntry) : Prop :=
  f.present = e.present ∧ f.roles = e.roles ∧ f.zones = e.zones ∧ f.privateZones = e.privateZones ∧ f.age = e.age

theorem SameDeclared.same (e : RosterEntry) : SameDeclared e e := ⟨rfl, rfl, rfl, rfl, rfl⟩

theorem SameDeclared.tr {a b c : RosterEntry} (h : SameDeclared a b) (k : SameDeclared b c) : SameDeclared a c :=
  ⟨k.1.trans h.1, k.2.1.trans h.2.1, k.2.2.1.trans h.2.2.1, k.2.2.2.1.trans h.2.2.2.1, k.2.2.2.2.trans h.2.2.2.2⟩

theorem onStation_any (t : LineTables) (n m : Nat) (f : RosterEntry → RosterEntry) (h : ∀ e, SameDeclared e (f e)) :
    SameDeclared (t.station m) ((t.onStation n f).station m) := by
  by_cases hm : m = n
  · subst hm
    by_cases hl : m < t.roster.length
    · rw [onStation_eq _ _ _ hl]; exact h _
    · unfold LineTables.onStation LineTables.station
      simp [List.getD_eq_getElem?_getD, hl]; exact SameDeclared.same _
  · rw [onStation_ne _ _ _ _ hm]; exact SameDeclared.same _

theorem restart_any (t : LineTables) (m : Nat) : SameDeclared (t.station m) (t.restartCompleteness.station m) := by
  have : t.restartCompleteness.station m = { t.station m with completeness := .none } := by
    exact getD_map t.roster (fun e => { e with completeness := .none }) m RosterEntry.absent RosterEntry.absent rfl
  rw [this]; exact ⟨rfl, rfl, rfl, rfl, rfl⟩

theorem countDescriptor_facts (s : State) (b : LineTables) (n : Nat) (o : SlotSet) (d : Descriptor) :
    let u := s.countDescriptor b n o d
    u.tables.directory = s.tables.directory ∧ u.tables.slots = s.tables.slots ∧ u.tables.calls = s.tables.calls ∧
    u.tables.frameCount = s.tables.frameCount ∧ ∀ m, SameDeclared (s.tables.station m) (u.tables.station m) := by
  unfold State.countDescriptor
  dsimp only
  split
  · refine ⟨?_, ?_, ?_, ?_, ?_⟩
    · simp only [onStation_keeps]; split <;> rfl
    · simp only [onStation_keeps]; split <;> rfl
    · simp only [onStation_keeps]; split <;> rfl
    · simp only [onStation_keeps]; split <;> rfl
    · intro m
      refine SameDeclared.tr ?_ (onStation_any _ _ _ _ (fun e => ⟨rfl, rfl, rfl, rfl, rfl⟩))
      split
      · exact restart_any _ _
      · exact SameDeclared.same _
  · exact ⟨rfl, rfl, rfl, rfl, fun m => SameDeclared.same _⟩

theorem displace_keeps (T : LineTables) (y : Nat) : (T.displace y).roster = T.roster ∧ (T.displace y).calls = T.calls ∧
   (T.displace y).frameCount = T.frameCount ∧ (T.displace y).directory.length = T.directory.length ∧ (T.displace y).slots.length = T.slots.length := by
  unfold LineTables.displace
  split
  · simp [LineTables.offerStream, LineTables.setEntry, holdSlots]
  · exact ⟨rfl, rfl, rfl, rfl, rfl⟩

theorem displaceAll_keeps (l : List Nat) : ∀ (T : LineTables), (l.foldl (fun acc y => acc.displace y) T).roster = T.roster ∧ (l.foldl (fun acc y => acc.displace y) T).calls = T.calls ∧
   (l.foldl (fun acc y => acc.displace y) T).frameCount = T.frameCount ∧ (l.foldl (fun acc y => acc.displace y) T).directory.length = T.directory.length ∧ (l.foldl (fun acc y => acc.displace y) T).slots.length = T.slots.length := by
  induction l with
  | nil => intro T; exact ⟨rfl, rfl, rfl, rfl, rfl⟩
  | cons y l ih =>
    intro T; simp only [List.foldl_cons]
    obtain ⟨a, b, c, d, e⟩ := ih (T.displace y)
    obtain ⟨a', b', c', d', e'⟩ := displace_keeps T y
    exact ⟨a.trans a', b.trans b', c.trans c', d.trans d', e.trans e'⟩

theorem applyStream_facts (T : LineTables) (x st : Nat) (p : StreamParameters) (f : Nat) :
    (T.applyStream x st p f).roster = T.roster ∧ (T.applyStream x st p f).calls = T.calls ∧
    (T.applyStream x st p f).frameCount = T.frameCount ∧
    (x < T.directory.length → st = 0 → (T.applyStream x st p f).entry x = .none) ∧
    (x < T.directory.length → st = 1 → (T.applyStream x st p f).entry x = .offered p) ∧
    (x < T.directory.length → st = 2 → (T.applyStream x st p f).entry x = .carried p f ∧
      ∀ j, j < p.channels → f + j < T.slots.length → (T.applyStream x st p f).slots.getD (f + j) .free = .owned x) := by
  unfold LineTables.applyStream
  split
  · refine ⟨?_, ?_, ?_, ?_, by simp, by simp⟩
    · split <;> rfl
    · split <;> rfl
    · split <;> rfl
    · intro h _
      split
      · next hc => cases he : T.entry x <;> simp_all [StreamEntry.code]
      · exact (endStream_facts T x).2.2.2.1 h
  · exact ⟨rfl, rfl, rfl, by simp, fun h _ => (offerStream_facts T x p).2.2.2.1 h, by simp⟩
  · next h0 h1 =>
    dsimp only
    obtain ⟨a, b, c, d, e⟩ := displaceAll_keeps (T.ownersIn x f p.channels) { T with slots := holdSlots x T.slots }
    obtain ⟨C1, C2, C3, C4, C5⟩ := carryStream_facts ((T.ownersIn x f p.channels).foldl (fun acc y => acc.displace y) { T with slots := holdSlots x T.slots }) x p f
    refine ⟨C2.trans a, C1.trans b, c, fun _ h => absurd h h0, fun _ h => absurd h h1, ?_⟩
    intro hx _
    refine ⟨C4 (by rw [d]; exact hx), ?_⟩
    intro j hj hl
    rw [C5, if_pos]
    refine ⟨by omega, by omega, ?_⟩
    rw [e]; simpa [holdSlots] using hl

theorem markCalls_facts (T : LineTables) (n i : Nat) :
    (T.markCalls n i).directory = T.directory ∧ (T.markCalls n i).slots = T.slots ∧ (T.markCalls n i).frameCount = T.frameCount ∧
    ∀ m, SameDeclared (T.station m) ((T.markCalls n i).station m) := by
  unfold LineTables.markCalls
  split
  · exact ⟨rfl, rfl, rfl, fun m => onStation_any _ _ _ _ (fun e => ⟨rfl, rfl, rfl, rfl, rfl⟩)⟩
  split
  · dsimp only
    have key : ∀ (l : List Nat) (U : LineTables), (l.foldl (fun acc j => if (acc.call j).owner = some n then acc.setCall j .none else acc) U).directory = U.directory ∧
       (l.foldl (fun acc j => if (acc.call j).owner = some n then acc.setCall j .none else acc) U).slots = U.slots ∧
       (l.foldl (fun acc j => if (acc.call j).owner = some n then acc.setCall j .none else acc) U).frameCount = U.frameCount ∧
       (l.foldl (fun acc j => if (acc.call j).owner = some n then acc.setCall j .none else acc) U).roster = U.roster := by
      intro l; induction l with
      | nil => intro U; exact ⟨rfl, rfl, rfl, rfl⟩
      | cons j l ih =>
        intro U; simp only [List.foldl_cons]
        obtain ⟨a, b, c, d⟩ := ih (if (U.call j).owner = some n then U.setCall j .none else U)
        rw [a, b, c, d]; split <;> exact ⟨rfl, rfl, rfl, rfl⟩
    obtain ⟨a, b, c, d⟩ := key (T.station n).marks T
    refine ⟨a, b, c, fun m => ?_⟩
    refine SameDeclared.tr ?_ (onStation_any _ _ _ _ (fun e => ⟨rfl, rfl, rfl, rfl, rfl⟩))
    show SameDeclared (T.roster.getD m .absent) ((LineTables.roster _).getD m .absent); rw [d]; exact SameDeclared.same _
  · exact ⟨rfl, rfl, rfl, fun m => SameDeclared.same _⟩

theorem activate_facts (T : LineTables) (j : Nat) (c : CallRecord) (hj : j < 2) (hl : T.calls.length = 2) :
    (T.activate j c).directory = T.directory ∧ (T.activate j c).slots = T.slots ∧ (T.activate j c).roster = T.roster ∧ (T.activate j c).frameCount = T.frameCount ∧
    (T.activate j c).call j = { c with state := .active } ∧
    ((T.call (1 - j)).state = .active → (T.activate j c).call (1 - j) = { T.call (1 - j) with state := .held }) := by
  have h1 : otherCall j = 1 - j := rfl
  have h2 : 1 - j ≠ j := by omega
  unfold LineTables.activate
  dsimp only
  rw [h1]
  refine ⟨by split <;> rfl, by split <;> rfl, by split <;> rfl, by split <;> rfl, ?_, ?_⟩
  · apply setCall_eq; split <;> simp [LineTables.setCall, hl, hj]
  · intro ha
    rw [if_pos ha, setCall_ne _ _ _ _ h2, setCall_eq _ _ _ (by rw [hl]; omega)]

theorem applyDescriptor_roster (T : LineTables) (n : Nat) (d : Descriptor) :
    (T.applyDescriptor n d).frameCount = T.frameCount ∧ ∀ m, SameDeclared (T.station m) ((T.applyDescriptor n d).station m) := by
  unfold LineTables.applyDescriptor
  split
  · dsimp only
    split
    · exact ⟨(markCalls_facts _ _ _).2.2.1, (markCalls_facts _ _ _).2.2.2⟩
    · refine ⟨(markCalls_facts _ _ _).2.2.1.trans (applyStream_facts _ _ _ _ _).2.2.1, fun m => ?_⟩
      refine SameDeclared.tr ?_ ((markCalls_facts _ _ _).2.2.2 m)
      unfold LineTables.station; rw [(applyStream_facts _ _ _ _ _).1]; exact SameDeclared.same _
  · dsimp only
    have : ∀ c : CallRecord, ∀ j, (if c.state = .active then T.activate j c else T.setCall j c).roster = T.roster ∧ (if c.state = .active then T.activate j c else T.setCall j c).frameCount = T.frameCount := by
      intro c j; split
      · unfold LineTables.activate; dsimp only; split <;> exact ⟨rfl, rfl⟩
      · exact ⟨rfl, rfl⟩
    refine ⟨(this _ _).2, fun m => ?_⟩
    refine SameDeclared.tr ?_ (onStation_any _ _ _ _ (fun e => ⟨rfl, rfl, rfl, rfl, rfl⟩))
    unfold LineTables.station; rw [(this _ _).1]; exact SameDeclared.same _
  · exact ⟨rfl, fun m => SameDeclared.same _⟩

theorem judgePresence_tables (s : State) (n : Nat) (r : Byte) (z p : ZoneSet) (o : SlotSet) (d : Descriptor)
   (h : (s.tables.station n).present = true ∨ s.member.station = .listening) :
   let D := ((s.tables.onStation n (fun e => e.declare r z p)).applyDescriptor n d).strip s.tables
   let u := (s.judgePresence n r z p o d).1
   u.tables.directory = D.directory ∧ u.tables.slots = D.slots ∧ u.tables.calls = D.calls ∧ u.tables.frameCount = D.frameCount ∧
   ∀ m, SameDeclared (D.station m) (u.tables.station m) := by
  dsimp only
  unfold State.judgePresence
  dsimp only
  rw [if_neg (by rcases h with h | h <;> simp [h])]
  generalize hA : (if (s.tables.station n).present = true then s else raise .stationAdded [n] none s) = A
  have hT : A.tables = s.tables := by rw [← hA]; split <;> simp
  have C := countDescriptor_facts (A.changeTables ((s.tables.onStation n (fun e => e.declare r z p)).applyDescriptor n d) .presence (fun _ => .presence)) s.tables n o d
  rw [State.changeTables_tables, hT] at C
  exact C

end Sys2Proof.Machine
end

