-- ==== Sys2Proof/Laws/Foreign.lean ====
section
/-! SUPPORT. Messages of other stations, the parts of a note, and the samples heard (R14, R21, R169, R170). -/

namespace Sys2Proof.Machine

set_option maxRecDepth 20000
set_option linter.unusedVariables false
set_option linter.unusedSimpArgs false

theorem messageEffect_foreign (t : State) (n : Nat) (m : Message) (h : t.hears) (hm : m.mayMove = false)
    (ho : t.isOwn n m = false) : t.messageEffect n m = ((t.tailCounts.refreshAge n).judge n m).1.closeFrame := by
  rw [t.messageEffect_hears n m h]
  congr 1
  unfold State.takeEffect
  dsimp only
  rw [State.moveByMessage_stays _ _ _ _ _ hm, tailCounts_isOwn, ho]

theorem drove_foreign (t : State) (n : Nat) (m : Message) (h : t.droveNothing) : t.isOwn n m = false := by
  unfold State.isOwn; rw [h]; simp

@[simp] theorem tailCounts_hasHost (t : State) : t.tailCounts.hasHost = t.hasHost := by
  unfold State.hasHost State.roles State.inForce
  simp [State.tailCounts]

theorem refreshAge_hasHost (t : State) (n : Nat) : (t.refreshAge n).hasHost = t.hasHost := by
  unfold State.hasHost State.roles State.inForce
  simp

theorem accepts_iff (box : NoteBox) (sender i n : Nat) : box.accepts sender i n = true ↔
   ((1 ≤ n ∧ n ≤ 256 ∧ i ≤ (n - 1) / 16) ∧ match box with
      | .free => i = 0
      | .filling from' length next _ _ => from' = sender ∧ (i = 0 ∨ (i = next ∧ n = length))
      | .full .. => False) := by
  have : ∀ k, lastPart k = (k - 1) / 16 := fun _ => rfl
  unfold NoteBox.accepts
  cases box <;> simp only [Bool.and_eq_true, decide_eq_true_eq, Bool.or_eq_true, beq_iff_eq, this, and_assoc, Bool.false_eq_true, and_false]
  · constructor
    · rintro ⟨a, b, c, d⟩; exact ⟨b, c, d, a⟩
    · rintro ⟨b, c, d, a⟩; exact ⟨a, b, c, d⟩

theorem takePart_last (s : State) (sender i n : Nat) (data : BitVec 128) (h : i = (n - 1) / 16) :
    ∃ old : List Byte, (i ≠ 0 → old = match s.note.box with | .filling _ _ _ _ d => d | _ => []) ∧
    s.takePart sender i n data = raise .noteArrived [sender, n - 1] none { s with note.box := .full sender n 0 (noteData old i n data) } := by
  unfold State.takePart
  dsimp only
  rw [if_pos (by unfold lastPart; exact h)]
  refine ⟨_, ?_, rfl⟩
  intro h0
  cases s.note.box <;> simp [h0]

theorem heard_eq (t : State) (o : Option (BitVec 187)) (r : Bool) : t.arbitrate none o r = (heardField o r, none) := by
  unfold State.arbitrate heardField
  cases o with
  | none => rfl
  | some w => dsimp only <;> (cases judgeField w <;> rfl)

theorem find_filterMap (l : List Nat) (x : Nat) (g : Nat → Option LineSample) (hg : ∀ y ls, g y = some ls → ls.stream = y) :
    (l.filterMap g).find? (fun l => l.stream == x) = if x ∈ l then g x else none := by
  induction l with
  | nil => rfl
  | cons y l ih =>
    rw [List.filterMap_cons]
    cases hy : g y with
    | none =>
      simp only [ih]
      by_cases hxy : x = y
      · subst hxy; simp [hy]
      · simp [hxy]
    | some ls =>
      have := hg y ls hy
      simp only [List.find?_cons, this]
      by_cases hxy : x = y
      · subst hxy; simp [hy]
      · have : (y == x) = false := by simp; exact fun h => hxy h.symm
        simp only [this, ih]; simp [hxy]

end Sys2Proof.Machine
end

