-- ==== Sys2Proof/Laws/Routes.lean ====
section
/-! SUPPORT. What routing actions do to a zone and to the send queue (R102 to R105). -/

namespace Sys2Proof.Machine

set_option maxRecDepth 20000
set_option linter.unusedVariables false
set_option linter.unusedSimpArgs false

def HasOut (s : State) (o : Originator) (m : Message) : Prop := ∃ e, e ∈ s.line.queue ++ s.line.waiting ∧ e.originator = o ∧ e.message = m

theorem mem_placeEntry (e : QueueEntry) (l : List QueueEntry) (d : QueueEntry) : d ∈ placeEntry e l ↔ d = e ∨ d ∈ l := by
  induction l with
  | nil => simp [placeEntry]
  | cons f l ih =>
    unfold placeEntry; split
    · simp
    · simp only [List.mem_cons, ih]; constructor <;> (rintro (h | h | h) <;> simp [h])

theorem enter_has (s : State) (e : QueueEntry) : HasOut (s.enter e) e.originator e.message :=
  ⟨{ e with order := s.line.nextOrder }, by simp [State.enter, mem_placeEntry], rfl, rfl⟩

theorem enter_keeps_has (s : State) (e : QueueEntry) (o m) (h : HasOut s o m) : HasOut (s.enter e) o m := by
  obtain ⟨d, h1, h2, h3⟩ := h
  refine ⟨d, ?_, h2, h3⟩
  simp only [State.enter, List.mem_append, mem_placeEntry] at h1 ⊢
  rcases h1 with h | h <;> simp [h]

theorem send_has (s : State) (e : QueueEntry) (hc : e.originator ≠ .callUnit) : HasOut (s.send e) e.originator e.message := by
  unfold State.send
  split
  · dsimp only
    exact ⟨e, by simp, rfl, rfl⟩
  · exact enter_has s e

theorem moveWaiting_keeps_has (s : State) (o m) (h : HasOut s o m) : HasOut s.moveWaiting o m := by
  unfold State.moveWaiting
  dsimp only
  generalize 8 - s.line.queue.length = r
  have key : ∀ (l : List QueueEntry) (w : State), (HasOut w o m ∨ ∃ e ∈ l, e.originator = o ∧ e.message = m) → HasOut (l.foldl (fun acc e => acc.enter e) w) o m := by
    intro l
    induction l with
    | nil => intro w h; rcases h with h | ⟨e, he, _⟩; exact h; simp at he
    | cons e l ih =>
      intro w h
      simp only [List.foldl_cons]
      apply ih
      rcases h with h | ⟨d, hd, h1, h2⟩
      · left; exact enter_keeps_has _ _ _ _ h
      · rcases List.mem_cons.mp hd with h | h
        · left; subst h; have := enter_has w d; rw [h1, h2] at this; exact this
        · right; exact ⟨d, h, h1, h2⟩
  apply key
  obtain ⟨d, h1, h2, h3⟩ := h
  rcases List.mem_append.mp h1 with h | h
  · left; exact ⟨d, by simp [h], h2, h3⟩
  · by_cases hk : d ∈ s.line.waiting.take r
    · right; exact ⟨d, hk, h2, h3⟩
    · left
      refine ⟨d, ?_, h2, h3⟩
      have : d ∈ s.line.waiting.take r ++ s.line.waiting.drop r := by rw [List.take_append_drop]; exact h
      rcases List.mem_append.mp this with h | h
      · exact absurd h hk
      · simp [h]

theorem closeFrame_keeps_has (s : State) (o m) (h : HasOut s o m) : HasOut s.closeFrame o m := moveWaiting_keeps_has s o m h

theorem onZone_zone (s : State) (z : Nat) (f : Zone → Zone) (h : z < s.mixer.zones.length) : (s.onZone z f).zone z = f (s.zone z) :=
  getD_modify_eq _ _ _ _ h

theorem onZone_other (s : State) (z y : Nat) (f : Zone → Zone) (h : y ≠ z) : (s.onZone z f).zone y = s.zone y :=
  getD_modify_ne _ _ _ _ _ h

theorem onZone_len (s : State) (z : Nat) (f : Zone → Zone) : (s.onZone z f).mixer.zones.length = s.mixer.zones.length := by
  simp [State.onZone]

theorem onZone_defs (s : State) (z : Nat) (f : Zone → Zone) : (s.onZone z f).definitions = s.definitions := rfl

theorem retarget_zone (s : State) (z : Nat) (d : ZoneDefinition) (hd : s.definitions[z]? = some d) (h : z < s.mixer.zones.length) :
   (s.retarget z).zone z = { s.zone z with routes := (s.zone z).routes.map (retargetEntry d (s.zone z).dominant) } := by
  unfold State.retarget; rw [hd]; exact onZone_zone _ _ _ h

theorem retarget_other (s : State) (z y : Nat) (h : y ≠ z) : (s.retarget z).zone y = s.zone y := by
  unfold State.retarget; split
  · rfl
  · exact onZone_other _ _ _ _ h

theorem retarget_onZone (s : State) (z : Nat) (f : Zone → Zone) (d : ZoneDefinition) (hd : s.definitions[z]? = some d) (h : z < s.mixer.zones.length) :
   ((s.onZone z f).retarget z).zone z = { f (s.zone z) with routes := (f (s.zone z)).routes.map (retargetEntry d (f (s.zone z)).dominant) } := by
  rw [retarget_zone (s.onZone z f) z d hd (by rw [onZone_len]; exact h), onZone_zone _ _ _ h]

theorem retarget_onZone_other (s : State) (z y : Nat) (f : Zone → Zone) (h : y ≠ z) :
   ((s.onZone z f).retarget z).zone y = s.zone y := by
  rw [retarget_other _ _ _ h, onZone_other _ _ _ _ h]

theorem retargetEntry_facts (d : ZoneDefinition) (top : Option Nat) (e : RouteEntry) :
   (retargetEntry d top e).stream = e.stream ∧ (retargetEntry d top e).cls = e.cls ∧ (retargetEntry d top e).level = e.level ∧
   (retargetEntry d top e).state = e.state ∧ (e.ramp.current = 0 → (retargetEntry d top e).ramp.current = 0) ∧
   (e.state = .leaving → (retargetEntry d top e).ramp.target = 0) := by
  unfold retargetEntry
  dsimp only
  split
  · next h => simp [h, Ramp.at]
  · split
    · next h1 h2 =>
      refine ⟨rfl, rfl, rfl, rfl, id, ?_⟩
      intro h; rw [← h2]; unfold targetGain; rw [if_pos h]
    · next h1 h2 =>
      refine ⟨rfl, rfl, rfl, rfl, ?_, ?_⟩
      · intro h; show (Ramp.toTarget _ _).current = 0
        unfold Ramp.toTarget; split
        · next h3 => rw [h] at h3; rw [← h3]; rfl
        · exact h
      · intro h; show (Ramp.toTarget _ _).target = 0
        have : targetGain d top e = 0 := by unfold targetGain; rw [if_pos h]
        rw [this]; unfold Ramp.toTarget; split <;> rfl

theorem mem_placeRoute (e : RouteEntry) (l : List RouteEntry) (d : RouteEntry) : d ∈ placeRoute e l ↔ d = e ∨ d ∈ l := by
  induction l with
  | nil => simp [placeRoute]
  | cons f l ih =>
    unfold placeRoute; split
    · simp
    · simp only [List.mem_cons, ih]; constructor <;> (rintro (h | h | h) <;> simp [h])

theorem holds_iff (x : Nat) (l : List RouteEntry) : holdsRoute x l = true ↔ ∃ e ∈ l, e.stream = x := by
  simp [holdsRoute]

theorem setRouteLevel_facts (s : State) (z x level : Nat) (hz : z < s.mixer.zones.length) (d : ZoneDefinition) (hd : s.definitions[z]? = some d) :
   (s.setRouteLevel z x level).2.code = (if holdsRoute x (s.zone z).routes then 0 else 1) ∧
   (∀ y, y ≠ z → (s.setRouteLevel z x level).1.zone y = s.zone y) ∧
   (holdsRoute x (s.zone z).routes = false → (s.setRouteLevel z x level).1.mixer = s.mixer) ∧
   (holdsRoute x (s.zone z).routes = true → ∀ e, e ∈ ((s.setRouteLevel z x level).1.zone z).routes → e.stream = x → e.level = level ∧ e.state ≠ .leaving) := by
  unfold State.setRouteLevel
  dsimp only
  split
  · next h =>
    refine ⟨by simp [h, RouteVerdict.code], ?_, by simp [h], ?_⟩
    · intro y hy; exact retarget_onZone_other _ _ _ _ hy
    · intro _ e he hx
      dsimp only at he
      rw [retarget_onZone _ _ _ d hd hz] at he
      simp only [List.mem_map] at he
      obtain ⟨e1, he1, rfl⟩ := he
      simp only [onRoute, List.mem_map] at he1
      obtain ⟨e0, he0, rfl⟩ := he1
      have F := retargetEntry_facts d ({ s.zone z with routes := onRoute x (fun e => { e with level := level, state := if e.state = .leaving then (if s.mayPlay x then .live else .waiting) else e.state }) (s.zone z).routes } : Zone).dominant
      rw [(F _).1] at hx
      have hx0 : e0.stream = x := Classical.byContradiction (fun hn => by simp [hn] at hx)
      refine ⟨?_, ?_⟩
      · rw [(F _).2.2.1, if_pos hx0]
      · rw [(F _).2.2.2.1, if_pos hx0]; dsimp only; split
        · split <;> simp
        · next h => exact h
  · next h => refine ⟨by simp [h, RouteVerdict.code], fun _ _ => rfl, fun _ => rfl, fun hh => absurd hh h⟩

theorem setRouteLevel_keeps (s : State) (z x level : Nat) : True := trivial

theorem addRoute_facts (s : State) (z x level : Nat) (hz : z < s.mixer.zones.length) (d : ZoneDefinition) (hd : s.definitions[z]? = some d) :
   (s.addRoute z x level).2.code = s.routeCode z x 0 ∧
   (∀ y, y ≠ z → (s.addRoute z x level).1.zone y = s.zone y) ∧
   (s.routeCode z x 0 ≠ 0 → (s.addRoute z x level).1.mixer = s.mixer) ∧
   (s.routeCode z x 0 = 0 →
      (holdsRoute x (s.zone z).routes = false → ∀ p, (s.tables.entry x).parameters = some p →
                ∃ e, e ∈ ((s.addRoute z x level).1.zone z).routes ∧ e.stream = x ∧ e.cls = some p.cls ∧ e.level = level ∧ e.ramp.current = 0
                  ∧ e.state = (if s.member.station = .member ∧ (s.tables.entry x).isCarried = true then .live else .waiting))
      ∧ (holdsRoute x (s.zone z).routes = true → ∀ e, e ∈ ((s.addRoute z x level).1.zone z).routes → e.stream = x → e.level = level ∧ e.state ≠ .leaving)) := by
  unfold State.addRoute State.routeCode
  have hh : (s.zone z).routes.any (fun e => e.stream == x) = holdsRoute x (s.zone z).routes := rfl
  dsimp only
  rw [hh]
  cases hp : (s.tables.entry x).parameters with
  | none => exact ⟨rfl, fun _ _ => rfl, fun _ => rfl, fun h => by simp at h⟩
  | some p =>
    dsimp only
    by_cases hk : p.kind = .voiceDownlink
    · simp only [if_pos hk]; exact ⟨rfl, fun _ _ => trivial, fun _ => trivial, fun h => by simp at h⟩
    · simp only [if_neg hk]
      obtain ⟨S1, S2, S3, S4⟩ := setRouteLevel_facts s z x level hz d hd
      by_cases hr : holdsRoute x (s.zone z).routes = true
      · simp only [if_pos hr]
        rw [if_pos hr] at S1
        exact ⟨S1, S2, fun h => absurd rfl h, fun _ => ⟨fun h => by rw [hr] at h; simp at h, fun _ => S4 hr⟩⟩
      · simp only [if_neg hr]
        by_cases hl : 6 ≤ (s.zone z).routes.length
        · simp only [if_pos hl]; exact ⟨rfl, fun _ _ => trivial, fun _ => trivial, fun h => by simp at h⟩
        · simp only [if_neg hl]
          refine ⟨rfl, fun y hy => ?_, fun h => absurd rfl h, fun _ => ⟨fun _ q hq => ?_, fun h => absurd h hr⟩⟩
          · exact retarget_onZone_other { s with mixer.nextAge := s.mixer.nextAge + 1 } _ _ _ hy
          · cases hq
            rw [retarget_onZone { s with mixer.nextAge := s.mixer.nextAge + 1 } z _ d hd hz]
            refine ⟨_, List.mem_map.mpr ⟨_, (mem_placeRoute _ _ _).mpr (.inl rfl), rfl⟩, ?_⟩
            obtain ⟨F1, F2, F3, F4, F5, F6⟩ := retargetEntry_facts d ({ State.zone { s with mixer.nextAge := s.mixer.nextAge + 1 } z with routes := placeRoute { stream := x, cls := some p.cls, level := level, state := if s.mayPlay x then .live else .waiting, ramp := .at 0, age := s.mixer.nextAge } (State.zone { s with mixer.nextAge := s.mixer.nextAge + 1 } z).routes } : Zone).dominant { stream := x, cls := some p.cls, level := level, state := if s.mayPlay x then .live else .waiting, ramp := .at 0, age := s.mixer.nextAge }
            refine ⟨F1, F2, F3, F5 rfl, F4.trans ?_⟩
            simp [State.mayPlay]

theorem removeRoute_facts (s : State) (z x : Nat) (hz : z < s.mixer.zones.length) (d : ZoneDefinition) (hd : s.definitions[z]? = some d) :
   (s.removeRoute z x).2.code = (if holdsRoute x (s.zone z).routes then 0 else 1) ∧
   (∀ y, y ≠ z → (s.removeRoute z x).1.zone y = s.zone y) ∧
   (holdsRoute x (s.zone z).routes = false → (s.removeRoute z x).1.mixer = s.mixer) ∧
   (∀ e, (s.zone z).routes.find? (fun e => e.stream == x) = some e →
                  (e.state = .waiting ∨ (e.state = .live ∧ e.ramp.current = 0) → holdsRoute x ((s.removeRoute z x).1.zone z).routes = false)
                  ∧ (e.state = .live → e.ramp.current ≠ 0 →
                      ∀ d, d ∈ ((s.removeRoute z x).1.zone z).routes → d.stream = x → d.state = .leaving ∧ d.ramp.target = 0)
                  ∧ (e.state = .leaving → (s.removeRoute z x).1.mixer = s.mixer)) := by
  have gone : holdsRoute x (((s.onZone z (fun v => { v with routes := dropRoute x v.routes })).retarget z).zone z).routes = false := by
    rw [retarget_onZone _ _ _ d hd hz]
    cases hc : holdsRoute x _ with
    | false => rfl
    | true =>
      obtain ⟨e, he, hx⟩ := (holds_iff _ _).mp hc
      obtain ⟨e0, he0, rfl⟩ := List.mem_map.mp he
      rw [(retargetEntry_facts _ _ _).1] at hx
      simp [dropRoute, hx] at he0
  unfold State.removeRoute
  cases hf : (s.zone z).routes.find? (fun e => e.stream == x) with
  | none =>
    have hn : holdsRoute x (s.zone z).routes = false := by
      unfold holdsRoute; rw [List.any_eq_false]; intro e he; have := List.find?_eq_none.mp hf e he; exact this
    exact ⟨by rw [hn]; rfl, fun _ _ => rfl, fun _ => rfl, fun e h => by simp at h⟩
  | some e =>
    have hn : holdsRoute x (s.zone z).routes = true := (holds_iff _ _).mpr ⟨e, List.mem_of_find?_eq_some hf, by simpa using List.find?_some hf⟩
    dsimp only
    rw [hn]
    cases hs : e.state with
    | waiting =>
      dsimp only
      refine ⟨rfl, fun y hy => retarget_onZone_other _ _ _ _ hy, by simp, ?_⟩
      intro e' he'; cases he'
      exact ⟨fun _ => gone, by simp [hs], by simp [hs]⟩
    | leaving =>
      dsimp only
      refine ⟨rfl, fun y hy => rfl, by simp, ?_⟩
      intro e' he'; cases he'
      exact ⟨by simp [hs], by simp [hs], fun _ => rfl⟩
    | live =>
      dsimp only
      by_cases hc : e.ramp.current = 0
      · simp only [if_pos hc]
        refine ⟨rfl, fun y hy => retarget_onZone_other _ _ _ _ hy, by simp, ?_⟩
        intro e' he'; cases he'
        exact ⟨fun _ => gone, by simp [hc], by simp [hs]⟩
      · simp only [if_neg hc]
        refine ⟨rfl, fun y hy => retarget_onZone_other _ _ _ _ hy, by simp, ?_⟩
        intro e' he'; cases he'
        refine ⟨by simp [hs, hc], fun _ _ b hb hx => ?_, by simp [hs]⟩
        rw [retarget_onZone _ _ _ d hd hz] at hb
        obtain ⟨b1, hb1, rfl⟩ := List.mem_map.mp hb
        obtain ⟨b0, hb0, rfl⟩ := List.mem_map.mp hb1
        rw [(retargetEntry_facts _ _ _).1] at hx
        have hx0 : b0.stream = x := Classical.byContradiction (fun hn => by simp [hn] at hx)
        refine ⟨?_, ?_⟩
        · rw [(retargetEntry_facts _ _ _).2.2.2.1, if_pos hx0]
        · exact (retargetEntry_facts _ _ _).2.2.2.2.2 (by rw [if_pos hx0])

end Sys2Proof.Machine
end

