-- ==== Sys2Proof/Laws/RouteVerdicts.lean ====
section
/-! SUPPORT. What the judging of a route does (R102 to R104). -/

namespace Sys2Proof.Machine

set_option maxRecDepth 20000
set_option linter.unusedVariables false
set_option linter.unusedSimpArgs false

theorem judgeRoute_facts (s : State) (z x a level : Nat) (ha : a ≤ 2) (hz : z < s.mixer.zones.length) (d : ZoneDefinition) (hd : s.definitions[z]? = some d) :
   let u := (s.judgeRoute z x a level).1
   let code := s.routeCode z x a
   (s.judgeRoute z x a level).2.code = code ∧ (∀ y, y ≠ z → u.zone y = s.zone y) ∧ (code ≠ 0 → u.mixer = s.mixer) ∧
   (code = 0 →
              (a = 0 → holdsRoute x (s.zone z).routes = false → ∀ p, (s.tables.entry x).parameters = some p →
                ∃ e, e ∈ (u.zone z).routes ∧ e.stream = x ∧ e.cls = some p.cls ∧ e.level = level ∧ e.ramp.current = 0
                  ∧ e.state = (if s.member.station = .member ∧ (s.tables.entry x).isCarried = true then .live else .waiting))
              ∧ (a ≤ 1 → holdsRoute x (s.zone z).routes = true →
                  ∀ e, e ∈ (u.zone z).routes → e.stream = x → e.level = level ∧ e.state ≠ .leaving)
              ∧ (a = 2 → ∀ e, (s.zone z).routes.find? (fun e => e.stream == x) = some e →
                  (e.state = .waiting ∨ (e.state = .live ∧ e.ramp.current = 0) → holdsRoute x (u.zone z).routes = false)
                  ∧ (e.state = .live → e.ramp.current ≠ 0 →
                      ∀ d, d ∈ (u.zone z).routes → d.stream = x → d.state = .leaving ∧ d.ramp.target = 0)
                  ∧ (e.state = .leaving → u.mixer = s.mixer))) := by
  match a, ha with
  | 0, _ =>
    obtain ⟨a, b, c, e⟩ := addRoute_facts s z x level hz d hd
    exact ⟨a, b, c, fun h => ⟨fun _ => (e h).1, fun _ => (e h).2, fun h => by simp at h⟩⟩
  | 1, _ =>
    obtain ⟨a, b, c, e⟩ := setRouteLevel_facts s z x level hz d hd
    have hc : s.routeCode z x 1 = if holdsRoute x (s.zone z).routes then 0 else 1 := rfl
    refine ⟨a.trans hc.symm, b, fun h => c ?_, fun h => ⟨fun h => by simp at h, fun _ => e, fun h => by simp at h⟩⟩
    cases hq : holdsRoute x (s.zone z).routes
    · rfl
    · exact absurd (by rw [hc, hq]; rfl) h
  | 2, _ =>
    obtain ⟨a, b, c, e⟩ := removeRoute_facts s z x hz d hd
    have hc : s.routeCode z x 2 = if holdsRoute x (s.zone z).routes then 0 else 1 := rfl
    refine ⟨a.trans hc.symm, b, fun h => c ?_, fun h => ⟨fun h => by simp at h, fun h => by simp at h, fun _ => e⟩⟩
    cases hq : holdsRoute x (s.zone z).routes
    · rfl
    · exact absurd (by rw [hc, hq]; rfl) h

theorem findIdx_get {α} (l : List α) (p : α → Bool) (i : Nat) (h : l.findIdx? p = some i) : ∃ d, l[i]? = some d := by
  have := List.findIdx?_eq_some_iff_getElem.mp h
  obtain ⟨hi, _⟩ := this
  exact ⟨l[i], by simp [hi]⟩

theorem send_mixer (s : State) (e : QueueEntry) : (s.send e).mixer = s.mixer := by simp

theorem zone_congr (s u : State) (h : u.mixer = s.mixer) (z : Nat) : u.zone z = s.zone z := by unfold State.zone; rw [h]

end Sys2Proof.Machine
end

