-- ==== Sys2Proof/Laws/Calls.lean ====
section
/-! SUPPORT. What a CALL does to the records, by its verdict (R151 to R156). -/

namespace Sys2Proof.Machine

set_option maxRecDepth 20000
set_option linter.unusedVariables false
set_option linter.unusedSimpArgs false

theorem aged_privateZones (T : LineTables) (n : Nat) : (aged T n).privateZonesPresent = T.privateZonesPresent := by
  unfold LineTables.privateZonesPresent
  have key : ∀ (l : List RosterEntry) (n : Nat) (a : ZoneSet),
     (l.modify n (fun e => { e with age := 0 })).foldl (fun acc e => if e.present then acc ||| e.privateZones else acc) a =
     l.foldl (fun acc e => if e.present then acc ||| e.privateZones else acc) a := by
    intro l
    induction l with
    | nil => intro n a; cases n <;> rfl
    | cons e l ih =>
      intro n a
      cases n with
      | zero => rfl
      | succ n => simp only [List.modify_succ_cons, List.foldl_cons]; exact ih n _
  exact key _ _ _

theorem aged_station (T : LineTables) (n m : Nat) : ((aged T n).station m).present = (T.station m).present ∧ ((aged T n).station m).roles = (T.station m).roles := by
  refine ⟨onStation_present T n m _ (fun _ => rfl), ?_⟩
  by_cases hm : m = n
  · subst hm
    by_cases hl : m < T.roster.length
    · rw [onStation_eq _ _ _ hl]
    · show ((LineTables.onStation T m _).station m).roles = _; unfold LineTables.onStation LineTables.station; simp [List.getD_eq_getElem?_getD, hl]
  · rw [onStation_ne _ _ _ _ hm]

/-- What the checks of a CALL read of the tables. -/
structure SameForCalls (T U : LineTables) : Prop where
  entry : ∀ x, T.entry x = U.entry x
  call : ∀ x, T.call x = U.call x
  calls : T.calls = U.calls
  present : ∀ m, (T.station m).present = (U.station m).present
  roles : ∀ m, (T.station m).roles = (U.station m).roles
  zones : T.zonesPresent = U.zonesPresent
  privates : T.privateZonesPresent = U.privateZonesPresent

theorem aged_same (T : LineTables) (n : Nat) : SameForCalls (aged T n) T :=
  ⟨fun _ => rfl, fun _ => rfl, rfl, fun m => (aged_station T n m).1, fun m => (aged_station T n m).2, aged_zones T n, aged_privateZones T n⟩

theorem SameForCalls.verdict {T U : LineTables} (h : SameForCalls T U) (n j a : Nat) (f : CallFields) :
    (T.judgeCall n j a f).2 = (U.judgeCall n j a f).2 := by
  unfold LineTables.judgeCall
  dsimp only
  rw [h.present, h.call]
  split
  · rfl
  split
  · rfl
  split
  · rfl
  split
  · unfold LineTables.ring; simp only [h.entry, h.zones, h.privates]; (repeat' split) <;> rfl
  · unfold LineTables.answer LineTables.live; simp only [h.call, h.entry, h.present, h.roles]; (repeat' split) <;> rfl
  · rfl
  · rfl
  · unfold LineTables.callZones; simp only [h.call, h.zones, h.privates]; (repeat' split) <;> rfl
  · rfl

theorem activate_keeps (T : LineTables) (j : Nat) (c : CallRecord) : (T.activate j c).directory = T.directory ∧ (T.activate j c).slots = T.slots ∧ (T.activate j c).roster = T.roster := by
  unfold LineTables.activate; dsimp only; split <;> exact ⟨rfl, rfl, rfl⟩

theorem judgeCall_keeps (T : LineTables) (n j a : Nat) (f : CallFields) :
    (T.judgeCall n j a f).1.directory = T.directory ∧ (T.judgeCall n j a f).1.slots = T.slots ∧ (T.judgeCall n j a f).1.roster = T.roster ∧
    ((T.judgeCall n j a f).2 ≠ .taken → (T.judgeCall n j a f).1 = T) := by
  have K := activate_keeps
  unfold LineTables.judgeCall
  dsimp only
  split
  · exact ⟨rfl, rfl, rfl, fun _ => rfl⟩
  split
  · exact ⟨rfl, rfl, rfl, fun _ => rfl⟩
  split
  · exact ⟨rfl, rfl, rfl, fun _ => rfl⟩
  split
  · unfold LineTables.ring; dsimp only; (repeat' split) <;> first | exact ⟨rfl, rfl, rfl, fun _ => rfl⟩ | exact ⟨rfl, rfl, rfl, fun h => absurd rfl h⟩
  · unfold LineTables.answer; dsimp only; (repeat' split) <;> first | exact ⟨rfl, rfl, rfl, fun _ => rfl⟩ | exact ⟨(K _ _ _).1, (K _ _ _).2.1, (K _ _ _).2.2, fun h => absurd rfl h⟩
  · exact ⟨rfl, rfl, rfl, fun h => absurd rfl h⟩
  · exact ⟨(K _ _ _).1, (K _ _ _).2.1, (K _ _ _).2.2, fun h => absurd rfl h⟩
  · unfold LineTables.callZones; dsimp only; (repeat' split) <;> first | exact ⟨rfl, rfl, rfl, fun _ => rfl⟩ | exact ⟨rfl, rfl, rfl, fun h => absurd rfl h⟩
  · exact ⟨rfl, rfl, rfl, fun h => absurd rfl h⟩

theorem strip_sameDirectory (T U : LineTables) (h : T.directory = U.directory) : T.strip U = T := by
  apply strip_id; intro y; unfold wentNone
  have : T.entry y = U.entry y := by unfold LineTables.entry; rw [h]
  rw [this]; cases U.entry y <;> simp

theorem mem_call (sender : Fin 16) (id : Byte) (f : CallFields) (c : Instr) (a : Byte) (s : State)
   (h : (c, a) ∈ [(Instr.ring sender id f, (0 : Byte)), (.answer sender id f, 1), (.hold sender id f, 2), (.resume sender id f, 3),
      (.zones sender id f, 4), (.endCall sender id f, 5)]) : exec c s = s.messageCommand sender (.call id a f) := by
  simp only [List.mem_cons, Prod.mk.injEq, List.not_mem_nil, or_false] at h
  rcases h with ⟨rfl, rfl⟩ | ⟨rfl, rfl⟩ | ⟨rfl, rfl⟩ | ⟨rfl, rfl⟩ | ⟨rfl, rfl⟩ | ⟨rfl, rfl⟩ <;> rfl

/-- A CALL at a station that hears it: the verdict, and the records after it. -/
theorem callEffect (t : State) (n : Nat) (id a : Byte) (f : CallFields) (hh : t.hears) (hi : (Message.call id a f).inRange = true) :
    (t.judge n (.call id a f)).2 = (t.tables.judgeCall n id.toNat a.toNat f).2 ∧
    (t.messageEffect n (.call id a f)).tables = ((aged t.tables n).judgeCall n id.toNat a.toNat f).1 := by
  have J : ∀ w : State, w.judge n (.call id a f) = w.judgeCallMessage n id.toNat a.toNat f := by
    intro w; show (if (Message.call id a f).inRange = false then _ else _) = _
    rw [if_neg (by simp [hi])]
  refine ⟨by rw [J]; rfl, ?_⟩
  rw [(t.messageEffect_stays n (.call id a f) hh rfl).1, J]
  have HT := heardTables t n hh
  show (State.changeTables _ _ _ _).tables = _
  rw [State.changeTables_tables, HT]
  exact strip_sameDirectory _ _ (judgeCall_keeps _ _ _ _ _).1

theorem judgeCall_open (T : LineTables) (n j a : Nat) (f : CallFields) (h1 : (T.station n).present = true)
    (h2 : (T.call j).state = .none ∨ (T.call j).owner = some n) (h3 : actionAllowed a (T.call j).state = true) :
    T.judgeCall n j a f = match (generalizing := false) a with
    | 0 => T.ring n j f
    | 1 => T.answer j f
    | 2 => (T.setCall j { T.call j with state := .held }, .taken)
    | 3 => (T.activate j (T.call j), .taken)
    | 4 => T.callZones j f
    | _ => (T.setCall j .none, .taken) := by
  unfold LineTables.judgeCall; dsimp only
  rw [if_neg (by simp [h1]), if_neg (by rintro ⟨a, b⟩; rcases h2 with h | h; exact a h; exact b h), if_neg (by simp [h3])] <;>
    (match a with
      | 0 => rfl
      | 1 => rfl
      | 2 => rfl
      | 3 => rfl
      | 4 => rfl
      | _ + 5 => rfl)

theorem call_id_cases (id a : Byte) (f : CallFields) (h : (Message.call id a f).inRange = true) : id.toNat < 2 := by
  simp [Message.inRange] at h; omega

end Sys2Proof.Machine
end

