-- ==== Sys2Proof/Laws/Listening.lean ====
section
/-! SUPPORT. Falling due on the line side: listening, self-veto, the uplink (R17, R36, R159). -/

namespace Sys2Proof.Machine

set_option maxRecDepth 20000
set_option linter.unusedVariables false
set_option linter.unusedSimpArgs false

theorem off_keepUp (u : State) (h : u.member.station.onLine = false) : u.keepUpStart = u := keepUpStart_idle u (.inr (.inr h))

theorem goTo_audio (s : State) (n : StationState) (c : Cause) : State.sameAudio s (s.goTo n c) := by simp [State.sameAudio]

theorem goTo_enter (s : State) (new : StationState) (cause : Cause) (h : s.member.station ≠ new) :
    (new = .silenced → (s.goTo new cause).member.silenceCount = 1024 ∧ (s.goTo new cause).line.selfVeto = 0) ∧
    (new = .listening → (s.goTo new cause).member.undamaged = 0 ∧ (s.goTo new cause).member.backoff = 0) := by
  constructor
  · rintro rfl
    unfold State.goTo
    dsimp only
    rw [if_neg (by rintro ⟨_, h⟩; cases h)]
    simp [State.enterStation, StationState.drives, State.zonesAtStation]
  · rintro rfl
    unfold State.goTo
    dsimp only
    rw [if_neg (by rintro ⟨_, h⟩; cases h)]
    simp [State.enterStation, StationState.drives, State.zonesAtStation]

theorem selfVetoDue_no (s : State) (h : s.member.station.takesPart = false ∨ s.line.selfVeto < 32) : s.selfVetoDue = s := by
  unfold State.selfVetoDue; rw [if_neg]; rcases h with h | h
  · simp [h]
  · simp; omega

theorem goTo_joining_keeps (s : State) (c : Cause) (h : s.member.station = .listening) :
   (s.goTo .joining c).line.queue = s.line.queue ∧ (s.goTo .joining c).line.waiting = s.line.waiting := by
  unfold State.goTo
  dsimp only
  rw [if_neg (by rintro ⟨_, h⟩; cases h)]
  simp [h, StationState.takesPart, StationState.dropsTables, State.enterStation, StationState.drives, State.lookAtUplink, State.zonesAtStation]

theorem allComplete_iff (t : LineTables) : t.allComplete = true ↔ ∀ e, e ∈ t.roster → e.present = true → e.completeness = .complete := by
  unfold LineTables.allComplete
  rw [List.all_eq_true]
  constructor
  · intro h e he hp; have := h e he; simp [hp] at this; exact this
  · intro h e he
    cases hp : e.present
    · simp
    · simp [h e he hp]

theorem raise_eq (k : EventKind) (sub : List Nat) (c : Option Cause) (s : State) :
   raise k sub c s = { s with host := if s.hasHost then { s.host with events := addEvent { kind := k, subject := sub, cause := c, stamp := s.tables.frameCount.setWidth 16 } s.host.events } else s.host } := by
  unfold raise; split <;> rfl

/-- A waiting or queued message of an originator stands where no message of that originator is handed on to a full queue. -/
theorem send_claim_stays (s : State) (i : Nat) (o : Originator) (m : Message) (hm : m.isClaim = true)
    (h : ∃ e, e ∈ s.line.queue ∧ e.originator = o ∧ e.auto = true ∧ e.message = m) :
    ∃ e, e ∈ (s.releaseUplink i).line.queue ∧ e.originator = o ∧ e.auto = true ∧ e.message = m := by
  unfold State.releaseUplink
  split
  · unfold State.send
    obtain ⟨e, a, b, c, d⟩ := h
    split
    · dsimp only
      have key : ∀ (l : List QueueEntry) (w : State), (l.foldl (fun acc x => acc.setRetryAfter x.message) w).line.queue = w.line.queue := by
        intro l; induction l with
        | nil => intro w; rfl
        | cons x l ih => intro w; simp only [List.foldl_cons]; rw [ih]; unfold State.setRetryAfter; split <;> (try split) <;> rfl
      refine ⟨e, ?_, b, c, d⟩
      split
      · rw [key]; exact a
      · exact a
    · exact ⟨e, by simp [State.enter, mem_placeEntry, a], b, c, d⟩
  · exact h

theorem claim_is_armed (s : State) (hw : ∀ w ∈ s.line.waiting, w.originator = .callUnit → w.message.isClaim = false) (i : Nat) :
    (s.releaseUplink i).call.retryArmed = s.call.retryArmed ∧
    ∀ w ∈ (s.releaseUplink i).line.waiting, w.originator = .callUnit → w.message.isClaim = false := by
  unfold State.releaseUplink
  split
  · unfold State.send
    split
    · dsimp only
      have key : ∀ (l : List QueueEntry) (w : State), (∀ e ∈ l, e.message.isClaim = false) → (l.foldl (fun acc x => acc.setRetryAfter x.message) w) = w := by
        intro l; induction l with
        | nil => intro w _; rfl
        | cons x l ih =>
          intro w h; simp only [List.foldl_cons]
          have : w.setRetryAfter x.message = w := by
            have hx := h x (by simp)
            unfold State.setRetryAfter
            split
            · next hm => rw [hm] at hx; simp [Message.isClaim] at hx
            · rfl
          rw [this]; exact ih w (fun e he => h e (by simp [he]))
      have hfil : ∀ e ∈ s.line.waiting.filter (fun w => w.originator == (newEntry (.release (BitVec.ofNat 8 i)) .callUnit false none).originator), e.message.isClaim = false := by
        intro e he
        obtain ⟨h1, h2⟩ := List.mem_filter.mp he
        exact hw e h1 (by simpa [newEntry] using h2)
      have e : (newEntry (.release (BitVec.ofNat 8 i)) Originator.callUnit false none).originator = .callUnit := rfl
      rw [key _ _ hfil]
      refine ⟨by split <;> rfl, ?_⟩
      have W : ∀ w ∈ s.line.waiting.filter (fun w => w.originator != (newEntry (.release (BitVec.ofNat 8 i)) Originator.callUnit false none).originator) ++ [newEntry (.release (BitVec.ofNat 8 i)) Originator.callUnit false none], w.originator = .callUnit → w.message.isClaim = false := by
        intro w hw1 hw2
        rcases List.mem_append.mp hw1 with h | h
        · exact hw w (List.mem_filter.mp h).1 hw2
        · rw [List.mem_singleton.mp h]; rfl
      split <;> exact W
    · exact ⟨rfl, hw⟩
  · exact ⟨rfl, hw⟩

end Sys2Proof.Machine
end

