-- ==== Sys2Proof/Laws/HostPort.lean ====
section
/-! SUPPORT. The exchange of the host port (R176, R178) and its checks. -/

namespace Sys2Proof.Machine

set_option maxRecDepth 20000
set_option linter.unusedVariables false
set_option linter.unusedSimpArgs false

theorem exec_host (c : Instr) (s : State) (code : Nat) (f : State → Answer) (e : exec c s = s.hostCommand code f) (h : s.released) :
    exec c s = .next (s.settle.exchange code f).keepUpStart := by
  rw [e]; unfold State.hostCommand; rw [act_released s _ h]

theorem exchange_on (t : State) (code : Nat) (f : State → Answer) (h : t.takesRequests) :
    t.exchange code f = (f t.shiftOut).1.respond code (f t.shiftOut).2.1 (f t.shiftOut).2.2 := by
  unfold State.exchange State.deal
  have e : t.shiftOut.member.station = t.member.station := rfl
  rw [e]
  obtain ⟨h1, h2⟩ := h
  split
  · next h => exact absurd h h1
  · next h => exact absurd h h2
  · rfl

theorem exchange_any (t : State) (code : Nat) (f : State → Answer) (h : t.member.station ≠ .dormant) (hc : answeredOffline code = true) :
    t.exchange code f = (f t.shiftOut).1.respond code (f t.shiftOut).2.1 (f t.shiftOut).2.2 := by
  unfold State.exchange State.deal
  have e : t.shiftOut.member.station = t.member.station := rfl
  rw [e]
  split
  · next h1 => exact absurd h1 h
  · rw [if_pos hc]
  · rfl

theorem exchange_asleep (t : State) (code : Nat) (f : State → Answer) (h : t.member.station = .dormant) :
    t.exchange code f = t.answered code .dormant [] := by
  unfold State.exchange State.deal
  have e : t.shiftOut.member.station = t.member.station := rfl
  rw [e, h]; rfl

theorem exchange_offline (t : State) (code : Nat) (f : State → Answer) (h : t.member.station = .offline) (hc : answeredOffline code = false) :
    t.exchange code f = t.answered code .wrongState [] := by
  unfold State.exchange State.deal
  have e : t.shiftOut.member.station = t.member.station := rfl
  rw [e, h]; dsimp only; rw [if_neg (by simp [hc])]; rfl

theorem exchange_refused (t : State) (code : Nat) (f : State → Answer) (h : t.takesRequests) (st : Status) (hs : st ≠ .ok)
   (hf : f t.shiftOut = t.shiftOut.refuse st) : t.exchange code f = t.answered code st [] := by
  rw [exchange_on t code f h, hf]; cases st <;> simp at hs <;> rfl

theorem exchange_told (t : State) (code : Nat) (f : State → Answer) (h : t.takesRequests) (l : List Byte)
   (hf : f t.shiftOut = t.shiftOut.tellHost l) : t.exchange code f = t.answered code .ok l := by
  rw [exchange_on t code f h, hf]; rfl

theorem checked_false (b : Bool) (f : State → Answer) (t : State) (h : b = false) : checked b f t = t.refuse .badParameter := by
  subst h; rfl

theorem request_form (c : Instr) (code : Nat) (s : State) (hc : requestCode c = some code) (hw : c.wellFormed = true) (h6 : code ≠ 6) :
    ∃ f, exec c s = s.hostCommand code f := by
  cases c
  case noteSend a b d =>
    unfold requestCode at hc; dsimp only at hc; injection hc with hc; subst hc
    simp only [Instr.wellFormed, beq_iff_eq] at hw
    exact ⟨_, by simp only [exec, execNoteSend, if_pos hw]; rfl⟩
  case wake => unfold requestCode at hc; dsimp only at hc; injection hc with hc; subst hc; exact absurd rfl h6
  all_goals (unfold requestCode at hc; dsimp only at hc; first | (injection hc; done) | (injection hc with hc; subst hc; exact ⟨_, rfl⟩))

theorem noteSend_form (a : Byte) (b : BitVec 16) (d : List Byte) (s : State) (hw : Instr.wellFormed (.noteSend a b d) = true) :
  exec (.noteSend a b d) s = s.hostCommand 37 (checked (decide (a.toNat ≤ 15) && decide (1 ≤ b.toNat ∧ b.toNat ≤ 256))
        (fun t => t.asMember (fun u => u.noteRequest a.toNat b.toNat d))) := by
  simp only [Instr.wellFormed, beq_iff_eq] at hw
  simp only [exec, execNoteSend, if_pos hw]

theorem range_refused (c : Instr) (code : Nat) (s : State) (hc : requestCode c = some code) (hw : c.wellFormed = true) (hn : ¬requestInRange c) :
    ∃ f, exec c s = s.hostCommand code f ∧ ∀ t : State, f t = t.refuse .badParameter := by
  cases c
  all_goals (unfold requestCode at hc; dsimp only at hc; first | (injection hc; done) | (injection hc with hc; subst hc))
  all_goals (unfold requestInRange at hn; dsimp only at hn; first | (exact absurd trivial hn) | skip)
  case noteSend a b d => exact ⟨_, noteSend_form a b d s hw, fun t => checked_false _ _ _ (by simp; omega)⟩
  case clipLoadBegin a b d => exact ⟨_, rfl, fun t => by unfold State.clipLoadBegin; rw [if_pos (by omega)]; rfl⟩
  case clipData a l =>
    exact ⟨_, rfl, fun t => by
        unfold State.clipData; dsimp only; rw [if_pos (by
          cases l with
          | nil => simp
          | cons x l => simp at hn ⊢; omega)]; rfl⟩
  case cadenceSet a b => exact ⟨_, rfl, fun t => by unfold State.cadenceSet; rw [if_pos (by omega)]; rfl⟩
  case cadenceStart a => exact ⟨_, rfl, fun t => by unfold State.cadenceStart; rw [if_pos (by omega)]; rfl⟩
  case cadenceStop a => exact ⟨_, rfl, fun t => by unfold State.cadenceStop; rw [if_pos (by omega)]; rfl⟩
  case offerStream a b d e f g => exact ⟨_, rfl, fun t => checked_false _ _ _ (by
        cases hb : bindingOf f g with
        | none => simp
        | some v => simp [hb] at hn; simp [offerInRange]; omega)⟩
  case carryStream a b => exact ⟨_, rfl, fun t => checked_false _ _ _ (by
        simp at hn ⊢; intro h; exact hn h)⟩
  case callAnswer a b d e => exact ⟨_, rfl, fun t => checked_false _ _ _ (by
        simp [callInRange, streamOrNone] at hn ⊢; intro h1 h2 h3; exact hn h1 h2 h3)⟩
  all_goals exact ⟨_, rfl, fun t => checked_false _ _ _ (by simp [flagInRange, clipInRange, callInRange, Message.inRange] at hn ⊢; omega)⟩

theorem asMember_eq (t : State) (f : State → Answer) : t.asMember f = if t.member.station = .member then f t else if t.member.station = .leaving then t.refuse .wrongState else t.refuse .notMember := by
  unfold State.asMember; split
  · next h => rw [if_pos h]
  · next h => rw [if_neg (by rw [h]; simp), if_pos h]
  · next h1 h2 => rw [if_neg h1, if_neg h2]

theorem checked_true (b : Bool) (f : State → Answer) (t : State) (h : b = true) : checked b f t = f t := by subst h; rfl

theorem queue_cases (c : Instr) (code : Nat) (t : State) (m : Message) (auto : Bool) (comp : Option Binding) (f : State → Answer) (s : State)
   (E : exec c s = .next (t.exchange code f).keepUpStart)
   (ht : t.takesRequests) (g : State → Answer) (hf : ∀ u, f u = u.asMember g)
   (hg : ∀ u : State, (u.line = t.line) → (u.tables = t.tables) → (u.member = t.member) → u.startUp = t.startUp → 
      (P : Prop) → True) : True := trivial

end Sys2Proof.Machine
end

