-- ==== Sys2Proof/Laws/Queued.lean ====
section
/-! SUPPORT. A message that joins the send queue stays there while its originators look (R18). -/

namespace Sys2Proof.Machine

set_option maxRecDepth 20000
set_option linter.unusedVariables false
set_option linter.unusedSimpArgs false

/-- What is queued stays queued. -/
def StaysQueued (s u : State) : Prop := ∀ e, e ∈ s.line.queue → e ∈ u.line.queue

theorem stays_enter (s : State) (e : QueueEntry) : StaysQueued s (s.enter e) := by
  intro d hd; simp [State.enter, mem_placeEntry, hd]

theorem retry_line (s : State) (m : Message) : (s.setRetryAfter m).line = s.line := by
  unfold State.setRetryAfter; (repeat' split) <;> rfl

theorem foldl_retry_line (l : List QueueEntry) (s : State) : (l.foldl (fun acc w => acc.setRetryAfter w.message) s).line = s.line := by
  induction l generalizing s with
  | nil => rfl
  | cons a l ih => rw [List.foldl_cons, ih, retry_line]

theorem stays_send (s : State) (e : QueueEntry) : StaysQueued s (s.send e) := by
  unfold State.send; split
  · dsimp only; intro d hd; split
    · rw [foldl_retry_line]; exact hd
    · exact hd
  · exact stays_enter s e

theorem stays_look (s : State) : StaysQueued s s.lookAtUplink := by
  unfold State.lookAtUplink; split
  · have h1 : StaysQueued s s.claimUplink := by
      unfold State.claimUplink; split
      · split
        · exact stays_send _ _
        · exact fun _ h => h
      · exact fun _ h => h
    have h2 : ∀ (l : List Nat) (u : State), StaysQueued u (l.foldl (fun acc i => acc.releaseUplink i) u) := by
      intro l; induction l with
      | nil => exact fun _ _ h => h
      | cons a l ih =>
        intro u d hd
        refine ih _ d ?_
        show d ∈ (u.releaseUplink a).line.queue
        unfold State.releaseUplink; split
        · exact stays_send _ _ d hd
        · exact hd
    exact fun d hd => h2 _ _ d (h1 d hd)
  · exact fun _ h => h

theorem stays_goTo_leaving (s : State) (c : Cause) (h : s.member.station = .member) : StaysQueued s (s.goTo .leaving c) := by
  intro d hd
  unfold State.goTo
  dsimp only
  rw [if_neg (by rintro ⟨_, h⟩; cases h)]
  simp [h, StationState.takesPart, StationState.dropsTables, State.enterStation, StationState.drives, State.zonesAtStation]
  exact hd

theorem partData_byte (data : List Byte) (i : Nat) (h : i < 16) : (partData data 0).extractLsb' (8 * (15 - i)) 8 = data.getD i 0 := by
  unfold partData
  simp only [List.range, List.range.loop, List.map, List.foldl, Nat.zero_mul, Nat.zero_add]
  have hb : ∀ k, (data.getD k 0).toNat < 256 := fun k => (data.getD k 0).isLt
  have h0 := hb 0; have h1 := hb 1; have h2 := hb 2; have h3 := hb 3; have h4 := hb 4; have h5 := hb 5; have h6 := hb 6; have h7 := hb 7
  have h8 := hb 8; have h9 := hb 9; have h10 := hb 10; have h11 := hb 11; have h12 := hb 12; have h13 := hb 13; have h14 := hb 14; have h15 := hb 15
  apply BitVec.eq_of_toNat_eq
  rw [BitVec.extractLsb'_toNat, BitVec.toNat_ofNat, Nat.shiftRight_eq_div_pow]
  have : i = 0 ∨ i = 1 ∨ i = 2 ∨ i = 3 ∨ i = 4 ∨ i = 5 ∨ i = 6 ∨ i = 7 ∨ i = 8 ∨ i = 9 ∨ i = 10 ∨ i = 11 ∨ i = 12 ∨ i = 13 ∨ i = 14 ∨ i = 15 := by omega
  rcases this with rfl | rfl | rfl | rfl | rfl | rfl | rfl | rfl | rfl | rfl | rfl | rfl | rfl | rfl | rfl | rfl <;> omega

end Sys2Proof.Machine
end

