-- ==== Sys2Proof/Laws/Loading.lean ====
section
/-! SUPPORT. What the loader of clips leaves alone (R120). -/

namespace Sys2Proof.Machine

set_option maxRecDepth 20000
set_option linter.unusedVariables false
set_option linter.unusedSimpArgs false

/-- What a loading write leaves. -/
def Loads (s u : State) : Prop := u.announce = s.announce ∧ u.store.memory = s.store.memory
  ∧ State.sameLine s u ∧ u.host.response = s.host.response

theorem request_loads (s : State) (r : Request) (n : Nat) (h : r.purpose = .clipWrite n) : Loads s (s.request r) := by
  unfold State.request
  split
  · exact ⟨rfl, rfl, ⟨rfl, rfl, rfl, rfl, rfl⟩, rfl⟩
  · split
    · unfold State.endRequest State.takeGap; rw [h]; dsimp only; rw [raise_eq]
      refine ⟨rfl, rfl, ⟨rfl, rfl, rfl, rfl, rfl⟩, ?_⟩
      dsimp only; split <;> rfl
    · exact ⟨rfl, by simp, ⟨rfl, rfl, rfl, rfl, rfl⟩, rfl⟩

/-- What feeding the loader leaves: the buffer is a tail of what it was. -/
def Feeds (s u : State) : Prop := u.announce.clips = s.announce.clips ∧ u.announce.plays = s.announce.plays
  ∧ (∃ n, u.announce.buffer = s.announce.buffer.drop n) ∧ u.store.memory = s.store.memory
  ∧ State.sameLine s u ∧ u.host.response = s.host.response

theorem feeds_refl (s : State) : Feeds s s := ⟨rfl, rfl, ⟨0, rfl⟩, rfl, ⟨rfl, rfl, rfl, rfl, rfl⟩, rfl⟩

theorem feeds_trans {s u v : State} (h : Feeds s u) (k : Feeds u v) : Feeds s v := by
  obtain ⟨a1, a2, ⟨n, a3⟩, a4, ⟨b1, b2, b3, b4, b5⟩, a6⟩ := h
  obtain ⟨c1, c2, ⟨m, c3⟩, c4, ⟨d1, d2, d3, d4, d5⟩, c6⟩ := k
  exact ⟨c1.trans a1, c2.trans a2, ⟨n + m, by rw [c3, a3, List.drop_drop]⟩, c4.trans a4, ⟨d1.trans b1, d2.trans b2, d3.trans b3, d4.trans b4, d5.trans b5⟩, c6.trans a6⟩

theorem loadOne_feeds (s : State) : Feeds s s.loadOne := by
  unfold State.loadOne
  split
  · exact feeds_refl s
  · dsimp only
    split
    · next i _ _ =>
      obtain ⟨a, b, d, e⟩ := request_loads ({ s with announce.buffer := s.announce.buffer.drop (min 8 ((s.announce.clips.getD i .none).length - ((s.announce.clips.getD i .none).received - s.announce.buffer.length))), announce.bufferClip := if (s.announce.buffer.drop (min 8 ((s.announce.clips.getD i .none).length - ((s.announce.clips.getD i .none).received - s.announce.buffer.length)))).isEmpty then none else some i } : State)
        { queue := .loading, access := .write, word := (s.announce.clips.getD i .none).offset + ((s.announce.clips.getD i .none).received - s.announce.buffer.length), short := false,
          data := wholeSet (s.announce.buffer.take (min 8 ((s.announce.clips.getD i .none).length - ((s.announce.clips.getD i .none).received - s.announce.buffer.length)))), closeAfter := true, deadline := none, late := false,
          purpose := .clipWrite (s.announce.loads.getD i 0) } _ rfl
      exact ⟨by rw [a], by rw [a], ⟨_, by rw [a]⟩, b, d, e⟩
    · exact feeds_refl s

theorem feedLoader_feeds (s : State) : Feeds s s.feedLoader :=
  feeds_trans (feeds_trans (feeds_trans (loadOne_feeds _) (loadOne_feeds _)) (loadOne_feeds _)) (loadOne_feeds _)

theorem modify_eq_set {α} (l : List α) (i : Nat) (f : α → α) (d : α) (h : i < l.length) : l.modify i f = l.set i (f (l.getD i d)) := by
  apply List.ext_getElem?; intro j; simp only [List.getElem?_modify, List.getElem?_set, List.getD_eq_getElem?_getD]; by_cases hj : i = j
  · subst hj; simp [h]
  · simp [hj]

theorem onClip_set (s : State) (i : Nat) (f : Clip → Clip) (h : i < s.announce.clips.length) : s.onClip i f = { s with announce := { s.announce with clips := s.announce.clips.set i (f (s.clip i)) } } := by
  unfold State.onClip State.clip; rw [modify_eq_set _ _ _ .none h]

end Sys2Proof.Machine
end

