-- ==== Sys2Proof/Laws/Plays.lean ====
section
/-! SUPPORT. What the start of a play does, and which places it finds free (R124 to R126). -/

namespace Sys2Proof.Machine

set_option maxRecDepth 20000
set_option linter.unusedVariables false
set_option linter.unusedSimpArgs false

/-- What the requests of a play leave: everything but the groups that plays hold, the queues and counts of the store and the events. -/
def PlaysKept (s u : State) : Prop :=
  u.announce.plays.map (Option.map Play.bare) = s.announce.plays.map (Option.map Play.bare)
  ∧ u.announce.clips = s.announce.clips ∧ u.announce.channels = s.announce.channels ∧ u.store.memory = s.store.memory
  ∧ State.sameLine s u ∧ u.host.response = s.host.response ∧ u.ports = s.ports ∧ u.follower = s.follower
  ∧ u.mixer = s.mixer ∧ u.blend = s.blend ∧ u.call = s.call

theorem playsKept_refl (s : State) : PlaysKept s s := ⟨rfl, rfl, rfl, rfl, ⟨rfl, rfl, rfl, rfl, rfl⟩, rfl, rfl, rfl, rfl, rfl, rfl⟩

theorem playsKept_trans {s u v : State} (h : PlaysKept s u) (k : PlaysKept u v) : PlaysKept s v := by
  obtain ⟨a1, a2, a3, a4, ⟨b1, b2, b3, b4, b5⟩, a5, a6, a7, a8, a9, a10⟩ := h
  obtain ⟨c1, c2, c3, c4, ⟨d1, d2, d3, d4, d5⟩, c5, c6, c7, c8, c9, c10⟩ := k
  exact ⟨c1.trans a1, c2.trans a2, c3.trans a3, c4.trans a4, ⟨d1.trans b1, d2.trans b2, d3.trans b3, d4.trans b4, d5.trans b5⟩, c5.trans a5, c6.trans a6, c7.trans a7, c8.trans a8, c9.trans a9, c10.trans a10⟩

theorem request_clipRead (s : State) (r : Request) (a b c : Nat) (h : r.purpose = .clipRead a b c) : PlaysKept s (s.request r) := by
  unfold State.request
  split
  · exact playsKept_refl s
  · split
    · unfold State.endRequest State.takeGap State.settleClipRead; rw [h]; dsimp only; rw [raise_eq]
      refine ⟨?_, rfl, rfl, rfl, ⟨rfl, rfl, rfl, rfl, rfl⟩, ?_, rfl, rfl, rfl, rfl, rfl⟩
      · dsimp only
        rw [List.map_map]
        apply List.map_congr_left
        intro p _
        cases p with
        | none => rfl
        | some p => simp only [Function.comp, Option.map_some]; split <;> rfl
      · dsimp only; split <;> rfl
    · exact ⟨rfl, rfl, rfl, by simp, ⟨rfl, rfl, rfl, rfl, rfl⟩, rfl, rfl, rfl, rfl, rfl, rfl⟩

theorem getD_none_some {α} (l : List (Option α)) (i : Nat) (p : α) (h : l.getD i none = some p) : l[i]? = some (some p) := by
  rw [List.getD_eq_getElem?_getD] at h; cases hh : l[i]? with
  | none => rw [hh] at h; simp at h
  | some x => rw [hh] at h; simp at h; rw [h]

theorem requestGroup_kept (s : State) (place offset repetition group due : Nat) : PlaysKept s (s.requestGroup place offset repetition group due) := by
  unfold State.requestGroup
  split
  · exact playsKept_refl s
  · next p hp =>
    split
    · exact playsKept_refl s
    · dsimp only
      refine playsKept_trans ?_ (request_clipRead _ _ _ _ _ rfl)
      refine ⟨?_, rfl, rfl, rfl, ⟨rfl, rfl, rfl, rfl, rfl⟩, rfl, rfl, rfl, rfl, rfl, rfl⟩
      dsimp only
      apply List.ext_getElem?; intro j
      simp only [List.getElem?_map, List.getElem?_set]
      by_cases hj : place = j
      · subst hj
        have hp' := getD_none_some _ _ _ hp
        have hl : place < s.announce.plays.length := (List.getElem?_eq_some_iff.mp hp').1
        rw [if_pos rfl, if_pos hl, hp']; rfl
      · rw [if_neg hj]

theorem requestGroups_kept (s : State) (place : Nat) : PlaysKept s (s.requestGroups place) := by
  unfold State.requestGroups
  split
  · exact playsKept_refl s
  · dsimp only
    generalize Play.groupsAhead _ _ = l
    have : ∀ (l : List (Nat × Nat × Nat)) (o : Nat) (u : State), PlaysKept u (l.foldl (fun acc g => acc.requestGroup place o g.1 g.2.1 g.2.2) u) := by
      intro l o; induction l with
      | nil => exact playsKept_refl
      | cons g l ih => intro u; exact playsKept_trans (requestGroup_kept u _ _ _ _ _) (ih _)
    exact this _ _ _

theorem bare_plays_get {s u : State} (h : u.announce.plays.map (Option.map Play.bare) = s.announce.plays.map (Option.map Play.bare)) (q : Nat) :
    (u.announce.plays.getD q none).map Play.bare = (s.announce.plays.getD q none).map Play.bare := by
  have := congrArg (fun l => l[q]?) h
  simp only [List.getElem?_map] at this
  simp only [List.getD_eq_getElem?_getD]
  cases h1 : u.announce.plays[q]? <;> cases h2 : s.announce.plays[q]? <;> rw [h1, h2] at this <;> simp at this ⊢
  exact this

/-- What starting a play in a place gives. -/
theorem startPlay_facts (s : State) (clip level repeats : Nat) (who : Starter) (p : Nat)
    (hc : (s.clip clip).state.playable = true) (hp : s.announce.plays.findIdx? (fun p => p.isNone) = some p) :
    ∃ u, s.startPlay clip level repeats who = some (p, u)
      ∧ (∃ y, u.announce.plays.getD p none = some y ∧ y.clip = clip ∧ y.level = level ∧ y.repeats = repeats ∧ y.done = 0
          ∧ y.position = 0 ∧ y.starter = who ∧ y.finished = false)
      ∧ (∀ q, q ≠ p → (u.announce.plays.getD q none).map Play.bare = (s.announce.plays.getD q none).map Play.bare)
      ∧ u.announce.clips = s.announce.clips ∧ u.announce.channels = s.announce.channels ∧ u.store.memory = s.store.memory
      ∧ State.sameLine s u ∧ u.host.response = s.host.response ∧ u.ports = s.ports ∧ u.follower = s.follower
      ∧ u.mixer = s.mixer ∧ u.blend = s.blend ∧ u.call = s.call := by
  unfold State.startPlay
  rw [if_pos hc, hp]
  dsimp only
  obtain ⟨w, hw⟩ : ∃ w : State, w = { s with
      announce.plays := s.announce.plays.set p (some { clip := clip, level := level, repeats := repeats, done := 0, position := 0, starter := who, groups := [], wait := 16, finished := false, serial := s.announce.nextPlay }),
      announce.nextPlay := s.announce.nextPlay + 1 } := ⟨_, rfl⟩
  rw [← hw]
  obtain ⟨a1, a2, a3, a4, ⟨b1, b2, b3, b4, b5⟩, a5, a6, a7, a8, a9, a10⟩ := requestGroups_kept w p
  refine ⟨_, rfl, ?_, ?_, ?_⟩
  · have B := bare_plays_get a1 p
    have hl : p < s.announce.plays.length := (List.findIdx?_eq_some_iff_getElem.mp hp).1
    have hwp : w.announce.plays.getD p none = some { clip := clip, level := level, repeats := repeats, done := 0, position := 0, starter := who, groups := [], wait := 16, finished := false, serial := s.announce.nextPlay } := by
      rw [hw]; simp [List.getD_eq_getElem?_getD, hl]
    rw [hwp] at B
    cases hy : (w.requestGroups p).announce.plays.getD p none with
    | none => rw [hy] at B; simp at B
    | some y =>
      rw [hy] at B; simp only [Option.map_some, Option.some.injEq] at B
      refine ⟨y, rfl, ?_, ?_, ?_, ?_, ?_, ?_, ?_⟩
      · exact congrArg Play.clip B
      · exact congrArg Play.level B
      · exact congrArg Play.repeats B
      · exact congrArg Play.done B
      · exact congrArg Play.position B
      · exact congrArg Play.starter B
      · exact congrArg Play.finished B
  · intro q hq
    rw [bare_plays_get a1 q, hw]
    simp [List.getD_eq_getElem?_getD, Ne.symm hq]
  · rw [hw] at a2 a3 a4 b1 b2 b3 b4 b5 a5 a6 a7 a8 a9 a10
    rw [hw]
    exact ⟨a2, a3, a4, ⟨b1, b2, b3, b4, b5⟩, a5, a6, a7, a8, a9, a10⟩

theorem getD_isNone {α} (l : List (Option α)) (i : Nat) (h : i < l.length) : (l[i]).isNone = true ↔ l.getD i none = none := by
  rw [List.getD_eq_getElem?_getD, List.getElem?_eq_getElem h]; simp

theorem findFree_none {α} (l : List (Option α)) (h : l.length = 4) : l.findIdx? (fun p => p.isNone) = none ↔ ∀ p, p < 4 → l.getD p none ≠ none := by
  rw [List.findIdx?_eq_none_iff]
  constructor
  · intro k p hp e
    have := k l[p] (List.getElem_mem _)
    rw [(getD_isNone l p (by omega)).mpr e] at this; simp at this
  · intro k x hx
    obtain ⟨i, hi, rfl⟩ := List.mem_iff_getElem.mp hx
    cases hh : (l[i]).isNone
    · rfl
    · exact absurd ((getD_isNone l i hi).mp hh) (k i (by omega))

theorem findFree_some {α} (l : List (Option α)) (p : Nat) (h : l.length = 4) : l.findIdx? (fun p => p.isNone) = some p ↔ (p < 4 ∧ l.getD p none = none ∧ ∀ q, q < p → l.getD q none ≠ none) := by
  rw [List.findIdx?_eq_some_iff_getElem]
  constructor
  · rintro ⟨hp, h1, h2⟩
    refine ⟨by omega, (getD_isNone l p hp).mp h1, ?_⟩
    intro q hq e
    exact h2 q hq ((getD_isNone l q (by omega)).mpr e)
  · rintro ⟨hp, h1, h2⟩
    refine ⟨by omega, (getD_isNone l p (by omega)).mpr h1, ?_⟩
    intro q hq e
    exact h2 q hq ((getD_isNone l q (by omega)).mp e)

theorem playable_iff (c : ClipState) : c.playable = true ↔ c = .ready ∨ c = .locked := by cases c <;> simp [ClipState.playable]

end Sys2Proof.Machine
end

