-- ==== Sys2Proof/Laws/Cadences.lean ====
section
/-! SUPPORT. What expiries and firings do to the channels and the plays (R129, R130). -/

namespace Sys2Proof.Machine

set_option maxRecDepth 20000
set_option linter.unusedVariables false
set_option linter.unusedSimpArgs false

theorem channel_onChannel (s : State) (c : Nat) (f : CadenceChannel → CadenceChannel) (h : c < s.announce.channels.length) : (s.onChannel c f).channel c = f (s.channel c) := by
  unfold State.channel State.onChannel; exact getD_modify_eq _ _ _ _ h

theorem channel_onChannel_ne (s : State) (c j : Nat) (f : CadenceChannel → CadenceChannel) (h : j ≠ c) : (s.onChannel c f).channel j = s.channel j := by
  unfold State.channel State.onChannel; exact getD_modify_ne _ _ _ _ _ h

theorem channel_onFollowers (s : State) (l j : Nat) (f : CadenceChannel → CadenceChannel) : (s.onFollowers l f).channel j = if (s.channel j).role = .follower l then f (s.channel j) else s.channel j := by
  unfold State.channel State.onFollowers
  simp only [List.getD_eq_getElem?_getD, List.getElem?_map]
  cases s.announce.channels[j]? with
  | none => simp [CadenceChannel.reset]
  | some k =>
    simp only [Option.map_some, Option.getD_some, CadenceChannel.follows, beq_iff_eq]

theorem onChannel_len (s : State) (c : Nat) (f : CadenceChannel → CadenceChannel) : (s.onChannel c f).announce.channels.length = s.announce.channels.length := by
  simp [State.onChannel]

theorem onFollowers_len (s : State) (c : Nat) (f : CadenceChannel → CadenceChannel) : (s.onFollowers c f).announce.channels.length = s.announce.channels.length := by
  simp [State.onFollowers]

/-- Everything but the cadence channels, the play list, the queues and counts of the store and the events. -/
def CadKept (s u : State) : Prop :=
  u.announce.clips = s.announce.clips ∧ u.store.memory = s.store.memory
  ∧ State.sameLine s u ∧ u.host.response = s.host.response ∧ u.ports = s.ports ∧ u.follower = s.follower
  ∧ u.mixer = s.mixer ∧ u.blend = s.blend ∧ u.call = s.call ∧ u.announce.channels.length = s.announce.channels.length

theorem cadKept_refl (s : State) : CadKept s s := ⟨rfl, rfl, ⟨rfl, rfl, rfl, rfl, rfl⟩, rfl, rfl, rfl, rfl, rfl, rfl, rfl⟩

theorem cadKept_trans {s u v : State} (h : CadKept s u) (k : CadKept u v) : CadKept s v := by
  obtain ⟨a2, a4, ⟨b1, b2, b3, b4, b5⟩, a5, a6, a7, a8, a9, a10, a11⟩ := h
  obtain ⟨c2, c4, ⟨d1, d2, d3, d4, d5⟩, c5, c6, c7, c8, c9, c10, c11⟩ := k
  exact ⟨c2.trans a2, c4.trans a4, ⟨d1.trans b1, d2.trans b2, d3.trans b3, d4.trans b4, d5.trans b5⟩, c5.trans a5, c6.trans a6, c7.trans a7, c8.trans a8, c9.trans a9, c10.trans a10, c11.trans a11⟩

theorem cadKept_onChannel (s : State) (c : Nat) (f : CadenceChannel → CadenceChannel) : CadKept s (s.onChannel c f) :=
  ⟨rfl, rfl, ⟨rfl, rfl, rfl, rfl, rfl⟩, rfl, rfl, rfl, rfl, rfl, rfl, onChannel_len _ _ _⟩

theorem cadKept_onFollowers (s : State) (c : Nat) (f : CadenceChannel → CadenceChannel) : CadKept s (s.onFollowers c f) :=
  ⟨rfl, rfl, ⟨rfl, rfl, rfl, rfl, rfl⟩, rfl, rfl, rfl, rfl, rfl, rfl, onFollowers_len _ _ _⟩

/-- A play of a follower is in the list. -/
def FollowPlay (u : State) (f clip level : Nat) : Prop := ∃ place p, place < 4 ∧ u.announce.plays.getD place none = some p
  ∧ p.starter = .follower f ∧ p.clip = clip ∧ p.level = level ∧ p.repeats = 1 ∧ p.done = 0 ∧ p.position = 0

theorem followPlay_bare {s u : State} (h : ∀ q y, s.announce.plays.getD q none = some y → (u.announce.plays.getD q none).map Play.bare = some y.bare) (f c l : Nat) (k : FollowPlay s f c l) : FollowPlay u f c l := by
  obtain ⟨q, p, h1, h2, h3, h4, h5, h6, h7, h8⟩ := k
  have := h q p h2
  cases hy : u.announce.plays.getD q none with
  | none => rw [hy] at this; simp at this
  | some y =>
    rw [hy] at this; simp only [Option.map_some, Option.some.injEq] at this
    exact ⟨q, y, h1, hy, (congrArg Play.starter this).trans h3, (congrArg Play.clip this).trans h4, (congrArg Play.level this).trans h5, (congrArg Play.repeats this).trans h6, (congrArg Play.done this).trans h7, (congrArg Play.position this).trans h8⟩

/-- A channel is due to fire. -/
def FireDue (s : State) (c : Nat) : Prop := ∃ l, (s.channel c).role = .follower l ∧ (s.channel c).counting = true ∧ (s.channel c).remaining = 0

theorem fires_idle (s : State) (c : Nat) (h : ¬FireDue s c) : s.fire c = s := by
  unfold State.fire
  dsimp only
  split
  · next l hl =>
    rw [if_neg]
    intro k
    simp only [Bool.and_eq_true, beq_iff_eq] at k
    exact h ⟨l, hl, k.1, k.2⟩
  · rfl

theorem fires_due (s : State) (c : Nat) (h : FireDue s c) (hc : c < s.announce.channels.length) (hp : s.announce.plays.length = 4) :
    CadKept s (s.fire c) ∧ (∀ j, j ≠ c → (s.fire c).channel j = s.channel j)
    ∧ (∀ q y, s.announce.plays.getD q none = some y → ((s.fire c).announce.plays.getD q none).map Play.bare = some y.bare)
    ∧ (s.fire c).announce.plays.length = 4
    ∧ ((s.clip (s.channel c).activeClip).state.playable = false ∨ (∀ p, p < 4 → s.announce.plays.getD p none ≠ none) →
        (s.fire c).channel c = { s.channel c with counting := false, missed := true } ∧ (s.fire c).announce.plays = s.announce.plays)
    ∧ ((s.clip (s.channel c).activeClip).state.playable = true → (∃ p, p < 4 ∧ s.announce.plays.getD p none = none) →
        (s.fire c).channel c = { s.channel c with counting := false } ∧ FollowPlay (s.fire c) c (s.channel c).activeClip (s.channel c).level) := by
  obtain ⟨l, h1, h2, h3⟩ := h
  obtain ⟨i, hi⟩ : ∃ i, i = s.onChannel c (fun k => { k with counting := false }) := ⟨_, rfl⟩
  have e : s.fire c = (match i.startPlay (s.channel c).activeClip (s.channel c).level 1 (.follower c) with
      | some (_, started) => started
      | none => i.onChannel c (fun k => { k with missed := true })) := by
    unfold State.fire; dsimp only; rw [h1]; dsimp only
    rw [if_pos (by simp [h2, h3]), hi] <;> rfl
  have ic : i.channel c = { s.channel c with counting := false } := by rw [hi, channel_onChannel _ _ _ hc]
  have ij : ∀ j, j ≠ c → i.channel j = s.channel j := fun j hj => by rw [hi, channel_onChannel_ne _ _ _ _ hj]
  have ik : CadKept s i := by rw [hi]; exact cadKept_onChannel _ _ _
  have ip : i.announce.plays = s.announce.plays := by rw [hi] <;> rfl
  have icl : ∀ x, i.clip x = s.clip x := fun x => by rw [hi] <;> rfl
  have il : c < i.announce.channels.length := by rw [hi, onChannel_len]; exact hc
  have missed : i.startPlay (s.channel c).activeClip (s.channel c).level 1 (.follower c) = none → 
     s.fire c = i.onChannel c (fun k => { k with missed := true }) := fun h => by rw [e, h]
  have M : s.fire c = i.onChannel c (fun k => { k with missed := true }) → CadKept s (s.fire c) ∧ (∀ j, j ≠ c → (s.fire c).channel j = s.channel j)
    ∧ (∀ q y, s.announce.plays.getD q none = some y → ((s.fire c).announce.plays.getD q none).map Play.bare = some y.bare)
    ∧ (s.fire c).announce.plays.length = 4 ∧ (s.fire c).channel c = { s.channel c with counting := false, missed := true } ∧ (s.fire c).announce.plays = s.announce.plays := by
    intro hh
    have e1 : (s.fire c).announce.plays = s.announce.plays := by rw [hh]; exact ip
    refine ⟨by rw [hh]; exact cadKept_trans ik (cadKept_onChannel _ _ _), fun j hj => by rw [hh, channel_onChannel_ne _ _ _ _ hj, ij j hj], ?_, by rw [e1]; exact hp, by rw [hh, channel_onChannel _ _ _ il, ic], e1⟩
    intro q y hy; rw [e1, hy]; rfl
  by_cases hpl : (s.clip (s.channel c).activeClip).state.playable = true
  · cases hf : s.announce.plays.findIdx? (fun p => p.isNone) with
    | none =>
      have hn := (findFree_none _ hp).mp hf
      obtain ⟨m1, m2, m3, m4, m5⟩ := M (missed (by unfold State.startPlay; rw [if_pos (by rw [icl]; exact hpl), ip, hf]))
      exact ⟨m1, m2, m3, m4, fun _ => m5, fun _ hx => by obtain ⟨p, h1, h2⟩ := hx; exact absurd h2 (hn p h1)⟩
    | some p =>
      obtain ⟨h5, h6, h7⟩ := (findFree_some _ p hp).mp hf
      obtain ⟨u, e2, ⟨y, Y1, Y2, Y3, Y4, Y5, Y6, Y7, Y8⟩, K, k1, k2, k3, k4, k5, k6, k7, k8, k9, k10⟩ := startPlay_facts i (s.channel c).activeClip (s.channel c).level 1 (.follower c) p (by rw [icl]; exact hpl) (by rw [ip]; exact hf)
      have e3 : s.fire c = u := by rw [e, e2]
      have ch : ∀ j, u.channel j = i.channel j := fun j => by unfold State.channel; rw [k2]
      have q3 : ∀ q y, s.announce.plays.getD q none = some y → (u.announce.plays.getD q none).map Play.bare = some y.bare := by
        intro q y hy
        have : q ≠ p := by rintro rfl; rw [h6] at hy; simp at hy
        rw [K q this, ip, hy]; rfl
      rw [e3]
      refine ⟨cadKept_trans ik ⟨k1, k3, k4, k5, k6, k7, k8, k9, k10, by rw [k2]⟩, fun j hj => by rw [ch, ij j hj], q3, ?_, ?_, fun _ _ => ⟨by rw [ch, ic], p, y, h5, Y1, Y7, Y2, Y3, Y4, Y5, Y6⟩⟩
      · have hx := requestGroups_kept
        -- the list keeps its length
        have : ∃ w : State, w.announce.plays.length = 4 ∧ u = w.requestGroups p := by
          unfold State.startPlay at e2
          rw [if_pos (by rw [icl]; exact hpl), ip, hf] at e2
          dsimp only at e2
          injection e2 with e2
          injection e2 with _ e2
          exact ⟨_, by simp [hp], e2.symm⟩
        obtain ⟨w, hw1, hw2⟩ := this
        have := congrArg List.length (requestGroups_kept w p).1
        simp only [List.length_map] at this
        rw [hw2, this, hw1]
      · rintro (h | h)
        · rw [hpl] at h; simp at h
        · exact absurd h6 (h p h5)
  · obtain ⟨m1, m2, m3, m4, m5⟩ := M (missed (by unfold State.startPlay; rw [if_neg (by rw [icl]; exact hpl)]))
    exact ⟨m1, m2, m3, m4, fun _ => m5, fun h => absurd h hpl⟩

/-- What the firing of a list of channels leaves. -/
theorem fires_list (l : List Nat) : ∀ (s : State), l.Nodup → (∀ c ∈ l, c < s.announce.channels.length) → s.announce.plays.length = 4 →
    let u := l.foldl (fun acc c => acc.fire c) s
    CadKept s u ∧ u.announce.plays.length = 4
    ∧ (∀ q y, s.announce.plays.getD q none = some y → (u.announce.plays.getD q none).map Play.bare = some y.bare)
    ∧ (∀ j, j ∉ l → u.channel j = s.channel j)
    ∧ (∀ j, j ∈ l → ((s.channel j).counting = false ∨ (s.channel j).remaining ≠ 0) → u.channel j = s.channel j)
    ∧ (∀ j ld, j ∈ l → (s.channel j).role = .follower ld → (s.channel j).counting = true → (s.channel j).remaining = 0 →
        ((u.channel j).counting = false ∧ ((u.channel j).missed = true ∨ FollowPlay u j (s.channel j).activeClip (s.channel j).level)
          ∧ ((s.clip (s.channel j).activeClip).state.playable = false → (u.channel j).missed = true))) := by
  induction l with
  | nil => intro s _ _ hp; exact ⟨cadKept_refl s, hp, fun q y h => by simp only [List.foldl_nil]; rw [h]; rfl, fun _ _ => rfl, fun j hj => by simp at hj, fun j _ hj => by simp at hj⟩
  | cons c l ih =>
    intro s hn hb hp
    obtain ⟨hn1, hn2⟩ := List.nodup_cons.mp hn
    simp only [List.foldl_cons]
    have hc : c < s.announce.channels.length := hb c (by simp)
    -- one firing
    have one : CadKept s (s.fire c) ∧ (∀ j, j ≠ c → (s.fire c).channel j = s.channel j)
       ∧ (∀ q y, s.announce.plays.getD q none = some y → ((s.fire c).announce.plays.getD q none).map Play.bare = some y.bare)
       ∧ (s.fire c).announce.plays.length = 4 := by
      by_cases hd : FireDue s c
      · obtain ⟨a, b, c, d, _⟩ := fires_due s c hd hc hp; exact ⟨a, b, c, d⟩
      · rw [fires_idle s c hd]; exact ⟨cadKept_refl s, fun _ _ => rfl, fun q y h => by rw [h]; rfl, hp⟩
    obtain ⟨o1, outsBut_of, o3, o4⟩ := one
    have oc : ∀ x, (s.fire c).clip x = s.clip x := fun x => by unfold State.clip; rw [o1.1]
    have := ih (s.fire c) hn2 (fun d hd => by rw [o1.2.2.2.2.2.2.2.2.2]; exact hb d (by simp [hd])) o4
    obtain ⟨i1, i2, i3, i4, i5, i6⟩ := this
    refine ⟨cadKept_trans o1 i1, i2, ?_, ?_, ?_, ?_⟩
    · intro q y hy
      have h1 := o3 q y hy
      cases hz : (s.fire c).announce.plays.getD q none with
      | none => rw [hz] at h1; simp at h1
      | some z => rw [hz] at h1; simp only [Option.map_some, Option.some.injEq] at h1; rw [i3 q z hz, h1]
    · intro j hj
      simp only [List.mem_cons, not_or] at hj
      rw [i4 j hj.2, outsBut_of j hj.1]
    · intro j hj hd
      by_cases hjc : j = c
      · subst hjc
        rw [i4 j hn1, fires_idle]
        rintro ⟨l, _, a, b⟩
        rcases hd with h | h
        · rw [h] at a; simp at a
        · exact h b
      · have : j ∈ l := by simpa [hjc] using hj
        rw [i5 j this (by rw [outsBut_of j hjc]; exact hd), outsBut_of j hjc]
    · intro j ld hj hr h1 h2
      by_cases hjc : j = c
      · subst hjc
        have hd : FireDue s j := ⟨ld, hr, h1, h2⟩
        obtain ⟨a, b, c, d, e, f⟩ := fires_due s j hd hc hp
        rw [i4 j hn1]
        by_cases hx : (s.clip (s.channel j).activeClip).state.playable = false ∨ (∀ p, p < 4 → s.announce.plays.getD p none ≠ none)
        · rw [(e hx).1]; exact ⟨rfl, .inl rfl, fun _ => rfl⟩
        · rw [not_or] at hx
          have hy : ∃ p, p < 4 ∧ s.announce.plays.getD p none = none := Classical.byContradiction (fun hh => hx.2 (fun p hp hq => hh ⟨p, hp, hq⟩))
          obtain ⟨g1, g2⟩ := f (by simpa using hx.1) hy
          rw [g1]; exact ⟨rfl, .inr (followPlay_bare i3 _ _ _ g2), fun hh => absurd hh hx.1⟩
      · have hjl : j ∈ l := by simpa [hjc] using hj
        have := i6 j ld hjl (by rw [outsBut_of j hjc]; exact hr) (by rw [outsBut_of j hjc]; exact h1) (by rw [outsBut_of j hjc]; exact h2)
        rw [outsBut_of j hjc, oc] at this
        exact this

/-- The firing row (R130): nothing while the leader expires in the same local sample, else the firing. -/
theorem followerFires_eq (s : State) (c l : Nat) (h : (s.channel c).role = .follower l) :
    s.followerFires c = if (s.channel l).expires then s else s.fire c := by
  unfold State.followerFires; rw [h]

/-- A channel that is no follower does not fire. -/
theorem followerFires_other (s : State) (c : Nat) (h : ∀ l, (s.channel c).role ≠ .follower l) : s.followerFires c = s := by
  unfold State.followerFires
  split
  · next l hl => exact absurd hl (h l)
  · rfl

end Sys2Proof.Machine
end

