-- ==== Sys2Proof/Laws/CadenceSetUp.lean ====
section
/-! SUPPORT. What Cadence Set, Start and Stop do to the channels (R127, R128, R131). -/

namespace Sys2Proof.Machine

set_option maxRecDepth 20000
set_option linter.unusedVariables false
set_option linter.unusedSimpArgs false

theorem followers_mem (s : State) (l f : Nat) : f ∈ s.followersOf l ↔ f < 8 ∧ (s.channel f).role = .follower l := by
  unfold State.followersOf; simp [CadenceChannel.follows]

theorem followers_nodup (s : State) (l : Nat) : (s.followersOf l).Nodup := by
  unfold State.followersOf; exact List.Pairwise.filter _ List.nodup_range

theorem endPlays_facts (s : State) (q : Play → Bool) :
    (s.endPlays q none).announce.clips = s.announce.clips ∧ (s.endPlays q none).announce.buffer = s.announce.buffer ∧
    (s.endPlays q none).announce.channels = s.announce.channels ∧
    (∀ place, s.announce.plays.length = 4 → (s.endPlays q none).announce.plays.getD place none = match s.announce.plays.getD place none with
      | none => none | some p => if q p then none else some p) ∧
    s.endPlays q none = { s with announce := { s.announce with plays := (s.endPlays q none).announce.plays } } := by
  have one : ∀ (s : State) (i : Nat), (match s.announce.plays.getD i none with
    | some play => if q play then s.endPlay i none else s
    | none => s) = { s with announce := { s.announce with plays := s.announce.plays.set i ((s.announce.plays.getD i none).bind (fun p => if q p then none else some p)) } } := by
    intro s i
    cases h : s.announce.plays.getD i none with
    | none =>
      dsimp only
      have : s.announce.plays.set i (Option.bind none (fun p => if q p then none else some p)) = s.announce.plays := by
        apply List.ext_getElem?; intro j; rw [List.getElem?_set]
        split
        · next hj => subst hj; split
                     · next hl => rw [List.getD_eq_getElem?_getD, List.getElem?_eq_getElem hl] at h; rw [List.getElem?_eq_getElem hl]; simpa using h.symm
                     · next hl => rw [List.getElem?_eq_none (by omega)]
        · rfl
      rw [this]
    | some p =>
      dsimp only
      have hp' := getD_none_some _ _ _ h
      by_cases hq : q p = true
      · rw [if_pos hq]; unfold State.endPlay; rw [h]; dsimp only
        cases p.starter <;> simp [hq]
      · rw [if_neg hq]
        have : s.announce.plays.set i (Option.bind (some p) (fun p => if q p then none else some p)) = s.announce.plays := by
          simp only [Option.bind_some, if_neg hq]
          apply List.ext_getElem?; intro j; rw [List.getElem?_set]
          split
          · next hj => subst hj; rw [hp']; have hl := (List.getElem?_eq_some_iff.mp hp').1; simp [hl]
          · rfl
        rw [this]
  have EP : s.endPlays q none = (List.range 4).foldl (fun s i => { s with announce := { s.announce with plays := s.announce.plays.set i ((s.announce.plays.getD i none).bind (fun p => if q p then none else some p)) } }) s := by
    unfold State.endPlays forEach
    congr 1
    funext s i
    exact one s i
  rw [EP]
  simp only [List.range, List.range.loop, List.foldl]
  refine ⟨trivial, trivial, trivial, ?_, trivial⟩
  intro place hl
  match hs : s.announce.plays, hl with
  | [a, b, c, d], _ =>
    rcases place with _ | _ | _ | _ | place
    · cases a <;> rfl
    · cases b <;> rfl
    · cases c <;> rfl
    · cases d <;> rfl
    · rfl

theorem setUp_role (k : CadenceChannel) (setup : CadenceSetup) (h : setup = .off ∨ setupRole setup = .leader ∨ ∃ l, setupRole setup = .follower l) :
   (k.become (setupRole setup)).stage setup = setUpChannel k setup := by
  cases setup with
  | off => unfold CadenceChannel.become setUpChannel CadenceChannel.stage setupRole; dsimp only
  | other r => unfold CadenceChannel.become setUpChannel CadenceChannel.stage setupRole; dsimp only
  | leader p r t =>
    unfold CadenceChannel.become setUpChannel CadenceChannel.stage setupRole; dsimp only
    by_cases hk : k.role = .leader
    · rw [if_pos hk]; simp [hk]
    · rw [if_neg hk]; simp [hk]
  | follower l d c v =>
    unfold CadenceChannel.become setUpChannel CadenceChannel.stage setupRole; dsimp only
    by_cases hk : k.role = .follower l.toNat
    · rw [if_pos hk]; simp [hk]
    · rw [if_neg hk]; simp [hk]

theorem roleWanted_iff (t : State) (c : Nat) (setup : CadenceSetup) : (t.setupFits c setup → t.roleWanted c setup = some (setupRole setup)) ∧ (¬t.setupFits c setup → t.roleWanted c setup = none) := by
  cases setup <;> unfold State.setupFits State.roleWanted setupRole <;> dsimp only
  · simp
  · constructor
    · intro h; rw [if_pos h]
    · intro h; rw [if_neg h]
  · constructor
    · intro h; rw [if_pos h]
    · intro h; rw [if_neg h]
  · simp

theorem takesPart_iff (t : State) (c : Nat) : t.takesPartInCadence c = true ↔ t.takesPart c := by
  unfold State.takesPartInCadence State.takesPart
  cases h : (t.channel c).role <;> simp

theorem onChannel_set (s : State) (c : Nat) (f : CadenceChannel → CadenceChannel) (h : c < s.announce.channels.length) :
    s.onChannel c f = { s with announce := { s.announce with channels := s.announce.channels.set c (f (s.channel c)) } } := by
  unfold State.onChannel State.channel; rw [modify_eq_set _ _ _ .reset h]

theorem loadStaged_channel (s : State) (c j : Nat) (h : c < s.announce.channels.length) (hr : (s.channel c).role = .leader) :
   (s.loadStaged c).channel j = if j = c then { s.channel c with activePeriod := (s.channel c).stagedPeriod, activeRepetitions := (s.channel c).stagedRepetitions }
     else if (s.channel j).role = .follower c then { s.channel j with activeDelay := (s.channel j).stagedDelay, activeClip := (s.channel j).stagedClip } else s.channel j := by
  unfold State.loadStaged
  rw [channel_onFollowers]
  by_cases hj : j = c
  · subst hj; rw [channel_onChannel _ _ _ h, if_neg (by simp [hr]), if_pos rfl]
  · rw [channel_onChannel_ne _ _ _ _ hj, if_neg hj]

end Sys2Proof.Machine
end

