-- ==== Sys2Proof/Laws/Engines.lean ====
section
/-! SUPPORT. State changes of the blend engine and the canceller, and the quality of a block (R76, R140, R161). -/

namespace Sys2Proof.Machine

set_option maxRecDepth 20000
set_option linter.unusedVariables false
set_option linter.unusedSimpArgs false

theorem goBlend_eq (s : State) (new : BlendState) (c : Cause) : s.goBlend new c = s.blendGoes s.blend new c := by
  unfold State.goBlend; rw [raise_eq]; rfl

theorem goCanceller_eq (s : State) (new : CancellerState) (c : Cause) (h : s.call.state ≠ new) :
    s.goCanceller new c = { s.enterCanceller new with host := s.eventRaised .cancellerChanged [cancellerCode new] (some c) } := by
  have F := State.enterCanceller_frame s new
  have hh : (s.enterCanceller new).hasHost = s.hasHost := by
    unfold State.enterCanceller
    dsimp only
    split
    · rfl
    · split <;> rfl
    · rfl
    · rfl
  unfold State.goCanceller
  dsimp only
  rw [if_neg h, raise_eq]
  unfold State.eventRaised
  have h1 : (s.enterCanceller new).host = s.host := by simp
  have h2 : (s.enterCanceller new).tables = s.tables := by simp
  rw [hh, h1, h2]

theorem wholeDecibels_range (x y : Nat) : -20 ≤ wholeDecibels x y ∧ wholeDecibels x y ≤ 60 := by
  unfold wholeDecibels
  have : ∀ (l : List Nat) (a : Int), (∀ k ∈ l, k < 80) → -20 ≤ a ∧ a ≤ 60 → 
     -20 ≤ l.foldl (fun (acc : Int) (k : Nat) => if ratioAtLeast x y ((k : Int) - 19) then (k : Int) - 19 else acc) a ∧ l.foldl (fun (acc : Int) (k : Nat) => if ratioAtLeast x y ((k : Int) - 19) then (k : Int) - 19 else acc) a ≤ 60 := by
    intro l
    induction l with
    | nil => intro a _ h; exact h
    | cons k l ih =>
      intro a hk ha
      simp only [List.foldl_cons]
      apply ih _ (fun j hj => hk j (by simp [hj]))
      have := hk k (by simp)
      split
      · omega
      · exact ha
  exact this _ _ (fun k hk => List.mem_range.mp hk) (by omega)

theorem decibels_range (x y : Nat) : -20 ≤ decibels x y ∧ decibels x y ≤ 60 := by
  have := wholeDecibels_range x y
  unfold decibels
  dsimp only
  split <;> omega

theorem retarget_zone_any (s : State) (z : Nat) (h : z < s.mixer.zones.length) :
   ∃ f : RouteEntry → RouteEntry, (∀ e, (f e).stream = e.stream) ∧ ((s.retarget z).zone z).routes = (s.zone z).routes.map f := by
  cases hd : s.definitions[z]? with
  | none => exact ⟨id, fun _ => rfl, by unfold State.retarget; rw [hd]; simp⟩
  | some d => exact ⟨retargetEntry d (s.zone z).dominant, fun e => (retargetEntry_facts _ _ e).1, by rw [retarget_zone s z d hd h]⟩

set_option maxHeartbeats 2000000 in
theorem handQuality_facts (s : State) (q : Quality) :
   (s.handQuality q).blend.state = blendAfterQuality s.blend q
   ∧ ((s.handQuality q).blend.state ≠ s.blend.state → (s.handQuality q).blend.goodRun = 0 ∧ (s.handQuality q).blend.poorRun = 0)
   ∧ (q = .lost → s.blend.state ≠ .idle → s.blend.state ≠ .filling → (s.handQuality q).blend.valid = false)
   ∧ (q = .lost → s.blend.state = .digital ∨ s.blend.state = .toDigital ∨ s.blend.state = .toAnalogue → (s.handQuality q).blend.fast = true)
   ∧ (q = .poor → s.blend.state = .toDigital ∨ s.blend.state = .digital ∧ 1 ≤ s.blend.poorRun → (s.handQuality q).blend.fast = false) := by
  unfold State.handQuality State.reactToQuality blendAfterQuality Blend.distrust Blend.countQuality
  cases hs : s.blend.state <;> cases q <;> simp [hs, State.goBlend, State.fallBack, raise_eq, Blend.endCorrelator, Blend.startCorrelator]
  case analogue.good =>
    have e : (min 8 (s.blend.goodRun + 1) = 8) ↔ 7 ≤ s.blend.goodRun := by omega
    try simp only [e]
    by_cases h : 7 ≤ s.blend.goodRun
    · simp only [if_pos h]; split <;> simp
    · simp only [if_neg h]; simp [hs]
  case digital.poor =>
    have e : (min 2 (s.blend.poorRun + 1) = 2) ↔ 1 ≤ s.blend.poorRun := by omega
    try simp only [e]
    by_cases h : 1 ≤ s.blend.poorRun
    · simp only [if_pos h]; simp
    · simp only [if_neg h]; simp [hs]; intro h2; exact absurd h2 h

end Sys2Proof.Machine
end

