-- ==== Sys2Proof/Laws/Arbiter.lean ====
section
/-! SUPPORT. What the arbiter does to the banks, a step at a time, and what a rise of the debts does (R86 to R92). -/

namespace Sys2Proof.Machine

set_option maxRecDepth 20000
set_option linter.unusedVariables false
set_option linter.unusedSimpArgs false

/-- What one step of the arbiter on a bank does to the store. -/
structure StepOf (st u : Store) (b : Nat) (taken : Bool) : Prop where
  same : taken = false → u = st
  queues : u.queues = st.queues
  gaps : u.gaps = st.gaps
  frames : u.frames = st.frames
  tick : u.refreshTick = st.refreshTick
  budget : u.budget ≤ st.budget
  allowance : u.allowance ≤ st.allowance
  others : ∀ c, c ≠ b → u.bank c = st.bank c
  debt : ∀ c, (u.bank c).debt = (st.bank c).debt ∧ (u.bank c).loss = (st.bank c).loss
  may : taken = true → ((st.bank b).state = .idle ∧ 0 < st.budget) ∨ ((∃ r, (st.bank b).state = .open r) ∧ (st.bank b).burst = none)
theorem onBank_bank (st : Store) (b c : Nat) (f : Bank → Bank) : (st.onBank b f).bank c = if c = b ∧ b < st.banks.length then f (st.bank c) else st.bank c := getD_modify _ _ _ _ _

theorem StepOf.idle (st : Store) (b) : StepOf st st b false := ⟨fun _ => rfl, rfl, rfl, rfl, rfl, Nat.le_refl _, Nat.le_refl _, fun _ _ => rfl, fun _ => ⟨rfl, rfl⟩, by simp⟩

theorem StepOf.of (st : Store) (b) (f : Bank → Bank) (n m : Nat) (hn : n ≤ st.budget) (hm : m ≤ st.allowance) (hf : ∀ k, (f k).debt = k.debt ∧ (f k).loss = k.loss)
    (h : ((st.bank b).state = .idle ∧ 0 < st.budget) ∨ ((∃ r, (st.bank b).state = .open r) ∧ (st.bank b).burst = none)) : StepOf st { st.onBank b f with budget := n, allowance := m } b true := by
  refine ⟨by simp, rfl, rfl, rfl, rfl, hn, hm, ?_, ?_, fun _ => h⟩
  · intro c hc
    show (st.onBank b f).bank c = _
    rw [onBank_bank, if_neg (fun h => hc h.1)]
  · intro c
    show ((st.onBank b f).bank c).debt = _ ∧ ((st.onBank b f).bank c).loss = _
    rw [onBank_bank]; split
    · exact hf _
    · exact ⟨rfl, rfl⟩

theorem urgentStep_of (st : Store) (b : Nat) : StepOf st (st.urgentStep b).1 b (st.urgentStep b).2 := by
  unfold Store.urgentStep
  split
  · next r h1 h2 => exact StepOf.of st b _ st.budget st.allowance (Nat.le_refl _) (Nat.le_refl _) (fun _ => ⟨rfl, rfl⟩) (.inr ⟨⟨_, h1⟩, h2⟩)
  · next h1 =>
    split
    · next hb => exact StepOf.of st b _ (st.budget - 1) st.allowance (Nat.sub_le _ _) (Nat.le_refl _) (fun _ => ⟨rfl, rfl⟩) (.inl ⟨h1, hb⟩)
    · exact StepOf.idle st b
  · exact StepOf.idle st b

theorem ordinaryStep_of (st : Store) (b : Nat) : StepOf st (st.ordinaryStep b).1 b (st.ordinaryStep b).2 := by
  unfold Store.ordinaryStep
  split
  · next h => exact StepOf.of st b _ (st.budget - 1) (st.allowance - 1) (Nat.sub_le _ _) (Nat.sub_le _ _) (fun _ => ⟨rfl, rfl⟩) (.inl ⟨h.1, h.2.1⟩)
  · exact StepOf.idle st b

theorem headStep_of (st : Store) (q : QueueId) (b row : Nat) : StepOf st (st.headStep q b row).1 b (st.headStep q b row).2 := by
  unfold Store.headStep
  split
  · exact StepOf.idle st b
  · split
    · next r h1 h2 =>
      split
      · exact StepOf.of st b _ st.budget st.allowance (Nat.le_refl _) (Nat.le_refl _) (fun _ => ⟨rfl, rfl⟩) (.inr ⟨⟨_, h1⟩, h2⟩)
      · split
        · exact StepOf.of st b _ st.budget st.allowance (Nat.le_refl _) (Nat.le_refl _) (fun _ => ⟨rfl, rfl⟩) (.inr ⟨⟨_, h1⟩, h2⟩)
        · exact StepOf.idle st b
    · next h1 =>
      split
      · next hb => exact StepOf.of st b _ (st.budget - 1) st.allowance (Nat.sub_le _ _) (Nat.le_refl _) (fun _ => ⟨rfl, rfl⟩) (.inl ⟨h1, hb⟩)
      · exact StepOf.idle st b
    · exact StepOf.idle st b

/-- What the arbiter has done so far to a store. -/
structure ArbOf (st : Store) (a : Arbitration) : Prop where
  queues : a.1.queues = st.queues
  gaps : a.1.gaps = st.gaps
  frames : a.1.frames = st.frames
  tick : a.1.refreshTick = st.refreshTick
  budget : a.1.budget ≤ st.budget
  allowance : a.1.allowance ≤ st.allowance
  debt : ∀ c, (a.1.bank c).debt = (st.bank c).debt ∧ (a.1.bank c).loss = (st.bank c).loss
  fresh : ∀ c, c ∉ a.2 → a.1.bank c = st.bank c
  may : ∀ c, c ∈ a.2 → ((st.bank c).state = .idle ∧ 0 < st.budget) ∨ ((∃ r, (st.bank c).state = .open r) ∧ (st.bank c).burst = none)
theorem ArbOf.claim {st : Store} {a : Arbitration} (h : ArbOf st a) (b : Nat) (f : Store → Store × Bool) (hf : ∀ u, StepOf u (f u).1 b (f u).2) : ArbOf st (claim b f a) := by
  unfold Machine.claim
  split
  · exact h
  · next hc =>
    have hb : b ∉ a.2 := by simpa using hc
    have k := hf a.1
    have hbank := h.fresh b hb
    generalize hp : f a.1 = p at k
    obtain ⟨u, taken⟩ := p
    dsimp only at k ⊢
    refine ⟨k.queues.trans h.queues, k.gaps.trans h.gaps, k.frames.trans h.frames, k.tick.trans h.tick, Nat.le_trans k.budget h.budget, Nat.le_trans k.allowance h.allowance, ?_, ?_, ?_⟩
    · intro c; exact ⟨(k.debt c).1.trans (h.debt c).1, (k.debt c).2.trans (h.debt c).2⟩
    · intro c hc
      cases taken with
      | false => rw [k.same rfl]; exact h.fresh c (by simpa using hc)
      | true =>
        simp at hc
        rw [k.others c hc.1]; exact h.fresh c hc.2
    · intro c hc
      cases taken with
      | false => exact h.may c (by simpa using hc)
      | true =>
        simp at hc
        rcases hc with rfl | hc
        · have := k.may rfl
          rw [hbank] at this
          rcases this with ⟨h1, h2⟩ | h3
          · exact .inl ⟨h1, Nat.lt_of_lt_of_le h2 h.budget⟩
          · exact .inr h3
        · exact h.may c hc

theorem ArbOf.claimHead {st : Store} {a : Arbitration} (h : ArbOf st a) (q : QueueId) : ArbOf st (claimHead q a) := by
  unfold Machine.claimHead
  split
  · exact h
  · split
    · exact h
    · split
      · exact h
      · exact h.claim _ _ (fun u => headStep_of u q _ _)

theorem ArbOf.foldl {st : Store} {α : Type} (f : Arbitration → α → Arbitration) (hf : ∀ a x, ArbOf st a → ArbOf st (f a x)) : ∀ (l : List α) (a : Arbitration), ArbOf st a → ArbOf st (l.foldl f a)
  | [], _, h => h
  | x :: l, a, h => ArbOf.foldl f hf l _ (hf a x h)

theorem arbitrate_of (st : Store) : ∃ a : Arbitration, a.1 = st.arbitrate ∧ ArbOf st a := by
  unfold Store.arbitrate
  split
  · exact ⟨(st, []), rfl, ⟨rfl, rfl, rfl, rfl, Nat.le_refl _, Nat.le_refl _, fun _ => ⟨rfl, rfl⟩, fun _ _ => rfl, by simp⟩⟩
  · dsimp only
    refine ⟨_, rfl, ArbOf.claimHead ?_ _⟩
    refine ArbOf.foldl _ (fun a x h => h.claim _ _ (fun u => ordinaryStep_of u x)) _ _ ?_
    refine ArbOf.foldl _ (fun a x h => h.claimHead x) _ _ ?_
    refine ArbOf.foldl _ (fun a x h => h.claim _ _ (fun u => urgentStep_of u x)) _ _ ?_
    exact ⟨rfl, rfl, rfl, rfl, Nat.le_refl _, Nat.le_refl _, fun _ => ⟨rfl, rfl⟩, fun _ _ => rfl, by simp⟩

theorem mark_facts (l : List Nat) (hd : l.Nodup) : ∀ st : Store, st.banks.length = 8 → (∀ b, b ∈ l → b < 8) →
    let u := l.foldl (fun acc b =>
      ({ acc.onBank b (fun k => { k with loss := some acc.lossEvents, rewritten := [] }) with
        lossEvents := acc.lossEvents + 1, overdue := min 65535 (acc.overdue + 1) } : Store)) st
    u.banks.length = 8 ∧ (∀ b, (u.bank b).debt = (st.bank b).debt) ∧ (∀ b, b ∉ l → (u.bank b).loss = (st.bank b).loss) ∧ (∀ b, b ∈ l → ∃ e, (u.bank b).loss = some e)
      ∧ u.memory = st.memory ∧ u.refreshTick = st.refreshTick ∧ u.budget = st.budget ∧ (∀ b, (u.bank b).state = (st.bank b).state) := by
  induction l with
  | nil => intro st h _; exact ⟨h, fun _ => rfl, fun _ _ => rfl, fun _ hb => by simp at hb, rfl, rfl, rfl, fun _ => rfl⟩
  | cons a l ih =>
    intro st h hlt
    obtain ⟨hn, hd'⟩ := List.nodup_cons.mp hd
    have hb : ∀ c, (({ st.onBank a (fun k => { k with loss := some st.lossEvents, rewritten := [] }) with
        lossEvents := st.lossEvents + 1, overdue := min 65535 (st.overdue + 1) } : Store).bank c) = if c = a ∧ a < st.banks.length then { st.bank c with loss := some st.lossEvents, rewritten := [] } else st.bank c := fun c => onBank_bank st a c _
    have hl : ({ st.onBank a (fun k => { k with loss := some st.lossEvents, rewritten := [] }) with
        lossEvents := st.lossEvents + 1, overdue := min 65535 (st.overdue + 1) } : Store).banks.length = 8 := by simp [Store.onBank, h]
    obtain ⟨i1, i2, i3, i4, i5, i6, i7, i8⟩ := ih hd' _ hl (fun b hb => hlt b (by simp [hb]))
    refine ⟨i1, ?_, ?_, ?_, i5, i6, i7, fun c => (i8 c).trans (by rw [hb]; split <;> rfl)⟩
    · intro c; refine (i2 c).trans ?_; rw [hb]; split <;> rfl
    · intro c hc
      refine (i3 c (by simp at hc; exact hc.2)).trans ?_
      rw [hb, if_neg (by simp at hc; exact fun hh => hc.1 hh.1)]
    · intro c hc
      by_cases hcl : c ∈ l
      · exact i4 c hcl
      · have hca : c = a := by simpa [hcl] using hc
        subst hca
        refine ⟨st.lossEvents, (i3 c hcl).trans ?_⟩
        rw [hb, if_pos ⟨rfl, by rw [h]; exact hlt c (by simp)⟩]

theorem noticed_store (l : List Nat) (s : State) : (l.foldl (fun acc b => acc.overdue b) s).store = s.store ∧ State.sameLine s (l.foldl (fun acc b => acc.overdue b) s)
    ∧ (l.foldl (fun acc b => acc.overdue b) s).ports = s.ports ∧ (l.foldl (fun acc b => acc.overdue b) s).follower = s.follower ∧ (l.foldl (fun acc b => acc.overdue b) s).mixer = s.mixer
    ∧ (l.foldl (fun acc b => acc.overdue b) s).blend = s.blend ∧ (l.foldl (fun acc b => acc.overdue b) s).call = s.call := by
  induction l generalizing s with
  | nil => exact ⟨rfl, ⟨rfl, rfl, rfl, rfl, rfl⟩, rfl, rfl, rfl, rfl, rfl⟩
  | cons b l ih =>
    rw [List.foldl_cons]
    obtain ⟨a1, ⟨b1, b2, b3, b4, b5⟩, a3, a4, a5, a6, a7⟩ := ih (s.overdue b)
    have F := State.overdue_frame s b
    refine ⟨?_, ⟨?_, ?_, ?_, ?_, ?_⟩, ?_, ?_, ?_, ?_, ?_⟩ <;> simp_all

end Sys2Proof.Machine
end

