-- ==== Sys2Proof/Laws/ArbiterOrder.lean ====
section
/-! SUPPORT. The order of the arbiter's claimants: what each stage does to the banks and leaves of the budget (R86 to R91). -/

namespace Sys2Proof.Machine

set_option maxRecDepth 20000
set_option linter.unusedVariables false
set_option linter.unusedSimpArgs false

/-! ## The order of refreshes (R87) -/

/-- A bank comes before another by debt and number. -/
def Store.Before (st : Store) (c b : Nat) : Prop := st.refreshedBefore c b = true

theorem before_iff (st : Store) (c b : Nat) :
    st.Before c b ↔ (st.bank b).debt < (st.bank c).debt ∨ ((st.bank c).debt = (st.bank b).debt ∧ c < b) := by
  unfold Store.Before Store.refreshedBefore; simp

theorem insertByDebt_mem (st : Store) (b c : Nat) : ∀ l, c ∈ st.insertByDebt b l ↔ c = b ∨ c ∈ l
  | [] => by simp [Store.insertByDebt]
  | d :: l => by
    unfold Store.insertByDebt
    split
    · simp
    · simp only [List.mem_cons, insertByDebt_mem st b c l]
      constructor
      · rintro (h | h | h) <;> simp [h]
      · rintro (h | h | h) <;> simp [h]

theorem insertByDebt_pairwise (st : Store) (b : Nat) : ∀ l : List Nat, (∀ c, c ∈ l → c < b) → l.Pairwise st.Before →
    (st.insertByDebt b l).Pairwise st.Before
  | [], _, _ => by simp [Store.insertByDebt]
  | d :: l, hb, hp => by
    obtain ⟨h1, h2⟩ := List.pairwise_cons.1 hp
    unfold Store.insertByDebt
    split
    · rename_i h
      refine List.pairwise_cons.2 ⟨?_, hp⟩
      intro c hc
      rcases List.mem_cons.1 hc with rfl | hc
      · exact (before_iff st b c).2 (.inl h)
      · rcases (before_iff st d c).1 (h1 c hc) with h3 | h3
        · exact (before_iff st b c).2 (.inl (by omega))
        · exact (before_iff st b c).2 (.inl (by omega))
    · rename_i h
      refine List.pairwise_cons.2 ⟨?_, insertByDebt_pairwise st b l (fun c hc => hb c (by simp [hc])) h2⟩
      intro c hc
      rcases (insertByDebt_mem st b c l).1 hc with rfl | hc
      · have := hb d (by simp)
        exact (before_iff st d c).2 (by omega)
      · exact h1 c hc

theorem byDebt_facts (st : Store) (p : Bank → Bool) :
    (∀ c, c ∈ st.byDebt p ↔ c < 8 ∧ p (st.bank c) = true) ∧ (st.byDebt p).Pairwise st.Before := by
  have key : ∀ (l acc : List Nat), l.Pairwise (· < ·) → (∀ c d, c ∈ acc → d ∈ l → c < d) → acc.Pairwise st.Before →
      (∀ c, c ∈ l.foldl (fun acc b => st.insertByDebt b acc) acc ↔ c ∈ acc ∨ c ∈ l)
        ∧ (l.foldl (fun acc b => st.insertByDebt b acc) acc).Pairwise st.Before := by
    intro l
    induction l with
    | nil => intro acc _ _ h; exact ⟨by simp, h⟩
    | cons x l ih =>
      intro acc hl hlt hp
      obtain ⟨h1, h2⟩ := List.pairwise_cons.1 hl
      rw [List.foldl_cons]
      obtain ⟨i1, i2⟩ := ih (st.insertByDebt x acc) h2 (by
        intro c d hc hd
        rcases (insertByDebt_mem st x c acc).1 hc with rfl | hc
        · exact h1 d hd
        · exact hlt c d hc (by simp [hd])) (insertByDebt_pairwise st x acc (fun c hc => hlt c x hc (by simp)) hp)
      refine ⟨?_, i2⟩
      intro c
      rw [i1 c, insertByDebt_mem]
      simp only [List.mem_cons]
      constructor
      · rintro ((h | h) | h) <;> simp [h]
      · rintro (h | h | h) <;> simp [h]
  obtain ⟨a, b⟩ := key ((List.range 8).filter (fun b => p (st.bank b))) [] (List.Pairwise.filter _ List.pairwise_lt_range)
    (by simp) List.Pairwise.nil
  exact ⟨fun c => by unfold Store.byDebt; rw [a c]; simp, b⟩

theorem before_irrefl (st : Store) (c : Nat) : ¬st.Before c c := by rw [before_iff]; omega

theorem before_asymm (st : Store) (c d : Nat) (h : st.Before c d) : ¬st.Before d c := by
  rw [before_iff] at h ⊢; omega

theorem byDebt_nodup (st : Store) (p : Bank → Bool) : (st.byDebt p).Nodup :=
  (byDebt_facts st p).2.imp (fun {a b} h e => by subst e; exact before_irrefl st a h)

/-- The IDLE ones of a list of banks. -/
def Store.idleIn (st : Store) (l : List Nat) : Nat := (l.filter (fun b => decide ((st.bank b).state = .idle))).length

theorem idleIn_banks (st : Store) (l : List Nat) (p : Nat → Bool) (hn : l.Nodup) (hm : ∀ c, c ∈ l ↔ c < 8 ∧ p c = true) :
    st.idleIn l = st.idleBanks p := by
  unfold Store.idleIn Store.idleBanks
  apply List.Perm.length_eq
  rw [List.perm_ext_iff_of_nodup (hn.filter _) (List.nodup_range.filter _)]
  intro c
  simp [hm c, and_comm, and_left_comm, and_assoc]

theorem idleIn_byDebt (st : Store) (p : Bank → Bool) : st.idleIn (st.byDebt p) = st.idleBanks (fun c => p (st.bank c)) :=
  idleIn_banks st _ _ (byDebt_nodup st p) (byDebt_facts st p).1

theorem idleIn_ahead (st : Store) (p : Bank → Bool) (b : Nat) (h8 : b < 8) (hp : p (st.bank b) = true) :
    ∃ l1 l2, st.byDebt p = l1 ++ b :: l2
      ∧ st.idleIn l1 = st.idleBanks (fun c => p (st.bank c) && st.refreshedBefore c b) := by
  obtain ⟨hm, hw⟩ := byDebt_facts st p
  have hn := byDebt_nodup st p
  obtain ⟨l1, l2, e⟩ := List.append_of_mem ((hm b).2 ⟨h8, hp⟩)
  rw [e] at hm hw hn
  refine ⟨l1, l2, e, ?_⟩
  obtain ⟨w1, w2, w3⟩ := List.pairwise_append.1 hw
  obtain ⟨n1, n2, n3⟩ := List.nodup_append.1 hn
  refine idleIn_banks st l1 _ n1 ?_
  intro c
  constructor
  · intro hc
    have h := (hm c).1 (by simp [hc])
    have hb : st.refreshedBefore c b = true := w3 c hc b (by simp)
    exact ⟨h.1, by simp [h.2, hb]⟩
  · rintro ⟨h1, h2⟩
    simp only [Bool.and_eq_true] at h2
    have h := (hm c).2 ⟨h1, h2.1⟩
    rcases List.mem_append.1 h with h | h
    · exact h
    · rcases List.mem_cons.1 h with rfl | h
      · exact absurd h2.2 (before_irrefl st c)
      · exact absurd h2.2 (before_asymm st b c ((List.pairwise_cons.1 w2).1 c h))

/-! ## The progress of an arbitration -/

/-- How far an arbitration of a store has come: what it has spent of the budget at most, and which queues have not acted. -/
structure Prog (st : Store) (a : Arbitration) (spent : Nat) (rem : QueueId → Prop) : Prop where
  queues : a.1.queues = st.queues
  regions : a.1.regions = st.regions
  len : a.1.banks.length = st.banks.length
  debt : ∀ c, (a.1.bank c).debt = (st.bank c).debt
  fresh : ∀ c, c ∉ a.2 → a.1.bank c = st.bank c
  step : ∀ c, bankStep (st.bank c) (a.1.bank c)
  budget : st.budget ≤ a.1.budget + spent
  within : a.1.budget ≤ st.budget
  flight : ∀ q, rem q → a.1.inFlight q = st.inFlight q

theorem Prog.start (st : Store) : Prog st (st, []) 0 (fun _ => True) :=
  ⟨rfl, rfl, rfl, fun _ => rfl, fun _ _ => rfl, fun _ => .inl rfl, Nat.le_refl _, Nat.le_refl _, fun _ _ => rfl⟩

theorem any_modify {α : Type} (p : α → Bool) (f : α → α) : ∀ (l : List α) (i : Nat),
    (∀ x, l[i]? = some x → p (f x) = p x) → (l.modify i f).any p = l.any p
  | [], _, _ => by simp
  | x :: l, 0, h => by simp [h x (by simp)]
  | x :: l, i + 1, h => by
    simp only [List.modify_succ_cons, List.any_cons]
    rw [any_modify p f l i (fun y hy => h y (by simpa using hy))]

theorem Prog.take {st : Store} {a : Arbitration} {spent : Nat} {rem rem' : QueueId → Prop} (h : Prog st a spent rem)
    (b : Nat) (hb : b ∉ a.2) (f : Bank → Bank) (n m cost : Nat) (hn : n ≤ a.1.budget) (hc : a.1.budget ≤ n + cost)
    (hd : ∀ k, (f k).debt = k.debt) (hs : bankStep (st.bank b) (f (st.bank b))) (hr : ∀ q, rem' q → rem q)
    (hq : ∀ q, rem' q → ((f (st.bank b)).burst == some q) = ((st.bank b).burst == some q)) :
    Prog st ({ a.1.onBank b f with budget := n, allowance := m }, b :: a.2) (spent + cost) rem' := by
  have hbank : ∀ c, (({ a.1.onBank b f with budget := n, allowance := m } : Store).bank c)
      = if c = b ∧ b < a.1.banks.length then f (a.1.bank c) else a.1.bank c := fun c => onBank_bank a.1 b c f
  have hbf := h.fresh b hb
  refine ⟨h.queues, h.regions, ?_, ?_, ?_, ?_, ?_, ?_, ?_⟩
  · simp only [Store.onBank, List.length_modify]; exact h.len
  · intro c; dsimp only; rw [hbank]
    split
    · rw [hd]; exact h.debt c
    · exact h.debt c
  · intro c hc'
    dsimp only at hc' ⊢
    simp only [List.mem_cons, not_or] at hc'
    rw [hbank, if_neg (fun k => hc'.1 k.1)]
    exact h.fresh c hc'.2
  · intro c; dsimp only; rw [hbank]
    split
    · rename_i k; rw [k.1, hbf]; exact hs
    · exact h.step c
  · dsimp only; have := h.budget; omega
  · dsimp only; have := h.within; omega
  · intro q hq'
    rw [← h.flight q (hr q hq')]
    show ((a.1.banks.modify b f).any (fun b => b.burst == some q)) = _
    refine any_modify _ _ _ _ ?_
    intro x hx
    have : a.1.bank b = x := by unfold Store.bank; rw [List.getD_eq_getElem?_getD, hx]; rfl
    rw [← this, hbf]
    exact hq q hq'

theorem Prog.keep {st : Store} {a : Arbitration} {spent : Nat} {rem rem' : QueueId → Prop} (h : Prog st a spent rem)
    (cost : Nat) (hr : ∀ q, rem' q → rem q) : Prog st a (spent + cost) rem' :=
  ⟨h.queues, h.regions, h.len, h.debt, h.fresh, h.step, by have := h.budget; omega, h.within, fun q hq => h.flight q (hr q hq)⟩

theorem Prog.flights {st : Store} {a : Arbitration} {spent : Nat} {rem : QueueId → Prop} (h : Prog st a spent rem) :
    ∀ q, a.1.queue q = st.queue q := fun q => by unfold Store.queue; rw [h.queues]

theorem Prog.named {st : Store} {a : Arbitration} {spent : Nat} {rem : QueueId → Prop} (h : Prog st a spent rem) (r : Request) :
    a.1.named r = st.named r := by
  unfold Store.named Store.locate Store.spaceOf Store.rowsOf Store.regionsOf; rw [h.regions]

theorem claim_done (b : Nat) (f : Store → Store × Bool) (a : Arbitration) (h : b ∈ a.2) : claim b f a = a := by
  unfold claim; rw [if_pos (by simpa using h)]

theorem claim_step (b : Nat) (f : Store → Store × Bool) (a : Arbitration) (h : b ∉ a.2) :
    claim b f a = ((f a.1).1, if (f a.1).2 then b :: a.2 else a.2) := by
  unfold claim; rw [if_neg (by simpa using h)]

theorem set_same {st : Store} : ({ st with budget := st.budget, allowance := st.allowance } : Store) = st := rfl

/-! ## Urgent refreshes (R91) -/

/-- A bank OPEN without a burst in flight. -/
def Bank.atRest (k : Bank) : Bool :=
  match k.state, k.burst with
  | .open _, none => true
  | _, _ => false

theorem atRest_iff (k : Bank) : k.atRest = true ↔ (∃ r, k.state = .open r) ∧ k.burst = none := by
  unfold Bank.atRest
  cases k.state <;> cases k.burst <;> simp

theorem urgentStep_eq (st : Store) (b : Nat) : st.urgentStep b =
    if (st.bank b).state = .idle then (if 0 < st.budget then (st.grantRefresh b, true) else (st, false))
    else if (st.bank b).atRest = true then (st.beginClose b, true) else (st, false) := by
  unfold Store.urgentStep Bank.atRest
  cases (st.bank b).state <;> cases (st.bank b).burst <;> simp

/-- What an urgent refresh makes of its bank, with an opening left or not. -/
def urgentOutcome (k : Bank) (left : Prop) [Decidable left] : Bank :=
  if k.state = .idle then (if left then { k with state := .refreshing } else k)
  else if k.atRest = true then { k with state := .closing } else k

theorem urgentClaim (st : Store) (a : Arbitration) (spent : Nat) (h : Prog st a spent (fun _ => True)) (b : Nat) (hb : b ∉ a.2)
    (h8 : b < a.1.banks.length) :
    let a' := claim b (fun st => st.urgentStep b) a
    let cost := if (st.bank b).state = .idle then 1 else 0
    Prog st a' (spent + cost) (fun _ => True)
      ∧ a'.1.budget = a.1.budget - cost ∧ a'.1.allowance = a.1.allowance
      ∧ (∀ c, c ≠ b → a'.1.bank c = a.1.bank c) ∧ (∀ c, c ∈ a'.2 → c ∈ a.2 ∨ c = b)
      ∧ a'.1.bank b = urgentOutcome (st.bank b) (0 < a.1.budget) := by
  have hf := h.fresh b hb
  have other (f : Bank → Bank) (c : Nat) (hc : c ≠ b) : (a.1.onBank b f).bank c = a.1.bank c := by
    rw [onBank_bank, if_neg (fun k => hc k.1)]
  have own (f : Bank → Bank) : (a.1.onBank b f).bank b = f (st.bank b) := by
    rw [onBank_bank, if_pos ⟨rfl, h8⟩, hf]
  have mem (c : Nat) (hc : c ∈ b :: a.2) : c ∈ a.2 ∨ c = b := by
    rcases List.mem_cons.1 hc with hc | hc <;> simp [hc]
  dsimp only
  rw [claim_step b _ a hb, urgentStep_eq, hf]
  unfold urgentOutcome
  by_cases h1 : (st.bank b).state = .idle
  · rw [if_pos h1, if_pos h1, if_pos h1]
    by_cases hz : 0 < a.1.budget
    · rw [if_pos hz, if_pos hz]
      exact ⟨h.take b hb _ (a.1.budget - 1) a.1.allowance 1 (Nat.sub_le _ _) (by omega) (fun _ => rfl)
        (.inr (.inl ⟨h1, .inr rfl⟩)) (fun _ h => h) (fun _ _ => rfl), rfl, rfl, fun c hc => other _ c hc, mem, own _⟩
    · rw [if_neg hz, if_neg hz]
      exact ⟨h.keep 1 (fun _ h => h), by dsimp only; omega, rfl, fun _ _ => rfl, fun c hc => .inl (by simpa using hc), hf⟩
  · rw [if_neg h1, if_neg h1, if_neg h1]
    by_cases h2 : (st.bank b).atRest = true
    · rw [if_pos h2, if_pos h2]
      obtain ⟨h3, h4⟩ := (atRest_iff _).1 h2
      exact ⟨h.take b hb _ a.1.budget a.1.allowance 0 (Nat.le_refl _) (Nat.le_refl _) (fun _ => rfl)
        (.inr (.inr ⟨h3, h4, .inl rfl⟩)) (fun _ h => h) (fun _ _ => rfl), rfl, rfl, fun c hc => other _ c hc, mem, own _⟩
    · rw [if_neg h2, if_neg h2]
      exact ⟨h, rfl, rfl, fun _ _ => rfl, fun c hc => .inl (by simpa using hc), hf⟩

theorem idleIn_cons (st : Store) (b : Nat) (l : List Nat) :
    st.idleIn (b :: l) = (if (st.bank b).state = .idle then 1 else 0) + st.idleIn l := by
  unfold Store.idleIn
  rw [List.filter_cons]
  by_cases h : (st.bank b).state = .idle
  · simp [h]; omega
  · simp [h]

theorem urgentFold (st : Store) : ∀ (l : List Nat) (a : Arbitration) (spent : Nat), Prog st a spent (fun _ => True) → l.Nodup →
    (∀ b, b ∈ l → b ∉ a.2 ∧ b < st.banks.length) →
    let a' := l.foldl (fun a b => claim b (fun st => st.urgentStep b) a) a
    Prog st a' (spent + st.idleIn l) (fun _ => True)
      ∧ a'.1.budget = a.1.budget - st.idleIn l ∧ a'.1.allowance = a.1.allowance
      ∧ (∀ c, c ∉ l → a'.1.bank c = a.1.bank c) ∧ (∀ c, c ∈ a'.2 → c ∈ a.2 ∨ c ∈ l)
      ∧ ∀ l1 b l2, l = l1 ++ b :: l2 → a'.1.bank b = urgentOutcome (st.bank b) (st.idleIn l1 < a.1.budget)
  | [], a, spent, h, _, _ => ⟨h, rfl, rfl, fun _ _ => rfl, fun _ hc => .inl hc, fun l1 b l2 e => by simp at e⟩
  | x :: l, a, spent, h, hn, hl => by
    obtain ⟨nx, hn⟩ := List.nodup_cons.1 hn
    obtain ⟨x1, x2⟩ := hl x (by simp)
    have C := urgentClaim st a spent h x x1 (by rw [h.len]; exact x2)
    dsimp only at C ⊢
    rw [List.foldl_cons]
    generalize claim x (fun st => st.urgentStep x) a = a1 at C ⊢
    obtain ⟨c1, c2, c3, c4, c5, c6⟩ := C
    have I := urgentFold st l a1 _ c1 hn (by
      intro b hb
      refine ⟨?_, (hl b (by simp [hb])).2⟩
      intro hh
      rcases c5 b hh with k | k
      · exact (hl b (by simp [hb])).1 k
      · exact nx (k ▸ hb))
    dsimp only at I
    generalize l.foldl (fun a b => claim b (fun st => st.urgentStep b) a) a1 = a2 at I ⊢
    obtain ⟨i1, i2, i3, i4, i5, i6⟩ := I
    rw [idleIn_cons]
    refine ⟨by rw [← Nat.add_assoc]; exact i1, by rw [i2, c2]; omega, i3.trans c3, ?_, ?_, ?_⟩
    · intro c hc
      simp only [List.mem_cons, not_or] at hc
      rw [i4 c hc.2, c4 c hc.1]
    · intro c hc
      rcases i5 c hc with k | k
      · rcases c5 c k with k | k <;> simp [k]
      · simp [k]
    · intro l1 b l2 e
      cases l1 with
      | nil =>
        simp only [List.nil_append, List.cons.injEq] at e
        obtain ⟨rfl, rfl⟩ := e
        rw [i4 x nx, c6]; rfl
      | cons y l1 =>
        simp only [List.cons_append, List.cons.injEq] at e
        obtain ⟨rfl, e⟩ := e
        rw [i6 l1 b l2 e, c2, idleIn_cons]
        unfold urgentOutcome
        by_cases hz : st.idleIn l1 < a.1.budget - (if (st.bank x).state = .idle then 1 else 0)
        · rw [if_pos hz, if_pos (show (if (st.bank x).state = .idle then 1 else 0) + st.idleIn l1 < a.1.budget by omega)]
        · rw [if_neg hz, if_neg (show ¬(if (st.bank x).state = .idle then 1 else 0) + st.idleIn l1 < a.1.budget by omega)]

/-! ## Heads (Table 5-6) -/

/-- What a head makes of its bank, with an opening left or not. -/
def headOutcome (k : Bank) (q : QueueId) (row : Nat) (left : Prop) [Decidable left] : Bank :=
  if k.state = .idle then (if left then { k with state := .opening row } else k)
  else if k.atRest = true then
    (if k.state = .open row then { k with burst := some q } else if left then { k with state := .closing } else k)
  else k

theorem headStep_eq (st : Store) (q : QueueId) (b row : Nat) : st.headStep q b row =
    if 8 ≤ (st.bank b).debt then (st, false)
    else if (st.bank b).state = .idle then (if 0 < st.budget then (st.grantOpen b row, true) else (st, false))
    else if (st.bank b).atRest = true then
      (if (st.bank b).state = .open row then (st.beginBurst b q, true)
       else if 0 < st.budget then (st.beginClose b, true) else (st, false))
    else (st, false) := by
  unfold Store.headStep Bank.atRest Bank.urgent
  cases (st.bank b).state <;> cases (st.bank b).burst <;> simp

theorem claims_iff (st : Store) (q : QueueId) (b row : Nat) : st.claims q b row ↔
    ∃ r rest word, st.queue q = r :: rest ∧ st.inFlight q = false ∧ st.named r = some (b, row, word) := Iff.rfl

/-- What the claim of a queue's head does. -/
structure HeadClaim (st : Store) (a a' : Arbitration) (spent : Nat) (rem : QueueId → Prop) (q : QueueId) : Prop where
  prog : Prog st a' (spent + if st.wantsOpening q then 1 else 0) (fun p => rem p ∧ p ≠ q)
  allowance : a'.1.allowance = a.1.allowance
  done : ∀ c, c ∈ a.2 → a'.1.bank c = a.1.bank c ∧ c ∈ a'.2
  others : ∀ c, (∀ row, ¬st.claims q c row) → a'.1.bank c = a.1.bank c
  mine : ∀ c, c ∈ a'.2 → c ∈ a.2 ∨ ∃ row, st.claims q c row
  urgent : ∀ c, 8 ≤ (st.bank c).debt → a'.1.bank c = a.1.bank c
  refresh : ∀ c, (a'.1.bank c).state = .refreshing → (a.1.bank c).state = .refreshing
  outcome : ∀ b row, st.claims q b row → b ∉ a.2 → (st.bank b).debt < 8 → b < st.banks.length →
    a'.1.bank b = headOutcome (st.bank b) q row (0 < a.1.budget)
  took : ∀ b row, st.claims q b row → b ∉ a.2 → (st.bank b).debt < 8 →
    headOutcome (st.bank b) q row (0 < a.1.budget) ≠ st.bank b → b ∈ a'.2
  broke : a.1.budget = 0 → a'.1.budget = 0

theorem HeadClaim.none {st : Store} {a : Arbitration} {spent : Nat} {rem : QueueId → Prop} {q : QueueId}
    (h : Prog st a spent rem) (hc : ∀ b row, ¬st.claims q b row) : HeadClaim st a a spent rem q :=
  ⟨h.keep _ (fun _ k => k.1), rfl, fun c k => ⟨rfl, k⟩, fun _ _ => rfl, fun c k => .inl k, fun _ _ => rfl, fun _ k => k,
    fun b row k => absurd k (hc b row), fun b row k => absurd k (hc b row), fun k => k⟩

theorem headClaim (st : Store) (a : Arbitration) (spent : Nat) (rem : QueueId → Prop) (h : Prog st a spent rem) (q : QueueId)
    (hq : rem q) : HeadClaim st a (claimHead q a) spent rem q := by
  have hf := h.flight q hq
  have hqu := h.flights q
  unfold claimHead
  rw [hqu, hf]
  cases hh : st.queue q with
  | nil => exact HeadClaim.none h (fun b row ⟨r, rest, w, e, _⟩ => by rw [hh] at e; simp at e)
  | cons r rest =>
    dsimp only
    by_cases hi : st.inFlight q = true
    · rw [if_pos hi]
      exact HeadClaim.none h (fun b row ⟨r, rest, w, _, e, _⟩ => by rw [hi] at e; simp at e)
    · rw [if_neg hi, h.named]
      cases hn : st.named r with
      | none =>
        exact HeadClaim.none h (fun b row ⟨r', rest', w, e, _, e'⟩ => by
          rw [hh] at e; simp at e; rw [← e.1, hn] at e'; simp at e')
      | some place =>
        obtain ⟨b, row, w⟩ := place
        dsimp only
        have hcl : st.claims q b row := ⟨r, rest, w, hh, by simpa using hi, hn⟩
        have huniq : ∀ b' row', st.claims q b' row' → b' = b ∧ row' = row := by
          rintro b' row' ⟨r', rest', w', e, _, e'⟩
          rw [hh] at e; simp at e; rw [← e.1, hn] at e'; simp at e'; exact ⟨e'.1.symm, e'.2.1.symm⟩
        have hw : st.wantsOpening q = decide ((st.bank b).state = .idle ∧ (st.bank b).debt < 8) := by
          unfold Store.wantsOpening; rw [hh]; simp [hi, hn]
        by_cases hb : b ∈ a.2
        · rw [claim_done b _ a hb]
          exact ⟨h.keep _ (fun _ k => k.1), rfl, fun c k => ⟨rfl, k⟩, fun _ _ => rfl, fun c k => .inl k, fun _ _ => rfl,
            fun _ k => k, fun b' row' k k' => absurd hb ((huniq b' row' k).1 ▸ k'),
            fun b' row' k k' => absurd hb ((huniq b' row' k).1 ▸ k'), fun k => k⟩
        · have hbf := h.fresh b hb
          have other (f : Bank → Bank) (c : Nat) (hc : c ≠ b) : (a.1.onBank b f).bank c = a.1.bank c := by
            rw [onBank_bank, if_neg (fun k => hc k.1)]
          have own (f : Bank → Bank) (hl : b < st.banks.length) : (a.1.onBank b f).bank b = f (st.bank b) := by
            rw [onBank_bank, if_pos ⟨rfl, by rw [h.len]; exact hl⟩, hbf]
          have mem (c : Nat) (hc : c ∈ b :: a.2) : c ∈ a.2 ∨ ∃ row, st.claims q c row := by
            rcases List.mem_cons.1 hc with hc | hc
            · exact .inr ⟨row, hc ▸ hcl⟩
            · exact .inl hc
          have ne (c : Nat) (hc : ∀ row, ¬st.claims q c row) : c ≠ b := fun e => hc row (e ▸ hcl)
          have noRefresh (f : Bank → Bank) (hr : (f (st.bank b)).state ≠ .refreshing) (c : Nat)
              (k : ((a.1.onBank b f).bank c).state = .refreshing) : (a.1.bank c).state = .refreshing := by
            rw [onBank_bank] at k
            split at k
            · rename_i e; rw [e.1, hbf] at k; exact absurd k hr
            · exact k
          rw [claim_step b _ a hb, headStep_eq, hbf]
          by_cases hd : 8 ≤ (st.bank b).debt
          · rw [if_pos hd]
            exact ⟨h.keep _ (fun _ k => k.1), rfl, fun c k => ⟨rfl, k⟩, fun _ _ => rfl, fun c k => .inl (by simpa using k),
              fun _ _ => rfl, fun _ k => k, fun b' row' k _ k' => absurd k' (by rw [(huniq b' row' k).1]; omega),
              fun b' row' k _ k' => absurd k' (by rw [(huniq b' row' k).1]; omega), fun k => k⟩
          · have hurg (c : Nat) (k : 8 ≤ (st.bank c).debt) : c ≠ b := fun e => hd (e ▸ k)
            -- the step taken, with what it makes of the bank
            have taken (f : Bank → Bank) (n cost : Nat) (hn : n ≤ a.1.budget) (hc : a.1.budget ≤ n + cost)
                (hd' : ∀ k, (f k).debt = k.debt) (hs : bankStep (st.bank b) (f (st.bank b)))
                (hr : (f (st.bank b)).state ≠ .refreshing)
                (hfl : ∀ p, p ≠ q → ((f (st.bank b)).burst == some p) = ((st.bank b).burst == some p))
                (hcost : cost ≤ if st.wantsOpening q then 1 else 0)
                (ho : headOutcome (st.bank b) q row (0 < a.1.budget) = f (st.bank b)) :
                HeadClaim st a ({ a.1.onBank b f with budget := n, allowance := a.1.allowance }, b :: a.2) spent rem q := by
              refine ⟨?_, rfl, ?_, fun c k => other f c (ne c k), mem, fun c k => other f c (hurg c k), noRefresh f hr, ?_, ?_, ?_⟩
              · have P := (h.take b hb f n a.1.allowance cost hn hc hd' hs (rem' := fun p => rem p ∧ p ≠ q) (fun _ k => k.1)
                  (fun p k => hfl p k.2)).keep ((if st.wantsOpening q then 1 else 0) - cost) (rem' := fun p => rem p ∧ p ≠ q)
                  (fun _ k => k)
                rw [Nat.add_assoc, Nat.add_sub_cancel' hcost] at P
                exact P
              · intro c k
                exact ⟨other f c (fun e => hb (e ▸ k)), by simp [k]⟩
              · intro b' row' k _ _ hl
                obtain ⟨rfl, rfl⟩ := huniq b' row' k
                rw [ho]; exact own f hl
              · intro b' row' k _ _ _
                rw [(huniq b' row' k).1]; simp
              · intro k; dsimp only; omega
            -- no step taken
            have idle (ho : headOutcome (st.bank b) q row (0 < a.1.budget) = st.bank b) :
                HeadClaim st a (a.1, a.2) spent rem q :=
              ⟨h.keep _ (fun _ k => k.1), rfl, fun c k => ⟨rfl, k⟩, fun _ _ => rfl, fun c k => .inl k, fun _ _ => rfl,
                fun _ k => k, fun b' row' k _ _ _ => by obtain ⟨rfl, rfl⟩ := huniq b' row' k; rw [ho]; exact hbf,
                fun b' row' k _ _ k' => absurd (by obtain ⟨rfl, rfl⟩ := huniq b' row' k; exact ho) k', fun k => k⟩
            rw [if_neg hd]
            by_cases h1 : (st.bank b).state = .idle
            · rw [if_pos h1]
              have hw1 : st.wantsOpening q = true := by rw [hw]; simp [h1]; omega
              by_cases hz : 0 < a.1.budget
              · rw [if_pos hz]
                exact taken (fun k => { k with state := .opening row }) (a.1.budget - 1) 1 (Nat.sub_le _ _) (by omega)
                  (fun _ => rfl) (.inr (.inl ⟨h1, .inl ⟨row, rfl⟩⟩)) (by simp) (fun _ _ => rfl) (by rw [hw1]; simp)
                  (by unfold headOutcome; rw [if_pos h1, if_pos hz])
              · rw [if_neg hz]
                exact idle (by unfold headOutcome; rw [if_pos h1, if_neg hz])
            · rw [if_neg h1]
              by_cases h2 : (st.bank b).atRest = true
              · rw [if_pos h2]
                obtain ⟨h3, h4⟩ := (atRest_iff _).1 h2
                by_cases h5 : (st.bank b).state = .open row
                · rw [if_pos h5]
                  exact taken (fun k => { k with burst := some q }) a.1.budget 0 (Nat.le_refl _) (Nat.le_refl _)
                    (fun _ => rfl) (.inr (.inr ⟨h3, h4, .inr ⟨q, rfl⟩⟩)) (by rw [h5]; simp)
                    (fun p k => by rw [h4]; dsimp only; simp [Ne.symm k]) (Nat.zero_le _)
                    (by unfold headOutcome; rw [if_neg h1, if_pos h2, if_pos h5])
                · rw [if_neg h5]
                  by_cases hz : 0 < a.1.budget
                  · rw [if_pos hz]
                    exact taken (fun k => { k with state := .closing }) a.1.budget 0 (Nat.le_refl _) (Nat.le_refl _)
                      (fun _ => rfl) (.inr (.inr ⟨h3, h4, .inl rfl⟩)) (by simp) (fun _ _ => rfl) (Nat.zero_le _)
                      (by unfold headOutcome; rw [if_neg h1, if_pos h2, if_neg h5, if_pos hz])
                  · rw [if_neg hz]
                    exact idle (by unfold headOutcome; rw [if_neg h1, if_pos h2, if_neg h5, if_neg hz])
              · rw [if_neg h2]
                exact idle (by unfold headOutcome; rw [if_neg h1, if_neg h2])

/-- With the budget spent, a head that claims another row of an open bank leaves the bank without a step (R88). -/
theorem claimHead_otherRow (st : Store) (a : Arbitration) (spent : Nat) (rem : QueueId → Prop) (h : Prog st a spent rem) (q : QueueId)
    (hq : rem q) (hz : a.1.budget = 0) (b r : Nat) (hb : (st.bank b).state = .open r)
    (hc : ∀ other, st.claims q b other → other ≠ r) (hm : b ∈ (claimHead q a).2) : b ∈ a.2 := by
  unfold claimHead at hm
  rw [h.flights q, h.flight q hq] at hm
  cases hh : st.queue q with
  | nil => rw [hh] at hm; exact hm
  | cons r' rest =>
    rw [hh] at hm
    dsimp only at hm
    by_cases hi : st.inFlight q = true
    · rw [if_pos hi] at hm; exact hm
    · rw [if_neg hi, h.named] at hm
      cases hn : st.named r' with
      | none => rw [hn] at hm; exact hm
      | some place =>
        obtain ⟨x, row, w⟩ := place
        rw [hn] at hm
        dsimp only at hm
        have hcl : st.claims q x row := ⟨r', rest, w, hh, by simpa using hi, hn⟩
        by_cases hx : x ∈ a.2
        · rw [claim_done x _ a hx] at hm; exact hm
        · rw [claim_step x _ a hx] at hm
          by_cases hxb : b = x
          · subst hxb
            have hr : r ≠ row := fun e => hc row hcl e.symm
            rw [headStep_eq, h.fresh b hx] at hm
            by_cases hd : 8 ≤ (st.bank b).debt
            · rw [if_pos hd] at hm; exact hm
            · rw [if_neg hd, if_neg (by rw [hb]; simp)] at hm
              by_cases hat : (st.bank b).atRest = true
              · rw [if_pos hat, if_neg (by rw [hb]; simpa using hr), if_neg (by omega)] at hm; exact hm
              · rw [if_neg hat] at hm; exact hm
          · dsimp only at hm
            split at hm
            · rcases List.mem_cons.1 hm with k | k
              · exact absurd k hxb
              · exact k
            · exact hm

/-- How many of the heads of a list of queues take an opening in their next step. -/
def Store.opens (st : Store) (l : List QueueId) : Nat := (l.filter st.wantsOpening).length

theorem opens_cons (st : Store) (q : QueueId) (l : List QueueId) :
    st.opens (q :: l) = (if st.wantsOpening q then 1 else 0) + st.opens l := by
  unfold Store.opens
  rw [List.filter_cons]
  split
  · simp; omega
  · simp

/-- What the claims of the heads of a list of queues do. -/
structure HeadClaims (st : Store) (a a' : Arbitration) (spent : Nat) (rem : QueueId → Prop) (l : List QueueId) : Prop where
  prog : Prog st a' (spent + st.opens l) (fun p => rem p ∧ p ∉ l)
  allowance : a'.1.allowance = a.1.allowance
  done : ∀ c, c ∈ a.2 → a'.1.bank c = a.1.bank c ∧ c ∈ a'.2
  others : ∀ c, (∀ q, q ∈ l → ∀ row, ¬st.claims q c row) → a'.1.bank c = a.1.bank c ∧ (c ∈ a'.2 → c ∈ a.2)
  urgent : ∀ c, 8 ≤ (st.bank c).debt → a'.1.bank c = a.1.bank c
  refresh : ∀ c, (a'.1.bank c).state = .refreshing → (a.1.bank c).state = .refreshing
  broke : a.1.budget = 0 → a'.1.budget = 0
  miss : a.1.budget = 0 → ∀ b r, (st.bank b).state = .open r → (∀ q, q ∈ l → ∀ other, st.claims q b other → other ≠ r) →
    b ∈ a'.2 → b ∈ a.2
  outcome : ∀ l1 q l2, l = l1 ++ q :: l2 → ∀ b row, st.claims q b row → b ∉ a.2 → (st.bank b).debt < 8 → b < st.banks.length →
    (∀ p, p ∈ l1 → ∀ other, ¬st.claims p b other) →
    (spent + st.opens l1 < st.budget → headOutcome (st.bank b) q row True ≠ st.bank b →
      a'.1.bank b = headOutcome (st.bank b) q row True)
    ∧ ((st.bank b).state = .open row → (st.bank b).burst = none → a'.1.bank b = { st.bank b with burst := some q })
  hit : a.1.budget = 0 → ∀ l1 q l2, l = l1 ++ q :: l2 → ∀ b row, st.claims q b row → b ∉ a.2 → (st.bank b).debt < 8 →
    b < st.banks.length → (∀ p, p ∈ l1 → ∀ other, st.claims p b other → other ≠ row) →
    (st.bank b).state = .open row → (st.bank b).burst = none → a'.1.bank b = { st.bank b with burst := some q }

theorem headOutcome_row (k : Bank) (q : QueueId) (row : Nat) (left : Prop) [Decidable left] (h : k.state = .open row)
    (hb : k.burst = none) : headOutcome k q row left = { k with burst := some q } := by
  unfold headOutcome
  rw [if_neg (by rw [h]; simp), if_pos ((atRest_iff k).2 ⟨⟨row, h⟩, hb⟩), if_pos h]

theorem headOutcome_left (k : Bank) (q : QueueId) (row : Nat) (left : Prop) [Decidable left] (h : left) :
    headOutcome k q row left = headOutcome k q row True := by
  unfold headOutcome
  simp only [if_pos h, if_true]

theorem headClaims (st : Store) : ∀ (l : List QueueId) (a : Arbitration) (spent : Nat) (rem : QueueId → Prop),
    Prog st a spent rem → l.Nodup → (∀ q, q ∈ l → rem q) →
    HeadClaims st a (l.foldl (fun a q => claimHead q a) a) spent rem l
  | [], a, spent, rem, h, _, _ =>
    ⟨h.keep 0 (fun _ k => k.1), rfl, fun c k => ⟨rfl, k⟩, fun _ _ => ⟨rfl, fun k => k⟩, fun _ _ => rfl, fun _ k => k,
      fun k => k, fun _ _ _ _ _ k => k, fun l1 q l2 e => by simp at e, fun _ l1 q l2 e => by simp at e⟩
  | x :: l, a, spent, rem, h, hn, hr => by
    obtain ⟨nx, hn⟩ := List.nodup_cons.1 hn
    rw [List.foldl_cons]
    have hx := hr x (by simp)
    have M := claimHead_otherRow st a spent rem h x hx
    have C := headClaim st a spent rem h x hx
    generalize claimHead x a = a1 at C M ⊢
    have I := headClaims st l a1 _ _ C.prog hn (fun q k => ⟨hr q (by simp [k]), fun e => nx (e ▸ k)⟩)
    generalize l.foldl (fun a q => claimHead q a) a1 = a2 at I ⊢
    have free (b : Nat) (hb : b ∉ a.2) (hc : ∀ row, ¬st.claims x b row) : b ∉ a1.2 := fun k =>
      (C.mine b k).elim hb (fun ⟨row, k⟩ => hc row k)
    refine ⟨?_, I.allowance.trans C.allowance, ?_, ?_, ?_, fun c k => C.refresh c (I.refresh c k), fun k => I.broke (C.broke k), ?_, ?_, ?_⟩
    · rw [opens_cons, ← Nat.add_assoc]
      have P := I.prog.keep 0 (rem' := fun p => rem p ∧ p ∉ x :: l) (fun p k => by
        simp only [List.mem_cons, not_or] at k
        exact ⟨⟨k.1, k.2.1⟩, k.2.2⟩)
      exact P
    · intro c k
      obtain ⟨c1, c2⟩ := C.done c k
      obtain ⟨i1, i2⟩ := I.done c c2
      exact ⟨i1.trans c1, i2⟩
    · intro c k
      obtain ⟨i1, i2⟩ := I.others c (fun q m => k q (by simp [m]))
      exact ⟨i1.trans (C.others c (k x (by simp))), fun m => (C.mine c (i2 m)).elim id (fun ⟨row, e⟩ => absurd e (k x (by simp) row))⟩
    · intro c k
      exact (I.urgent c k).trans (C.urgent c k)
    · intro hz b r hb hc m
      exact M hz b r hb (hc x (by simp)) (I.miss (C.broke hz) b r hb (fun q m => hc q (by simp [m])) m)
    · intro l1 q l2 e b row hc hb hd hl hp
      cases l1 with
      | nil =>
        simp only [List.nil_append, List.cons.injEq] at e
        obtain ⟨rfl, rfl⟩ := e
        have o := C.outcome b row hc hb hd hl
        constructor
        · intro hs hne
          have hz : 0 < a.1.budget := by have := h.budget; simp [Store.opens] at hs; omega
          rw [headOutcome_left _ _ _ _ hz] at o
          have t := C.took b row hc hb hd (by rw [headOutcome_left _ _ _ _ hz]; exact hne)
          exact (I.done b t).1.trans o
        · intro h1 h2
          have e := headOutcome_row (st.bank b) x row (0 < a.1.budget) h1 h2
          rw [e] at o
          have t := C.took b row hc hb hd (by rw [e]; intro k; have := congrArg Bank.burst k; rw [h2] at this; simp at this)
          exact (I.done b t).1.trans o
      | cons y l1 =>
        simp only [List.cons_append, List.cons.injEq] at e
        obtain ⟨rfl, e⟩ := e
        have r := I.outcome l1 q l2 e b row hc (free b hb (hp x (by simp))) hd hl (fun p m => hp p (by simp [m]))
        refine ⟨fun hs => r.1 ?_, r.2⟩
        rw [opens_cons] at hs; omega
    · intro hz l1 q l2 e b row hc hb hd hl hp h1 h2
      cases l1 with
      | nil =>
        simp only [List.nil_append, List.cons.injEq] at e
        obtain ⟨rfl, rfl⟩ := e
        have o := C.outcome b row hc hb hd hl
        have e := headOutcome_row (st.bank b) x row (0 < a.1.budget) h1 h2
        rw [e] at o
        have t := C.took b row hc hb hd (by rw [e]; intro k; have := congrArg Bank.burst k; rw [h2] at this; simp at this)
        exact (I.done b t).1.trans o
      | cons y l1 =>
        simp only [List.cons_append, List.cons.injEq] at e
        obtain ⟨rfl, e⟩ := e
        exact I.hit (C.broke hz) l1 q l2 e b row hc (fun m => hb (M hz b row h1 (hp x (by simp)) m)) hd hl
          (fun p m => hp p (by simp [m])) h1 h2

/-! ## Ordinary refreshes (R90) -/

/-- What the ordinary refreshes of a list of banks do. -/
structure Ordinary (st : Store) (a a' : Arbitration) (spent : Nat) (rem : QueueId → Prop) (l : List Nat) : Prop where
  prog : Prog st a' (spent + st.idleIn l) rem
  done : ∀ c, c ∈ a.2 → a'.1.bank c = a.1.bank c ∧ c ∈ a'.2
  others : ∀ c, c ∉ l ∨ (st.bank c).state ≠ .idle → a'.1.bank c = a.1.bank c ∧ (c ∈ a'.2 → c ∈ a.2)
  cost : a.1.budget ≤ a'.1.budget + min a.1.allowance (st.idleIn l) ∧ a'.1.budget ≤ a.1.budget
    ∧ a.1.allowance ≤ a'.1.allowance + (a.1.budget - a'.1.budget)
  spentOut : a.1.allowance = 0 ∨ a.1.budget = 0 → a'.1 = a.1
  outcome : ∀ l1 b l2, l = l1 ++ b :: l2 → b ∉ a.2 → (st.bank b).state = .idle → st.idleIn l1 < a.1.budget →
    st.idleIn l1 < a.1.allowance → b < st.banks.length → a'.1.bank b = { st.bank b with state := .refreshing } ∧ b ∈ a'.2

theorem ordinaryFold (st : Store) (rem : QueueId → Prop) : ∀ (l : List Nat) (a : Arbitration) (spent : Nat),
    Prog st a spent rem → l.Nodup →
    Ordinary st a (l.foldl (fun a b => claim b (fun st => st.ordinaryStep b) a) a) spent rem l
  | [], a, spent, h, _ =>
    ⟨h, fun c k => ⟨rfl, k⟩, fun c _ => ⟨rfl, fun k => k⟩, ⟨Nat.le_add_right _ _, Nat.le_refl _, Nat.le_add_right _ _⟩,
      fun _ => rfl, fun l1 b l2 e => by simp at e⟩
  | x :: l, a, spent, h, hn => by
    obtain ⟨nx, hn⟩ := List.nodup_cons.1 hn
    rw [List.foldl_cons]
    by_cases hg : x ∉ a.2 ∧ (st.bank x).state = .idle ∧ 0 < a.1.budget ∧ 0 < a.1.allowance
    · obtain ⟨g1, g2, g3, g4⟩ := hg
      have hxf := h.fresh x g1
      have ec : claim x (fun st => st.ordinaryStep x) a = ({ a.1.onBank x (fun k => { k with state := .refreshing }) with
          budget := a.1.budget - 1, allowance := a.1.allowance - 1 }, x :: a.2) := by
        rw [claim_step x _ a g1]
        unfold Store.ordinaryStep
        rw [hxf, if_pos ⟨g2, g3, g4⟩]; rfl
      rw [ec]
      have P := h.take x g1 (fun k => { k with state := .refreshing }) (a.1.budget - 1) (a.1.allowance - 1) 1
        (Nat.sub_le _ _) (by omega) (fun _ => rfl) (.inr (.inl ⟨g2, .inr rfl⟩)) (rem' := rem) (fun _ k => k) (fun _ _ => rfl)
      have other (c : Nat) (hc : c ≠ x) : (({ a.1.onBank x (fun k => { k with state := .refreshing }) with
          budget := a.1.budget - 1, allowance := a.1.allowance - 1 } : Store)).bank c = a.1.bank c := by
        show (a.1.onBank x _).bank c = _
        rw [onBank_bank, if_neg (fun k => hc k.1)]
      have own (hl : x < st.banks.length) : (({ a.1.onBank x (fun k => { k with state := .refreshing }) with
          budget := a.1.budget - 1, allowance := a.1.allowance - 1 } : Store)).bank x = { st.bank x with state := .refreshing } := by
        show (a.1.onBank x _).bank x = _
        rw [onBank_bank, if_pos ⟨rfl, by rw [h.len]; exact hl⟩, hxf]
      have I := ordinaryFold st rem l _ _ P hn
      generalize l.foldl (fun a b => claim b (fun st => st.ordinaryStep b) a) _ = a2 at I ⊢
      obtain ⟨i1, i2, i3, ⟨i4, i4', i4''⟩, i5, i6⟩ := I
      dsimp only at i2 i3 i4 i4' i4'' i5 i6
      have hid : st.idleIn (x :: l) = 1 + st.idleIn l := by rw [idleIn_cons, if_pos g2]
      refine ⟨by rw [hid, ← Nat.add_assoc]; exact i1, ?_, ?_, ?_, fun k => by omega, ?_⟩
      · intro c k
        have hc : c ≠ x := fun e => g1 (e ▸ k)
        exact ⟨((i2 c (by simp [k])).1).trans (other c hc), (i2 c (by simp [k])).2⟩
      · intro c k
        have hc : c ≠ x := by
          rintro rfl
          rcases k with k | k
          · simp at k
          · exact k g2
        obtain ⟨j1, j2⟩ := i3 c (k.imp (fun k m => k (by simp [m])) id)
        refine ⟨j1.trans (other c hc), fun m => ?_⟩
        have := j2 m
        simp at this
        exact this.resolve_left hc
      · rw [hid]; omega
      · intro l1 b l2 e hb h1 h2 h3 hl
        cases l1 with
        | nil =>
          simp only [List.nil_append, List.cons.injEq] at e
          obtain ⟨rfl, rfl⟩ := e
          obtain ⟨j1, j2⟩ := i2 x (by simp)
          exact ⟨j1.trans (own hl), j2⟩
        | cons y l1 =>
          simp only [List.cons_append, List.cons.injEq] at e
          obtain ⟨rfl, e⟩ := e
          rw [idleIn_cons, if_pos g2] at h2 h3
          have hbx : b ≠ x := fun k => nx (by rw [e, k]; simp)
          exact i6 l1 b l2 e (by simp [hbx, hb]) h1 (by omega) (by omega) hl
    · have ec : claim x (fun st => st.ordinaryStep x) a = a := by
        by_cases g1 : x ∈ a.2
        · exact claim_done x _ a g1
        · rw [claim_step x _ a g1]
          unfold Store.ordinaryStep
          rw [h.fresh x g1, if_neg (fun k => hg ⟨g1, k⟩)]; rfl
      rw [ec]
      have I := ordinaryFold st rem l a spent h hn
      generalize l.foldl (fun a b => claim b (fun st => st.ordinaryStep b) a) a = a2 at I ⊢
      obtain ⟨i1, i2, i3, ⟨i4, i4', i4''⟩, i5, i6⟩ := I
      have hid : st.idleIn l ≤ st.idleIn (x :: l) := by rw [idleIn_cons]; omega
      refine ⟨?_, i2, ?_, ⟨by omega, i4', i4''⟩, i5, ?_⟩
      · have P := i1.keep (st.idleIn (x :: l) - st.idleIn l) (rem' := rem) (fun _ k => k)
        rw [Nat.add_assoc, Nat.add_sub_cancel' hid] at P
        exact P
      · intro c k
        exact i3 c (k.imp (fun k m => k (by simp [m])) id)
      · intro l1 b l2 e hb h1 h2 h3 hl
        cases l1 with
        | nil =>
          simp only [List.nil_append, List.cons.injEq] at e
          obtain ⟨rfl, rfl⟩ := e
          exact absurd ⟨hb, h1, by omega, by omega⟩ hg
        | cons y l1 =>
          simp only [List.cons_append, List.cons.injEq] at e
          obtain ⟨rfl, e⟩ := e
          rw [idleIn_cons] at h2 h3
          exact i6 l1 b l2 e hb h1 (by omega) (by omega) hl

end Sys2Proof.Machine
end

