-- ==== Sys2Proof/Laws/BindingsSized.lean ====
section
/-! SUPPORT. Every operation keeps the sizes of the bindings. -/

namespace Sys2Proof.Machine

set_option maxRecDepth 20000
set_option linter.unusedSimpArgs false
set_option linter.unusedVariables false

@[simp] theorem State.emptyBindings_bindingsSized (s : State)
    (h : BindingsSized s.line.bindings) : BindingsSized (State.emptyBindings s).line.bindings := by
  unfold State.emptyBindings; simp; exact BindingsSized_map _ _ (by simp [h.len])
@[simp] theorem State.changeTables_bindingsSized (s : State) (changed : LineTables) (cause : Cause) (callCause : Nat → Cause)
    (h : BindingsSized s.line.bindings) :
    BindingsSized (State.changeTables s changed cause callCause).line.bindings := by
  unfold State.changeTables; dsimp only; split <;> simp [h]
@[simp] theorem State.dropTables_bindingsSized (s : State)
    (h : BindingsSized s.line.bindings) : BindingsSized (State.dropTables s).line.bindings := by
  unfold State.dropTables; (try dsimp only); (repeat' split) <;>
    first | (simp (maxDischargeDepth := 12) +contextual [h]; done) | (simp_all (maxDischargeDepth := 12); done)
@[simp] theorem State.goTo_bindingsSized (s : State) (new : StationState) (cause : Cause)
    (h : BindingsSized s.line.bindings) : BindingsSized (State.goTo s new cause).line.bindings := by
  unfold State.goTo; (try dsimp only); (repeat' split) <;>
    first | (simp (maxDischargeDepth := 12) +contextual [h]; done) | (simp_all (maxDischargeDepth := 12); done)
@[simp] theorem State.removeStation_bindingsSized (s : State) (n : Nat) (cause : Cause)
    (h : BindingsSized s.line.bindings) : BindingsSized (State.removeStation s n cause).line.bindings := by
  unfold State.removeStation; (try dsimp only); (repeat' split) <;>
    first | (simp (maxDischargeDepth := 12) +contextual [h]; done) | (simp_all (maxDischargeDepth := 12); done)
@[simp] theorem State.ownRemoved_bindingsSized (s : State)
    (h : BindingsSized s.line.bindings) : BindingsSized (State.ownRemoved s).line.bindings := by
  unfold State.ownRemoved; (try dsimp only); (repeat' split) <;>
    first | (simp (maxDischargeDepth := 12) +contextual [h]; done) | (simp_all (maxDischargeDepth := 12); done)
@[simp] theorem State.judgePresence_bindingsSized (s : State) (sender : Nat) (roles : Byte) (zones privateZones : ZoneSet) (owned : SlotSet) (d : Descriptor)
    (h : BindingsSized s.line.bindings) :
    BindingsSized (State.judgePresence s sender roles zones privateZones owned d).1.line.bindings := by
  unfold State.judgePresence; (try dsimp only); (repeat' split) <;>
    first | (simp (maxDischargeDepth := 12) +contextual [h]; done) | (simp_all (maxDischargeDepth := 12); done)
@[simp] theorem State.judgeLeave_bindingsSized (s : State) (sender : Nat)
    (h : BindingsSized s.line.bindings) : BindingsSized (State.judgeLeave s sender).1.line.bindings := by
  unfold State.judgeLeave; (try dsimp only); (repeat' split) <;>
    first | (simp (maxDischargeDepth := 12) +contextual [h]; done) | (simp_all (maxDischargeDepth := 12); done)
@[simp] theorem State.judgeStream_bindingsSized (s : State) (sender : Nat) (kind : Cause) (verdict : LineTables → LineTables × Cause)
    (h : BindingsSized s.line.bindings) :
    BindingsSized (State.judgeStream s sender kind verdict).1.line.bindings := by
  unfold State.judgeStream; (try dsimp only); (repeat' split) <;>
    first | (simp (maxDischargeDepth := 12) +contextual [h]; done) | (simp_all (maxDischargeDepth := 12); done)
@[simp] theorem State.judgeCallMessage_bindingsSized (s : State) (sender j action : Nat) (f : CallFields)
    (h : BindingsSized s.line.bindings) :
    BindingsSized (State.judgeCallMessage s sender j action f).1.line.bindings := by
  unfold State.judgeCallMessage; (try dsimp only); (repeat' split) <;>
    first | (simp (maxDischargeDepth := 12) +contextual [h]; done) | (simp_all (maxDischargeDepth := 12); done)
@[simp] theorem State.judge_bindingsSized (s : State) (sender : Nat) (m : Message)
    (h : BindingsSized s.line.bindings) : BindingsSized (State.judge s sender m).1.line.bindings := by
  unfold State.judge; cases m <;> dsimp only <;> (try split) <;>
    first | with_reducible exact h | (simp [h]; done) | (simp_all; done)
@[simp] theorem State.placeBinding_bindingsSized (s : State) (before : LineTables) (e : QueueEntry)
    (h : BindingsSized s.line.bindings) : BindingsSized (State.placeBinding s before e).line.bindings := by
  unfold State.placeBinding; (try dsimp only); (repeat' split) <;>
    first | (simp (maxDischargeDepth := 12) +contextual [h]; done) | (simp_all (maxDischargeDepth := 12); done)
@[simp] theorem State.concludeOwn_bindingsSized (s : State) (before : LineTables) (sent : Sent) (verdict : Cause)
    (h : BindingsSized s.line.bindings) :
    BindingsSized (State.concludeOwn s before sent verdict).line.bindings := by
  unfold State.concludeOwn; (try dsimp only); (repeat' split) <;>
    first | (simp (maxDischargeDepth := 12) +contextual [h]; done) | (simp_all (maxDischargeDepth := 12); done)
@[simp] theorem State.moveByMessage_bindingsSized (s : State) (own : Bool) (sender : Nat) (m : Message) (verdict : Cause)
    (h : BindingsSized s.line.bindings) :
    BindingsSized (State.moveByMessage s own sender m verdict).line.bindings := by
  unfold State.moveByMessage; cases m <;> dsimp only <;> (repeat' split) <;>
    first | with_reducible exact h | with_reducible exact State.goTo_bindingsSized _ _ _ h | with_reducible exact State.ownRemoved_bindingsSized _ h
@[simp] theorem State.takeEffect_bindingsSized (s : State) (sender : Nat) (m : Message)
    (h : BindingsSized s.line.bindings) : BindingsSized (State.takeEffect s sender m).line.bindings := by
  unfold State.takeEffect; (try dsimp only); (repeat' split) <;>
    first | (simp (maxDischargeDepth := 12) +contextual [h]; done) | (simp_all (maxDischargeDepth := 12); done)
@[simp] theorem State.start_bindingsSized (s : State) (emitted inWindow : Bool)
    (h : BindingsSized s.line.bindings) : BindingsSized (State.start s emitted inWindow).line.bindings := by
  unfold State.start; (try dsimp only); (repeat' split) <;>
    first | (simp (maxDischargeDepth := 12) +contextual [h]; done) | (simp_all (maxDischargeDepth := 12); done)
@[simp] theorem State.leadStart_bindingsSized (s : State)
    (h : BindingsSized s.line.bindings) : BindingsSized (State.leadStart s).line.bindings := by
  unfold State.leadStart; (try dsimp only); (repeat' split) <;>
    first | (simp (maxDischargeDepth := 12) +contextual [h]; done) | (simp_all (maxDischargeDepth := 12); done)
@[simp] theorem State.expireTimer_bindingsSized (s : State)
    (h : BindingsSized s.line.bindings) : BindingsSized (State.expireTimer s).line.bindings := by
  unfold State.expireTimer; (try dsimp only); (repeat' split) <;>
    first | (simp (maxDischargeDepth := 12) +contextual [h]; done) | (simp_all (maxDischargeDepth := 12); done)
@[simp] theorem State.keepUpStart_bindingsSized (s : State)
    (h : BindingsSized s.line.bindings) : BindingsSized (State.keepUpStart s).line.bindings := by
  unfold State.keepUpStart; (try dsimp only); (repeat' split) <;>
    first | (simp (maxDischargeDepth := 12) +contextual [h]; done) | (simp_all (maxDischargeDepth := 12); done)
@[simp] theorem State.joinVetoed_bindingsSized (s : State) (e : QueueEntry)
    (h : BindingsSized s.line.bindings) : BindingsSized (State.joinVetoed s e).line.bindings := by
  unfold State.joinVetoed; (try dsimp only); (repeat' split) <;>
    first | (simp (maxDischargeDepth := 12) +contextual [h]; done) | (simp_all (maxDischargeDepth := 12); done)
@[simp] theorem State.abandon_bindingsSized (s : State) (e : QueueEntry)
    (h : BindingsSized s.line.bindings) : BindingsSized (State.abandon s e).line.bindings := by
  unfold State.abandon; (try dsimp only); (repeat' split) <;>
    first | (simp (maxDischargeDepth := 12) +contextual [h]; done) | (simp_all (maxDischargeDepth := 12); done)
@[simp] theorem State.ownVetoed_bindingsSized (s : State)
    (h : BindingsSized s.line.bindings) : BindingsSized (State.ownVetoed s).line.bindings := by
  unfold State.ownVetoed; (try dsimp only); (repeat' split) <;>
    first | (simp (maxDischargeDepth := 12) +contextual [h]; done) | (simp_all (maxDischargeDepth := 12); done)
@[simp] theorem State.tail_bindingsSized (s : State) (message : Option (Nat × Message)) (veto : Bool)
    (h : BindingsSized s.line.bindings) : BindingsSized (State.tail s message veto).line.bindings := by
  unfold State.tail; (try dsimp only); (repeat' split) <;>
    first | (simp (maxDischargeDepth := 12) +contextual [h]; done) | (simp_all (maxDischargeDepth := 12); done)
@[simp] theorem State.tailEnd_bindingsSized (s : State) (veto : Bool)
    (h : BindingsSized s.line.bindings) : BindingsSized (State.tailEnd s veto).line.bindings := by
  unfold State.tailEnd; (try dsimp only); (repeat' split) <;>
    first | (simp (maxDischargeDepth := 12) +contextual [h]; done) | (simp_all (maxDischargeDepth := 12); done)
@[simp] theorem State.messageEffect_bindingsSized (s : State) (sender : Nat) (m : Message)
    (h : BindingsSized s.line.bindings) : BindingsSized (State.messageEffect s sender m).line.bindings := by
  unfold State.messageEffect; (try dsimp only); (repeat' split) <;>
    first | (simp (maxDischargeDepth := 12) +contextual [h]; done) | (simp_all (maxDischargeDepth := 12); done)
@[simp] theorem State.selfVetoDue_bindingsSized (s : State)
    (h : BindingsSized s.line.bindings) : BindingsSized (State.selfVetoDue s).line.bindings := by
  unfold State.selfVetoDue; (try dsimp only); (repeat' split) <;>
    first | (simp (maxDischargeDepth := 12) +contextual [h]; done) | (simp_all (maxDischargeDepth := 12); done)
@[simp] theorem State.listenEnd_bindingsSized (s : State)
    (h : BindingsSized s.line.bindings) : BindingsSized (State.listenEnd s).line.bindings := by
  unfold State.listenEnd; (try dsimp only); (repeat' split) <;>
    first | (simp (maxDischargeDepth := 12) +contextual [h]; done) | (simp_all (maxDischargeDepth := 12); done)
@[simp] theorem State.agedOut_bindingsSized (s : State) (n : Nat)
    (h : BindingsSized s.line.bindings) : BindingsSized (State.agedOut s n).line.bindings := by
  unfold State.agedOut; (try dsimp only); (repeat' split) <;>
    first | (simp (maxDischargeDepth := 12) +contextual [h]; done) | (simp_all (maxDischargeDepth := 12); done)
@[simp] theorem State.silenceEnded_bindingsSized (s : State)
    (h : BindingsSized s.line.bindings) : BindingsSized (State.silenceEnded s).line.bindings := by
  unfold State.silenceEnded; (try dsimp only); (repeat' split) <;>
    first | (simp (maxDischargeDepth := 12) +contextual [h]; done) | (simp_all (maxDischargeDepth := 12); done)
@[simp] theorem State.recordRead_bindingsSized (s : State) (read : RecordRead)
    (h : BindingsSized s.line.bindings) : BindingsSized (State.recordRead s read).line.bindings := by
  unfold State.recordRead; (try dsimp only); (repeat' split) <;>
    first | (simp (maxDischargeDepth := 12) +contextual [h]; done) | (simp_all (maxDischargeDepth := 12); done)
@[simp] theorem State.wake_bindingsSized (s : State) (cause : Cause) (stayAwake : Bool)
    (h : BindingsSized s.line.bindings) : BindingsSized (State.wake s cause stayAwake).line.bindings := by
  unfold State.wake; split
  · exact h
  · dsimp only
    with_reducible refine State.goTo_bindingsSized _ _ _ ?_
    simp
    exact BindingsSized_replicate none
@[simp] theorem State.startSeen_bindingsSized (s : State) (inWindow : Bool)
    (h : BindingsSized s.line.bindings) : BindingsSized (State.startSeen s inWindow).line.bindings := by
  unfold State.startSeen; (try dsimp only); (repeat' split) <;>
    first | (simp (maxDischargeDepth := 12) +contextual [h]; done) | (simp_all (maxDischargeDepth := 12); done)
@[simp] theorem State.enterDormant_bindingsSized (s : State)
    (h : BindingsSized s.line.bindings) : BindingsSized (State.enterDormant s).line.bindings := by
  unfold State.enterDormant; (try dsimp only); (repeat' split) <;>
    first | (simp (maxDischargeDepth := 12) +contextual [h]; done) | (simp_all (maxDischargeDepth := 12); done)
@[simp] theorem State.leaveLine_bindingsSized (s : State)
    (h : BindingsSized s.line.bindings) : BindingsSized (State.leaveLine s).1.line.bindings := by
  unfold State.leaveLine; (try dsimp only); (repeat' split) <;>
    first | (simp (maxDischargeDepth := 12) +contextual [h]; done) | (simp_all (maxDischargeDepth := 12); done)
@[simp] theorem State.rejoin_bindingsSized (s : State)
    (h : BindingsSized s.line.bindings) : BindingsSized (State.rejoin s).1.line.bindings := by
  unfold State.rejoin; (try dsimp only); (repeat' split) <;>
    first | (simp (maxDischargeDepth := 12) +contextual [h]; done) | (simp_all (maxDischargeDepth := 12); done)
@[simp] theorem State.wakeRequest_bindingsSized (s : State) (flag : Byte)
    (h : BindingsSized s.line.bindings) : BindingsSized (State.wakeRequest s flag).line.bindings := by
  unfold State.wakeRequest; (try dsimp only); (repeat' split) <;>
    first | (simp (maxDischargeDepth := 12) +contextual [h]; done) | (simp_all (maxDischargeDepth := 12); done)

/-- Every operation keeps these sizes. -/
theorem bindingsSized_kept : Kept (fun s => BindingsSized s.line.bindings) where
  lineSilent := by intro a0 h; simp (maxDischargeDepth := 12) [h]
  enterDormant := by intro a0 h; simp (maxDischargeDepth := 12) [h]
  selfVetoDue := by intro a0 h; simp (maxDischargeDepth := 12) [h]
  listenEnd := by intro a0 h; simp (maxDischargeDepth := 12) [h]
  agedOut := by intro a0 a1 h; simp (maxDischargeDepth := 12) [h]
  freeSlot := by intro a0 a1 h; simp (maxDischargeDepth := 12) [h]
  readyEntries := by intro a0 h; simp (maxDischargeDepth := 12) [h]
  presenceFallsDue := by intro a0 h; simp (maxDischargeDepth := 12) [h]
  silenceEnded := by intro a0 h; simp (maxDischargeDepth := 12) [h]
  noteStall := by intro a0 h; simp (maxDischargeDepth := 12) [h]
  noteExpiry := by intro a0 h; simp (maxDischargeDepth := 12) [h]
  uplinkRetry := by intro a0 h; simp (maxDischargeDepth := 12) [h]
  carryRetry := by intro a0 a1 h; simp (maxDischargeDepth := 12) [h]
  arrivalGap := by intro a0 h; simp (maxDischargeDepth := 12) [h]
  qualityBlock := by intro a0 h; simp (maxDischargeDepth := 12) [h]
  endGateRamp := by intro a0 h; simp (maxDischargeDepth := 12) [h]
  endEntryRamp := by intro a0 a1 a2 h; simp (maxDischargeDepth := 12) [h]
  endPositionRamp := by intro a0 a1 h; simp (maxDischargeDepth := 12) [h]
  refreshDebtRise := by intro a0 h; simp (maxDischargeDepth := 12) [h]
  filled := by intro a0 h; simp (maxDischargeDepth := 12) [h]
  primingDone := by intro a0 h; simp (maxDischargeDepth := 12) [h]
  correlationResult := by intro a0 h; simp (maxDischargeDepth := 12) [h]
  crossfadeEnd := by intro a0 h; simp (maxDischargeDepth := 12) [h]
  toDigitalComplete := by intro a0 h; simp (maxDischargeDepth := 12) [h]
  toAnalogueComplete := by intro a0 h; simp (maxDischargeDepth := 12) [h]
  cancellerBlock := by intro a0 h; simp (maxDischargeDepth := 12) [h]
  freezeEnd := by intro a0 h; simp (maxDischargeDepth := 12) [h]
  referenceLost := by intro a0 h; simp (maxDischargeDepth := 12) [h]
  triggerFollowers := by intro a0 a1 h; simp (maxDischargeDepth := 12) [h]
  countRepetition := by intro a0 a1 h; simp (maxDischargeDepth := 12) [h]
  fire := by intro a0 a1 h; simp (maxDischargeDepth := 12) [h]
  playCompleted := by intro a0 a1 h; simp (maxDischargeDepth := 12) [h]
  recordRead := by intro a0 a1 h; simp (maxDischargeDepth := 12) [h]
  startSeen := by intro a0 a1 h; simp (maxDischargeDepth := 12) [h]
  leadStart := by intro a0 h; simp (maxDischargeDepth := 12) [h]
  expireTimer := by intro a0 h; simp (maxDischargeDepth := 12) [h]
  missFurther := by intro a0 h; simp (maxDischargeDepth := 12) [h]
  controlField := by intro a0 a1 a2 h; simp (maxDischargeDepth := 12) [h]
  audioSlots := by intro a0 a1 h; simp (maxDischargeDepth := 12) [h]
  tailEnd := by intro a0 a1 h; simp (maxDischargeDepth := 12) [h]
  messageEffect := by intro a0 a1 a2 h; simp (maxDischargeDepth := 12) [h]
  localSample := by intro a0 a1 h; simp (maxDischargeDepth := 12) [h]
  decoderArrives := by intro a0 a1 a2 h; simp (maxDischargeDepth := 12) [h]
  burstComplete := by intro a0 a1 h; simp (maxDischargeDepth := 12) [h]
  completeOpen := by intro a0 a1 h; simp (maxDischargeDepth := 12) [h]
  completeClose := by intro a0 a1 h; simp (maxDischargeDepth := 12) [h]
  completeRefresh := by intro a0 a1 h; simp (maxDischargeDepth := 12) [h]
  keepUpStart := by intro a0 h; simp (maxDischargeDepth := 12) [h]
  host := by intro a0 a1 h; simp (maxDischargeDepth := 12) [h]
  noteBox := by intro a0 a1 h; simp (maxDischargeDepth := 12) [h]
  rest := by intro s q h; exact h
  enterHost := by intro a0 a1 a2 a3 q h; simp (maxDischargeDepth := 12) [h]
  leaveLine := by intro a0 h; simp (maxDischargeDepth := 12) [h]
  goToListening := by intro a0 h; simp (maxDischargeDepth := 12) [h]
  wake := by intro a0 a1 a2 h; simp (maxDischargeDepth := 12) [h]
  judgeRoute := by intro a0 a1 a2 a3 a4 h; simp (maxDischargeDepth := 12) [h]
  clipLoadBegin := by intro a0 a1 a2 a3 h; simp (maxDischargeDepth := 12) [h]
  clipData := by intro a0 a1 a2 h; simp (maxDischargeDepth := 12) [h]
  clipLoadEnd := by intro a0 a1 h; simp (maxDischargeDepth := 12) [h]
  clipLock := by intro a0 a1 h; simp (maxDischargeDepth := 12) [h]
  startPlay := by intro s u c l r p e h; have := State.startPlay_frame s c l r .host (p, u) e; simp only at this; simp [this, h]
  cadenceSet := by intro a0 a1 a2 h; simp (maxDischargeDepth := 12) [h]
  cadenceStart := by intro a0 a1 h; simp (maxDischargeDepth := 12) [h]
  cadenceStop := by intro a0 a1 h; simp (maxDischargeDepth := 12) [h]
  blendEnable := by intro a0 h; simp (maxDischargeDepth := 12) [h]
  blendDisable := by intro a0 h; simp (maxDischargeDepth := 12) [h]
  tuned := by intro a0 h; simp (maxDischargeDepth := 12) [h]
  beginNote := by intro a0 a1 a2 a3 h; simp (maxDischargeDepth := 12) [h]
  powerOn := by
    intro s h; rfl
  assertPin := by intro a0 h; simp (maxDischargeDepth := 12) [h]
  resetLine := by
    intro s h; rfl

end Sys2Proof.Machine
end

