-- ==== Sys2Proof/Laws/Firing.lean ====
section
/-! SUPPORT. Which places the plays take when several followers of delay 0 fire at once (R124, R130). -/

namespace Sys2Proof.Machine

set_option maxRecDepth 20000

/-! ## One play, one firing -/

theorem playBegun_bare {s u : State} {place clip level repeats : Nat} {who : Starter}
    (h : ∀ y, s.announce.plays.getD place none = some y → (u.announce.plays.getD place none).map Play.bare = some y.bare)
    (k : s.playBegun place clip level repeats who) : u.playBegun place clip level repeats who := by
  obtain ⟨p, h0, h1, h2, h3, h4, h5, h6, h7, h8⟩ := k
  have b := h p h0
  cases hy : u.announce.plays.getD place none with
  | none => rw [hy] at b; simp at b
  | some y =>
    rw [hy] at b; simp only [Option.map_some, Option.some.injEq] at b
    exact ⟨y, hy, (congrArg Play.clip b).trans h1, (congrArg Play.level b).trans h2, (congrArg Play.repeats b).trans h3,
      (congrArg Play.starter b).trans h4, (congrArg Play.done b).trans h5, (congrArg Play.position b).trans h6,
      (congrArg Play.wait b).trans h7, (congrArg Play.finished b).trans h8⟩

/-- A play that starts begins in its place (R124, R125), and every other place stands but for the groups held. -/
theorem startPlay_begun (s : State) (clip level repeats : Nat) (who : Starter) (p : Nat)
    (hc : (s.clip clip).state.playable = true) (hp : s.announce.plays.findIdx? (fun p => p.isNone) = some p) :
    ∃ u, s.startPlay clip level repeats who = some (p, u) ∧ u.playBegun p clip level repeats who
      ∧ (∀ q, q ≠ p → (u.announce.plays.getD q none).map Play.bare = (s.announce.plays.getD q none).map Play.bare)
      ∧ u.announce.plays.length = s.announce.plays.length ∧ u.announce.clips = s.announce.clips
      ∧ u.announce.channels = s.announce.channels := by
  unfold State.startPlay
  rw [if_pos hc, hp]
  obtain ⟨w, hw⟩ : ∃ w : State, w = { s with
      announce.plays := s.announce.plays.set p (some { clip := clip, level := level, repeats := repeats, done := 0, position := 0, starter := who, groups := [], wait := 16, finished := false, serial := s.announce.nextPlay }),
      announce.nextPlay := s.announce.nextPlay + 1 } := ⟨_, rfl⟩
  dsimp only
  rw [← hw]
  have K := requestGroups_kept w p
  have hl : p < s.announce.plays.length := (List.findIdx?_eq_some_iff_getElem.mp hp).1
  have L := congrArg List.length K.1
  simp only [List.length_map] at L
  refine ⟨_, rfl, playBegun_bare (s := w) (fun y hy => by rw [bare_plays_get K.1, hy]; rfl) ?_, fun q hq => ?_, ?_, ?_, ?_⟩
  · refine ⟨{ clip := clip, level := level, repeats := repeats, done := 0, position := 0, starter := who, groups := [], wait := 16, finished := false, serial := s.announce.nextPlay }, ?_, rfl, rfl, rfl, rfl, rfl, rfl, rfl, rfl⟩
    rw [hw]; simp [List.getD_eq_getElem?_getD, hl]
  · rw [bare_plays_get K.1 q, hw]; simp [List.getD_eq_getElem?_getD, Ne.symm hq]
  · rw [L, hw]; simp
  · rw [K.2.1, hw]
  · rw [K.2.2.1, hw]

/-- A follower that fires with its clip playable and a place free starts its play in the lowest free place. -/
theorem fire_sounds (s : State) (c p : Nat) (h : FireDue s c) (hc : c < s.announce.channels.length)
    (hl : s.announce.plays.length = 4) (hs : (s.clip (s.channel c).activeClip).state.playable = true) (hp : p < 4)
    (hn : s.announce.plays.getD p none = none) (hm : ∀ q, q < p → s.announce.plays.getD q none ≠ none) :
    (s.fire c).channel c = { s.channel c with counting := false }
      ∧ (s.fire c).playBegun p (s.channel c).activeClip (s.channel c).level 1 (.follower c)
      ∧ ∀ q, q ≠ p → ((s.fire c).announce.plays.getD q none).map Play.bare = (s.announce.plays.getD q none).map Play.bare := by
  obtain ⟨l, h1, h2, h3⟩ := h
  obtain ⟨i, hi⟩ : ∃ i, i = s.onChannel c (fun k => { k with counting := false }) := ⟨_, rfl⟩
  have ip : i.announce.plays = s.announce.plays := by rw [hi] <;> rfl
  have hf : i.announce.plays.findIdx? (fun p => p.isNone) = some p := by rw [ip]; exact (findFree_some _ p hl).mpr ⟨hp, hn, hm⟩
  obtain ⟨u, e, b, o, _, _, k⟩ := startPlay_begun i (s.channel c).activeClip (s.channel c).level 1 (.follower c) p
    (by rw [hi]; exact hs) hf
  have f : s.fire c = u := by
    unfold State.fire; dsimp only; rw [h1]; dsimp only
    rw [if_pos (by simp [h2, h3]), ← hi, e]
  rw [f]
  refine ⟨?_, b, fun q hq => by rw [o q hq, ip]⟩
  unfold State.channel; rw [k]
  exact (congrArg (fun t : State => t.channel c) hi).trans (channel_onChannel _ _ _ hc)

/-! ## How many places are free -/

theorem freeBelow_le (s : State) {a b : Nat} (h : a ≤ b) : s.freeBelow a ≤ s.freeBelow b := by
  unfold State.freeBelow
  obtain ⟨d, rfl⟩ := Nat.exists_eq_add_of_le h
  rw [List.range_add, List.filter_append, List.length_append]; omega

theorem freeBelow_succ (s : State) (n : Nat) :
    s.freeBelow (n + 1) = s.freeBelow n + if s.announce.plays.getD n none = none then 1 else 0 := by
  unfold State.freeBelow
  rw [List.range_succ, List.filter_append, List.length_append]
  simp only [List.filter_cons, List.filter_nil]
  cases s.announce.plays.getD n none <;> simp

theorem freeBelow_same {s u : State} (h : ∀ q, (u.announce.plays.getD q none).isNone = (s.announce.plays.getD q none).isNone) (n : Nat) :
    u.freeBelow n = s.freeBelow n := by
  unfold State.freeBelow; congr 1; exact List.filter_congr (fun q _ => h q)

/-- The lowest free place, where one of the four is free. -/
theorem lowest_free (s : State) (h : 0 < s.freeBelow 4) :
    ∃ p, p < 4 ∧ s.announce.plays.getD p none = none ∧ s.freeBelow p = 0 ∧ ∀ q, q < p → s.announce.plays.getD q none ≠ none := by
  have : ∀ n, 0 < s.freeBelow n → ∃ p, p < n ∧ s.announce.plays.getD p none = none ∧ s.freeBelow p = 0
      ∧ ∀ q, q < p → s.announce.plays.getD q none ≠ none := by
    intro n
    induction n with
    | zero => intro h; simp [State.freeBelow] at h
    | succ n ih =>
      intro h
      by_cases h0 : 0 < s.freeBelow n
      · obtain ⟨p, a, b⟩ := ih h0; exact ⟨p, by omega, b⟩
      · rw [freeBelow_succ] at h
        have hn : s.announce.plays.getD n none = none := by
          by_cases k : s.announce.plays.getD n none = none
          · exact k
          · rw [if_neg k] at h; omega
        refine ⟨n, by omega, hn, by omega, fun q hq e => ?_⟩
        have := freeBelow_le s (show q + 1 ≤ n by omega)
        rw [freeBelow_succ, if_pos e] at this; omega
  exact this 4 h

/-- A place taken counts no longer. -/
theorem freeBelow_taken {s u : State} (p : Nat) (hn : s.announce.plays.getD p none = none) (ht : u.announce.plays.getD p none ≠ none)
    (ho : ∀ q, q ≠ p → (u.announce.plays.getD q none).isNone = (s.announce.plays.getD q none).isNone) (n : Nat) :
    u.freeBelow n + (if p < n then 1 else 0) = s.freeBelow n := by
  induction n with
  | zero => simp [State.freeBelow]
  | succ n ih =>
    rw [freeBelow_succ, freeBelow_succ, ← ih]
    by_cases h : n = p
    · subst h; rw [if_neg ht, if_pos hn, if_neg (show ¬n < n by omega), if_pos (show n < n + 1 by omega)]
    · have := ho n h
      have e : (u.announce.plays.getD n none = none) = (s.announce.plays.getD n none = none) := by
        simpa [Option.isNone_iff_eq_none] using congrArg (· = true) this
      simp only [e]
      by_cases k : p < n
      · rw [if_pos k, if_pos (show p < n + 1 by omega)]; omega
      · rw [if_neg k, if_neg (show ¬p < n + 1 by omega)]; omega

/-! ## A list of channels that fire -/

/-- Whether a channel is due and finds its clip playable. -/
def soundsNow (s : State) (c : Nat) : Bool :=
  match (s.channel c).role with
  | .follower _ => (s.channel c).counting && (s.channel c).remaining == 0 && (s.clip (s.channel c).activeClip).state.playable
  | _ => false

theorem soundsNow_due (s : State) (c : Nat) (h : FireDue s c) :
    soundsNow s c = (s.clip (s.channel c).activeClip).state.playable := by
  obtain ⟨l, a, b, d⟩ := h; unfold soundsNow; rw [a]; simp [b, d]

theorem soundsNow_idle (s : State) (c : Nat) (h : ¬FireDue s c) : soundsNow s c = false := by
  unfold soundsNow
  split
  · next l a =>
    cases e : (s.channel c).counting && (s.channel c).remaining == 0 with
    | false => simp
    | true => simp only [Bool.and_eq_true, beq_iff_eq] at e; exact absurd ⟨l, a, e.1, e.2⟩ h
  · rfl

theorem soundsNow_congr {s u : State} (c : Nat) (h : u.channel c = s.channel c) (k : u.announce.clips = s.announce.clips) :
    soundsNow u c = soundsNow s c := by
  unfold soundsNow State.clip; rw [h, k]

/-- How many channels of a list sound before one of its members. -/
def soundsBefore (s : State) (l : List Nat) (c : Nat) : Nat := ((l.takeWhile (fun d => d != c)).filter (soundsNow s)).length

/-- What one firing leaves of the places: taken lowest first where the channel sounds, else as they were. -/
theorem fire_places (s : State) (c : Nat) (hc : c < s.announce.channels.length) (hl : s.announce.plays.length = 4) :
    (soundsNow s c = true → 0 < s.freeBelow 4 → ∃ p, p < 4 ∧ s.announce.plays.getD p none = none ∧ s.freeBelow p = 0
        ∧ (s.fire c).playBegun p (s.channel c).activeClip (s.channel c).level 1 (.follower c)
        ∧ (s.fire c).channel c = { s.channel c with counting := false }
        ∧ (∀ q, q ≠ p → ((s.fire c).announce.plays.getD q none).isNone = (s.announce.plays.getD q none).isNone)
        ∧ ∀ n, (s.fire c).freeBelow n + (if p < n then 1 else 0) = s.freeBelow n)
    ∧ (soundsNow s c = false ∨ s.freeBelow 4 = 0 →
        (∀ q, (s.fire c).announce.plays.getD q none = s.announce.plays.getD q none)
        ∧ (FireDue s c → (s.fire c).channel c = { s.channel c with counting := false, missed := true })) := by
  constructor
  · intro h0 h4
    have hd : FireDue s c := by
      by_cases k : FireDue s c
      · exact k
      · rw [soundsNow_idle s c k] at h0; simp at h0
    obtain ⟨p, a, b, d, e⟩ := lowest_free s h4
    obtain ⟨f, g, o⟩ := fire_sounds s c p hd hc hl (by rw [← soundsNow_due s c hd]; exact h0) a b e
    have oi : ∀ q, q ≠ p → ((s.fire c).announce.plays.getD q none).isNone = (s.announce.plays.getD q none).isNone := by
      intro q hq
      have := congrArg Option.isNone (o q hq)
      simpa using this
    refine ⟨p, a, b, d, g, f, oi, fun n => freeBelow_taken p b ?_ oi n⟩
    obtain ⟨y, hy, _⟩ := g; rw [hy]; simp
  · intro h
    by_cases hd : FireDue s c
    · have : (s.clip (s.channel c).activeClip).state.playable = false ∨ ∀ p, p < 4 → s.announce.plays.getD p none ≠ none := by
        rcases h with h | h
        · rw [soundsNow_due s c hd] at h; exact .inl h
        · refine .inr (fun p hp e => ?_)
          have := freeBelow_le s (show p + 1 ≤ 4 by omega)
          rw [freeBelow_succ, if_pos e] at this; omega
      obtain ⟨a, b⟩ := (fires_due s c hd hc hl).2.2.2.2.1 this
      exact ⟨fun q => by rw [b], fun _ => a⟩
    · rw [fires_idle s c hd]; exact ⟨fun _ => rfl, fun k => absurd k hd⟩

/-- The firings of a list of channels: the n-th that sounds takes the n-th free place, and what finds none is missed. -/
theorem fires_places (l : List Nat) : ∀ (s : State), l.Nodup → (∀ c ∈ l, c < s.announce.channels.length) → s.announce.plays.length = 4 →
    let u := l.foldl (fun acc c => acc.fire c) s
    (∀ c ∈ l, FireDue s c →
        (soundsNow s c = true → soundsBefore s l c < s.freeBelow 4 →
          u.channel c = { s.channel c with counting := false }
          ∧ ∃ p, p < 4 ∧ s.announce.plays.getD p none = none ∧ s.freeBelow p = soundsBefore s l c
            ∧ u.playBegun p (s.channel c).activeClip (s.channel c).level 1 (.follower c))
        ∧ (soundsNow s c = false ∨ s.freeBelow 4 ≤ soundsBefore s l c →
          u.channel c = { s.channel c with counting := false, missed := true }))
    ∧ ∀ p, p < 4 → s.announce.plays.getD p none = none → (l.filter (soundsNow s)).length ≤ s.freeBelow p →
        u.announce.plays.getD p none = none := by
  induction l with
  | nil => intro s _ _ _; exact ⟨fun c hc => by simp at hc, fun p _ h _ => h⟩
  | cons d l ih =>
    intro s hn hb hl
    obtain ⟨n1, n2⟩ := List.nodup_cons.mp hn
    simp only [List.foldl_cons]
    have hd : d < s.announce.channels.length := hb d (by simp)
    obtain ⟨F1, F2⟩ := fire_places s d hd hl
    have one : CadKept s (s.fire d) ∧ (∀ j, j ≠ d → (s.fire d).channel j = s.channel j) ∧ (s.fire d).announce.plays.length = 4 := by
      by_cases k : FireDue s d
      · obtain ⟨a, b, _, c, _⟩ := fires_due s d k hd hl; exact ⟨a, b, c⟩
      · rw [fires_idle s d k]; exact ⟨cadKept_refl s, fun _ _ => rfl, hl⟩
    obtain ⟨o1, o2, o3⟩ := one
    have bnd : ∀ c ∈ l, c < (s.fire d).announce.channels.length := fun c hc => by
      rw [o1.2.2.2.2.2.2.2.2.2]; exact hb c (by simp [hc])
    obtain ⟨I1, I2⟩ := ih (s.fire d) n2 bnd o3
    obtain ⟨_, _, L3, L4, _, _⟩ := fires_list l (s.fire d) n2 bnd o3
    have sn : ∀ c, c ≠ d → soundsNow (s.fire d) c = soundsNow s c := fun c hc => soundsNow_congr c (o2 c hc) o1.1
    have sl : ∀ m : List Nat, d ∉ m → m.filter (soundsNow (s.fire d)) = m.filter (soundsNow s) := fun m hm =>
      List.filter_congr (fun c hc => sn c (by rintro rfl; exact hm hc))
    have sb : ∀ c, soundsBefore (s.fire d) l c = soundsBefore s l c := by
      intro c; unfold soundsBefore
      rw [sl _ (fun h => n1 ((List.takeWhile_sublist _).subset h))]
    have here : soundsBefore s (d :: l) d = 0 := by simp [soundsBefore]
    have there : ∀ c, c ≠ d → soundsBefore s (d :: l) c = (if soundsNow s d = true then 1 else 0) + soundsBefore s l c := by
      intro c hc
      unfold soundsBefore
      rw [List.takeWhile_cons_of_pos (by simpa using Ne.symm hc), List.filter_cons]
      split <;> simp [Nat.add_comm]
    have due : ∀ c, c ≠ d → (FireDue (s.fire d) c ↔ FireDue s c) := fun c hc => by unfold FireDue; rw [o2 c hc]
    -- the first channel sounds and takes the lowest place, or leaves every place as it was
    by_cases hs : soundsNow s d = true ∧ 0 < s.freeBelow 4
    · obtain ⟨p, p4, pn, p0, pb, pc, po, pf⟩ := F1 hs.1 hs.2
      have keep : ∀ q y, (s.fire d).announce.plays.getD q none = some y → _ := L3
      have f4 := pf 4; rw [if_pos p4] at f4
      refine ⟨fun c hc hdue => ?_, fun q q4 qn hq => ?_⟩
      · by_cases e : c = d
        · subst e
          refine ⟨fun _ _ => ⟨by rw [L4 c n1, pc], p, p4, pn, by rw [here, p0], playBegun_bare (fun y hy => L3 p y hy) pb⟩, fun h => ?_⟩
          rcases h with h | h
          · rw [hs.1] at h; simp at h
          · rw [here] at h; omega
        · have hcl : c ∈ l := by simpa [e] using hc
          obtain ⟨J1, J2⟩ := I1 c hcl ((due c e).mpr hdue)
          rw [sn c e, sb, o2 c e] at J1 J2
          rw [there c e, if_pos hs.1]
          refine ⟨fun h1 h2 => ?_, fun h => J2 (h.imp id (fun h => by omega))⟩
          obtain ⟨K1, q, q4, qn, q0, qb⟩ := J1 h1 (by omega)
          have qp : q ≠ p := by rintro rfl; obtain ⟨y, hy, _⟩ := pb; rw [hy] at qn; simp at qn
          have qn' : s.announce.plays.getD q none = none := by
            have := po q qp; rw [qn] at this; simpa using this.symm
          have fq := pf q
          have pq : p < q := by
            rcases Nat.lt_or_gt_of_ne qp with h | h
            · have := freeBelow_le s (show q + 1 ≤ p by omega)
              rw [freeBelow_succ, if_pos qn', p0] at this; omega
            · exact h
          rw [if_pos pq] at fq
          exact ⟨K1, q, q4, qn', by omega, qb⟩
      · have c1 : ((d :: l).filter (soundsNow s)).length = (l.filter (soundsNow s)).length + 1 := by
          rw [List.filter_cons, if_pos hs.1]; simp
        have qp : q ≠ p := by rintro rfl; rw [p0] at hq; omega
        have qn' : (s.fire d).announce.plays.getD q none = none := by
          have := po q qp; rw [qn] at this; simpa using this
        refine I2 q q4 qn' ?_
        rw [sl l n1]
        have fq := pf q
        split at fq <;> omega
    · have hs' : soundsNow s d = false ∨ s.freeBelow 4 = 0 := by
        by_cases k : soundsNow s d = true
        · exact .inr (Nat.eq_zero_of_not_pos (fun h => hs ⟨k, h⟩))
        · exact .inl (by simpa using k)
      obtain ⟨same, miss⟩ := F2 hs'
      have fs : ∀ n, (s.fire d).freeBelow n = s.freeBelow n := freeBelow_same (fun q => by rw [same q])
      have f4 : s.freeBelow 4 = 0 ∨ (if soundsNow s d = true then 1 else 0) = 0 := by
        rcases hs' with h | h
        · exact .inr (by simp [h])
        · exact .inl h
      refine ⟨fun c hc hdue => ?_, fun q q4 qn hq => ?_⟩
      · by_cases e : c = d
        · subst e
          refine ⟨fun h1 h2 => absurd ⟨h1, by omega⟩ hs, fun _ => by rw [L4 c n1, miss hdue]⟩
        · have hcl : c ∈ l := by simpa [e] using hc
          obtain ⟨J1, J2⟩ := I1 c hcl ((due c e).mpr hdue)
          rw [sn c e, sb, o2 c e, fs] at J1 J2
          rw [there c e]
          refine ⟨fun h1 h2 => ?_, fun h => J2 (h.imp id (fun h => by omega))⟩
          obtain ⟨K1, q, q4, qn, q0, qb⟩ := J1 h1 (by omega)
          rw [same q] at qn; rw [fs] at q0
          exact ⟨K1, q, q4, qn, by omega, qb⟩
      · have c1 : (l.filter (soundsNow s)).length ≤ ((d :: l).filter (soundsNow s)).length :=
          ((List.sublist_cons_self d l).filter _).length_le
        refine I2 q q4 (by rw [same q]; exact qn) ?_
        rw [sl l n1, fs]; omega

/-! ## The followers of delay 0 (R129, R130) -/

theorem soundingBelow_mono (s : State) (leader : Nat) {a b : Nat} (h : a ≤ b) : s.soundingBelow leader a ≤ s.soundingBelow leader b := by
  unfold State.soundingBelow
  obtain ⟨d, rfl⟩ := Nat.exists_eq_add_of_le h
  rw [List.range_add, List.filter_append, List.length_append]; omega

/-- The channels that sound before a follower of a leader are the followers of lower number that sound. -/
theorem soundsBefore_followers (w : State) (leader f : Nat) (hf : f < 8) (hr : (w.channel f).role = .follower leader) :
    soundsBefore w (w.followersOf leader) f
      = ((List.range f).filter (fun c => soundsNow w c && (w.channel c).follows leader)).length := by
  obtain ⟨d, hd⟩ := Nat.exists_eq_add_of_lt hf
  have hr8 : List.range 8 = List.range f ++ f :: (List.range d).map (fun x => f + 1 + x) := by
    rw [hd, show f + d + 1 = f + (1 + d) by omega, List.range_add, Nat.add_comm 1 d, List.range_succ_eq_map]
    simp [Nat.add_assoc, Nat.add_comm 1]
  unfold soundsBefore State.followersOf
  rw [hr8, List.filter_append, List.filter_cons, if_pos (by simp [CadenceChannel.follows, hr]),
    List.takeWhile_append_of_pos (fun a ha => by
      have := (List.mem_filter.mp ha).1; rw [List.mem_range] at this; simp; omega),
    List.takeWhile_cons_of_neg (by simp), List.append_nil, List.filter_filter]

/-- Followers just triggered fire at once where their delay is 0, as `zeroDelaysFire` says. -/
theorem fireFollowers_zeroDelays (s w : State) (leader : Nat) (missed : Nat → Bool)
    (hl : w.announce.channels.length = 8) (hp : w.announce.plays.length = 4)
    (hplays : w.announce.plays = s.announce.plays) (hclips : w.announce.clips = s.announce.clips)
    (hrole : ∀ f, (w.channel f).role = .follower leader ↔ (s.channel f).role = .follower leader)
    (htrig : ∀ f, (s.channel f).role = .follower leader → w.channel f = { s.channel f with
      activeDelay := (s.channel f).stagedDelay, activeClip := (s.channel f).stagedClip,
      remaining := (s.channel f).stagedDelay, counting := true, missed := missed f }) :
    s.zeroDelaysFire (w.fireFollowers leader) leader missed := by
  have hmem := followers_mem w leader
  have bnd : ∀ c ∈ w.followersOf leader, c < w.announce.channels.length := fun c hc => by
    rw [hl]; exact ((hmem c).mp hc).1
  obtain ⟨P1, P2⟩ := fires_places (w.followersOf leader) w (followers_nodup w leader) bnd hp
  obtain ⟨_, _, L3, _⟩ := fires_list (w.followersOf leader) w (followers_nodup w leader) bnd hp
  have fr : ∀ n, w.freeBelow n = s.freeBelow n := freeBelow_same (fun q => by rw [hplays])
  have sn : ∀ c, (soundsNow w c && (w.channel c).follows leader)
      = ((s.channel c).role == .follower leader && (s.channel c).stagedDelay == 0
        && (s.clip (s.channel c).stagedClip).state.playable) := by
    intro c
    by_cases h : (s.channel c).role = .follower leader
    · have hw : (w.channel c).role = .follower leader := (hrole c).mpr h
      have ht := htrig c h
      dsimp only at ht
      have : soundsNow w c = ((s.channel c).stagedDelay == 0 && (s.clip (s.channel c).stagedClip).state.playable) := by
        unfold soundsNow State.clip; rw [hw]; dsimp only; rw [ht, hclips]; simp
      rw [this]; simp only [CadenceChannel.follows, hw, h]; simp
    · have hw : ¬(w.channel c).role = .follower leader := fun k => h ((hrole c).mp k)
      have e1 : (w.channel c).follows leader = false := by simpa [CadenceChannel.follows] using hw
      have e2 : ((s.channel c).role == .follower leader) = false := by simpa using h
      rw [e1, e2]; simp
  have sb : ∀ f, f < 8 → (s.channel f).role = .follower leader →
      soundsBefore w (w.followersOf leader) f = s.soundingBelow leader f := by
    intro f hf hr
    rw [soundsBefore_followers w leader f hf ((hrole f).mpr hr)]
    unfold State.soundingBelow; congr 1; exact List.filter_congr (fun c _ => sn c)
  refine ⟨fun f hf hr hz => ?_, fun place p h => L3 place p (by rw [hplays]; exact h), fun place h4 hn hle => ?_⟩
  · have ht := htrig f hr
    have due : FireDue w f := ⟨leader, (hrole f).mpr hr, by rw [ht], by rw [ht]; exact hz⟩
    obtain ⟨A, B⟩ := P1 f ((hmem f).mpr ⟨hf, (hrole f).mpr hr⟩) due
    have pl : soundsNow w f = (s.clip (s.channel f).stagedClip).state.playable := by
      rw [soundsNow_due w f due, ht]; unfold State.clip; rw [hclips]
    rw [sb f hf hr, fr, pl, ht] at A B
    dsimp only at A B ⊢
    refine ⟨fun hs => ?_, fun hs => ?_⟩
    · obtain ⟨A1, p, p4, pn, p0, pb⟩ := A hs.1 hs.2
      refine ⟨?_, p, p4, by rw [← hplays]; exact pn, by rw [← fr]; exact p0, pb⟩
      exact A1.trans (by rw [hz])
    · have := B (by
        by_cases k : (s.clip (s.channel f).stagedClip).state.playable = true
        · exact .inr (Nat.le_of_not_lt (fun h => hs ⟨k, h⟩))
        · exact .inl (by simpa using k))
      exact this.trans (by rw [hz])
  · refine P2 place h4 (by rw [hplays]; exact hn) ?_
    rw [fr]
    refine Nat.le_trans (Nat.le_of_eq ?_) hle
    unfold State.followersOf State.soundingBelow
    rw [List.filter_filter]; congr 1; exact List.filter_congr (fun c _ => sn c)

end Sys2Proof.Machine
end

