-- ==== Sys2Proof/Laws/GateKept.lean ====
section
/-! SUPPORT. Every operation keeps the agreement of the output gate with its gain and with the follower's state (R69). -/

namespace Sys2Proof.Machine

set_option maxRecDepth 20000

/-- The gate law of a follower by itself. -/
def Follower.lawful (f : Follower) : Prop :=
  f.gain ≤ 480 ∧ (f.gate = .open → f.gain = 480) ∧ (f.gate = .shut → f.gain = 0)
    ∧ (f.state = .locked ↔ (f.gate = .open ∨ f.gate = .opening))

theorem gateLaw_eq (s : State) : s.gateLaw = s.follower.lawful := rfl

/-- The follower after a change of its state (R67, R69). -/
def Follower.followed (f : Follower) (new : FollowerState) : Follower :=
  { state := new, onTime := 0, miss := 0, rate := rateIn f.rate new, gate := gateAt f.gate f.state new, gain := f.gain }

theorem follow_follower (s : State) (new : FollowerState) (cause : Cause) :
    (s.follow new cause).follower = s.follower.followed new := by
  unfold State.follow
  simp [Follower.followed]

/-- A change of state keeps the law, into LOCKED and out of it. -/
theorem Follower.lawful_follow (f : Follower) (new : FollowerState) (h : f.lawful) :
    (f.followed new).lawful := by
  obtain ⟨a, b, c, d⟩ := h
  obtain ⟨state, o, m, r, gate, gain⟩ := f
  unfold Follower.followed gateAt
  cases new <;> cases state <;> cases gate <;> simp_all [Follower.lawful]

theorem Follower.lawful_stepGate (f : Follower) (h : f.lawful) : f.stepGate.lawful := by
  obtain ⟨a, b, c, d⟩ := h
  obtain ⟨state, o, m, r, gate, gain⟩ := f
  unfold Follower.stepGate
  cases gate <;> simp_all [Follower.lawful]
  all_goals omega

theorem judgeOnTime_lawful (s : State) (h : s.gateLaw) : s.judgeOnTime.gateLaw := by
  unfold State.judgeOnTime
  split
  · rw [gateLaw_eq, follow_follower]; exact Follower.lawful_follow _ _ h
  · split
    · rw [gateLaw_eq, follow_follower]; exact Follower.lawful_follow _ _ h
    · exact h
  · exact h

theorem judgeMiss_lawful (s : State) (h : s.gateLaw) : s.judgeMiss.gateLaw := by
  unfold State.judgeMiss
  split
  · exact h
  · exact h
  · split
    · rw [gateLaw_eq, follow_follower]; exact Follower.lawful_follow _ _ h
    · exact h

theorem judgeStart_lawful (s : State) (onTime : Bool) (h : s.gateLaw) : (s.judgeStart onTime).gateLaw := by
  unfold State.judgeStart
  split
  · rw [gateLaw_eq, follow_follower]; exact Follower.lawful_follow _ _ h
  · split
    · exact judgeOnTime_lawful s h
    · exact judgeMiss_lawful s h

theorem start_lawful (s : State) (emitted inWindow : Bool) (h : s.gateLaw) : (s.start emitted inWindow).gateLaw := by
  unfold State.start
  have key : ∀ (t : State) (b : Bool), t.follower = s.follower → ((t.judgeStart b).storeBoundary).gateLaw := by
    intro t b ht
    rw [gateLaw_eq]
    simp only [State.storeBoundary_frame]
    exact judgeStart_lawful t b (by rw [gateLaw_eq, ht]; exact h)
  exact key _ _ (by simp)

theorem missStart_lawful (s : State) (h : s.gateLaw) : s.missStart.gateLaw := by
  unfold State.missStart
  have key : ∀ (t : State), t.follower = s.follower → ((t.judgeMiss).storeBoundary).gateLaw := by
    intro t ht
    rw [gateLaw_eq]
    simp only [State.storeBoundary_frame]
    exact judgeMiss_lawful t (by rw [gateLaw_eq, ht]; exact h)
  exact key _ (by simp)

theorem reset_lawful : State.reset.follower.lawful := by
  refine ⟨by decide, by decide, by decide, by decide⟩

theorem wake_lawful (s : State) (cause : Cause) (b : Bool) (h : s.gateLaw) : (s.wake cause b).gateLaw := by
  unfold State.wake
  split
  · exact h
  · rw [gateLaw_eq]; simp; exact reset_lawful

/-- Every operation keeps the gate law. -/
theorem gate_kept : Kept State.gateLaw where
  lineSilent := by
    intro s h
    unfold State.lineSilent
    repeat' split
    · simpa [gateLaw_eq] using h
    · rw [gateLaw_eq, follow_follower]; exact Follower.lawful_follow _ _ (by simpa [gateLaw_eq] using h)
    · exact h
  enterDormant := by
    intro s h
    unfold State.enterDormant
    split
    · rw [gateLaw_eq]; simp only [State.cancellerAsleep]; simp [State.followerAsleep]
      split
      · next hf => simp [hf, Follower.lawful]
      · simp [follow_follower, Follower.lawful, Follower.followed]
    · exact h
  selfVetoDue := by intro a0 h; unfold State.gateLaw at *; simpa using h
  listenEnd := by intro a0 h; unfold State.gateLaw at *; simpa using h
  agedOut := by intro a0 a1 h; unfold State.gateLaw at *; simpa using h
  freeSlot := by intro a0 a1 h; unfold State.gateLaw at *; simpa using h
  readyEntries := by intro a0 h; unfold State.gateLaw at *; simpa using h
  presenceFallsDue := by intro a0 h; unfold State.gateLaw at *; simpa using h
  silenceEnded := by intro a0 h; unfold State.gateLaw at *; simpa using h
  noteStall := by intro a0 h; unfold State.gateLaw at *; simpa using h
  noteExpiry := by intro a0 h; unfold State.gateLaw at *; simpa using h
  uplinkRetry := by intro a0 h; unfold State.gateLaw at *; simpa using h
  carryRetry := by intro a0 a1 h; unfold State.gateLaw at *; simpa using h
  arrivalGap := by intro a0 h; unfold State.gateLaw at *; simpa using h
  qualityBlock := by intro a0 h; unfold State.gateLaw at *; simpa using h
  endGateRamp := by
    intro s h
    rw [gateLaw_eq] at *
    unfold State.endGateRamp Follower.lawful at *
    repeat' split
    all_goals simp_all
    omega
  endEntryRamp := by intro a0 a1 a2 h; unfold State.gateLaw at *; simpa using h
  endPositionRamp := by intro a0 a1 h; unfold State.gateLaw at *; simpa using h
  refreshDebtRise := by intro a0 h; unfold State.gateLaw at *; simpa using h
  filled := by intro a0 h; unfold State.gateLaw at *; simpa using h
  primingDone := by intro a0 h; unfold State.gateLaw at *; simpa using h
  correlationResult := by intro a0 h; unfold State.gateLaw at *; simpa using h
  crossfadeEnd := by intro a0 h; unfold State.gateLaw at *; simpa using h
  toDigitalComplete := by intro a0 h; unfold State.gateLaw at *; simpa using h
  toAnalogueComplete := by intro a0 h; unfold State.gateLaw at *; simpa using h
  cancellerBlock := by intro a0 h; unfold State.gateLaw at *; simpa using h
  freezeEnd := by intro a0 h; unfold State.gateLaw at *; simpa using h
  referenceLost := by intro a0 h; unfold State.gateLaw at *; simpa using h
  triggerFollowers := by intro a0 a1 h; unfold State.gateLaw at *; simpa using h
  countRepetition := by intro a0 a1 h; unfold State.gateLaw at *; simpa using h
  fire := by intro a0 a1 h; unfold State.gateLaw at *; simpa using h
  playCompleted := by intro a0 a1 h; unfold State.gateLaw at *; simpa using h
  recordRead := by intro a0 a1 h; unfold State.gateLaw at *; simpa using h
  startSeen := by
    intro s b h
    unfold State.startSeen
    split
    · have k := start_lawful (s.wake .wakeStart false) false false (wake_lawful s _ _ h)
      generalize (s.wake .wakeStart false).start false false = u at k ⊢
      unfold State.gateLaw at *; simpa using k
    · exact start_lawful s _ _ h
  leadStart := by
    intro s h
    unfold State.leadStart
    split
    · exact start_lawful s _ _ h
    · exact h
  expireTimer := by
    intro s h
    unfold State.expireTimer
    repeat' split
    · exact h
    · exact start_lawful s _ _ h
    · exact missStart_lawful s h
  missFurther := by
    intro s h
    unfold State.missFurther
    split
    · exact missStart_lawful s h
    · exact h
  controlField := by intro a0 a1 a2 h; unfold State.gateLaw at *; simpa using h
  audioSlots := by intro a0 a1 h; unfold State.gateLaw at *; simpa using h
  tailEnd := by intro a0 a1 h; unfold State.gateLaw at *; simpa using h
  messageEffect := by intro a0 a1 a2 h; unfold State.gateLaw at *; simpa using h
  localSample := by
    intro s i h
    unfold State.localSample
    split
    · exact h
    · rw [gateLaw_eq] at *
      simp
      exact Follower.lawful_stepGate _ h
  decoderArrives := by intro a0 a1 a2 h; unfold State.gateLaw at *; simpa using h
  burstComplete := by intro a0 a1 h; unfold State.gateLaw at *; simpa using h
  completeOpen := by intro a0 a1 h; unfold State.gateLaw at *; simpa using h
  completeClose := by intro a0 a1 h; unfold State.gateLaw at *; simpa using h
  completeRefresh := by intro a0 a1 h; unfold State.gateLaw at *; simpa using h
  keepUpStart := by
    intro s h
    unfold State.keepUpStart
    split
    · exact start_lawful s _ _ h
    · exact h
  host := by intro a0 a1 h; unfold State.gateLaw at *; simpa using h
  noteBox := by intro a0 a1 h; unfold State.gateLaw at *; simpa using h
  rest := by
    intro s q h; exact h
  enterHost := by intro a0 a1 a2 a3 q h; unfold State.gateLaw at *; simpa using h
  leaveLine := by intro a0 h; unfold State.gateLaw at *; simpa using h
  goToListening := by intro a0 h; unfold State.gateLaw at *; simpa using h
  wake := by
    intro s c b h; exact wake_lawful s c b h
  judgeRoute := by intro a0 a1 a2 a3 a4 h; unfold State.gateLaw at *; simpa using h
  clipLoadBegin := by intro a0 a1 a2 a3 h; unfold State.gateLaw at *; simpa using h
  clipData := by intro a0 a1 a2 h; unfold State.gateLaw at *; simpa using h
  clipLoadEnd := by intro a0 a1 h; unfold State.gateLaw at *; simpa using h
  clipLock := by intro a0 a1 h; unfold State.gateLaw at *; simpa using h
  startPlay := by
    intro s u c l r p e h
    have := State.startPlay_frame s c l r .host (p, u) e
    simp only at this
    rw [gateLaw_eq] at *
    rw [this.2.2.2.2.2.1]; exact h
  cadenceSet := by intro a0 a1 a2 h; unfold State.gateLaw at *; simpa using h
  cadenceStart := by intro a0 a1 h; unfold State.gateLaw at *; simpa using h
  cadenceStop := by intro a0 a1 h; unfold State.gateLaw at *; simpa using h
  blendEnable := by intro a0 h; unfold State.gateLaw at *; simpa using h
  blendDisable := by intro a0 h; unfold State.gateLaw at *; simpa using h
  tuned := by intro a0 h; unfold State.gateLaw at *; simpa using h
  beginNote := by intro a0 a1 a2 a3 h; unfold State.gateLaw at *; simpa using h
  powerOn := by
    intro s h; rw [gateLaw_eq]; exact reset_lawful
  assertPin := by intro a0 h; unfold State.gateLaw at *; simpa using h
  resetLine := by
    intro s h; rw [gateLaw_eq]; exact reset_lawful

end Sys2Proof.Machine
end

