-- ==== Sys2Proof/Laws/LocalSample.lean ====
section
/-! SUPPORT. What each block leaves alone at a local sample, a stage at a time (R65). -/

namespace Sys2Proof.Machine

set_option maxRecDepth 20000
set_option linter.unusedVariables false
set_option linter.unusedSimpArgs false

def Store.tick (st : Store) : Nat := st.refreshTick

@[simp] theorem Store.onBank_tick (st : Store) (b : Nat) (f : Bank → Bank) : (st.onBank b f).tick = st.tick := rfl

@[simp] theorem Store.onQueue_tick (st : Store) (q : QueueId) (f : List Request → List Request) :
    (st.onQueue q f).tick = st.tick := rfl

@[simp] theorem Store.beginBurst_tick (st : Store) (b : Nat) (q : QueueId) : (st.beginBurst b q).tick = st.tick := rfl

@[simp] theorem Store.beginClose_tick (st : Store) (b : Nat) : (st.beginClose b).tick = st.tick := rfl

@[simp] theorem Store.grantOpen_tick (st : Store) (b row : Nat) : (st.grantOpen b row).tick = st.tick := rfl

@[simp] theorem Store.grantRefresh_tick (st : Store) (b : Nat) : (st.grantRefresh b).tick = st.tick := rfl

@[simp] theorem Store.urgentStep_tick (st : Store) (b : Nat) : (st.urgentStep b).1.tick = st.tick := by
  unfold Store.urgentStep; repeat' split
  all_goals first | rfl | simp

@[simp] theorem Store.ordinaryStep_tick (st : Store) (b : Nat) : (st.ordinaryStep b).1.tick = st.tick := by
  unfold Store.ordinaryStep; repeat' split
  all_goals first | rfl | simp

@[simp] theorem Store.headStep_tick (st : Store) (q : QueueId) (b row : Nat) :
    (st.headStep q b row).1.tick = st.tick := by
  unfold Store.headStep; repeat' split
  all_goals first | rfl | simp

theorem claim_tick (b : Nat) (f : Store → Store × Bool) (a : Arbitration) (h : ∀ st, (f st).1.tick = st.tick) :
    (claim b f a).1.tick = a.1.tick := by
  unfold claim; split
  · rfl
  · exact h _

theorem claimHead_tick (q : QueueId) (a : Arbitration) : (claimHead q a).1.tick = a.1.tick := by
  unfold claimHead; repeat' split
  all_goals first | rfl | (apply claim_tick; intro st; simp)

theorem foldl_tick {α : Type} (f : Arbitration → α → Arbitration) (h : ∀ a x, (f a x).1.tick = a.1.tick) :
    ∀ (l : List α) (a : Arbitration), (l.foldl f a).1.tick = a.1.tick
  | [], _ => rfl
  | x :: l, a => by rw [List.foldl_cons, foldl_tick f h l, h]

@[simp] theorem Store.arbitrate_tick (st : Store) : st.arbitrate.tick = st.tick := by
  unfold Store.arbitrate
  split
  · rfl
  · dsimp only
    rw [claimHead_tick, foldl_tick, foldl_tick, foldl_tick]
    · intro a b; exact claim_tick _ _ _ (fun st => by simp)
    · intro a q; exact claimHead_tick q a
    · intro a b; exact claim_tick _ _ _ (fun st => by simp)

theorem arbitrate_tick (st : Store) : st.arbitrate.refreshTick = st.refreshTick := Store.arbitrate_tick st

/-- What a request of a client leaves alone in every block. -/
def turned (s : State) := (s.announce.clips, s.announce.channels, s.blend.state, s.blend.round, s.call.state, s.call.round, s.mixer.round, s.store.refreshTick, s.localCount)

def outs (s : State) := (s.blend.out, s.call.uplink, s.ports, s.follower)

theorem request_turned (s : State) (r : Request) : turned (s.request r) = turned s ∧ outs (s.request r) = outs s := by
  unfold State.request
  split
  · exact ⟨rfl, rfl⟩
  · split
    · unfold State.endRequest State.takeGap; dsimp only; rw [raise_eq]
      split <;> first | exact ⟨rfl, rfl⟩ | skip
      · unfold State.settleEchoRead State.freezeForGap; dsimp only; split <;> exact ⟨rfl, rfl⟩
    · refine ⟨?_, rfl⟩
      unfold turned Store.enqueue; dsimp only
      have : ∀ st : Store, (if (st.queue r.queue).length = 0 then st else st) = st := by intro st; split <;> rfl
      split
      · rw [arbitrate_tick]; rfl
      · rfl

theorem foldl_turned {α : Type} (f : State → α → State) (h : ∀ s x, turned (f s x) = turned s ∧ outs (f s x) = outs s) : ∀ (l : List α) (s : State), turned (l.foldl f s) = turned s ∧ outs (l.foldl f s) = outs s
  | [], _ => ⟨rfl, rfl⟩
  | x :: l, s => by
    rw [List.foldl_cons]
    have a := foldl_turned f h l (f s x)
    have b := h s x
    exact ⟨a.1.trans b.1, a.2.trans b.2⟩

theorem requestGroup_turned (s : State) (p a b c d : Nat) : turned (s.requestGroup p a b c d) = turned s ∧ outs (s.requestGroup p a b c d) = outs s := by
  unfold State.requestGroup
  split
  · exact ⟨rfl, rfl⟩
  · split
    · exact ⟨rfl, rfl⟩
    · exact ⟨(request_turned _ _).1.trans rfl, (request_turned _ _).2.trans rfl⟩

theorem requestGroups_turned (s : State) (p : Nat) : turned (s.requestGroups p) = turned s ∧ outs (s.requestGroups p) = outs s := by
  unfold State.requestGroups
  split
  · exact ⟨rfl, rfl⟩
  · exact foldl_turned _ (fun s g => requestGroup_turned s _ _ _ _ _) _ _

theorem announceSample_turned (s : State) : turned s.announceSample = turned s ∧ outs s.announceSample = outs s := by
  unfold State.announceSample forEach
  have := foldl_turned (fun acc i => acc.requestGroups i) (fun s i => requestGroups_turned s i) (List.range 4) s.soundPlays
  exact ⟨this.1.trans rfl, this.2.trans rfl⟩

def turnedBut (s : State) := (s.announce.clips, s.announce.channels, s.blend.state, s.blend.round, s.call.state, s.call.round, s.store.refreshTick, s.localCount)

def outsBut (s : State) := (s.blend.out, s.call.uplink, s.follower, s.ports.inputs, s.ports.arrivalGap, s.ports.digital, s.ports.buffer, s.ports.balance, s.ports.reading, s.ports.slipGuard, s.ports.blockReads)

theorem turnedBut_of {s u : State} (h : turned s = turned u) : turnedBut s = turnedBut u := by
  simp only [turned, Prod.mk.injEq] at h
  simp only [turnedBut, Prod.mk.injEq]
  exact ⟨h.1, h.2.1, h.2.2.1, h.2.2.2.1, h.2.2.2.2.1, h.2.2.2.2.2.1, h.2.2.2.2.2.2.2.1, h.2.2.2.2.2.2.2.2⟩

theorem outsBut_of {s u : State} (h : outs s = outs u) : outsBut s = outsBut u := by
  simp only [outs, Prod.mk.injEq] at h
  simp only [outsBut, h.1, h.2.1, h.2.2.1, h.2.2.2]

theorem alignBurst_turned (s : State) (a p g r d q) : turned (s.alignBurst a p g r d q) = turned s ∧ outs (s.alignBurst a p g r d q) = outs s := request_turned _ _

theorem turned_trans {s u v : State} (h : turned s = turned u ∧ outs s = outs u) (k : turned u = turned v ∧ outs u = outs v) : turned s = turned v ∧ outs s = outs v := ⟨h.1.trans k.1, h.2.trans k.2⟩

theorem alignWrites_turned (s : State) (p) : turned (s.alignWrites p) = turned s ∧ outs (s.alignWrites p) = outs s := by
  unfold State.alignWrites
  split
  · exact ⟨rfl, rfl⟩
  · exact turned_trans (alignBurst_turned _ _ _ _ _ _ _) (turned_trans (alignBurst_turned _ _ _ _ _ _ _) ⟨rfl, rfl⟩)

theorem alignReads_turned (s : State) (p d) : turned (s.alignReads p d) = turned s ∧ outs (s.alignReads p d) = outs s := by
  unfold State.alignReads
  dsimp only
  split
  · exact ⟨rfl, rfl⟩
  · exact turned_trans (alignBurst_turned _ _ _ _ _ _ _) (turned_trans (alignBurst_turned _ _ _ _ _ _ _) ⟨rfl, rfl⟩)

theorem playPair_turned (s : State) (p) : turned (s.playPair p) = turned s ∧ outsBut (s.playPair p) = outsBut s := by
  unfold State.playPair
  split
  · exact ⟨rfl, rfl⟩
  · exact ⟨rfl, rfl⟩

theorem playPairs_turned (s : State) : turnedBut s.playPairs = turnedBut s ∧ outsBut s.playPairs = outsBut s ∧ s.playPairs.mixer.round = (s.mixer.round + 1) % 8 := by
  have key : ∀ (l : List Nat) (s : State), turned (l.foldl (fun acc p => acc.playPair p) s) = turned s ∧ outsBut (l.foldl (fun acc p => acc.playPair p) s) = outsBut s := by
    intro l
    induction l with
    | nil => intro s; exact ⟨rfl, rfl⟩
    | cons p l ih => intro s; rw [List.foldl_cons]; exact ⟨(ih _).1.trans (playPair_turned s p).1, (ih _).2.trans (playPair_turned s p).2⟩
  unfold State.playPairs forEach
  obtain ⟨k1, k2⟩ := key (List.range 6) s
  generalize (List.range 6).foldl (fun acc p => acc.playPair p) s = w at k1 k2
  have hr : w.mixer.round = s.mixer.round := by simp only [turned, Prod.mk.injEq] at k1; exact k1.2.2.2.2.2.2.1
  unfold State.alignTurn
  have hx : ∀ (x : State) (r : Nat), turnedBut { x with mixer.round := r } = turnedBut x ∧ outsBut { x with mixer.round := r } = outsBut x := fun _ _ => ⟨rfl, rfl⟩
  have hw : ∀ o : Option (Nat × OutputPair), turnedBut (match o with
      | some (_, o) => (w.alignWrites w.mixer.round).alignReads w.mixer.round o.delay
      | none => w) = turnedBut w ∧ outsBut (match o with
      | some (_, o) => (w.alignWrites w.mixer.round).alignReads w.mixer.round o.delay
      | none => w) = outsBut w := by
    intro o
    cases o with
    | none => exact ⟨rfl, rfl⟩
    | some p =>
      have a := alignReads_turned (w.alignWrites w.mixer.round) w.mixer.round p.2.delay
      have b := alignWrites_turned w w.mixer.round
      exact ⟨turnedBut_of (a.1.trans b.1), outsBut_of (a.2.trans b.2)⟩
  exact ⟨((hx _ _).1.trans (hw _).1).trans (turnedBut_of k1), ((hx _ _).2.trans (hw _).2).trans k2, by rw [hr]⟩

theorem slipLimit_turned (s : State) : s.slipLimit.blend.round = s.blend.round ∧ (s.blend.state = .idle → s.slipLimit = s) := by
  unfold State.slipLimit State.fallBack
  refine ⟨?_, ?_⟩
  · dsimp only
    cases s.blend.state <;> dsimp only <;> (try rfl) <;> (rw [goBlend_eq]; rfl)
  · intro h; rw [h]

theorem portSample_turned (s : State) (i : InputSamples) : (s.portSample i).announce = s.announce ∧ (s.portSample i).call = s.call ∧ (s.portSample i).mixer = s.mixer ∧ (s.portSample i).store = s.store
    ∧ (s.portSample i).localCount = s.localCount ∧ (s.portSample i).follower = s.follower ∧ (s.portSample i).ports = (s.ports.sample i).1 ∧ (s.portSample i).blend.round = s.blend.round
    ∧ (s.blend.state = .idle → (s.portSample i).blend.state = .idle) := by
  unfold State.portSample
  dsimp only
  split
  · simp
  · generalize (s.ports.sample i).1 = p
    generalize s.ports.balance = b
    simp only [State.slipNotice_frame, true_and]
    unfold State.slipNotice
    dsimp only
    have hm : (s.blend.moveOldTap (p.balance - b)).round = s.blend.round ∧ (s.blend.moveOldTap (p.balance - b)).state = s.blend.state := ⟨rfl, rfl⟩
    generalize s.blend.moveOldTap (p.balance - b) = m at hm
    split
    · obtain ⟨a, c⟩ := slipLimit_turned { s with ports := p, blend := m }
      refine ⟨a.trans hm.1, ?_⟩
      intro h
      rw [c (hm.2.trans h)]
      exact hm.2.trans h
    · exact ⟨hm.1, fun h => hm.2.trans h⟩

def turnedBeforeBlend (s : State) := (s.announce.clips, s.announce.channels, s.call.state, s.call.round, s.mixer.round, s.store.refreshTick, s.localCount, s.ports, s.follower)

def turnedBeforeCall (s : State) := (s.announce.clips, s.announce.channels, s.blend.round, s.blend.out, s.mixer.round, s.store.refreshTick, s.localCount, s.ports, s.follower)

theorem turnedB_of {s u : State} (h : turned s = turned u ∧ outs s = outs u) : turnedBeforeBlend s = turnedBeforeBlend u := by
  simp only [turned, outs, Prod.mk.injEq] at h
  simp only [turnedBeforeBlend, h]

theorem turnedC_of {s u : State} (h : turned s = turned u ∧ outs s = outs u) : turnedBeforeCall s = turnedBeforeCall u := by
  simp only [turned, outs, Prod.mk.injEq] at h
  simp only [turnedBeforeCall, h]

theorem blendReads_turned (tap : Nat) (l : List Nat) (s : State) : turnedBeforeBlend (s.blendReads tap l) = turnedBeforeBlend s := by
  unfold State.blendReads
  induction l generalizing s with
  | nil => rfl
  | cons g l ih => rw [List.foldl_cons, ih]; exact (turnedB_of (request_turned _ _)).trans (turnedB_of (request_turned _ _))

theorem blendTurn_turned (s : State) : turnedBeforeBlend s.blendTurn = turnedBeforeBlend s := by
  unfold State.blendTurn
  split
  · unfold State.blendWrites
    split
    · rfl
    · exact (turnedB_of (request_turned _ _)).trans ((turnedB_of (request_turned _ _)).trans rfl)
  · exact (blendReads_turned _ _ _).trans rfl
  · split
    · rfl
    · exact (blendReads_turned _ _ _).trans rfl
  · split
    · rfl
    · exact (blendReads_turned _ _ _).trans rfl
  · rfl

theorem blendWork_turned (s : State) : turnedBeforeBlend s.blendWork = turnedBeforeBlend s := by
  simp only [turnedBeforeBlend, State.blendWork_frame]

theorem blendSample_turned (s : State) : turnedBeforeBlend s.blendSample = turnedBeforeBlend s ∧ s.blendSample.blend.round = (s.blend.round + 1) % 8
    ∧ (s.blend.state = .idle → s.blendSample.blend.out = .zero) := by
  unfold State.blendSample
  have hx : ∀ (x : State) (r : Nat), turnedBeforeBlend { x with blend.round := r } = turnedBeforeBlend x := fun _ _ => rfl
  refine ⟨(hx _ _).trans ?_, rfl, ?_⟩
  · split
    · rfl
    · exact (blendTurn_turned _).trans (blendWork_turned _)
  · intro h; rw [if_pos (.inl h)]

theorem echoTurn_turned (s : State) : turnedBeforeCall s.echoTurn = turnedBeforeCall s := by
  unfold State.echoTurn
  split
  · unfold State.echoWrite
    split
    · rfl
    · exact (turnedC_of (request_turned _ _)).trans rfl
  · split
    · unfold State.echoReads
      dsimp only
      have key : ∀ (l : List Nat) (n : Nat) (s : State), turnedBeforeCall (l.foldl (fun acc g => acc.request (burst .echo .read (g * 8) [] (acc.deadlineIn 8) (.echoRead n g))) s) = turnedBeforeCall s := by
        intro l n
        induction l with
        | nil => intro s; rfl
        | cons g l ih => intro s; rw [List.foldl_cons, ih]; exact turnedC_of (request_turned _ _)
      have key2 : ∀ (l : List Nat) (n : Nat) (d : BitVec 32) (s : State), turnedBeforeCall (l.foldl (fun acc g => acc.request (burst .echo .read (g * 8) [] d (.echoRead n g))) s) = turnedBeforeCall s := by
        intro l n d
        induction l with
        | nil => intro s; rfl
        | cons g l ih => intro s; rw [List.foldl_cons, ih]; exact turnedC_of (request_turned _ _)
      exact (key2 _ _ _ _).trans rfl
    · rfl

theorem callSample_turned (s : State) : turnedBeforeCall s.callSample = turnedBeforeCall s ∧ s.callSample.call.round = (s.call.round + 1) % 8 ∧ (s.call.state = .off → s.callSample.call.uplink = 0) := by
  unfold State.callSample
  have hx : ∀ (x : State) (r : Nat), turnedBeforeCall { x with call.round := r } = turnedBeforeCall x := fun _ _ => rfl
  refine ⟨(hx _ _).trans ?_, rfl, ?_⟩
  · split
    · rfl
    · refine (echoTurn_turned _).trans ?_
      simp only [turnedBeforeCall, State.cancelSample_frame]
  · intro h; simp [h]

theorem portsSample_facts (p : Ports) (i : InputSamples) :
    (p.sample i).1.inputs = [i.in0, i.in1, i.in2, i.in3] ∧ (p.sample i).1.arrivalGap = p.arrivalGap + 1
      ∧ (p.reading = false → (p.sample i).1.digital = none ∧ (p.sample i).1.buffer = p.buffer ∧ (p.sample i).1.balance = p.balance)
      ∧ (p.reading = true → p.buffer = [] → (p.sample i).1.reading = false ∧ (p.sample i).1.digital = none
          ∧ (p.sample i).1.balance = p.balance)
      ∧ (∀ x rest, p.reading = true → p.buffer = x :: rest →
          (p.slipGuard < 64 ∨ 8 ≤ p.buffer.length ∧ p.buffer.length ≤ 56 →
            (p.sample i).1.buffer = rest ∧ (p.sample i).1.digital = some x.sample ∧ (p.sample i).1.balance = p.balance
            ∧ (p.sample i).1.slipGuard = min 64 (p.slipGuard + 1))
          ∧ (p.buffer.length < 8 → 64 ≤ p.slipGuard →
            (p.sample i).1.buffer = p.buffer ∧ (p.sample i).1.digital = p.lastHanded.map (fun y => y.sample)
            ∧ (p.sample i).1.slipGuard = 0 ∧ (p.balance.natAbs < 257 → (p.sample i).1.balance = p.balance + 1))
          ∧ (∀ y more, 56 < p.buffer.length → 64 ≤ p.slipGuard → rest = y :: more →
            (p.sample i).1.buffer = more ∧ (p.sample i).1.digital = some y.sample
            ∧ (p.sample i).1.slipGuard = 0 ∧ (p.balance.natAbs < 257 → (p.sample i).1.balance = p.balance - 1))) := by
  unfold Ports.sample Ports.read
  dsimp only
  cases hr : p.reading
  · simp [Ports.handMissing, Ports.countRead]
  · cases hb : p.buffer with
    | nil => simp [Ports.handMissing, Ports.countRead]
    | cons x rest =>
      simp only [if_true]
      by_cases h1 : (x :: rest).length < 8 ∧ 64 ≤ p.slipGuard
      · rw [if_pos h1]
        cases hl : p.lastHanded with
        | none => simp [Ports.handMissing, Ports.countRead, Ports.slip]; (repeat' constructor) <;> intros <;> simp_all <;> omega
        | some y => simp [Ports.handOn, Ports.countRead, Ports.slip]; (repeat' constructor) <;> intros <;> simp_all <;> omega
      · rw [if_neg h1]
        by_cases h2 : 56 < (x :: rest).length ∧ 64 ≤ p.slipGuard
        · rw [if_pos h2]
          cases rest with
          | nil => simp at h2
          | cons y more => simp [Ports.handOn, Ports.countRead, Ports.slip]; (repeat' constructor) <;> intros <;> simp_all <;> omega
        · rw [if_neg h2]
          simp [Ports.handOn, Ports.countRead, Ports.countGuard]; (repeat' constructor) <;> intros <;> simp_all <;> omega

theorem cadenceSample_channel (s : State) (c : Nat) : s.cadenceSample.channel c = (s.channel c).count :=
  getD_map s.announce.channels CadenceChannel.count c .reset .reset rfl

end Sys2Proof.Machine
end

