-- ==== Sys2Proof/Laws/Memory.lean ====
section
/-! SUPPORT. The memory of the sample store: every operation keeps the canonical form, and what a word reads after it. -/

namespace Sys2Proof.Machine

/-- The memory of the machine right after reset has the canonical form. -/
theorem Memory.wf_reset : State.reset.store.memory.wf = true := rfl

/-- The addresses of a canonical memory lie above a bound. -/
theorem Memory.wf_cons (a : Nat) (v : Sample) (m : Memory) : Memory.wf ((a, v) :: m) = true ↔ v ≠ 0 ∧ m.wf = true ∧ ∀ c ∈ m, a < c.1 := by
  induction m generalizing a v with
  | nil => simp [Memory.wf]
  | cons c m ih =>
    obtain ⟨b, w⟩ := c
    have h := ih b w
    simp only [Memory.wf, Bool.and_eq_true, decide_eq_true_eq]
    constructor
    · rintro ⟨⟨h1, h2⟩, h3⟩
      refine ⟨h2, h3, ?_⟩
      intro c hc
      rcases List.mem_cons.mp hc with rfl | hc
      · exact h1
      · have := (h.mp h3).2.2 c hc; omega
    · rintro ⟨h1, h2, h3⟩
      exact ⟨⟨h3 (b, w) (by simp), h1⟩, h2⟩
/-- Writing adds no address but its own. -/
theorem Memory.write_mem (m : Memory) (a : Nat) (v : Sample) : ∀ c, c ∈ m.write a v → c ∈ m ∨ (c = (a, v) ∧ v ≠ 0) := by
  induction m with
  | nil => intro c; simp only [Memory.write]; split <;> simp_all
  | cons e m ih =>
    obtain ⟨k, w⟩ := e
    intro c
    simp only [Memory.write]
    split
    · split
      · intro h; exact .inl h
      · next hv => intro h; rcases List.mem_cons.mp h with h | h
                   · exact .inr ⟨h, hv⟩
                   · exact .inl h
    · split
      · split
        · intro h; exact .inl (List.mem_cons_of_mem _ h)
        · next hv => intro h; rcases List.mem_cons.mp h with h | h
                     · exact .inr ⟨h, hv⟩
                     · exact .inl (List.mem_cons_of_mem _ h)
      · intro h; rcases List.mem_cons.mp h with h | h
        · exact .inl (by rw [h]; simp)
        · rcases ih c h with h | h
          · exact .inl (List.mem_cons_of_mem _ h)
          · exact .inr h
/-- A write keeps the canonical form. -/
theorem Memory.wf_write (m : Memory) (a : Nat) (v : Sample) (h : m.wf = true) : (m.write a v).wf = true := by
  induction m with
  | nil => simp only [Memory.write]; split <;> simp_all [Memory.wf]
  | cons e m ih =>
    obtain ⟨k, w⟩ := e
    obtain ⟨h1, h2, h3⟩ := (Memory.wf_cons k w m).mp h
    simp only [Memory.write]
    split
    · next hk =>
      split
      · exact h
      · next hv =>
        rw [Memory.wf_cons]
        refine ⟨hv, h, ?_⟩
        intro c hc
        rcases List.mem_cons.mp hc with rfl | hc
        · exact hk
        · have := h3 c hc; omega
    · split
      · next hk =>
        split
        · exact h2
        · next hv => rw [Memory.wf_cons]; exact ⟨hv, h2, by rw [hk]; exact h3⟩
      · next hk1 hk2 =>
        rw [Memory.wf_cons]
        refine ⟨h1, ih h2, ?_⟩
        intro c hc
        rcases Memory.write_mem m a v c hc with hc | ⟨rfl, _⟩
        · exact h3 c hc
        · dsimp only; omega
/-- Keeping banks keeps the canonical form. -/
theorem Memory.wf_keepBanks (m : Memory) (keep : Nat → Bool) (h : m.wf = true) : (m.keepBanks keep).wf = true := by
  unfold Memory.keepBanks
  induction m with
  | nil => rfl
  | cons e m ih =>
    obtain ⟨k, w⟩ := e
    obtain ⟨h1, h2, h3⟩ := (Memory.wf_cons k w m).mp h
    rw [List.filter_cons]
    split
    · rw [Memory.wf_cons]; exact ⟨h1, ih h2, fun c hc => h3 c ((List.mem_filter.mp hc).1)⟩
    · exact ih h2
/-- A word whose address is not listed reads as zero. -/
theorem Memory.read_above (m : Memory) (a : Nat) (h : ∀ c ∈ m, a < c.1) : m.read a = 0 := by
  induction m with
  | nil => rfl
  | cons e m ih =>
    obtain ⟨k, w⟩ := e
    simp only [Memory.read]
    rw [if_neg (by have := h (k, w) (by simp); dsimp only at this; omega)]
    exact ih (fun c hc => h c (by simp [hc]))
theorem Memory.read_write (m : Memory) (a x : Nat) (v : Sample) (h : m.wf = true) : (m.write a v).read x = if x = a then v else m.read x := by
  induction m with
  | nil =>
    simp only [Memory.write]; split
    · next hv => simp [Memory.read, hv]
    · simp only [Memory.read]
      by_cases hx : x = a
      · rw [if_pos hx.symm, if_pos hx]
      · rw [if_neg (fun h => hx h.symm), if_neg hx]
  | cons e m ih =>
    obtain ⟨k, w⟩ := e
    obtain ⟨h1, h2, h3⟩ := (Memory.wf_cons k w m).mp h
    simp only [Memory.write]
    split
    · next hk =>
      split
      · next hv =>
        by_cases hx : x = a
        · rw [if_pos hx, hv, hx]; apply Memory.read_above; intro c hc
          rcases List.mem_cons.mp hc with rfl | hc
          · exact hk
          · have := h3 c hc; omega
        · rw [if_neg hx]
      · simp only [Memory.read]
        by_cases hx : x = a
        · rw [if_pos hx.symm, if_pos hx]
        · rw [if_neg (fun h => hx h.symm), if_neg hx]
    · split
      · next hk =>
        split
        · next hv =>
          by_cases hx : x = a
          · rw [if_pos hx, hv, hx]; apply Memory.read_above; rw [hk]; exact h3
          · rw [if_neg hx]; simp only [Memory.read]; rw [if_neg (by omega)]
        · simp only [Memory.read]
          by_cases hx : x = a
          · rw [if_pos hx.symm, if_pos hx]
          · rw [if_neg (fun h => hx h.symm), if_neg hx, if_neg (by omega)]
      · next hk1 hk2 =>
        simp only [Memory.read]
        by_cases hx : k = x
        · rw [if_pos hx, if_pos hx, if_neg (by omega)]
        · rw [if_neg hx, if_neg hx, ih h2]
/-- Keeping banks keeps their words, and every other word reads zero. -/
theorem Memory.read_keepBanks (m : Memory) (k : Nat → Bool) (a : Nat) : (m.keepBanks k).read a = if k (a / bankWords) then m.read a else 0 := by
  unfold Memory.keepBanks
  induction m with
  | nil => simp [Memory.read]
  | cons c m ih =>
    rw [List.filter_cons]
    split
    · next hk =>
      obtain ⟨b, v⟩ := c
      simp only [Memory.read]
      split
      · subst b; simp at hk; simp [hk]
      · exact ih
    · next hk =>
      obtain ⟨b, v⟩ := c
      rw [ih]; simp only [Memory.read]
      split
      · split
        · subst b; simp_all
        · rfl
      · rfl
/-- Nothing lands where no burst is in flight. -/
theorem Store.landBursts_none (st : Store) (h : ∀ q, st.inFlight q = false) : st.landBursts = st := by
  unfold Store.landBursts allQueues
  have : ∀ l : List QueueId, l.foldl (fun acc q => match acc.queue q with
    | r :: _ => if acc.inFlight q ∧ r.access = .write then acc.writeBurst r else acc
    | [] => acc) st = st := by
    intro l
    induction l with
    | nil => rfl
    | cons q l ih =>
      rw [List.foldl_cons]
      have : (match st.queue q with
        | r :: _ => if st.inFlight q ∧ r.access = .write then st.writeBurst r else st
        | [] => st) = st := by
        split
        · simp [h]
        · rfl
      rw [this, ih]
  exact this _
@[simp] theorem Store.writeWord_memory (st : Store) (a : Nat) (v : Sample) : (st.writeWord a v).memory = st.memory.write a v := by
  unfold Store.writeWord; dsimp only; split
  · split <;> rfl
  · rfl
@[simp] theorem Store.writeWord_regions (st : Store) (a : Nat) (v : Sample) : (st.writeWord a v).regions = st.regions := by
  unfold Store.writeWord; dsimp only; split
  · split <;> rfl
  · rfl
/-- The words a list of data writes from an address. -/
theorem writeData (l : List (Nat × Sample)) (words a : Nat) (st : Store) (h : st.memory.wf = true) :
    let u := l.foldl (fun acc d => if d.1 < words then acc.writeWord (a + d.1) d.2 else acc) st
    u.memory.wf = true ∧ (∀ x, (∀ d, d ∈ l → d.1 < words → x ≠ a + d.1) → u.memory.read x = st.memory.read x)
    ∧ (∀ d, d ∈ l → d.1 < words → (∀ e, e ∈ l → e.1 = d.1 → e = d) → u.memory.read (a + d.1) = d.2) := by
  induction l generalizing st with
  | nil => exact ⟨h, fun _ _ => rfl, fun d hd => by simp at hd⟩
  | cons c l ih =>
    simp only [List.foldl_cons]
    by_cases hc : c.1 < words
    · rw [if_pos hc]
      have hw : (st.writeWord (a + c.1) c.2).memory.wf = true := by rw [Store.writeWord_memory]; exact Memory.wf_write _ _ _ h
      obtain ⟨i1, i2, i3⟩ := ih _ hw
      refine ⟨i1, ?_, ?_⟩
      · intro x hx
        rw [i2 x (fun d hd => hx d (by simp [hd])), Store.writeWord_memory, Memory.read_write _ _ _ _ h, if_neg (hx c (by simp) hc)]
      · intro d hd hdw hu
        by_cases hdl : d ∈ l
        · exact i3 d hdl hdw (fun e he => hu e (by simp [he]))
        · have hcd : c = d := by rcases List.mem_cons.mp hd with h | h; exact h.symm; exact absurd h hdl
          subst hcd
          rw [i2 _ ?_, Store.writeWord_memory, Memory.read_write _ _ _ _ h, if_pos rfl]
          intro e he _ heq
          have : e = c := hu e (by simp [he]) (by omega)
          rw [this] at he; exact hdl he
    · rw [if_neg hc]
      obtain ⟨i1, i2, i3⟩ := ih st h
      refine ⟨i1, ?_, ?_⟩
      · intro x hx; exact i2 x (fun d hd => hx d (by simp [hd]))
      · intro d hd hdw hu
        have hdl : d ∈ l := by rcases List.mem_cons.mp hd with h | h; rw [h] at hdw; exact absurd hdw hc; exact h
        exact i3 d hdl hdw (fun e he => hu e (by simp [he]))
theorem Store.completeBurst_some (st : Store) (b : Nat) (q : QueueId) (r : Request) (rest : List Request) (h1 : (st.bank b).burst = some q) (h2 : st.queue q = r :: rest) :
    ∃ w o, st.completeBurst b = (w, some (r, o)) ∧ w.memory = (if r.access = .write then (st.writeBurst r).memory else st.memory) := by
  unfold Store.completeBurst; rw [h1]; dsimp only; rw [h2]
  refine ⟨_, _, rfl, ?_⟩
  split <;> rfl

/-- The words of a burst's write set keep the canonical form. -/
theorem Store.wf_writeBurst (st : Store) (r : Request) (h : st.memory.wf = true) : (st.writeBurst r).memory.wf = true := by
  unfold Store.writeBurst
  split
  · next a _ => exact (writeData r.data r.words a st h).1
  · exact h

/-- The bursts that land as retention begins keep the canonical form. -/
theorem Store.wf_landBursts (st : Store) (h : st.memory.wf = true) : st.landBursts.memory.wf = true := by
  unfold Store.landBursts
  generalize allQueues = l
  induction l generalizing st with
  | nil => exact h
  | cons q l ih =>
    rw [List.foldl_cons]
    refine ih _ ?_
    split
    · split
      · exact Store.wf_writeBurst _ _ h
      · exact h
    · exact h

/-- Retention keeps the canonical form. -/
theorem Store.wf_retain (st : Store) (h : st.memory.wf = true) : st.retain.memory.wf = true :=
  Memory.wf_keepBanks _ _ (Store.wf_landBursts st h)

/-- The end of a burst keeps the canonical form. -/
theorem Store.wf_completeBurst (st : Store) (b : Nat) (h : st.memory.wf = true) : (st.completeBurst b).1.memory.wf = true := by
  unfold Store.completeBurst
  split
  · exact h
  · split
    · exact h
    · dsimp only
      show (if _ then _ else _ : Store).memory.wf = true
      split
      · exact Store.wf_writeBurst _ _ h
      · exact h

end Sys2Proof.Machine
end

