-- ==== Sys2Proof/Laws/MemoryKept.lean ====
section
/-! SUPPORT. Every operation keeps the canonical form of the store's words. -/

namespace Sys2Proof.Machine

set_option maxRecDepth 20000

/-- A wake keeps the words. -/
theorem wake_memory (s : State) (cause : Cause) (b : Bool) : (s.wake cause b).store.memory = s.store.memory := by
  unfold State.wake
  split
  · rfl
  · simp; rfl

/-- The assertion of the pin keeps the canonical form. -/
theorem assertPin_wf (s : State) (h : s.memoryCanonical) : s.assertPin.memoryCanonical := by
  unfold State.assertPin; split
  · exact h
  · refine Store.wf_retain _ ?_
    unfold State.storeInForce; split <;> exact h

/-- Every operation keeps the canonical form. -/
theorem memory_kept : Kept State.memoryCanonical where
  lineSilent := by intro a0 h; unfold State.memoryCanonical at *; simpa using h
  enterDormant := by
    intro s h; unfold State.enterDormant; split
    · exact Store.wf_retain _ (by unfold State.memoryCanonical at h; simpa using h)
    · exact h
  selfVetoDue := by intro a0 h; unfold State.memoryCanonical at *; simpa using h
  listenEnd := by intro a0 h; unfold State.memoryCanonical at *; simpa using h
  agedOut := by intro a0 a1 h; unfold State.memoryCanonical at *; simpa using h
  freeSlot := by intro a0 a1 h; unfold State.memoryCanonical at *; simpa using h
  readyEntries := by intro a0 h; unfold State.memoryCanonical at *; simpa using h
  presenceFallsDue := by intro a0 h; unfold State.memoryCanonical at *; simpa using h
  silenceEnded := by intro a0 h; unfold State.memoryCanonical at *; simpa using h
  noteStall := by intro a0 h; unfold State.memoryCanonical at *; simpa using h
  noteExpiry := by intro a0 h; unfold State.memoryCanonical at *; simpa using h
  uplinkRetry := by intro a0 h; unfold State.memoryCanonical at *; simpa using h
  carryRetry := by intro a0 a1 h; unfold State.memoryCanonical at *; simpa using h
  arrivalGap := by intro a0 h; unfold State.memoryCanonical at *; simpa using h
  qualityBlock := by intro a0 h; unfold State.memoryCanonical at *; simpa using h
  endGateRamp := by intro a0 h; unfold State.memoryCanonical at *; simpa using h
  endEntryRamp := by intro a0 a1 a2 h; unfold State.memoryCanonical at *; simpa using h
  endPositionRamp := by intro a0 a1 h; unfold State.memoryCanonical at *; simpa using h
  refreshDebtRise := by intro a0 h; unfold State.memoryCanonical at *; simpa using h
  filled := by intro a0 h; unfold State.memoryCanonical at *; simpa using h
  primingDone := by intro a0 h; unfold State.memoryCanonical at *; simpa using h
  correlationResult := by intro a0 h; unfold State.memoryCanonical at *; simpa using h
  crossfadeEnd := by intro a0 h; unfold State.memoryCanonical at *; simpa using h
  toDigitalComplete := by intro a0 h; unfold State.memoryCanonical at *; simpa using h
  toAnalogueComplete := by intro a0 h; unfold State.memoryCanonical at *; simpa using h
  cancellerBlock := by intro a0 h; unfold State.memoryCanonical at *; simpa using h
  freezeEnd := by intro a0 h; unfold State.memoryCanonical at *; simpa using h
  referenceLost := by intro a0 h; unfold State.memoryCanonical at *; simpa using h
  triggerFollowers := by intro a0 a1 h; unfold State.memoryCanonical at *; simpa using h
  countRepetition := by intro a0 a1 h; unfold State.memoryCanonical at *; simpa using h
  fire := by intro a0 a1 h; unfold State.memoryCanonical at *; simpa using h
  playCompleted := by intro a0 a1 h; unfold State.memoryCanonical at *; simpa using h
  recordRead := by intro a0 a1 h; unfold State.memoryCanonical at *; simpa using h
  startSeen := by
    intro s b h; unfold State.startSeen; split
    · unfold State.memoryCanonical at *; simpa [wake_memory] using h
    · unfold State.memoryCanonical at *; simpa using h
  leadStart := by intro a0 h; unfold State.memoryCanonical at *; simpa using h
  expireTimer := by intro a0 h; unfold State.memoryCanonical at *; simpa using h
  missFurther := by intro a0 h; unfold State.memoryCanonical at *; simpa using h
  controlField := by intro a0 a1 a2 h; unfold State.memoryCanonical at *; simpa using h
  audioSlots := by intro a0 a1 h; unfold State.memoryCanonical at *; simpa using h
  tailEnd := by intro a0 a1 h; unfold State.memoryCanonical at *; simpa using h
  messageEffect := by intro a0 a1 a2 h; unfold State.memoryCanonical at *; simpa using h
  localSample := by intro a0 a1 h; unfold State.memoryCanonical at *; simpa using h
  decoderArrives := by intro a0 a1 a2 h; unfold State.memoryCanonical at *; simpa using h
  burstComplete := by
    intro s b h; unfold State.burstComplete State.memoryCanonical at *
    have := Store.wf_completeBurst s.store b h
    split
    · next e => rw [e] at this; exact this
    · next e => rw [e] at this; simpa using this
  completeOpen := by intro a0 a1 h; unfold State.memoryCanonical at *; simpa using h
  completeClose := by intro a0 a1 h; unfold State.memoryCanonical at *; simpa using h
  completeRefresh := by intro a0 a1 h; unfold State.memoryCanonical at *; simpa using h
  keepUpStart := by intro a0 h; unfold State.memoryCanonical at *; simpa using h
  host := by intro a0 a1 h; unfold State.memoryCanonical at *; simpa using h
  noteBox := by intro a0 a1 h; unfold State.memoryCanonical at *; simpa using h
  rest := by
    intro s q h; exact h
  enterHost := by intro a0 a1 a2 a3 q h; unfold State.memoryCanonical at *; simpa using h
  leaveLine := by intro a0 h; unfold State.memoryCanonical at *; simpa using h
  goToListening := by intro a0 h; unfold State.memoryCanonical at *; simpa using h
  wake := by
    intro s c b h; unfold State.memoryCanonical at *; rw [wake_memory]; exact h
  judgeRoute := by intro a0 a1 a2 a3 a4 h; unfold State.memoryCanonical at *; simpa using h
  clipLoadBegin := by intro a0 a1 a2 a3 h; unfold State.memoryCanonical at *; simpa using h
  clipData := by intro a0 a1 a2 h; unfold State.memoryCanonical at *; simpa using h
  clipLoadEnd := by intro a0 a1 h; unfold State.memoryCanonical at *; simpa using h
  clipLock := by intro a0 a1 h; unfold State.memoryCanonical at *; simpa using h
  startPlay := by
    intro s u c l r p e h; unfold State.memoryCanonical at *
    have := (State.startPlay_frame s c l r .host (p, u) e); simp only at this; simp [this, h]
  cadenceSet := by intro a0 a1 a2 h; unfold State.memoryCanonical at *; simpa using h
  cadenceStart := by intro a0 a1 h; unfold State.memoryCanonical at *; simpa using h
  cadenceStop := by intro a0 a1 h; unfold State.memoryCanonical at *; simpa using h
  blendEnable := by intro a0 h; unfold State.memoryCanonical at *; simpa using h
  blendDisable := by intro a0 h; unfold State.memoryCanonical at *; simpa using h
  tuned := by intro a0 h; unfold State.memoryCanonical at *; simpa using h
  beginNote := by intro a0 a1 a2 a3 h; unfold State.memoryCanonical at *; simpa using h
  powerOn := by
    intro s h; rfl
  assertPin := assertPin_wf
  resetLine := by
    intro s h; exact assertPin_wf s h

end Sys2Proof.Machine
end

