-- ==== Sys2Proof/Laws/ZoneChanges.lean ====
section
/-! SUPPORT. What the zone mixer makes of a zone at a stream notice, at a change of station state and at a change of the call records
(R99 to R103, R107, R110, R111). -/

namespace Sys2Proof.Machine

set_option linter.unusedSimpArgs false

/-! ## Targets (R107) -/

theorem dominant_some (v : Zone) (top : Nat) : v.dominant = some top ↔ v.dominatedBy top := by
  unfold Zone.dominant Zone.dominatedBy
  split
  · simp [eq_comm]
  · rw [List.min?_eq_some_iff]
    simp only [List.mem_filterMap, List.mem_filter, beq_iff_eq]
    constructor
    · rintro ⟨⟨e, ⟨he, hl⟩, hc⟩, hm⟩
      exact ⟨⟨e, he, hl, hc⟩, fun f c hf hfl hfc => hm c ⟨f, ⟨hf, hfl⟩, hfc⟩⟩
    · rintro ⟨⟨e, he, hl, hc⟩, hm⟩
      exact ⟨⟨e, ⟨he, hl⟩, hc⟩, fun c ⟨f, ⟨hf, hfl⟩, hfc⟩ => hm f c hf hfl hfc⟩

theorem targetGain_for (d : ZoneDefinition) (v : Zone) (e : RouteEntry) : targetFor d v e (targetGain d v.dominant e) := by
  refine ⟨fun h => by simp [targetGain, h], fun hl h => ?_, fun c top hl hc h3 ht hlt => ?_⟩
  · unfold targetGain
    rw [if_neg hl]
    split
    · next c top hc ht => rw [if_pos (h c top hc ((dominant_some v top).mp ht))]
    · rfl
  · have ht' := (dominant_some v top).mpr ht
    have : c = 1 ∨ c = 2 ∨ c = 3 := by omega
    unfold targetGain
    simp only [hl, if_false, hc, ht', Nat.not_le.mpr hlt]
    rcases this with rfl | rfl | rfl <;>
      simp only [policyOf, duckPolicyFor, if_true, if_false, show ¬((2 : Nat) = 1) by decide, show ¬((3 : Nat) = 1) by decide,
        show ¬((3 : Nat) = 2) by decide] <;>
      exact ⟨fun h => by rw [h], fun h => by rw [h], fun h => by rw [h]⟩

theorem retargetEntry_aimed (d : ZoneDefinition) (v : Zone) (e : RouteEntry) :
    ∃ q g, retargetEntry d v.dominant e = { e with ramp := q } ∧ targetFor d v e g ∧ rampAimed e.state e.ramp q g := by
  refine ⟨(retargetEntry d v.dominant e).ramp, targetGain d v.dominant e, ?_, targetGain_for d v e, ?_⟩
  · unfold retargetEntry; dsimp only; split
    · rfl
    · split <;> rfl
  · unfold retargetEntry rampAimed
    dsimp only
    by_cases hw : e.state = .waiting
    · simp [hw, Ramp.at]
    · by_cases ht : targetGain d v.dominant e = e.ramp.target
      · simp [hw, ht]
      · rw [if_neg hw, if_neg ht]
        refine ⟨fun h => absurd h hw, fun _ h => absurd h ht, fun _ _ hc => ?_, fun _ _ hc => ?_⟩
        · show Ramp.toTarget _ _ = _
          unfold Ramp.toTarget; rw [if_neg hc]
        · show (Ramp.toTarget _ _).current = _ ∧ (Ramp.toTarget _ _).running = _ ∧ (Ramp.toTarget _ _).target = _
          unfold Ramp.toTarget; rw [if_pos hc]; exact ⟨rfl, rfl, rfl⟩

theorem map_aimed (d : ZoneDefinition) (v : Zone) : zoneAimed d v { v with routes := v.routes.map (retargetEntry d v.dominant) } := by
  refine ⟨rfl, by simp, fun k e he => ?_⟩
  obtain ⟨q, g, h1, h2, h3⟩ := retargetEntry_aimed d v e
  exact ⟨q, g, by simp [he, h1], h2, h3⟩

theorem retarget_aimed (s : State) (z : Nat) (d : ZoneDefinition) (hd : s.definitions[z]? = some d)
    (hz : z < s.mixer.zones.length) : zoneAimed d (s.zone z) ((s.retarget z).zone z) := by
  rw [retarget_zone s z d hd hz]; exact map_aimed d (s.zone z)

theorem retarget_onZone_aimed (s : State) (z : Nat) (f : Zone → Zone) (d : ZoneDefinition) (hd : s.definitions[z]? = some d)
    (hz : z < s.mixer.zones.length) : zoneAimed d (f (s.zone z)) (((s.onZone z f).retarget z).zone z) := by
  rw [retarget_onZone s z f d hd hz]; exact map_aimed d (f (s.zone z))

/-! ## Places in a list (R99) -/

theorem placeRoute_placed (e : RouteEntry) (l : List RouteEntry) : placedIn e l (placeRoute e l) := by
  induction l with
  | nil => exact ⟨[], [], rfl, rfl, by simp, by simp⟩
  | cons f l ih =>
    unfold placeRoute
    split
    · next h => exact ⟨[], f :: l, rfl, rfl, by simp, by simpa [RouteEntry.rank] using h⟩
    · next h =>
      obtain ⟨b, c, h1, h2, h3, h4⟩ := ih
      refine ⟨f :: b, c, by rw [h1]; rfl, by rw [h2]; rfl, ?_, h4⟩
      intro g hg
      rcases List.mem_cons.mp hg with rfl | hg
      · simpa [RouteEntry.rank] using h
      · exact h3 g hg

/-! ## Routing actions (R102, R103) -/

theorem standing_eq (s : State) (x : Nat) : (if s.mayPlay x then RouteState.live else .waiting)
    = if s.member.station = .member ∧ (s.tables.entry x).isCarried = true then .live else .waiting := by
  simp [State.mayPlay]

theorem setRouteLevel_taken (s : State) (z x level : Nat) (hz : z < s.mixer.zones.length)
    (h : holdsRoute x (s.zone z).routes = true) :
    (∀ y, y ≠ z → (s.setRouteLevel z x level).1.zone y = s.zone y)
    ∧ ∀ d, s.definitions[z]? = some d → zoneAimed d { s.zone z with routes := (s.zone z).routes.map (fun e =>
        if e.stream = x then { e with level := level, state := if e.state = .leaving then (if s.member.station = .member
          ∧ (s.tables.entry x).isCarried = true then .live else .waiting) else e.state } else e) }
        ((s.setRouteLevel z x level).1.zone z) := by
  unfold State.setRouteLevel
  rw [if_pos h]
  refine ⟨fun y hy => retarget_onZone_other _ _ _ _ hy, fun d hd => ?_⟩
  dsimp only
  rw [standing_eq]
  exact retarget_onZone_aimed s z (fun v => { v with routes := onRoute x (fun e =>
    { e with level := level, state := if e.state = .leaving then (if s.member.station = .member
        ∧ (s.tables.entry x).isCarried = true then .live else .waiting) else e.state }) v.routes }) d hd hz

theorem judgeRoute_taken (s : State) (z x action level : Nat) (hz : z < s.mixer.zones.length) (ha : action ≤ 2)
    (ht : (s.judgeRoute z x action level).2 = .taken) : s.routeTaken (s.judgeRoute z x action level).1 z x action level := by
  have hc : action = 0 ∨ action = 1 ∨ action = 2 := by omega
  rcases hc with rfl | rfl | rfl
  · change (s.addRoute z x level).2 = _ at ht
    show s.routeTaken (s.addRoute z x level).1 z x 0 level
    unfold State.addRoute at ht ⊢
    split at ht
    · cases ht
    next p hp =>
    simp only [hp]
    split at ht
    · cases ht
    next hk =>
    rw [if_neg hk]
    split at ht
    · next hh =>
      rw [if_pos hh]
      obtain ⟨h1, h2⟩ := setRouteLevel_taken s z x level hz hh
      exact ⟨h1, fun d hd => ⟨fun _ h => absurd hh h, fun _ _ => h2 d hd, fun h => absurd h (by decide)⟩⟩
    next hh =>
    rw [if_neg hh]
    split at ht
    · cases ht
    next hf =>
    rw [if_neg hf]
    refine ⟨fun y hy => ?_, fun d hd => ⟨fun _ _ p' hp' => ?_, fun _ h => absurd h hh, fun h => absurd h (by decide)⟩⟩
    · exact retarget_onZone_other { s with mixer.nextAge := s.mixer.nextAge + 1 } _ _ _ hy
    · have hpp : p = p' := Option.some.inj (hp.symm.trans hp')
      subst hpp
      refine ⟨s.mixer.nextAge, _, placeRoute_placed _ _, ?_⟩
      rw [← standing_eq]
      exact retarget_onZone_aimed { s with mixer.nextAge := s.mixer.nextAge + 1 } z _ d hd hz
  · change (s.setRouteLevel z x level).2 = _ at ht
    show s.routeTaken (s.setRouteLevel z x level).1 z x 1 level
    by_cases hh : holdsRoute x (s.zone z).routes = true
    · obtain ⟨h1, h2⟩ := setRouteLevel_taken s z x level hz hh
      exact ⟨h1, fun d hd => ⟨fun h => absurd h (by decide), fun _ _ => h2 d hd, fun h => absurd h (by decide)⟩⟩
    · unfold State.setRouteLevel at ht; rw [if_neg hh] at ht; cases ht
  · change (s.removeRoute z x).2 = _ at ht
    show s.routeTaken (s.removeRoute z x).1 z x 2 level
    unfold State.removeRoute at ht ⊢
    split at ht
    · cases ht
    next e he =>
    simp only [he]
    have K : ∀ u : State, (∀ y, y ≠ z → u.zone y = s.zone y) →
        (∀ d, s.definitions[z]? = some d →
          (e.state = .waiting ∨ (e.state = .live ∧ e.ramp.current = 0) →
            zoneAimed d { s.zone z with routes := (s.zone z).routes.filter (fun e => e.stream != x) } (u.zone z))
          ∧ (e.state = .live → e.ramp.current ≠ 0 → zoneAimed d { s.zone z with routes := (s.zone z).routes.map (fun e =>
              if e.stream = x then { e with state := .leaving } else e) } (u.zone z))
          ∧ (e.state = .leaving → u.mixer = s.mixer)) → s.routeTaken u z x 2 level := by
      intro u h1 h2
      refine ⟨h1, fun d hd => ⟨fun h => absurd h (by decide), fun h => absurd h (by decide), fun _ f hf => ?_⟩⟩
      rw [he] at hf; cases hf; exact h2 d hd
    cases hs : e.state with
    | waiting =>
      refine K _ (fun y hy => retarget_onZone_other _ _ _ _ hy) (fun d hd => ⟨fun _ => ?_, fun h => ?_, fun h => ?_⟩)
      · exact retarget_onZone_aimed s z (fun v => { v with routes := dropRoute x v.routes }) d hd hz
      · simp [hs] at h
      · simp [hs] at h
    | live =>
      dsimp only
      split
      · next h0 =>
        refine K _ (fun y hy => retarget_onZone_other _ _ _ _ hy) (fun d hd => ⟨fun _ => ?_, fun _ h => absurd h0 h, fun h => ?_⟩)
        · exact retarget_onZone_aimed s z (fun v => { v with routes := dropRoute x v.routes }) d hd hz
        · simp [hs] at h
      · next h0 =>
        refine K _ (fun y hy => retarget_onZone_other _ _ _ _ hy) (fun d hd => ⟨fun h => ?_, fun _ _ => ?_, fun h => ?_⟩)
        · simp [hs, h0] at h
        · exact retarget_onZone_aimed s z (fun v => { v with routes := onRoute x (fun e => { e with state := .leaving }) v.routes }) d hd hz
        · simp [hs] at h
    | leaving =>
      exact K s (fun y _ => rfl) (fun d hd => ⟨fun h => by simp [hs] at h, fun h => by simp [hs] at h, fun _ => rfl⟩)

/-! ## Call positions (R110, R111) -/

theorem selectedCall_fills (t : LineTables) (d : ZoneDefinition) (j : Nat) :
    t.selectedCall d.kind d.id = some j ↔ t.fills d j := by
  have A : ∀ k, recordSelects d.kind d.id .active (t.call k) = true ↔ (t.call k).state = .active ∧ inSet (t.call k).zones d.id = true := by
    intro k; simp [recordSelects]
  have R : ∀ k, recordSelects d.kind d.id .ringing (t.call k) = true ↔
      d.kind = .openZone ∧ (t.call k).state = .ringing ∧ inSet (t.call k).zones d.id = true := by
    intro k
    simp only [recordSelects, Bool.and_eq_true, Bool.or_eq_true, beq_iff_eq]
    constructor
    · rintro ⟨⟨a, b⟩, h | ⟨-, c⟩⟩
      · cases h
      · exact ⟨c, a, b⟩
    · rintro ⟨c, a, b⟩; exact ⟨⟨a, b⟩, .inr ⟨trivial, c⟩⟩
  have F : ∀ p : Nat → Bool, (List.range 2).find? p = some j ↔ (p j = true ∧ j < 2 ∧ ∀ k, k < j → ¬p k = true) := by
    intro p; rw [List.find?_range_eq_some]; simp
  have N : ∀ p : Nat → Bool, (List.range 2).find? p = none ↔ ∀ k, k < 2 → ¬p k = true := by
    intro p; rw [List.find?_eq_none]; simp
  unfold LineTables.selectedCall LineTables.fills
  dsimp only
  simp only [← A, ← R]
  have RR : ∀ k, (k < 2 ∧ d.kind = .openZone ∧ (t.call k).state = .ringing ∧ inSet (t.call k).zones d.id = true) ↔
      (k < 2 ∧ recordSelects d.kind d.id .ringing (t.call k) = true) := fun k => by rw [R]
  split
  · next i hi =>
    have hi' := (List.find?_range_eq_some).mp hi
    constructor
    · intro h
      have e := Option.some.inj h; subst e
      left
      obtain ⟨h1, h2, h3⟩ := hi'
      exact ⟨⟨by simpa using h2, h1⟩, fun k hk hc => by have := h3 k hk; simp [hc.2] at this⟩
    · rintro (⟨⟨h1, h2⟩, h3⟩ | ⟨-, h, -⟩)
      · rw [← hi, F]; exact ⟨h2, h1, fun k hk hc => h3 k hk ⟨by omega, hc⟩⟩
      · exact absurd ⟨by simpa using hi'.2.1, hi'.1⟩ (h i)
  · next hn =>
    have hn' := (N _).mp hn
    rw [F]
    constructor
    · rintro ⟨h1, h2, h3⟩
      exact .inr ⟨⟨h2, h1⟩, fun k hk => hn' k hk.1 hk.2, fun k hk hc => h3 k hk hc.2⟩
    · rintro (⟨⟨h1, h2⟩, -⟩ | ⟨⟨h1, h2⟩, -, h3⟩)
      · exact absurd h2 (hn' j h1)
      · exact ⟨h2, h1, fun k hk hc => h3 k hk ⟨by omega, hc⟩⟩

/-- The position that a zone's definition and the tables give (R110). -/
def State.positionNext (s : State) (d : ZoneDefinition) (p : CallPosition) : CallPosition :=
  let w := s.positionWanted d
  { state := w.1, downlink := w.2.1, record := w.2.2, ramp := positionRamp p w.1 w.2.1 }

theorem positionNext_taken (s : State) (d : ZoneDefinition) (p : CallPosition) : s.positionTaken d p (s.positionNext d p) := by
  have M : ∀ x, s.mayPlay x = true ↔ s.hearsStream x := by intro x; simp [State.mayPlay, State.hearsStream]
  have W : (s.positionNext d p).ramp = positionRamp p (s.positionNext d p).state (s.positionNext d p).downlink := rfl
  refine ⟨?_, ?_, ?_, ?_, ?_⟩
  · intro h
    show (s.positionWanted d).1 = .empty ∧ (s.positionWanted d).2.1 = none
    unfold State.positionWanted
    split
    · exact ⟨rfl, rfl⟩
    · next j hj =>
      split
      · exact ⟨rfl, rfl⟩
      · next x hx => exact absurd hx (h j x ((selectedCall_fills _ _ _).mp hj))
  · intro j x hj hx
    show (s.positionWanted d).2.1 = some x ∧ (_ → (s.positionWanted d).1 = .live) ∧ (_ → (s.positionWanted d).1 = .waiting)
    unfold State.positionWanted
    rw [(selectedCall_fills _ _ _).mpr hj]
    simp only [hx]
    rw [← M]
    exact ⟨trivial, fun h => by rw [if_pos h], fun h => by rw [if_neg h]⟩
  · intro h; rw [W]; unfold positionRamp; rw [if_pos h]
  · intro h hl; rw [W]; unfold positionRamp; rw [if_neg h, if_pos hl]
    simp [Ramp.toTarget, Ramp.at, gainOne]
  · intro h hl; rw [W]; unfold positionRamp; rw [if_neg h, if_neg hl]; exact ⟨rfl, rfl⟩

end Sys2Proof.Machine
end

