-- ==== Sys2Proof/Laws/Notices.lean ====
section
/-! SUPPORT. What the zones make of a stream notice and of a change of the call records, with the events raised (R53, R100, R101,
R107, R110, R111). -/

namespace Sys2Proof.Machine

set_option linter.unusedSimpArgs false

/-! ## Events (R180) -/

/-- Every event between two states has joined the event list in its order, and what an event is stamped and judged by stands. -/
def State.grew (s u : State) : Prop :=
  (∃ l : List EventRecord, u.host.events = l.foldl (fun events r => addEvent r events) s.host.events)
    ∧ u.tables.frameCount = s.tables.frameCount ∧ u.hasHost = s.hasHost

theorem grew_refl (s : State) : s.grew s := ⟨⟨[], rfl⟩, rfl, rfl⟩

theorem grew_of_host {s u : State} (h : u.host = s.host) (ht : u.tables.frameCount = s.tables.frameCount)
    (hh : u.hasHost = s.hasHost) : s.grew u := ⟨⟨[], by rw [h]; rfl⟩, ht, hh⟩

theorem grew_trans {s u w : State} (a : s.grew u) (b : u.grew w) : s.grew w := by
  obtain ⟨⟨l, hl⟩, h1, h2⟩ := a
  obtain ⟨⟨m, hm⟩, g1, g2⟩ := b
  exact ⟨⟨l ++ m, by rw [List.foldl_append, ← hl, hm]⟩, g1.trans h1, g2.trans h2⟩

theorem hasHost_of (s u : State) (h1 : u.member.station = s.member.station) (h2 : u.startUp = s.startUp) :
    u.hasHost = s.hasHost := by unfold State.hasHost State.roles State.inForce; rw [h1, h2]

theorem raise_hasHost (k sub c) (s : State) : (raise k sub c s).hasHost = s.hasHost := hasHost_of _ _ (by simp) (by simp)

theorem grew_raise (k sub c) (s : State) : s.grew (raise k sub c s) := by
  refine ⟨?_, by simp, raise_hasHost k sub c s⟩
  unfold raise; split
  · exact ⟨[_], rfl⟩
  · exact ⟨[], rfl⟩

theorem raises_of {s a u : State} (k sub c) (h1 : s.grew a) (hh : s.hasHost = true) (h2 : (raise k sub c a).grew u) :
    s.raises u k sub c := by
  obtain ⟨⟨l, hl⟩, h3, h4⟩ := h1
  obtain ⟨⟨m, hm⟩, -, -⟩ := h2
  have ha : a.hasHost = true := h4.trans hh
  unfold raise at hm; rw [if_pos ha] at hm
  refine ⟨l ++ ({ kind := k, subject := sub, cause := c, stamp := s.tables.frameCount.setWidth 16 } :: m), ?_, by simp⟩
  rw [List.foldl_append, List.foldl_cons, ← hl, hm, h3]

theorem raises_grew {s a b u : State} {k sub c} (h1 : s.grew a) (h : a.raises b k sub c) (h2 : b.grew u) : s.raises u k sub c := by
  obtain ⟨⟨l, hl⟩, h3, -⟩ := h1
  obtain ⟨r, hr, hm⟩ := h
  obtain ⟨⟨m, hm2⟩, -, -⟩ := h2
  refine ⟨l ++ r ++ m, by rw [List.foldl_append, List.foldl_append, ← hl, ← hr, hm2], ?_⟩
  rw [h3] at hm
  simp [hm]

theorem grew_forEach (n : Nat) (f : Nat → State → State) (s : State) (h : ∀ i (w : State), w.grew (f i w)) : s.grew (forEach n f s) := by
  unfold forEach
  generalize List.range n = l
  induction l generalizing s with
  | nil => exact grew_refl s
  | cons i l ih => exact grew_trans (h i s) (ih _)

theorem grew_onZone (s : State) (z : Nat) (f : Zone → Zone) : s.grew (s.onZone z f) := grew_of_host rfl rfl rfl

theorem grew_retarget (s : State) (z : Nat) : s.grew (s.retarget z) := by
  unfold State.retarget; split
  · exact grew_refl s
  · exact grew_onZone _ _ _

theorem grew_retakePosition (s : State) (z : Nat) : s.grew (s.retakePosition z) := by
  unfold State.retakePosition
  split
  · exact grew_refl s
  · dsimp only
    split
    · exact grew_onZone _ _ _
    · split
      · exact grew_onZone _ _ _
      · exact grew_trans (grew_onZone _ _ _) (grew_raise _ _ _ _)

theorem grew_takeClass (s : State) (n : StreamNotice) (z : Nat) : s.grew (s.takeClass n z) := by
  unfold State.takeClass
  split
  · split
    · exact grew_refl s
    · split
      · exact grew_trans (grew_onZone _ _ _) (grew_raise _ _ _ _)
      · split
        · exact grew_refl s
        · exact grew_onZone _ _ _
  · exact grew_refl s

theorem grew_zoneNotice (s a : State) (n : StreamNotice) (z : Nat) : s.grew (s.zoneNotice a n z) := by
  have M : s.grew ((((s.takeClass n z).testRoutesOf n.stream z).retakePosition z).retarget z) :=
    grew_trans (grew_takeClass s n z) (grew_trans (grew_onZone _ _ _) (grew_trans (grew_retakePosition _ z) (grew_retarget _ z)))
  unfold State.zoneNotice
  dsimp only
  split
  · split
    · exact grew_trans M (grew_raise _ _ _ _)
    · exact M
  · exact M

/-! ## One zone among the others -/

/-- What an operation on one zone leaves alone that the zone mixer reads. -/
def onlyZone (f : Nat → State → State) : Prop :=
  ∀ z w, (∀ y, y ≠ z → (f z w).zone y = w.zone y) ∧ (f z w).mixer.zones.length = w.mixer.zones.length
    ∧ (f z w).tables = w.tables ∧ (f z w).member = w.member ∧ (f z w).startUp = w.startUp

/-- What the zone mixer reads stands, but for the zones. -/
def sameAround (s w : State) : Prop :=
  w.mixer.zones.length = s.mixer.zones.length ∧ w.tables = s.tables ∧ w.member = s.member ∧ w.startUp = s.startUp

theorem sameAround.definitions {s w : State} (h : sameAround s w) : w.definitions = s.definitions := by
  unfold State.definitions State.inForce; rw [h.2.2.1, h.2.2.2]

theorem sameAround.hasHost {s w : State} (h : sameAround s w) : w.hasHost = s.hasHost :=
  hasHost_of s w (by rw [h.2.2.1]) h.2.2.2

/-- Among the zone places below a bound, one zone is what the operation on it makes of a state in which that zone, and all that
the zone mixer reads beside the zones, stands as before. -/
theorem forEach_zone (n : Nat) (f : Nat → State → State) (hf : onlyZone f) (hg : ∀ i (w : State), w.grew (f i w)) (s : State) (z : Nat)
    (hz : z < n) :
    ∃ a : State, a.zone z = s.zone z ∧ sameAround s a ∧ s.grew a ∧ (forEach n f s).zone z = (f z a).zone z
      ∧ (f z a).grew (forEach n f s) := by
  have keep : ∀ (l : List Nat) (w : State), z ∉ l → (l.foldl (fun acc i => f i acc) w).zone z = w.zone z
      ∧ sameAround w (l.foldl (fun acc i => f i acc) w) ∧ w.grew (l.foldl (fun acc i => f i acc) w) := by
    intro l
    induction l with
    | nil => intro w _; exact ⟨rfl, ⟨rfl, rfl, rfl, rfl⟩, grew_refl w⟩
    | cons i l ih =>
      intro w hi
      obtain ⟨h1, h2, h3⟩ := ih (f i w) (fun h => hi (by simp [h]))
      obtain ⟨g1, g2⟩ := hf i w
      have hne : z ≠ i := fun h => hi (by simp [h])
      exact ⟨h1.trans (g1 z hne), ⟨h2.1.trans g2.1, h2.2.1.trans g2.2.1, h2.2.2.1.trans g2.2.2.1, h2.2.2.2.trans g2.2.2.2⟩,
        grew_trans (hg i w) h3⟩
  have hs : List.range n = List.range z ++ z :: (List.range' (z + 1) (n - z - 1)) := by
    rw [List.range_eq_range', List.range_eq_range', ← List.range'_succ, show n = z + (n - z - 1 + 1) by omega,
      show z + (n - z - 1 + 1) - z - 1 + 1 = n - z - 1 + 1 by omega]
    have := List.range'_append_1 (s := 0) (m := z) (n := n - z - 1 + 1)
    simpa using this.symm
  unfold forEach
  rw [hs, List.foldl_append, List.foldl_cons]
  have a := keep (List.range z) s (by simp)
  refine ⟨(List.range z).foldl (fun acc i => f i acc) s, a.1, a.2.1, a.2.2, ?_⟩
  have b := keep (List.range' (z + 1) (n - z - 1)) (f z ((List.range z).foldl (fun acc i => f i acc) s))
    (by first | (simp [List.mem_range'_1]; done) | (simp [List.mem_range'_1]; omega))
  exact ⟨b.1, b.2.2⟩

/-! ## The steps of a zone at a change -/

theorem getD_zone (s : State) (z : Nat) (hz : z < s.mixer.zones.length) (f : Zone → Zone) : (s.onZone z f).zone z = f (s.zone z) :=
  onZone_zone s z f hz

theorem retakePosition_zone (s : State) (z : Nat) (d : ZoneDefinition) (hd : s.definitions[z]? = some d)
    (hz : z < s.mixer.zones.length) :
    (s.retakePosition z).zone z = { s.zone z with position := s.positionNext d (s.zone z).position } := by
  have h : ∀ k sub c (w : State), (raise k sub c w).zone z = w.zone z := by
    intro k sub c w; unfold State.zone; simp
  unfold State.retakePosition
  rw [hd]
  dsimp only
  split
  · exact onZone_zone _ _ _ hz
  · split
    · exact onZone_zone _ _ _ hz
    · rw [h]; exact onZone_zone _ _ _ hz

theorem retakePosition_raises (s : State) (z : Nat) (d : ZoneDefinition) (hd : s.definitions[z]? = some d)
    (hh : s.hasHost = true) (hm : s.member.station = .member)
    (hc : ¬((s.positionNext d (s.zone z).position).state = (s.zone z).position.state
      ∧ (s.positionNext d (s.zone z).position).downlink = (s.zone z).position.downlink)) :
    s.raises (s.retakePosition z) .callPositionChanged [d.id]
      (some (positionCause (s.positionNext d (s.zone z).position).state)) := by
  have e : s.retakePosition z = raise .callPositionChanged [d.id] (some (positionCause (s.positionWanted d).1))
      (s.onZone z (fun v => { v with position := s.positionNext d (s.zone z).position })) := by
    unfold State.retakePosition
    rw [hd]
    dsimp only
    exact (if_neg hc).trans (if_neg (by simp [hm]))
  rw [e]
  exact raises_of _ _ _ (grew_onZone _ _ _) hh (grew_refl _)

theorem testEntry_tested (b : Bool) (p : Prop) (h : b = true ↔ p) (e : RouteEntry) : entryTested p e (testEntry b e) := by
  have hf : b = false ↔ ¬p := by rw [← h]; simp
  unfold testEntry
  refine ⟨fun hp hs => ?_, fun hp hs => ?_, fun hp hs => ?_, fun hp hs => ?_, fun hp hs => ?_⟩
  · rw [h.mpr hp, hs]
  · rw [h.mpr hp]; cases hs' : e.state <;> simp_all
  · rw [hf.mpr hp, hs]
  · rw [hf.mpr hp, hs]
  · rw [hf.mpr hp, hs]

theorem mayPlay_hears (s : State) (x : Nat) : s.mayPlay x = true ↔ s.hearsStream x := by
  simp [State.mayPlay, State.hearsStream]

theorem hearsStream_of {s u : State} (x : Nat) (h1 : u.member.station = s.member.station) (h2 : u.tables.directory = s.tables.directory) :
    u.hearsStream x ↔ s.hearsStream x := by
  unfold State.hearsStream LineTables.entry; rw [h1, h2]

theorem takeClass_zone (s : State) (n : StreamNotice) (z : Nat) (d : ZoneDefinition) (hd : s.definitions[z]? = some d)
    (hz : z < s.mixer.zones.length) :
    ∃ taken, (s.takeClass n z).zone z = { s.zone z with routes := taken }
      ∧ classTaken n.stream n.before n.after (s.zone z).routes taken := by
  have hr : ∀ k sub c (w : State), (raise k sub c w).zone z = w.zone z := by
    intro k sub c w; unfold State.zone; simp
  have holds_find : ∀ l : List RouteEntry, l.find? (fun e => e.stream == n.stream) = none → holdsRoute n.stream l = false := by
    intro l h; rw [List.find?_eq_none] at h; simp [holdsRoute]; simpa using h
  have filter_same : ∀ l : List RouteEntry, l.find? (fun e => e.stream == n.stream) = none → l.filter (fun e => e.stream != n.stream) = l := by
    intro l h; rw [List.find?_eq_none] at h; rw [List.filter_eq_self]; intro e he; simpa using h e he
  unfold State.takeClass classTaken
  rw [hd]
  cases hp : n.after.parameters with
  | none => exact ⟨_, rfl, rfl⟩
  | some p =>
    dsimp only
    cases hf : (s.zone z).routes.find? (fun e => e.stream == n.stream) with
    | none =>
      refine ⟨(s.zone z).routes, rfl, fun _ => (filter_same _ hf).symm, fun _ => ⟨fun _ => rfl, fun _ e he => by cases he⟩⟩
    | some e =>
      dsimp only
      split
      · next hk =>
        refine ⟨dropRoute n.stream (s.zone z).routes, ?_, fun _ => rfl, fun h => absurd hk h⟩
        rw [hr]; exact onZone_zone _ _ _ hz
      · next hk =>
        have hh : holdsRoute n.stream (s.zone z).routes = true := by
          rw [holds_iff]; exact ⟨e, List.mem_of_find?_eq_some hf, by have := List.find?_some hf; simpa using this⟩
        split
        · next hs =>
          refine ⟨(s.zone z).routes, rfl, fun h => absurd h hk, fun _ => ⟨fun _ => rfl, fun hb e' he' => ?_⟩⟩
          cases he'
          exact ⟨fun _ => rfl, fun hc => (hs.elim (fun h => absurd hb h) (fun h => absurd h hc))⟩
        · next hs =>
          refine ⟨_, onZone_zone _ _ _ hz, fun h => absurd h hk, fun _ => ⟨fun h => ?_, fun hb e' he' => ?_⟩⟩
          · rcases h with h | h
            · exact absurd (Or.inl h) hs
            · rw [hh] at h; cases h
          · cases he'
            exact ⟨fun hc => absurd (Or.inr hc) hs, fun _ => placeRoute_placed _ _⟩

theorem takeClass_raises (s : State) (n : StreamNotice) (z : Nat) (d : ZoneDefinition) (hd : s.definitions[z]? = some d)
    (hh : s.hasHost = true) (hr : holdsRoute n.stream (s.zone z).routes = true)
    (hk : ∃ p, n.after.parameters = some p ∧ p.kind = .voiceDownlink) :
    s.raises (s.takeClass n z) .routeDropped [d.id, n.stream] (some .privateStream) := by
  obtain ⟨p, hp, hv⟩ := hk
  obtain ⟨e, he, hx⟩ := (holds_iff _ _).mp hr
  have : ∃ e', (s.zone z).routes.find? (fun e => e.stream == n.stream) = some e' := by
    cases hf : (s.zone z).routes.find? (fun e => e.stream == n.stream) with
    | none => rw [List.find?_eq_none] at hf; exact absurd hx (by simpa using hf e he)
    | some e' => exact ⟨e', rfl⟩
  obtain ⟨e', he'⟩ := this
  unfold State.takeClass
  rw [hp, hd, he']
  dsimp only
  rw [if_pos hv]
  exact raises_of _ _ _ (grew_onZone _ _ _) hh (grew_refl _)

/-- One zone and what is raised for it at a change of one stream: zonesNoticed of Safety.lean for one place. -/
def zoneNoticed (s u : State) (n : StreamNotice) (z : Nat) (d : ZoneDefinition) (w : Zone) : Prop :=
  let v := s.zone z
  ∃ taken tested q,
    classTaken n.stream n.before n.after v.routes taken
    ∧ routesTested s (fun y => y = n.stream) taken tested
    ∧ s.positionTaken d v.position q
    ∧ zoneAimed d { v with routes := tested, position := q } w
    ∧ (s.hasHost = true →
        (holdsRoute n.stream v.routes = true → (∃ p, n.after.parameters = some p ∧ p.kind = .voiceDownlink) →
          s.raises u .routeDropped [d.id, n.stream] (some .privateStream))
        ∧ (n.before.isCarried = true ∧ n.after.isCarried = false → s.member.station = .member →
          (∃ e, e ∈ v.routes ∧ e.stream = n.stream ∧ e.state = .live)
            ∨ (v.position.state = .live ∧ v.position.downlink = some n.stream ∧ q.state = .waiting ∧ q.downlink = some n.stream) →
          s.raises u .streamLost [d.id, n.stream] (some n.cause))
        ∧ (s.member.station = .member → ¬(q.state = v.position.state ∧ q.downlink = v.position.downlink) →
          s.raises u .callPositionChanged [d.id] (some (positionCause q.state))))

theorem raise_around (k sub c) (s : State) : sameAround s (raise k sub c s) := ⟨by simp, by simp, by simp, by simp⟩

theorem onZone_around (s : State) (z : Nat) (f : Zone → Zone) : sameAround s (s.onZone z f) := ⟨onZone_len _ _ _, rfl, rfl, rfl⟩

theorem sameAround.trans {s u w : State} (a : sameAround s u) (b : sameAround u w) : sameAround s w :=
  ⟨b.1.trans a.1, b.2.1.trans a.2.1, b.2.2.1.trans a.2.2.1, b.2.2.2.trans a.2.2.2⟩

theorem takeClass_around (s : State) (n : StreamNotice) (z : Nat) : sameAround s (s.takeClass n z) := by
  unfold State.takeClass
  split
  · split
    · exact ⟨rfl, rfl, rfl, rfl⟩
    · split
      · exact (onZone_around _ _ _).trans (raise_around _ _ _ _)
      · split
        · exact ⟨rfl, rfl, rfl, rfl⟩
        · exact onZone_around _ _ _
  · exact ⟨rfl, rfl, rfl, rfl⟩

theorem retakePosition_around (s : State) (z : Nat) : sameAround s (s.retakePosition z) := by
  unfold State.retakePosition
  split
  · exact ⟨rfl, rfl, rfl, rfl⟩
  · dsimp only
    split
    · exact onZone_around _ _ _
    · split
      · exact onZone_around _ _ _
      · exact (onZone_around _ _ _).trans (raise_around _ _ _ _)

theorem zoneNotice_noticed (s a : State) (n : StreamNotice) (z : Nat) (d : ZoneDefinition) (hd : s.definitions[z]? = some d)
    (hz : z < s.mixer.zones.length) (ha : a.zone z = s.zone z) :
    zoneNoticed s (s.zoneNotice a n z) n z d ((s.zoneNotice a n z).zone z) := by
  obtain ⟨taken, h1, h2⟩ := takeClass_zone s n z d hd hz
  -- the four stages
  generalize e1 : s.takeClass n z = s1 at *
  have A1 : sameAround s s1 := e1 ▸ takeClass_around s n z
  have G1 : s.grew s1 := e1 ▸ grew_takeClass s n z
  generalize e2 : s1.testRoutesOf n.stream z = s2 at *
  have A2 : sameAround s1 s2 := e2 ▸ onZone_around _ _ _
  have G2 : s1.grew s2 := e2 ▸ grew_onZone _ _ _
  have hz1 : z < s1.mixer.zones.length := by rw [A1.1]; exact hz
  have h3 : s2.zone z = { s.zone z with routes := taken.filterMap (fun e =>
      if e.stream = n.stream then testEntry (s1.mayPlay n.stream) e else some e) } := by
    rw [← e2]; unfold State.testRoutesOf; rw [onZone_zone _ _ _ hz1, h1]
  generalize e3 : s2.retakePosition z = s3 at *
  have A3 : sameAround s2 s3 := e3 ▸ retakePosition_around _ _
  have G3 : s2.grew s3 := e3 ▸ grew_retakePosition _ _
  have hz2 : z < s2.mixer.zones.length := by rw [A2.1]; exact hz1
  have hd2 : s2.definitions[z]? = some d := by rw [A2.definitions, A1.definitions]; exact hd
  have h4 := retakePosition_zone s2 z d hd2 hz2
  rw [e3] at h4
  have hz3 : z < s3.mixer.zones.length := by rw [A3.1]; exact hz2
  have hd3 : s3.definitions[z]? = some d := by rw [A3.definitions]; exact hd2
  have h5 := retarget_aimed s3 z d hd3 hz3
  have G4 := grew_retarget s3 z
  have T2 : s2.tables = s.tables := A2.2.1.trans A1.2.1
  have M2 : s2.member = s.member := A2.2.2.1.trans A1.2.2.1
  have q1 : s2.positionNext d (s2.zone z).position = s.positionNext d (s.zone z).position := by
    rw [h3]; unfold State.positionNext State.positionWanted State.mayPlay; rw [T2, M2]
  rw [h4, q1, h3] at h5
  have hr : ∀ k sub c (w : State), (raise k sub c w).zone z = w.zone z := by
    intro k sub c w; unfold State.zone; simp
  -- the notice as a whole
  have Z : (s.zoneNotice a n z).zone z = (s3.retarget z).zone z := by
    unfold State.zoneNotice; rw [e1, e2, e3]; dsimp only
    split
    · split
      · exact hr _ _ _ _
      · rfl
    · rfl
  have GU : (s3.retarget z).grew (s.zoneNotice a n z) := by
    unfold State.zoneNotice; rw [e1, e2, e3]; dsimp only
    split
    · split
      · exact grew_raise _ _ _ _
      · exact grew_refl _
    · exact grew_refl _
  unfold zoneNoticed
  dsimp only
  refine ⟨taken, _, s.positionNext d (s.zone z).position, h2,
    ⟨fun e => if e.stream = n.stream then testEntry (s1.mayPlay n.stream) e else some e, rfl,
      fun e => ⟨fun he => ?_, fun he => if_neg he⟩⟩,
    positionNext_taken s d _, ?_, fun hh => ⟨fun hk hv => ?_, fun hl hm hs => ?_, fun hm hc => ?_⟩⟩
  · have hx : e.stream = n.stream := he
    dsimp only
    rw [if_pos hx, hx]
    have := testEntry_tested (s1.mayPlay n.stream) (s.hearsStream n.stream)
      (by rw [mayPlay_hears]; exact hearsStream_of _ (by rw [A1.2.2.1]) (by rw [A1.2.1])) e
    exact this
  · rw [Z]; exact h5
  · exact raises_grew (grew_refl s) (e1 ▸ takeClass_raises s n z d hd hh hk hv)
      (grew_trans G2 (grew_trans G3 (grew_trans G4 GU)))
  · have stop : ((s.zone z).entryPlays n.stream || ((a.zone z).positionHolds .live n.stream
        && ((s3.retarget z).zone z).positionHolds .waiting n.stream)) = true := by
      have hq : ((s3.retarget z).zone z).position = s.positionNext d (s.zone z).position := by rw [h5.1]
      rcases hs with ⟨e, he, hx, hst⟩ | ⟨p1, p2, p3, p4⟩
      · have : (s.zone z).entryPlays n.stream = true := by
          unfold Zone.entryPlays; rw [List.any_eq_true]; exact ⟨e, he, by simp [hx, hst]⟩
        rw [this]; rfl
      · rw [ha]; unfold Zone.positionHolds; rw [hq, p1, p2, p3, p4]; simp
    have : s.zoneNotice a n z = raise .streamLost [d.id, n.stream] (some n.cause) (s3.retarget z) := by
      unfold State.zoneNotice; rw [e1, e2, e3]; dsimp only
      rw [stop, hd, hl.1, hl.2, hm]; rfl
    rw [this]
    exact raises_of _ _ _ (grew_trans G1 (grew_trans G2 (grew_trans G3 G4))) hh (grew_refl _)
  · have P := retakePosition_raises s2 z d hd2 (by rw [A2.hasHost, A1.hasHost]; exact hh) (by rw [M2]; exact hm)
      (by rw [q1, h3]; exact hc)
    rw [q1, e3] at P
    exact raises_grew (grew_trans G1 G2) P (grew_trans G4 GU)

/-! ## Every zone -/

theorem retarget_around (s : State) (z : Nat) : sameAround s (s.retarget z) := by
  unfold State.retarget; split
  · exact ⟨rfl, rfl, rfl, rfl⟩
  · exact onZone_around _ _ _

theorem raise_zone (k sub c) (s : State) (z : Nat) : (raise k sub c s).zone z = s.zone z := by
  unfold State.zone; simp

theorem takeClass_other (s : State) (n : StreamNotice) (z y : Nat) (h : y ≠ z) : (s.takeClass n z).zone y = s.zone y := by
  unfold State.takeClass
  split
  · split
    · rfl
    · split
      · rw [raise_zone]; exact onZone_other _ _ _ _ h
      · split
        · rfl
        · exact onZone_other _ _ _ _ h
  · rfl

theorem retakePosition_other (s : State) (z y : Nat) (h : y ≠ z) : (s.retakePosition z).zone y = s.zone y := by
  unfold State.retakePosition
  split
  · rfl
  · dsimp only
    split
    · exact onZone_other _ _ _ _ h
    · split
      · exact onZone_other _ _ _ _ h
      · rw [raise_zone]; exact onZone_other _ _ _ _ h

theorem zoneNotice_only (a : State) (n : StreamNotice) : onlyZone (fun z w => w.zoneNotice a n z) := by
  intro z w
  have A := (takeClass_around w n z).trans ((onZone_around _ z _).trans
    ((retakePosition_around ((w.takeClass n z).testRoutesOf n.stream z) z).trans (retarget_around _ z)))
  have O : ∀ y, y ≠ z → ((((w.takeClass n z).testRoutesOf n.stream z).retakePosition z).retarget z).zone y = w.zone y := by
    intro y hy
    rw [retarget_other _ _ _ hy, retakePosition_other _ _ _ hy]
    show (State.onZone _ _ _).zone y = _
    rw [onZone_other _ _ _ _ hy, takeClass_other _ _ _ _ hy]
  dsimp only
  unfold State.zoneNotice
  dsimp only
  split
  · split
    · refine ⟨fun y hy => by rw [raise_zone]; exact O y hy, ?_⟩
      exact A.trans (raise_around _ _ _ _)
    · exact ⟨O, A⟩
  · exact ⟨O, A⟩

theorem sameAround.positionTaken {s u : State} (h : sameAround s u) (d : ZoneDefinition) (p q : CallPosition)
    (hp : s.positionTaken d p q) : u.positionTaken d p q := by
  unfold State.positionTaken State.hearsStream at *
  rw [h.2.1, h.2.2.1]; exact hp

theorem routesTested_of {s u : State} (h1 : u.member.station = s.member.station) (h2 : u.tables.directory = s.tables.directory)
    {p : Nat → Prop} {a b : List RouteEntry} (h : routesTested s p a b) : routesTested u p a b := by
  obtain ⟨f, hf, h⟩ := h
  refine ⟨f, hf, fun e => ⟨fun he => ?_, (h e).2⟩⟩
  have := (h e).1 he
  unfold entryTested at *
  rw [hearsStream_of _ h1 h2]; exact this

/-- What a stream notice makes of every zone. -/
theorem zonesAtNotice_noticed (s a : State) (n : StreamNotice) (z : Nat) (d : ZoneDefinition) (hz4 : z < 4)
    (hd : s.definitions[z]? = some d) (hz : z < s.mixer.zones.length) (ha : ∀ y, a.zone y = s.zone y) :
    zoneNoticed s (s.zonesAtNotice a n) n z d ((s.zonesAtNotice a n).zone z) := by
  obtain ⟨b, h1, h2, h3, h4, h5⟩ := forEach_zone 4 (fun z w => w.zoneNotice a n z) (zoneNotice_only a n)
    (fun i w => grew_zoneNotice w a n i) s z hz4
  have N := zoneNotice_noticed b a n z d (by rw [h2.definitions]; exact hd) (by rw [h2.1]; exact hz) (by rw [h1]; exact ha z)
  have e : s.zonesAtNotice a n = forEach 4 (fun z w => w.zoneNotice a n z) s := rfl
  rw [e, h4]
  unfold zoneNoticed at *
  dsimp only at *
  rw [h1] at N
  obtain ⟨taken, tested, q, n1, n2, n3, n4, n5⟩ := N
  have hb : sameAround b s := ⟨h2.1.symm, h2.2.1.symm, h2.2.2.1.symm, h2.2.2.2.symm⟩
  refine ⟨taken, tested, q, n1, routesTested_of (by rw [h2.2.2.1]) (by rw [h2.2.1]) n2, hb.positionTaken _ _ _ n3, n4, fun hh => ?_⟩
  have n5 := n5 (by rw [h2.hasHost]; exact hh)
  rw [h2.2.2.1] at n5
  exact ⟨fun x y => raises_grew h3 (n5.1 x y) h5, fun x y w => raises_grew h3 (n5.2.1 x y w) h5,
    fun x y => raises_grew h3 (n5.2.2 x y) h5⟩

/-- What a change of the call records makes of every zone. -/
theorem zonesAtCalls_taken (s : State) (z : Nat) (d : ZoneDefinition) (hz4 : z < 4) (hd : s.definitions[z]? = some d)
    (hz : z < s.mixer.zones.length) :
    ∃ q, s.positionTaken d (s.zone z).position q ∧ zoneAimed d { s.zone z with position := q } (s.zonesAtCalls.zone z)
      ∧ (s.hasHost = true → s.member.station = .member →
          ¬(q.state = (s.zone z).position.state ∧ q.downlink = (s.zone z).position.downlink) →
          s.raises s.zonesAtCalls .callPositionChanged [d.id] (some (positionCause q.state))) := by
  obtain ⟨b, h1, h2, h3, h4, h5⟩ := forEach_zone 4 (fun z w => (w.retakePosition z).retarget z)
    (fun z w => ⟨fun y hy => by dsimp only; rw [retarget_other _ _ _ hy, retakePosition_other _ _ _ hy],
      (retakePosition_around w z).trans (retarget_around _ z)⟩)
    (fun i w => grew_trans (grew_retakePosition w i) (grew_retarget _ i)) s z hz4
  have e : s.zonesAtCalls = forEach 4 (fun z w => (w.retakePosition z).retarget z) s := rfl
  have hdb : b.definitions[z]? = some d := by rw [h2.definitions]; exact hd
  have hzb : z < b.mixer.zones.length := by rw [h2.1]; exact hz
  have A := retakePosition_around b z
  have R := retarget_aimed (b.retakePosition z) z d (by rw [A.definitions]; exact hdb) (by rw [A.1]; exact hzb)
  rw [retakePosition_zone b z d hdb hzb, h1] at R
  have hb : sameAround b s := ⟨h2.1.symm, h2.2.1.symm, h2.2.2.1.symm, h2.2.2.2.symm⟩
  refine ⟨b.positionNext d (s.zone z).position, hb.positionTaken _ _ _ (positionNext_taken b d _), by rw [e, h4]; exact R,
    fun hh hm hc => ?_⟩
  have P := retakePosition_raises b z d hdb (by rw [h2.hasHost]; exact hh) (by rw [h2.2.2.1]; exact hm) (by rw [h1]; exact hc)
  rw [h1] at P
  exact raises_grew h3 P (grew_trans (grew_retarget _ z) (e ▸ h5))

/-- What a change of station state makes of every zone. -/
theorem zonesAtStation_taken (s : State) (z : Nat) (d : ZoneDefinition) (hz4 : z < 4) (hd : s.definitions[z]? = some d)
    (hz : z < s.mixer.zones.length) :
    ∃ routes q, routesTested s (fun _ => True) (s.zone z).routes routes ∧ s.positionTaken d (s.zone z).position q
      ∧ zoneAimed d { s.zone z with routes := routes, position := q } (s.zonesAtStation.zone z) := by
  obtain ⟨b, h1, h2, h3, h4, h5⟩ := forEach_zone 4 (fun z w => ((w.testRoutes z).retakePosition z).retarget z)
    (fun z w => ⟨fun y hy => by
        dsimp only; rw [retarget_other _ _ _ hy, retakePosition_other _ _ _ hy]; exact onZone_other _ _ _ _ hy,
      (onZone_around w z _).trans ((retakePosition_around (w.testRoutes z) z).trans (retarget_around _ z))⟩)
    (fun i w => grew_trans (grew_onZone w i _) (grew_trans (grew_retakePosition (w.testRoutes i) i) (grew_retarget _ i))) s z hz4
  have e : s.zonesAtStation = forEach 4 (fun z w => ((w.testRoutes z).retakePosition z).retarget z) s := rfl
  have hdb : b.definitions[z]? = some d := by rw [h2.definitions]; exact hd
  have hzb : z < b.mixer.zones.length := by rw [h2.1]; exact hz
  have A0 : sameAround b (b.testRoutes z) := onZone_around _ _ _
  have A := retakePosition_around (b.testRoutes z) z
  have hd1 : (b.testRoutes z).definitions[z]? = some d := by rw [A0.definitions]; exact hdb
  have hz1 : z < (b.testRoutes z).mixer.zones.length := by rw [A0.1]; exact hzb
  have R := retarget_aimed ((b.testRoutes z).retakePosition z) z d (by rw [A.definitions]; exact hd1) (by rw [A.1]; exact hz1)
  have hb : sameAround b s := ⟨h2.1.symm, h2.2.1.symm, h2.2.2.1.symm, h2.2.2.2.symm⟩
  have z1 : (b.testRoutes z).zone z = { s.zone z with routes := (s.zone z).routes.filterMap (fun e =>
      testEntry (b.mayPlay e.stream) e) } := by
    unfold State.testRoutes; rw [onZone_zone _ _ _ hzb, h1]
  rw [retakePosition_zone _ z d hd1 hz1, z1] at R
  have hp : (b.testRoutes z).positionNext d (s.zone z).position = b.positionNext d (s.zone z).position := rfl
  refine ⟨_, b.positionNext d (s.zone z).position, ⟨fun e => testEntry (b.mayPlay e.stream) e, rfl,
    fun e => ⟨fun _ => ?_, fun h => absurd trivial h⟩⟩, hb.positionTaken _ _ _ (positionNext_taken b d _), by rw [e, h4]; exact R⟩
  exact testEntry_tested _ _ (by rw [mayPlay_hears]; exact hearsStream_of _ (by rw [hb.2.2.1]) (by rw [hb.2.1])) e

end Sys2Proof.Machine
end

