-- ==== Sys2Proof/Laws/MessageZones.lean ====
section
/-! SUPPORT. What the zones make of a message that takes effect: OFFER, CLAIM and RELEASE by their stream notice, a CALL by the change
of its record. -/

namespace Sys2Proof.Machine

set_option linter.unusedSimpArgs false

/-! ## What joins the event list while a message takes effect -/

theorem grew_tell (s : State) (e : QueueEntry) (d : Departure) : s.grew (s.tell e d) := by
  unfold State.tell
  cases e.originator with
  | host => exact grew_raise _ _ _ _
  | startUp =>
    dsimp only
    unfold State.startUpTold
    split
    · split
      · exact grew_refl s
      · exact grew_of_host rfl rfl rfl
    · exact grew_refl s
  | membership => exact grew_refl s
  | zoneMixer => exact grew_refl s
  | callUnit => exact grew_of_host (by simp) (by simp) (hasHost_of _ _ (by simp) (by simp))
  | noteUnit =>
    dsimp only
    unfold State.noteUnitTold State.failNote
    split
    · split
      · exact grew_trans (grew_of_host (by rfl) (by rfl) (by rfl)) (grew_raise _ _ _ _)
      · exact grew_of_host (by simp) (by simp) (hasHost_of _ _ (by simp) (by simp))
    · exact grew_trans (grew_of_host (by rfl) (by rfl) (by rfl)) (grew_raise _ _ _ _)
    · exact grew_trans (grew_of_host (by rfl) (by rfl) (by rfl)) (grew_raise _ _ _ _)
    · exact grew_refl s

theorem grew_concludeOwn (s : State) (before : LineTables) (sent : Sent) (v : Cause) : s.grew (s.concludeOwn before sent v) := by
  unfold State.concludeOwn
  split
  · split
    · exact grew_refl s
    · next e _ =>
      refine grew_trans (grew_of_host ?_ ?_ ?_) (grew_tell _ _ _)
      · unfold State.removeEntry State.placeBinding; split <;> (try split) <;> rfl
      · unfold State.removeEntry State.placeBinding; split <;> (try split) <;> rfl
      · unfold State.removeEntry State.placeBinding; split <;> (try split) <;> rfl
  · split
    · exact grew_of_host rfl rfl rfl
    · exact grew_refl s

theorem grew_takeEffect (s : State) (n : Nat) (m : Message) (hm : m.mayMove = false) :
    ((s.refreshAge n).judge n m).1.grew (s.takeEffect n m) := by
  unfold State.takeEffect
  dsimp only
  rw [State.moveByMessage_stays _ _ _ _ _ hm]
  split
  · exact grew_concludeOwn _ _ _ _
  · exact grew_refl _

theorem grew_closeFrame (s : State) : s.grew s.closeFrame := by
  unfold State.closeFrame
  exact grew_of_host (by simp) (by simp) (hasHost_of _ _ (by simp) (by simp))

theorem grew_messageEffect (t : State) (n : Nat) (m : Message) (h : t.hears) (hm : m.mayMove = false) :
    ((t.tailCounts.refreshAge n).judge n m).1.grew (t.messageEffect n m) := by
  rw [t.messageEffect_hears n m h]
  exact grew_trans (grew_takeEffect _ n m hm) (grew_closeFrame _)

/-! ## A change of one stream -/

theorem filterMap_range_one {α} (f : Nat → Option α) (x : Nat) (a : α) (hx : f x = some a) (ho : ∀ y, y ≠ x → f y = none) (n : Nat) :
    (List.range n).filterMap f = if x < n then [a] else [] := by
  induction n with
  | zero => simp
  | succ n ih =>
    rw [List.range_succ, List.filterMap_append, ih]
    by_cases h : x = n
    · subst h; simp [hx]
    · simp only [List.filterMap_cons, ho n (Ne.symm h), List.filterMap_nil, List.append_nil]
      by_cases h1 : x < n
      · rw [if_pos h1, if_pos (by omega)]
      · rw [if_neg h1, if_neg (by omega)]

theorem notices_one (before after : LineTables) (cause : Cause) (x : Nat) (hx : x < 64)
    (hc : (before.entry x).code ≠ (after.entry x).code) (ho : ∀ y, y ≠ x → after.entry y = before.entry y) :
    notices before after cause = [{ stream := x, before := before.entry x, after := after.entry x, cause := cause }] := by
  unfold notices
  rw [filterMap_range_one _ x _ (by rw [if_neg hc]) (fun y hy => by rw [ho y hy, if_pos rfl]) 64, if_pos hx]

theorem grew_noticeHost (s : State) (n : StreamNotice) : s.grew (s.noticeHost n) := by
  unfold State.noticeHost; split
  · exact grew_raise _ _ _ _
  · exact grew_refl s

theorem grew_lookAtUplink (s : State) : s.grew s.lookAtUplink :=
  grew_of_host (by simp) (by simp) (hasHost_of _ _ (by simp) (by simp))

/-- The state once one notice has gone to every zone. -/
def State.noticedOnce (a : State) (n : StreamNotice) : State := ((a.noticeHost n).zonesAtNotice a n).lookAtUplink

theorem changeTables_one (s : State) (wanted changed : LineTables) (cause : Cause) (cc : Nat → Cause) (x : Nat) (hx : x < 64)
    (hs : wanted.strip s.tables = changed) (hcalls : changed.calls = s.tables.calls)
    (hc : (s.tables.entry x).code ≠ (changed.entry x).code) (ho : ∀ y, y ≠ x → changed.entry y = s.tables.entry y) :
    s.changeTables wanted cause cc = (State.emptyBindings { s with tables := changed }).noticedOnce
      { stream := x, before := s.tables.entry x, after := changed.entry x, cause := cause } := by
  unfold State.changeTables State.noticedOnce
  dsimp only
  rw [hs, notices_one _ _ _ x hx hc ho, if_pos hcalls.symm]
  simp only [List.foldl_cons, List.foldl_nil]

theorem noticeHost_around (s : State) (n : StreamNotice) : sameAround s (s.noticeHost n) := by
  unfold State.noticeHost; split
  · exact raise_around _ _ _ _
  · exact ⟨rfl, rfl, rfl, rfl⟩

theorem noticeHost_zone (s : State) (n : StreamNotice) (z : Nat) : (s.noticeHost n).zone z = s.zone z := by
  unfold State.noticeHost; split
  · exact raise_zone _ _ _ _ _
  · rfl

theorem grew_zonesAtNotice (s a : State) (n : StreamNotice) : s.grew (s.zonesAtNotice a n) :=
  grew_forEach 4 (fun z w => w.zoneNotice a n z) s (fun i w => grew_zoneNotice w a n i)

theorem noticedOnce_kept (a : State) (n : StreamNotice) : (a.noticedOnce n).tables = a.tables ∧ (a.noticedOnce n).member = a.member
    ∧ a.grew (a.noticedOnce n) := by
  unfold State.noticedOnce
  have g1 := grew_noticeHost a n
  have t1 : (a.noticeHost n).tables = a.tables := by simp
  have m1 : (a.noticeHost n).member = a.member := by simp
  generalize a.noticeHost n = b at *
  have g2 := grew_zonesAtNotice b a n
  have t2 : (b.zonesAtNotice a n).tables = b.tables := by simp
  have m2 : (b.zonesAtNotice a n).member = b.member := by simp
  generalize b.zonesAtNotice a n = c at *
  have g3 := grew_lookAtUplink c
  exact ⟨by simp [t2, t1], by simp [m2, m1], grew_trans g1 (grew_trans g2 g3)⟩

theorem noticedOnce_noticed (a : State) (n : StreamNotice) (z : Nat) (d : ZoneDefinition) (hz4 : z < 4)
    (hd : a.definitions[z]? = some d) (hz : z < a.mixer.zones.length) :
    zoneNoticed a (a.noticedOnce n) n z d ((a.noticedOnce n).zone z) := by
  have bA := noticeHost_around a n
  have bz := noticeHost_zone a n
  have b0 := grew_noticeHost a n
  unfold State.noticedOnce
  generalize a.noticeHost n = b at *
  have N := zonesAtNotice_noticed b a n z d hz4 (by rw [bA.definitions]; exact hd) (by rw [bA.1]; exact hz) (fun y => (bz y).symm)
  have L := grew_lookAtUplink (b.zonesAtNotice a n)
  have Z : (b.zonesAtNotice a n).lookAtUplink.zone z = (b.zonesAtNotice a n).zone z := by unfold State.zone; simp
  rw [Z]
  generalize (b.zonesAtNotice a n).lookAtUplink = u at *
  generalize b.zonesAtNotice a n = c at *
  unfold zoneNoticed at *
  dsimp only at *
  rw [bz z, bA.2.2.1] at N
  obtain ⟨taken, tested, q, m1, m2, m3, m4, m5⟩ := N
  refine ⟨taken, tested, q, m1, routesTested_of (by rw [bA.2.2.1]) (by rw [bA.2.1]) m2, ?_, m4, fun hh => ?_⟩
  · unfold State.positionTaken State.hearsStream at *
    rw [bA.2.1, bA.2.2.1] at m3; exact m3
  · have m5 := m5 (b0.2.2.trans hh)
    exact ⟨fun p r => raises_grew b0 (m5.1 p r) L, fun p r w => raises_grew b0 (m5.2.1 p r w) L,
      fun p r => raises_grew b0 (m5.2.2 p r) L⟩

/-- A change of one stream that leaves the call records as they are, at every zone. -/
theorem changeTables_zones (s : State) (wanted changed : LineTables) (cause : Cause) (cc : Nat → Cause) (x : Nat) (hx : x < 64)
    (hs : wanted.strip s.tables = changed) (hcalls : changed.calls = s.tables.calls) (hf : changed.frameCount = s.tables.frameCount)
    (hc : (s.tables.entry x).code ≠ (changed.entry x).code) (ho : ∀ y, y ≠ x → changed.entry y = s.tables.entry y) :
    s.zonesNoticed (s.changeTables wanted cause cc) x cause ∧ s.grew (s.changeTables wanted cause cc) := by
  rw [changeTables_one s wanted changed cause cc x hx hs hcalls hc ho]
  have a0 : s.grew (State.emptyBindings { s with tables := changed }) := grew_of_host rfl hf rfl
  have az : ∀ y, (State.emptyBindings { s with tables := changed }).zone y = s.zone y := fun _ => rfl
  have al : (State.emptyBindings { s with tables := changed }).mixer = s.mixer := rfl
  have ad : (State.emptyBindings { s with tables := changed }).definitions = s.definitions := rfl
  have am : (State.emptyBindings { s with tables := changed }).member = s.member := rfl
  have at' : (State.emptyBindings { s with tables := changed }).tables = changed := rfl
  have ah : (State.emptyBindings { s with tables := changed }).hasHost = s.hasHost := rfl
  generalize State.emptyBindings { s with tables := changed } = a at *
  obtain ⟨k1, k2, k3⟩ := noticedOnce_kept a { stream := x, before := s.tables.entry x, after := changed.entry x, cause := cause }
  refine ⟨?_, grew_trans a0 k3⟩
  intro z d hz4 hz hd
  have N := noticedOnce_noticed a { stream := x, before := s.tables.entry x, after := changed.entry x, cause := cause } z d hz4
    (by rw [ad]; exact hd) (by rw [al]; exact hz)
  generalize a.noticedOnce _ = u at *
  unfold zoneNoticed at N
  dsimp only at N ⊢
  rw [az z, am] at N
  rw [k1, at']
  obtain ⟨taken, tested, q, m1, m2, m3, m4, m5⟩ := N
  refine ⟨taken, tested, q, m1, routesTested_of (by rw [k2]) (by rw [k1]) m2, ?_, m4, fun hh => ?_⟩
  · unfold State.positionTaken State.hearsStream at *
    rw [k1, k2]; exact m3
  · have m5 := m5 (ah.trans hh)
    exact ⟨fun p r => raises_grew a0 (m5.1 p r) (grew_refl u), fun p r w => raises_grew a0 (m5.2.1 p r w) (grew_refl u),
      fun p r => raises_grew a0 (m5.2.2 p r) (grew_refl u)⟩

/-! ## Messages -/

/-- What the zone statements read of a state stands in another, and every event between joined the list. -/
def sameForZones (s w : State) : Prop :=
  w.mixer = s.mixer ∧ w.member.station = s.member.station ∧ w.tables.directory = s.tables.directory
    ∧ w.tables.calls = s.tables.calls ∧ w.definitions = s.definitions ∧ s.grew w

theorem positionTaken_of {s u : State} (h1 : u.member.station = s.member.station) (h2 : u.tables.directory = s.tables.directory)
    (h3 : u.tables.calls = s.tables.calls) {d : ZoneDefinition} {p q : CallPosition} (h : s.positionTaken d p q) :
    u.positionTaken d p q := by
  unfold State.positionTaken State.hearsStream LineTables.fills LineTables.call LineTables.entry at *
  rw [h1, h2, h3]; exact h

theorem zonesNoticed_between {s a b u : State} {x : Nat} {c : Cause} (h : a.zonesNoticed b x c) (h1 : sameForZones s a)
    (h2 : sameForZones b u) : s.zonesNoticed u x c := by
  obtain ⟨a1, a2, a3, a4, a5, a6⟩ := h1
  obtain ⟨b1, b2, b3, b4, b5, b6⟩ := h2
  intro z d hz4 hz hd
  have e1 : ∀ y, a.tables.entry y = s.tables.entry y := by intro y; unfold LineTables.entry; rw [a3]
  have e2 : ∀ y, u.tables.entry y = b.tables.entry y := by intro y; unfold LineTables.entry; rw [b3]
  have z1 : a.zone z = s.zone z := by unfold State.zone; rw [a1]
  have z2 : u.zone z = b.zone z := by unfold State.zone; rw [b1]
  have N := h z d hz4 (by rw [a1]; exact hz) (by rw [a5]; exact hd)
  dsimp only at N ⊢
  rw [e1, z1, a2] at N
  rw [e2, z2]
  obtain ⟨taken, tested, q, m1, m2, m3, m4, m5⟩ := N
  refine ⟨taken, tested, q, m1, routesTested_of b2 b3 m2, positionTaken_of b2 b3 b4 m3, m4, fun hh => ?_⟩
  have m5 := m5 (a6.2.2.trans hh)
  exact ⟨fun p r => raises_grew a6 (m5.1 p r) b6, fun p r w => raises_grew a6 (m5.2.1 p r w) b6,
    fun p r => raises_grew a6 (m5.2.2 p r) b6⟩

theorem definitions_of (s u : State) (h1 : u.member.station = s.member.station) (h2 : u.startUp.record = s.startUp.record) :
    u.definitions = s.definitions := by unfold State.definitions State.inForce; rw [h1, h2]

/-- The station as a message finds it at the end of the tail. -/
theorem hearing_same (t : State) (n : Nat) (h : t.hears) : sameForZones t (t.tailCounts.refreshAge n)
    ∧ (t.tailCounts.refreshAge n).tables = t.tables.onStation n (fun e => { e with age := 0 }) := by
  have T := State.tailCounts_tables t h.2.2.1
  obtain ⟨k1, k2, k3, k4, k5, k6, k7, k8, k9, k10, k11⟩ := State.tailCounts_kept t
  have e : (t.tailCounts.refreshAge n).tables = t.tables.onStation n (fun e => { e with age := 0 }) := by
    show (t.tailCounts.tables.onStation n _) = _; rw [T]
  refine ⟨⟨k5, k1, by rw [e]; rfl, by rw [e]; rfl, definitions_of _ _ k1 ?_, ?_⟩, e⟩
  · show t.tailCounts.startUp.record = _; rw [k4]
  · exact grew_of_host k8 (by rw [e]; rfl) (hasHost_of _ _ k1 k4)

theorem effect_same (t : State) (n : Nat) (m : Message) (h : t.hears) (hm : m.mayMove = false) :
    sameForZones ((t.tailCounts.refreshAge n).judge n m).1 (t.messageEffect n m) := by
  obtain ⟨k1, k2, k3, k4, k5⟩ := State.messageEffect_stays t n m h hm
  have c := State.tailCounts_kept t
  have st : (t.messageEffect n m).member.station = ((t.tailCounts.refreshAge n).judge n m).1.member.station := by
    rw [k3, (State.judge_frame _ n m).2.2.1]; exact c.1.symm
  have sr : (t.messageEffect n m).startUp.record = ((t.tailCounts.refreshAge n).judge n m).1.startUp.record := by
    rw [t.messageEffect_hears n m h]; simp [State.refreshAge]
  exact ⟨k2, st, by rw [k1], by rw [k1], definitions_of _ _ st sr, grew_messageEffect t n m h hm⟩

/-- A stream message that changes one stream and no call record, at every zone of a station that hears it. -/
theorem streamMessage_zones (t : State) (n : Nat) (m : Message) (kind : Cause) (verdict : LineTables → LineTables × Cause) (x : Nat)
    (h : t.hears) (hm : m.mayMove = false) (hx : x < 64)
    (hj : ∀ s : State, s.judge n m = s.judgeStream n kind verdict)
    (hp : ((t.tables.onStation n (fun e => { e with age := 0 })).station n).present = true)
    (hc : (t.tables.entry x).code ≠ ((verdict (t.tables.onStation n (fun e => { e with age := 0 }))).1.entry x).code)
    (ho : ∀ T y, y ≠ x → (verdict T).1.entry y = T.entry y) (hf : ∀ T, (verdict T).1.frameCount = T.frameCount)
    (hcalls : (t.messageEffect n m).tables.calls = t.tables.calls) :
    t.zonesNoticed (t.messageEffect n m) x kind := by
  obtain ⟨H, e⟩ := hearing_same t n h
  have E := effect_same t n m h hm
  have M := State.messageEffect_stays t n m h hm
  rw [hj] at E M
  generalize t.tailCounts.refreshAge n = a at *
  unfold State.judgeStream at E M
  rw [if_pos (by rw [e]; exact hp)] at E M
  dsimp only at E M
  refine zonesNoticed_between (changeTables_zones a (verdict a.tables).1 _ kind _ x hx rfl ?_ ?_ ?_ ?_).1 H E
  · have := M.1
    rw [State.changeTables_tables] at this
    rw [this] at hcalls; rw [hcalls, e]; rfl
  · show (verdict a.tables).1.frameCount = _; rw [hf]
  · rw [e]; exact hc
  · intro y hy; exact ho a.tables y hy

/-! ## A change of call records, and of the station's state -/

theorem routesTested_none (u : State) (l : List RouteEntry) : routesTested u (fun _ => False) l l :=
  ⟨some, by simp, fun e => ⟨fun h => h.elim, fun _ => rfl⟩⟩

theorem grew_callChanged (s : State) (b : LineTables) (c : Nat → Cause) (j : Nat) : s.grew (s.callChanged b c j) := by
  unfold State.callChanged
  split
  · exact grew_refl s
  · split
    · exact grew_raise _ _ _ _
    · exact grew_refl s

theorem grew_goCanceller (s : State) (n : CancellerState) (c : Cause) : s.grew (s.goCanceller n c) := by
  have h : s.grew (s.enterCanceller n) := grew_of_host (by simp) (by simp) (hasHost_of _ _ (by simp) (by simp))
  unfold State.goCanceller
  dsimp only
  split
  · exact h
  · exact grew_trans h (grew_raise _ _ _ _)

theorem grew_cancellerOff (s : State) (c : Cause) : s.grew (s.cancellerOff c) := by
  unfold State.cancellerOff
  dsimp only
  split
  · exact grew_of_host rfl rfl rfl
  · exact grew_trans (grew_of_host rfl rfl rfl) (grew_goCanceller _ _ _)

theorem grew_beginService (s : State) (j : Nat) : s.grew (s.beginService j) := by
  unfold State.beginService
  dsimp only
  exact grew_trans (grew_of_host rfl rfl rfl) (grew_goCanceller _ _ _)

theorem grew_changeReference (s : State) (j : Nat) : s.grew (s.changeReference j) := by
  unfold State.changeReference
  dsimp only
  exact grew_trans (grew_of_host rfl rfl rfl) (grew_goCanceller _ _ _)

theorem grew_checkServed (s : State) : s.grew s.checkServed := by
  unfold State.checkServed
  split
  · exact grew_cancellerOff _ _
  · split
    · split
      · exact grew_refl s
      · exact grew_changeReference _ _
    · exact grew_trans (grew_cancellerOff _ _) (grew_beginService _ _)

/-- A change of the call records that leaves every stream as it is, at every zone. -/
theorem changeTables_callZones (s : State) (wanted : LineTables) (cause : Cause) (cc : Nat → Cause)
    (hn : notices s.tables (wanted.strip s.tables) cause = []) (hc : s.tables.calls ≠ (wanted.strip s.tables).calls)
    (hf : wanted.frameCount = s.tables.frameCount) : s.zonesTaken (s.changeTables wanted cause cc) false := by
  intro z d hz4 hz hd
  unfold State.changeTables
  dsimp only
  rw [hn, if_neg hc]
  have a0 : s.grew (State.emptyBindings { s with tables := wanted.strip s.tables }) := grew_of_host rfl hf rfl
  have am : (State.emptyBindings { s with tables := wanted.strip s.tables }).mixer = s.mixer := rfl
  have ad : (State.emptyBindings { s with tables := wanted.strip s.tables }).definitions = s.definitions := rfl
  have as : (State.emptyBindings { s with tables := wanted.strip s.tables }).member = s.member := rfl
  simp only [List.foldl_nil]
  generalize State.emptyBindings { s with tables := wanted.strip s.tables } = a at *
  generalize hcf : (fun j => if s.tables.call j = wanted.call j then Cause.streamGone else cc j) = cf
  have b0 := grew_forEach 2 (fun j acc => acc.callChanged s.tables cf j) a (fun j w => grew_callChanged w _ _ j)
  have bm : (forEach 2 (fun j acc => acc.callChanged s.tables cf j) a).mixer = a.mixer := by simp [forEach, List.range_succ]
  have bs : (forEach 2 (fun j acc => acc.callChanged s.tables cf j) a).member = a.member := by simp [forEach, List.range_succ]
  have br : (forEach 2 (fun j acc => acc.callChanged s.tables cf j) a).startUp = a.startUp := by simp [forEach, List.range_succ]
  generalize forEach 2 (fun j acc => acc.callChanged s.tables cf j) a = b at *
  have bd : b.definitions = a.definitions := definitions_of _ _ (by rw [bs]) (by rw [br])
  obtain ⟨q, h1, h2, h3⟩ := zonesAtCalls_taken b z d hz4 (by rw [bd, ad]; exact hd) (by rw [bm, am]; exact hz)
  have cm : b.zonesAtCalls.checkServed.lookAtUplink.mixer = b.zonesAtCalls.mixer := by simp
  have ct : b.zonesAtCalls.checkServed.lookAtUplink.tables = b.tables := by simp
  have cs : b.zonesAtCalls.checkServed.lookAtUplink.member = b.member := by simp
  have c0 : b.zonesAtCalls.grew b.zonesAtCalls.checkServed.lookAtUplink :=
    grew_trans (grew_checkServed _) (grew_lookAtUplink _)
  generalize b.zonesAtCalls.checkServed.lookAtUplink = u at *
  have zz : b.zone z = s.zone z := by unfold State.zone; rw [bm, am]
  rw [zz] at h1 h2 h3
  refine ⟨(s.zone z).routes, q, ?_, positionTaken_of (by rw [cs]) (by rw [ct]) (by rw [ct]) h1, ?_, fun hh _ hs hq => ?_⟩
  · simpa using routesTested_none u (s.zone z).routes
  · show zoneAimed d _ (u.zone z)
    rw [show u.zone z = b.zonesAtCalls.zone z from by unfold State.zone; rw [cm]]; exact h2
  · exact raises_grew (grew_trans a0 b0) (h3 ((b0.2.2.trans a0.2.2).trans hh) (by rw [bs, as]; exact hs) hq) c0

theorem activate_frames (T : LineTables) (j : Nat) (c : CallRecord) : (T.activate j c).frameCount = T.frameCount := by
  unfold LineTables.activate; dsimp only; split <;> rfl

theorem judgeCall_frames (T : LineTables) (n j a : Nat) (f : CallFields) : (T.judgeCall n j a f).1.frameCount = T.frameCount := by
  have K := activate_frames
  unfold LineTables.judgeCall LineTables.ring LineTables.answer LineTables.callZones
  dsimp only
  (repeat' split) <;> first | rfl | exact K _ _ _

/-- A CALL that changes a record, at every zone of a station that hears it. -/
theorem callMessage_zones (t : State) (n : Nat) (id a : Byte) (f : CallFields) (h : t.hears)
    (hi : (Message.call id a f).inRange = true) (hc : (t.messageEffect n (.call id a f)).tables.calls ≠ t.tables.calls) :
    t.zonesTaken (t.messageEffect n (.call id a f)) false := by
  obtain ⟨H, e⟩ := hearing_same t n h
  have E := effect_same t n (.call id a f) h rfl
  have M := (State.messageEffect_stays t n (.call id a f) h rfl).1
  have J : ∀ w : State, w.judge n (.call id a f) = w.judgeCallMessage n id.toNat a.toNat f := by
    intro w; show (if (Message.call id a f).inRange = false then _ else _) = _
    rw [if_neg (by simp [hi])]
  rw [J] at E M
  generalize t.tailCounts.refreshAge n = w at *
  unfold State.judgeCallMessage at E M
  have K := judgeCall_keeps w.tables n id.toNat a.toNat f
  dsimp only at E M
  have hf := judgeCall_frames w.tables n id.toNat a.toNat f
  generalize hg : w.tables.judgeCall n id.toNat a.toNat f = g at *
  obtain ⟨T, v⟩ := g
  dsimp only at E M K hf
  have S := strip_sameDirectory T w.tables K.1
  have N : notices w.tables (T.strip w.tables) .streamGone = [] := by
    rw [S]; unfold notices LineTables.entry; rw [K.1]; simp
  have C : w.tables.calls ≠ (T.strip w.tables).calls := by
    intro hh; rw [M, State.changeTables_tables, ← hh, e] at hc; exact hc rfl
  have Z := changeTables_callZones w T .streamGone (fun _ => actionCause a.toNat) N C hf
  generalize w.changeTables T .streamGone (fun _ => actionCause a.toNat) = b at *
  obtain ⟨a1, a2, a3, a4, a5, a6⟩ := H
  obtain ⟨b1, b2, b3, b4, b5, b6⟩ := E
  intro z d hz4 hz hd
  have z1 : w.zone z = t.zone z := by unfold State.zone; rw [a1]
  have z2 : (t.messageEffect n (.call id a f)).zone z = b.zone z := by unfold State.zone; rw [b1]
  have N := Z z d hz4 (by rw [a1]; exact hz) (by rw [a5]; exact hd)
  dsimp only at N ⊢
  rw [z1, a2] at N
  rw [z2]
  obtain ⟨routes, q, m1, m2, m3, m4⟩ := N
  exact ⟨routes, q, routesTested_of b2 b3 m1, positionTaken_of b2 b3 b4 m2, m3, fun hh ht hs hq =>
    raises_grew a6 (m4 (a6.2.2.trans hh) ht hs hq) b6⟩

/-- A change of station state between two states on the line, at every zone. -/
theorem goTo_zones (s : State) (new : StationState) (cause : Cause) (h1 : s.member.station ≠ .offline) (h2 : new ≠ .offline) :
    s.zonesTaken (s.goTo new cause) true := by
  intro z d hz4 hz hd
  unfold State.goTo
  dsimp only
  generalize ha : (if s.member.station = .joining ∧ new = .member then State.queueOffers _ else _) = a
  have am : a.mixer = s.mixer := by
    rw [← ha]; (repeat' split) <;> simp
  have as : a.member.station = new := by
    rw [← ha]; (repeat' split) <;> simp
  have ar : a.startUp.record = s.startUp.record := by
    rw [← ha]; (repeat' split) <;> simp
  clear ha
  have ad : a.definitions = s.definitions := by
    unfold State.definitions State.inForce; rw [as, ar, if_neg h1, if_neg h2]
  obtain ⟨routes, q, m1, m2, m3⟩ := zonesAtStation_taken a z d hz4 (by rw [ad]; exact hd) (by rw [am]; exact hz)
  have zz : a.zone z = s.zone z := by unfold State.zone; rw [am]
  rw [zz] at m1 m2 m3
  have bs : a.zonesAtStation.checkServed.member = a.member := by simp
  have bt : a.zonesAtStation.checkServed.tables = a.tables := by simp
  have bm : a.zonesAtStation.checkServed.mixer = a.zonesAtStation.mixer := by simp
  generalize a.zonesAtStation.checkServed = u at *
  refine ⟨routes, q, ?_, positionTaken_of (by rw [bs]) (by rw [bt]) (by rw [bt]) m2, ?_, fun _ h => absurd h (by simp)⟩
  · simpa using routesTested_of (by rw [bs]) (by rw [bt]) m1
  · show zoneAimed d _ (u.zone z)
    rw [show u.zone z = a.zonesAtStation.zone z from by unfold State.zone; rw [bm]]; exact m3

end Sys2Proof.Machine
end

