-- ==== Sys2Proof/Laws/MixerSized.lean ====
section
/-! SUPPORT. Every operation keeps the sizes of the zones and paths. -/

namespace Sys2Proof.Machine

set_option maxRecDepth 20000
set_option linter.unusedSimpArgs false
set_option linter.unusedVariables false

@[simp] theorem State.onPath_mixerSized (s : State) (pair : Nat) (f : OutputPath → OutputPath)
    (h : MixerSized s.mixer) : MixerSized (State.onPath s pair f).mixer := by
  unfold State.onPath; (try dsimp only); (repeat' split) <;>
    first | (simp (maxDischargeDepth := 12) +contextual [h]; done) | (simp_all (maxDischargeDepth := 12); done)
@[simp] theorem State.takeServed_mixerSized (s : State) (r : Request) (words : List Sample)
    (h : MixerSized s.mixer) : MixerSized (State.takeServed s r words).mixer := by
  unfold State.takeServed; (try dsimp only); (repeat' split) <;>
    first | (simp (maxDischargeDepth := 12) +contextual [h]; done) | (simp_all (maxDischargeDepth := 12); done)
@[simp] theorem State.takeGap_mixerSized (s : State) (r : Request)
    (h : MixerSized s.mixer) : MixerSized (State.takeGap s r).mixer := by
  unfold State.takeGap; (try dsimp only); (repeat' split) <;>
    first | (simp (maxDischargeDepth := 12) +contextual [h]; done) | (simp_all (maxDischargeDepth := 12); done)
@[simp] theorem State.endRequest_mixerSized (s : State) (r : Request) (e : RequestEnd)
    (h : MixerSized s.mixer) : MixerSized (State.endRequest s r e).mixer := by
  unfold State.endRequest; (try dsimp only); (repeat' split) <;>
    first | (simp (maxDischargeDepth := 12) +contextual [h]; done) | (simp_all (maxDischargeDepth := 12); done)
@[simp] theorem State.request_mixerSized (s : State) (r : Request)
    (h : MixerSized s.mixer) : MixerSized (State.request s r).mixer := by
  unfold State.request; (try dsimp only); (repeat' split) <;>
    first | (simp (maxDischargeDepth := 12) +contextual [h]; done) | (simp_all (maxDischargeDepth := 12); done)
@[simp] theorem State.loadOne_mixerSized (s : State)
    (h : MixerSized s.mixer) : MixerSized (State.loadOne s).mixer := by
  unfold State.loadOne; (try dsimp only); (repeat' split) <;>
    first | (simp (maxDischargeDepth := 12) +contextual [h]; done) | (simp_all (maxDischargeDepth := 12); done)
@[simp] theorem State.feedLoader_mixerSized (s : State)
    (h : MixerSized s.mixer) : MixerSized (State.feedLoader s).mixer := by
  unfold State.feedLoader; (try dsimp only); (repeat' split) <;>
    first | (simp (maxDischargeDepth := 12) +contextual [h]; done) | (simp_all (maxDischargeDepth := 12); done)
@[simp] theorem State.storeBoundary_mixerSized (s : State)
    (h : MixerSized s.mixer) : MixerSized (State.storeBoundary s).mixer := by
  unfold State.storeBoundary; (try dsimp only); (repeat' split) <;>
    first | (simp (maxDischargeDepth := 12) +contextual [h]; done) | (simp_all (maxDischargeDepth := 12); done)
@[simp] theorem State.burstComplete_mixerSized (s : State) (bank : Nat)
    (h : MixerSized s.mixer) : MixerSized (State.burstComplete s bank).mixer := by
  unfold State.burstComplete; (try dsimp only); (repeat' split) <;>
    first | (simp (maxDischargeDepth := 12) +contextual [h]; done) | (simp_all (maxDischargeDepth := 12); done)
@[simp] theorem State.onZone_mixerSized (s : State) (z : Nat) (f : Zone → Zone)
    (h : MixerSized s.mixer) : MixerSized (State.onZone s z f).mixer := by
  unfold State.onZone; (try dsimp only); (repeat' split) <;>
    first | (simp (maxDischargeDepth := 12) +contextual [h]; done) | (simp_all (maxDischargeDepth := 12); done)
@[simp] theorem State.retarget_mixerSized (s : State) (z : Nat)
    (h : MixerSized s.mixer) : MixerSized (State.retarget s z).mixer := by
  unfold State.retarget; (try dsimp only); (repeat' split) <;>
    first | (simp (maxDischargeDepth := 12) +contextual [h]; done) | (simp_all (maxDischargeDepth := 12); done)
@[simp] theorem State.testRoutes_mixerSized (s : State) (z : Nat)
    (h : MixerSized s.mixer) : MixerSized (State.testRoutes s z).mixer := by
  unfold State.testRoutes; (try dsimp only); (repeat' split) <;>
    first | (simp (maxDischargeDepth := 12) +contextual [h]; done) | (simp_all (maxDischargeDepth := 12); done)
@[simp] theorem State.testRoutesOf_mixerSized (s : State) (x z : Nat)
    (h : MixerSized s.mixer) : MixerSized (State.testRoutesOf s x z).mixer := by
  unfold State.testRoutesOf; (try dsimp only); (repeat' split) <;>
    first | (simp (maxDischargeDepth := 12) +contextual [h]; done) | (simp_all (maxDischargeDepth := 12); done)
@[simp] theorem State.retakePosition_mixerSized (s : State) (z : Nat)
    (h : MixerSized s.mixer) : MixerSized (State.retakePosition s z).mixer := by
  unfold State.retakePosition; (try dsimp only); (repeat' split) <;>
    first | (simp (maxDischargeDepth := 12) +contextual [h]; done) | (simp_all (maxDischargeDepth := 12); done)
@[simp] theorem State.zonesAtStation_mixerSized (s : State)
    (h : MixerSized s.mixer) : MixerSized (State.zonesAtStation s).mixer := by
  unfold State.zonesAtStation; (try dsimp only); (repeat' split) <;>
    first | (simp (maxDischargeDepth := 12) +contextual [h]; done) | (simp_all (maxDischargeDepth := 12); done)
@[simp] theorem State.zonesAtCalls_mixerSized (s : State)
    (h : MixerSized s.mixer) : MixerSized (State.zonesAtCalls s).mixer := by
  unfold State.zonesAtCalls; (try dsimp only); (repeat' split) <;>
    first | (simp (maxDischargeDepth := 12) +contextual [h]; done) | (simp_all (maxDischargeDepth := 12); done)
@[simp] theorem State.takeClass_mixerSized (s : State) (n : StreamNotice) (z : Nat)
    (h : MixerSized s.mixer) : MixerSized (State.takeClass s n z).mixer := by
  unfold State.takeClass; (try dsimp only); (repeat' split) <;>
    first | (simp (maxDischargeDepth := 12) +contextual [h]; done) | (simp_all (maxDischargeDepth := 12); done)
@[simp] theorem State.zoneNotice_mixerSized (s a : State) (n : StreamNotice) (z : Nat)
    (h : MixerSized s.mixer) : MixerSized (State.zoneNotice s a n z).mixer := by
  unfold State.zoneNotice; (try dsimp only); (repeat' split) <;>
    first | (simp (maxDischargeDepth := 12) +contextual [h]; done) | (simp_all (maxDischargeDepth := 12); done)
@[simp] theorem State.zonesAtNotice_mixerSized (s a : State) (n : StreamNotice)
    (h : MixerSized s.mixer) : MixerSized (State.zonesAtNotice s a n).mixer := by
  unfold State.zonesAtNotice; (try dsimp only); (repeat' split) <;>
    first | (simp (maxDischargeDepth := 12) +contextual [h]; done) | (simp_all (maxDischargeDepth := 12); done)
@[simp] theorem State.setRouteLevel_mixerSized (s : State) (z x level : Nat)
    (h : MixerSized s.mixer) : MixerSized (State.setRouteLevel s z x level).1.mixer := by
  unfold State.setRouteLevel; (try dsimp only); (repeat' split) <;>
    first | (simp (maxDischargeDepth := 12) +contextual [h]; done) | (simp_all (maxDischargeDepth := 12); done)
@[simp] theorem State.addRoute_mixerSized (s : State) (z x level : Nat)
    (h : MixerSized s.mixer) : MixerSized (State.addRoute s z x level).1.mixer := by
  unfold State.addRoute; (try dsimp only); (repeat' split) <;>
    first | (simp (maxDischargeDepth := 12) +contextual [h]; done) | (simp_all (maxDischargeDepth := 12); done)
@[simp] theorem State.removeRoute_mixerSized (s : State) (z x : Nat)
    (h : MixerSized s.mixer) : MixerSized (State.removeRoute s z x).1.mixer := by
  unfold State.removeRoute; (try dsimp only); (repeat' split) <;>
    first | (simp (maxDischargeDepth := 12) +contextual [h]; done) | (simp_all (maxDischargeDepth := 12); done)
@[simp] theorem State.judgeRoute_mixerSized (s : State) (z x action level : Nat)
    (h : MixerSized s.mixer) : MixerSized (State.judgeRoute s z x action level).1.mixer := by
  unfold State.judgeRoute; (try dsimp only); (repeat' split) <;>
    first | (simp (maxDischargeDepth := 12) +contextual [h]; done) | (simp_all (maxDischargeDepth := 12); done)
@[simp] theorem State.endEntryRamp_mixerSized (s : State) (z x : Nat)
    (h : MixerSized s.mixer) : MixerSized (State.endEntryRamp s z x).mixer := by
  unfold State.endEntryRamp; (try dsimp only); (repeat' split) <;>
    first | (simp (maxDischargeDepth := 12) +contextual [h]; done) | (simp_all (maxDischargeDepth := 12); done)
@[simp] theorem State.endPositionRamp_mixerSized (s : State) (z : Nat)
    (h : MixerSized s.mixer) : MixerSized (State.endPositionRamp s z).mixer := by
  unfold State.endPositionRamp; (try dsimp only); (repeat' split) <;>
    first | (simp (maxDischargeDepth := 12) +contextual [h]; done) | (simp_all (maxDischargeDepth := 12); done)
@[simp] theorem State.endRamp_mixerSized (s : State) (z : Nat) (which : RampOf)
    (h : MixerSized s.mixer) : MixerSized (State.endRamp s z which).mixer := by
  unfold State.endRamp; (try dsimp only); (repeat' split) <;>
    first | (simp (maxDischargeDepth := 12) +contextual [h]; done) | (simp_all (maxDischargeDepth := 12); done)
@[simp] theorem State.changeTables_mixerSized (s : State) (changed : LineTables) (cause : Cause) (callCause : Nat → Cause)
    (h : MixerSized s.mixer) : MixerSized (State.changeTables s changed cause callCause).mixer := by
  unfold State.changeTables; (try dsimp only); (repeat' split) <;>
    first | (simp (maxDischargeDepth := 12) +contextual [h]; done) | (simp_all (maxDischargeDepth := 12); done)
@[simp] theorem State.goTo_mixerSized (s : State) (new : StationState) (cause : Cause)
    (h : MixerSized s.mixer) : MixerSized (State.goTo s new cause).mixer := by
  unfold State.goTo; (try dsimp only); (repeat' split) <;>
    first | (simp (maxDischargeDepth := 12) +contextual [h]; done) | (simp_all (maxDischargeDepth := 12); done)
@[simp] theorem State.removeStation_mixerSized (s : State) (n : Nat) (cause : Cause)
    (h : MixerSized s.mixer) : MixerSized (State.removeStation s n cause).mixer := by
  unfold State.removeStation; (try dsimp only); (repeat' split) <;>
    first | (simp (maxDischargeDepth := 12) +contextual [h]; done) | (simp_all (maxDischargeDepth := 12); done)
@[simp] theorem State.ownRemoved_mixerSized (s : State)
    (h : MixerSized s.mixer) : MixerSized (State.ownRemoved s).mixer := by
  unfold State.ownRemoved; (try dsimp only); (repeat' split) <;>
    first | (simp (maxDischargeDepth := 12) +contextual [h]; done) | (simp_all (maxDischargeDepth := 12); done)
@[simp] theorem State.judgePresence_mixerSized (s : State) (sender : Nat) (roles : Byte) (zones privateZones : ZoneSet) (owned : SlotSet) (d : Descriptor)
    (h : MixerSized s.mixer) :
    MixerSized (State.judgePresence s sender roles zones privateZones owned d).1.mixer := by
  unfold State.judgePresence; (try dsimp only); (repeat' split) <;>
    first | (simp (maxDischargeDepth := 12) +contextual [h]; done) | (simp_all (maxDischargeDepth := 12); done)
@[simp] theorem State.judgeLeave_mixerSized (s : State) (sender : Nat)
    (h : MixerSized s.mixer) : MixerSized (State.judgeLeave s sender).1.mixer := by
  unfold State.judgeLeave; (try dsimp only); (repeat' split) <;>
    first | (simp (maxDischargeDepth := 12) +contextual [h]; done) | (simp_all (maxDischargeDepth := 12); done)
@[simp] theorem State.judgeStream_mixerSized (s : State) (sender : Nat) (kind : Cause) (verdict : LineTables → LineTables × Cause)
    (h : MixerSized s.mixer) : MixerSized (State.judgeStream s sender kind verdict).1.mixer := by
  unfold State.judgeStream; (try dsimp only); (repeat' split) <;>
    first | (simp (maxDischargeDepth := 12) +contextual [h]; done) | (simp_all (maxDischargeDepth := 12); done)
@[simp] theorem State.judgeCallMessage_mixerSized (s : State) (sender j action : Nat) (f : CallFields)
    (h : MixerSized s.mixer) : MixerSized (State.judgeCallMessage s sender j action f).1.mixer := by
  unfold State.judgeCallMessage; (try dsimp only); (repeat' split) <;>
    first | (simp (maxDischargeDepth := 12) +contextual [h]; done) | (simp_all (maxDischargeDepth := 12); done)
@[simp] theorem State.judgeRouteMessage_mixerSized (s : State) (sender : Nat) (zone stream action level : Byte)
    (h : MixerSized s.mixer) : MixerSized (State.judgeRouteMessage s sender zone stream action level).mixer := by
  unfold State.judgeRouteMessage; (try dsimp only); (repeat' split) <;>
    first | (simp (maxDischargeDepth := 12) +contextual [h]; done) | (simp_all (maxDischargeDepth := 12); done)
@[simp] theorem State.judge_mixerSized (s : State) (sender : Nat) (m : Message)
    (h : MixerSized s.mixer) : MixerSized (State.judge s sender m).1.mixer := by
  unfold State.judge; cases m <;> dsimp only <;> (try split) <;>
    first | with_reducible exact h | (simp [h]; done) | (simp_all; done)
@[simp] theorem State.moveByMessage_mixerSized (s : State) (own : Bool) (sender : Nat) (m : Message) (verdict : Cause)
    (h : MixerSized s.mixer) : MixerSized (State.moveByMessage s own sender m verdict).mixer := by
  unfold State.moveByMessage; cases m <;> dsimp only <;> (repeat' split) <;>
    first | with_reducible exact h | with_reducible exact State.goTo_mixerSized _ _ _ h | with_reducible exact State.ownRemoved_mixerSized _ h
@[simp] theorem State.takeEffect_mixerSized (s : State) (sender : Nat) (m : Message)
    (h : MixerSized s.mixer) : MixerSized (State.takeEffect s sender m).mixer := by
  unfold State.takeEffect; (try dsimp only); (repeat' split) <;>
    first | (simp (maxDischargeDepth := 12) +contextual [h]; done) | (simp_all (maxDischargeDepth := 12); done)
@[simp] theorem State.start_mixerSized (s : State) (emitted inWindow : Bool)
    (h : MixerSized s.mixer) : MixerSized (State.start s emitted inWindow).mixer := by
  unfold State.start; (try dsimp only); (repeat' split) <;>
    first | (simp (maxDischargeDepth := 12) +contextual [h]; done) | (simp_all (maxDischargeDepth := 12); done)
@[simp] theorem State.missStart_mixerSized (s : State)
    (h : MixerSized s.mixer) : MixerSized (State.missStart s).mixer := by
  unfold State.missStart; (try dsimp only); (repeat' split) <;>
    first | (simp (maxDischargeDepth := 12) +contextual [h]; done) | (simp_all (maxDischargeDepth := 12); done)
@[simp] theorem State.leadStart_mixerSized (s : State)
    (h : MixerSized s.mixer) : MixerSized (State.leadStart s).mixer := by
  unfold State.leadStart; (try dsimp only); (repeat' split) <;>
    first | (simp (maxDischargeDepth := 12) +contextual [h]; done) | (simp_all (maxDischargeDepth := 12); done)
@[simp] theorem State.expireTimer_mixerSized (s : State)
    (h : MixerSized s.mixer) : MixerSized (State.expireTimer s).mixer := by
  unfold State.expireTimer; (try dsimp only); (repeat' split) <;>
    first | (simp (maxDischargeDepth := 12) +contextual [h]; done) | (simp_all (maxDischargeDepth := 12); done)
@[simp] theorem State.missFurther_mixerSized (s : State)
    (h : MixerSized s.mixer) : MixerSized (State.missFurther s).mixer := by
  unfold State.missFurther; (try dsimp only); (repeat' split) <;>
    first | (simp (maxDischargeDepth := 12) +contextual [h]; done) | (simp_all (maxDischargeDepth := 12); done)
@[simp] theorem State.keepUpStart_mixerSized (s : State)
    (h : MixerSized s.mixer) : MixerSized (State.keepUpStart s).mixer := by
  unfold State.keepUpStart; (try dsimp only); (repeat' split) <;>
    first | (simp (maxDischargeDepth := 12) +contextual [h]; done) | (simp_all (maxDischargeDepth := 12); done)
@[simp] theorem State.joinVetoed_mixerSized (s : State) (e : QueueEntry)
    (h : MixerSized s.mixer) : MixerSized (State.joinVetoed s e).mixer := by
  unfold State.joinVetoed; (try dsimp only); (repeat' split) <;>
    first | (simp (maxDischargeDepth := 12) +contextual [h]; done) | (simp_all (maxDischargeDepth := 12); done)
@[simp] theorem State.abandon_mixerSized (s : State) (e : QueueEntry)
    (h : MixerSized s.mixer) : MixerSized (State.abandon s e).mixer := by
  unfold State.abandon; (try dsimp only); (repeat' split) <;>
    first | (simp (maxDischargeDepth := 12) +contextual [h]; done) | (simp_all (maxDischargeDepth := 12); done)
@[simp] theorem State.ownVetoed_mixerSized (s : State)
    (h : MixerSized s.mixer) : MixerSized (State.ownVetoed s).mixer := by
  unfold State.ownVetoed; (try dsimp only); (repeat' split) <;>
    first | (simp (maxDischargeDepth := 12) +contextual [h]; done) | (simp_all (maxDischargeDepth := 12); done)
@[simp] theorem State.tail_mixerSized (s : State) (message : Option (Nat × Message)) (veto : Bool)
    (h : MixerSized s.mixer) : MixerSized (State.tail s message veto).mixer := by
  unfold State.tail; (try dsimp only); (repeat' split) <;>
    first | (simp (maxDischargeDepth := 12) +contextual [h]; done) | (simp_all (maxDischargeDepth := 12); done)
@[simp] theorem State.tailEnd_mixerSized (s : State) (veto : Bool)
    (h : MixerSized s.mixer) : MixerSized (State.tailEnd s veto).mixer := by
  unfold State.tailEnd; (try dsimp only); (repeat' split) <;>
    first | (simp (maxDischargeDepth := 12) +contextual [h]; done) | (simp_all (maxDischargeDepth := 12); done)
@[simp] theorem State.messageEffect_mixerSized (s : State) (sender : Nat) (m : Message)
    (h : MixerSized s.mixer) : MixerSized (State.messageEffect s sender m).mixer := by
  unfold State.messageEffect; (try dsimp only); (repeat' split) <;>
    first | (simp (maxDischargeDepth := 12) +contextual [h]; done) | (simp_all (maxDischargeDepth := 12); done)
@[simp] theorem State.selfVetoDue_mixerSized (s : State)
    (h : MixerSized s.mixer) : MixerSized (State.selfVetoDue s).mixer := by
  unfold State.selfVetoDue; (try dsimp only); (repeat' split) <;>
    first | (simp (maxDischargeDepth := 12) +contextual [h]; done) | (simp_all (maxDischargeDepth := 12); done)
@[simp] theorem State.listenEnd_mixerSized (s : State)
    (h : MixerSized s.mixer) : MixerSized (State.listenEnd s).mixer := by
  unfold State.listenEnd; (try dsimp only); (repeat' split) <;>
    first | (simp (maxDischargeDepth := 12) +contextual [h]; done) | (simp_all (maxDischargeDepth := 12); done)
@[simp] theorem State.agedOut_mixerSized (s : State) (n : Nat)
    (h : MixerSized s.mixer) : MixerSized (State.agedOut s n).mixer := by
  unfold State.agedOut; (try dsimp only); (repeat' split) <;>
    first | (simp (maxDischargeDepth := 12) +contextual [h]; done) | (simp_all (maxDischargeDepth := 12); done)
@[simp] theorem State.silenceEnded_mixerSized (s : State)
    (h : MixerSized s.mixer) : MixerSized (State.silenceEnded s).mixer := by
  unfold State.silenceEnded; (try dsimp only); (repeat' split) <;>
    first | (simp (maxDischargeDepth := 12) +contextual [h]; done) | (simp_all (maxDischargeDepth := 12); done)
@[simp] theorem State.mixZones_mixerSized (s : State)
    (h : MixerSized s.mixer) : MixerSized (State.mixZones s).mixer := by
  unfold State.mixZones; (try dsimp only); (repeat' split) <;>
    first | (simp (maxDischargeDepth := 12) +contextual [h]; done) | (simp_all (maxDischargeDepth := 12); done)
@[simp] theorem State.playPair_mixerSized (s : State) (pair : Nat)
    (h : MixerSized s.mixer) : MixerSized (State.playPair s pair).mixer := by
  unfold State.playPair; (try dsimp only); (repeat' split) <;>
    first | (simp (maxDischargeDepth := 12) +contextual [h]; done) | (simp_all (maxDischargeDepth := 12); done)
@[simp] theorem State.alignBurst_mixerSized (s : State) (access : Access) (pair group : Nat) (right : Bool) (data : List (Nat × Sample)) (purpose : Purpose)
    (h : MixerSized s.mixer) : MixerSized (State.alignBurst s access pair group right data purpose).mixer := by
  unfold State.alignBurst; (try dsimp only); (repeat' split) <;>
    first | (simp (maxDischargeDepth := 12) +contextual [h]; done) | (simp_all (maxDischargeDepth := 12); done)
@[simp] theorem State.alignWrites_mixerSized (s : State) (pair : Nat)
    (h : MixerSized s.mixer) : MixerSized (State.alignWrites s pair).mixer := by
  unfold State.alignWrites; (try dsimp only); (repeat' split) <;>
    first | (simp (maxDischargeDepth := 12) +contextual [h]; done) | (simp_all (maxDischargeDepth := 12); done)
@[simp] theorem State.alignReads_mixerSized (s : State) (pair delay : Nat)
    (h : MixerSized s.mixer) : MixerSized (State.alignReads s pair delay).mixer := by
  unfold State.alignReads; (try dsimp only); (repeat' split) <;>
    first | (simp (maxDischargeDepth := 12) +contextual [h]; done) | (simp_all (maxDischargeDepth := 12); done)
@[simp] theorem State.alignTurn_mixerSized (s : State)
    (h : MixerSized s.mixer) : MixerSized (State.alignTurn s).mixer := by
  unfold State.alignTurn; (try dsimp only); (repeat' split) <;>
    first | (simp (maxDischargeDepth := 12) +contextual [h]; done) | (simp_all (maxDischargeDepth := 12); done)
@[simp] theorem State.playPairs_mixerSized (s : State)
    (h : MixerSized s.mixer) : MixerSized (State.playPairs s).mixer := by
  unfold State.playPairs; (try dsimp only); (repeat' split) <;>
    first | (simp (maxDischargeDepth := 12) +contextual [h]; done) | (simp_all (maxDischargeDepth := 12); done)
@[simp] theorem State.requestGroup_mixerSized (s : State) (place : Nat) (offset repetition group due : Nat)
    (h : MixerSized s.mixer) : MixerSized (State.requestGroup s place offset repetition group due).mixer := by
  unfold State.requestGroup; (try dsimp only); (repeat' split) <;>
    first | (simp (maxDischargeDepth := 12) +contextual [h]; done) | (simp_all (maxDischargeDepth := 12); done)
@[simp] theorem State.requestGroups_mixerSized (s : State) (place : Nat)
    (h : MixerSized s.mixer) : MixerSized (State.requestGroups s place).mixer := by
  unfold State.requestGroups; (try dsimp only); (repeat' split) <;>
    first | (simp (maxDischargeDepth := 12) +contextual [h]; done) | (simp_all (maxDischargeDepth := 12); done)
@[simp] theorem State.announceSample_mixerSized (s : State)
    (h : MixerSized s.mixer) : MixerSized (State.announceSample s).mixer := by
  unfold State.announceSample; (try dsimp only); (repeat' split) <;>
    first | (simp (maxDischargeDepth := 12) +contextual [h]; done) | (simp_all (maxDischargeDepth := 12); done)
theorem State.startPlay_mixerSized (s : State) (clip level repeats : Nat) (starter : Starter) (x : Nat × State)
    (e : s.startPlay clip level repeats starter = some x) (h : MixerSized s.mixer) : MixerSized x.2.mixer := by
  unfold State.startPlay at e
  split at e
  · split at e
    · simp at e
    · simp only [Option.some.injEq] at e; subst e; simp (maxDischargeDepth := 12) [h]
  · simp at e
@[simp] theorem State.fire_mixerSized (s : State) (c : Nat)
    (h : MixerSized s.mixer) : MixerSized (State.fire s c).mixer := by
  unfold State.fire; (try dsimp only); (repeat' split) <;>
    first | (with_reducible exact h) | (simp (maxDischargeDepth := 12) [h]; done) | (rename_i e; have := State.startPlay_mixerSized _ _ _ _ _ _ e; simp (maxDischargeDepth := 12) [h] at this; simp_all; done)
@[simp] theorem State.fireFollowers_mixerSized (s : State) (leader : Nat)
    (h : MixerSized s.mixer) : MixerSized (State.fireFollowers s leader).mixer := by
  unfold State.fireFollowers; (try dsimp only); (repeat' split) <;>
    first | (simp (maxDischargeDepth := 12) +contextual [h]; done) | (simp_all (maxDischargeDepth := 12); done)
@[simp] theorem State.cadenceExpiry_mixerSized (s : State) (c : Nat)
    (h : MixerSized s.mixer) : MixerSized (State.cadenceExpiry s c).mixer := by
  unfold State.cadenceExpiry; (try dsimp only); (repeat' split) <;>
    first | (simp (maxDischargeDepth := 12) +contextual [h]; done) | (simp_all (maxDischargeDepth := 12); done)
@[simp] theorem State.cadencePass_mixerSized (s : State)
    (h : MixerSized s.mixer) : MixerSized (State.cadencePass s).mixer := by
  unfold State.cadencePass; (try dsimp only); (repeat' split) <;>
    first | (simp (maxDischargeDepth := 12) +contextual [h]; done) | (simp_all (maxDischargeDepth := 12); done)
@[simp] theorem State.cadenceStart_mixerSized (s : State) (c : Nat)
    (h : MixerSized s.mixer) : MixerSized (State.cadenceStart s c).1.mixer := by
  unfold State.cadenceStart; (try dsimp only); (repeat' split) <;>
    first | (simp (maxDischargeDepth := 12) +contextual [h]; done) | (simp_all (maxDischargeDepth := 12); done)
@[simp] theorem State.blendBurst_mixerSized (s : State) (access : Access) (group : Nat) (right : Bool) (data : List (Nat × Sample)) (purpose : Purpose)
    (h : MixerSized s.mixer) : MixerSized (State.blendBurst s access group right data purpose).mixer := by
  unfold State.blendBurst; (try dsimp only); (repeat' split) <;>
    first | (simp (maxDischargeDepth := 12) +contextual [h]; done) | (simp_all (maxDischargeDepth := 12); done)
@[simp] theorem State.blendWrites_mixerSized (s : State)
    (h : MixerSized s.mixer) : MixerSized (State.blendWrites s).mixer := by
  unfold State.blendWrites; (try dsimp only); (repeat' split) <;>
    first | (simp (maxDischargeDepth := 12) +contextual [h]; done) | (simp_all (maxDischargeDepth := 12); done)
@[simp] theorem State.blendReads_mixerSized (s : State) (tap : Nat) (groups : List Nat)
    (h : MixerSized s.mixer) : MixerSized (State.blendReads s tap groups).mixer := by
  unfold State.blendReads; (try dsimp only); (repeat' split) <;>
    first | (simp (maxDischargeDepth := 12) +contextual [h]; done) | (simp_all (maxDischargeDepth := 12); done)
@[simp] theorem State.blendTurn_mixerSized (s : State)
    (h : MixerSized s.mixer) : MixerSized (State.blendTurn s).mixer := by
  unfold State.blendTurn; (try dsimp only); (repeat' split) <;>
    first | (simp (maxDischargeDepth := 12) +contextual [h]; done) | (simp_all (maxDischargeDepth := 12); done)
@[simp] theorem State.blendSample_mixerSized (s : State)
    (h : MixerSized s.mixer) : MixerSized (State.blendSample s).mixer := by
  unfold State.blendSample; (try dsimp only); (repeat' split) <;>
    first | (simp (maxDischargeDepth := 12) +contextual [h]; done) | (simp_all (maxDischargeDepth := 12); done)
@[simp] theorem State.echoWrite_mixerSized (s : State)
    (h : MixerSized s.mixer) : MixerSized (State.echoWrite s).mixer := by
  unfold State.echoWrite; (try dsimp only); (repeat' split) <;>
    first | (simp (maxDischargeDepth := 12) +contextual [h]; done) | (simp_all (maxDischargeDepth := 12); done)
@[simp] theorem State.echoReads_mixerSized (s : State)
    (h : MixerSized s.mixer) : MixerSized (State.echoReads s).mixer := by
  unfold State.echoReads; (try dsimp only); (repeat' split) <;>
    first | (simp (maxDischargeDepth := 12) +contextual [h]; done) | (simp_all (maxDischargeDepth := 12); done)
@[simp] theorem State.echoTurn_mixerSized (s : State)
    (h : MixerSized s.mixer) : MixerSized (State.echoTurn s).mixer := by
  unfold State.echoTurn; (try dsimp only); (repeat' split) <;>
    first | (simp (maxDischargeDepth := 12) +contextual [h]; done) | (simp_all (maxDischargeDepth := 12); done)
@[simp] theorem State.callSample_mixerSized (s : State)
    (h : MixerSized s.mixer) : MixerSized (State.callSample s).mixer := by
  unfold State.callSample; (try dsimp only); (repeat' split) <;>
    first | (simp (maxDischargeDepth := 12) +contextual [h]; done) | (simp_all (maxDischargeDepth := 12); done)
@[simp] theorem State.localSample_mixerSized (s : State) (i : InputSamples)
    (h : MixerSized s.mixer) : MixerSized (State.localSample s i).mixer := by
  unfold State.localSample; (try dsimp only); (repeat' split) <;>
    first | (simp (maxDischargeDepth := 12) +contextual [h]; done) | (simp_all (maxDischargeDepth := 12); done)
@[simp] theorem State.installRoute_mixerSized (s : State) (zones : List ZoneDefinition) (t : AutonomousRoute)
    (h : MixerSized s.mixer) : MixerSized (State.installRoute s zones t).mixer := by
  unfold State.installRoute; (try dsimp only); (repeat' split) <;>
    first | (simp (maxDischargeDepth := 12) +contextual [h]; done) | (simp_all (maxDischargeDepth := 12); done)
@[simp] theorem State.setUp_mixerSized (s : State) (r : StartUpRecord)
    (h : MixerSized s.mixer) : MixerSized (State.setUp s r).mixer := by
  unfold State.setUp; (try dsimp only); (repeat' split) <;>
    first | (simp (maxDischargeDepth := 12) +contextual [h]; done) | (simp_all (maxDischargeDepth := 12); done)
@[simp] theorem State.recordRead_mixerSized (s : State) (read : RecordRead)
    (h : MixerSized s.mixer) : MixerSized (State.recordRead s read).mixer := by
  unfold State.recordRead; (try dsimp only); (repeat' split) <;>
    first | (simp (maxDischargeDepth := 12) +contextual [h]; done) | (simp_all (maxDischargeDepth := 12); done)
@[simp] theorem State.wake_mixerSized (s : State) (cause : Cause) (stayAwake : Bool)
    (h : MixerSized s.mixer) : MixerSized (State.wake s cause stayAwake).mixer := by
  unfold State.wake; split
  · exact h
  · dsimp only; simp [State.keepingReset]
@[simp] theorem State.startSeen_mixerSized (s : State) (inWindow : Bool)
    (h : MixerSized s.mixer) : MixerSized (State.startSeen s inWindow).mixer := by
  unfold State.startSeen; (try dsimp only); (repeat' split) <;>
    first | (simp (maxDischargeDepth := 12) +contextual [h]; done) | (simp_all (maxDischargeDepth := 12); done)
@[simp] theorem State.enterDormant_mixerSized (s : State)
    (h : MixerSized s.mixer) : MixerSized (State.enterDormant s).mixer := by
  unfold State.enterDormant; (try dsimp only); (repeat' split) <;>
    first | (simp (maxDischargeDepth := 12) +contextual [h]; done) | (simp_all (maxDischargeDepth := 12); done)
@[simp] theorem State.endRamps_mixerSized (s : State) (z : Nat)
    (h : MixerSized s.mixer) : MixerSized (State.endRamps s z).mixer := by
  unfold State.endRamps; (try dsimp only); (repeat' split) <;>
    first | (simp (maxDischargeDepth := 12) +contextual [h]; done) | (simp_all (maxDischargeDepth := 12); done)
@[simp] theorem State.leaveLine_mixerSized (s : State)
    (h : MixerSized s.mixer) : MixerSized (State.leaveLine s).1.mixer := by
  unfold State.leaveLine; (try dsimp only); (repeat' split) <;>
    first | (simp (maxDischargeDepth := 12) +contextual [h]; done) | (simp_all (maxDischargeDepth := 12); done)
@[simp] theorem State.rejoin_mixerSized (s : State)
    (h : MixerSized s.mixer) : MixerSized (State.rejoin s).1.mixer := by
  unfold State.rejoin; (try dsimp only); (repeat' split) <;>
    first | (simp (maxDischargeDepth := 12) +contextual [h]; done) | (simp_all (maxDischargeDepth := 12); done)
@[simp] theorem State.wakeRequest_mixerSized (s : State) (flag : Byte)
    (h : MixerSized s.mixer) : MixerSized (State.wakeRequest s flag).mixer := by
  unfold State.wakeRequest; (try dsimp only); (repeat' split) <;>
    first | (simp (maxDischargeDepth := 12) +contextual [h]; done) | (simp_all (maxDischargeDepth := 12); done)
@[simp] theorem State.clipData_mixerSized (s : State) (i : Nat) (samples : List Sample)
    (h : MixerSized s.mixer) : MixerSized (State.clipData s i samples).1.mixer := by
  unfold State.clipData; (try dsimp only); (repeat' split) <;>
    first | (simp (maxDischargeDepth := 12) +contextual [h]; done) | (simp_all (maxDischargeDepth := 12); done)

/-- Every operation keeps these sizes. -/
theorem mixerSized_kept : Kept (fun s => MixerSized s.mixer) where
  lineSilent := by intro a0 h; simp (maxDischargeDepth := 12) [h]
  enterDormant := by intro a0 h; simp (maxDischargeDepth := 12) [h]
  selfVetoDue := by intro a0 h; simp (maxDischargeDepth := 12) [h]
  listenEnd := by intro a0 h; simp (maxDischargeDepth := 12) [h]
  agedOut := by intro a0 a1 h; simp (maxDischargeDepth := 12) [h]
  freeSlot := by intro a0 a1 h; simp (maxDischargeDepth := 12) [h]
  readyEntries := by intro a0 h; simp (maxDischargeDepth := 12) [h]
  presenceFallsDue := by intro a0 h; simp (maxDischargeDepth := 12) [h]
  silenceEnded := by intro a0 h; simp (maxDischargeDepth := 12) [h]
  noteStall := by intro a0 h; simp (maxDischargeDepth := 12) [h]
  noteExpiry := by intro a0 h; simp (maxDischargeDepth := 12) [h]
  uplinkRetry := by intro a0 h; simp (maxDischargeDepth := 12) [h]
  carryRetry := by intro a0 a1 h; simp (maxDischargeDepth := 12) [h]
  arrivalGap := by intro a0 h; simp (maxDischargeDepth := 12) [h]
  qualityBlock := by intro a0 h; simp (maxDischargeDepth := 12) [h]
  endGateRamp := by intro a0 h; simp (maxDischargeDepth := 12) [h]
  endEntryRamp := by intro a0 a1 a2 h; simp (maxDischargeDepth := 12) [h]
  endPositionRamp := by intro a0 a1 h; simp (maxDischargeDepth := 12) [h]
  refreshDebtRise := by intro a0 h; simp (maxDischargeDepth := 12) [h]
  filled := by intro a0 h; simp (maxDischargeDepth := 12) [h]
  primingDone := by intro a0 h; simp (maxDischargeDepth := 12) [h]
  correlationResult := by intro a0 h; simp (maxDischargeDepth := 12) [h]
  crossfadeEnd := by intro a0 h; simp (maxDischargeDepth := 12) [h]
  toDigitalComplete := by intro a0 h; simp (maxDischargeDepth := 12) [h]
  toAnalogueComplete := by intro a0 h; simp (maxDischargeDepth := 12) [h]
  cancellerBlock := by intro a0 h; simp (maxDischargeDepth := 12) [h]
  freezeEnd := by intro a0 h; simp (maxDischargeDepth := 12) [h]
  referenceLost := by intro a0 h; simp (maxDischargeDepth := 12) [h]
  triggerFollowers := by intro a0 a1 h; simp (maxDischargeDepth := 12) [h]
  countRepetition := by intro a0 a1 h; simp (maxDischargeDepth := 12) [h]
  fire := by intro a0 a1 h; simp (maxDischargeDepth := 12) [h]
  playCompleted := by intro a0 a1 h; simp (maxDischargeDepth := 12) [h]
  recordRead := by intro a0 a1 h; simp (maxDischargeDepth := 12) [h]
  startSeen := by intro a0 a1 h; simp (maxDischargeDepth := 12) [h]
  leadStart := by intro a0 h; simp (maxDischargeDepth := 12) [h]
  expireTimer := by intro a0 h; simp (maxDischargeDepth := 12) [h]
  missFurther := by intro a0 h; simp (maxDischargeDepth := 12) [h]
  controlField := by intro a0 a1 a2 h; simp (maxDischargeDepth := 12) [h]
  audioSlots := by intro a0 a1 h; simp (maxDischargeDepth := 12) [h]
  tailEnd := by intro a0 a1 h; simp (maxDischargeDepth := 12) [h]
  messageEffect := by intro a0 a1 a2 h; simp (maxDischargeDepth := 12) [h]
  localSample := by intro a0 a1 h; simp (maxDischargeDepth := 12) [h]
  decoderArrives := by intro a0 a1 a2 h; simp (maxDischargeDepth := 12) [h]
  burstComplete := by intro a0 a1 h; simp (maxDischargeDepth := 12) [h]
  completeOpen := by intro a0 a1 h; simp (maxDischargeDepth := 12) [h]
  completeClose := by intro a0 a1 h; simp (maxDischargeDepth := 12) [h]
  completeRefresh := by intro a0 a1 h; simp (maxDischargeDepth := 12) [h]
  keepUpStart := by intro a0 h; simp (maxDischargeDepth := 12) [h]
  host := by intro a0 a1 h; simp (maxDischargeDepth := 12) [h]
  noteBox := by intro a0 a1 h; simp (maxDischargeDepth := 12) [h]
  rest := by intro s q h; exact h
  enterHost := by intro a0 a1 a2 a3 q h; simp (maxDischargeDepth := 12) [h]
  leaveLine := by intro a0 h; simp (maxDischargeDepth := 12) [h]
  goToListening := by intro a0 h; simp (maxDischargeDepth := 12) [h]
  wake := by intro a0 a1 a2 h; simp (maxDischargeDepth := 12) [h]
  judgeRoute := by intro a0 a1 a2 a3 a4 h; simp (maxDischargeDepth := 12) [h]
  clipLoadBegin := by intro a0 a1 a2 a3 h; simp (maxDischargeDepth := 12) [h]
  clipData := by intro a0 a1 a2 h; simp (maxDischargeDepth := 12) [h]
  clipLoadEnd := by intro a0 a1 h; simp (maxDischargeDepth := 12) [h]
  clipLock := by intro a0 a1 h; simp (maxDischargeDepth := 12) [h]
  startPlay := by
    intro s u c l r p e h; exact State.startPlay_mixerSized s c l r .host (p, u) e h
  cadenceSet := by intro a0 a1 a2 h; simp (maxDischargeDepth := 12) [h]
  cadenceStart := by intro a0 a1 h; simp (maxDischargeDepth := 12) [h]
  cadenceStop := by intro a0 a1 h; simp (maxDischargeDepth := 12) [h]
  blendEnable := by intro a0 h; simp (maxDischargeDepth := 12) [h]
  blendDisable := by intro a0 h; simp (maxDischargeDepth := 12) [h]
  tuned := by intro a0 h; simp (maxDischargeDepth := 12) [h]
  beginNote := by intro a0 a1 a2 a3 h; simp (maxDischargeDepth := 12) [h]
  powerOn := by
    intro s h; exact ⟨rfl, rfl⟩
  assertPin := by intro a0 h; simp (maxDischargeDepth := 12) [h]
  resetLine := by
    intro s h; exact ⟨rfl, rfl⟩

end Sys2Proof.Machine
end

