-- ==== Sys2Proof/Laws/QueueLawful.lean ====
section
/-! SUPPORT. Every operation keeps the send queue at 8 entries or fewer, in order of class (R18). -/

namespace Sys2Proof.Machine

set_option maxRecDepth 20000
set_option linter.unusedSimpArgs false
set_option linter.unusedVariables false

/-- The send queue's law on the list. -/
def QueueLawful (l : List QueueEntry) : Prop := l.length ≤ 8 ∧ l.Pairwise (fun e f => e.message.cls ≤ f.message.cls)
theorem placeEntry_length (e : QueueEntry) (l : List QueueEntry) : (placeEntry e l).length = l.length + 1 := by
  induction l with
  | nil => rfl
  | cons f l ih => unfold placeEntry; split <;> simp [ih]
theorem placeEntry_mem (e : QueueEntry) (l : List QueueEntry) : ∀ x, x ∈ placeEntry e l → x = e ∨ x ∈ l := by
  induction l with
  | nil => intro x h; simpa [placeEntry] using h
  | cons f l ih =>
    intro x h; unfold placeEntry at h; split at h
    · simpa using h
    · rcases List.mem_cons.mp h with h | h
      · exact .inr (by simp [h])
      · rcases ih x h with h | h
        · exact .inl h
        · exact .inr (by simp [h])
theorem placeEntry_sorted (e : QueueEntry) (l : List QueueEntry) (h : l.Pairwise (fun e f => e.message.cls ≤ f.message.cls)) : (placeEntry e l).Pairwise (fun e f => e.message.cls ≤ f.message.cls) := by
  induction l with
  | nil => simp [placeEntry]
  | cons f l ih =>
    obtain ⟨h1, h2⟩ := List.pairwise_cons.mp h
    unfold placeEntry; split
    · next hlt =>
      rw [List.pairwise_cons]
      refine ⟨?_, h⟩
      intro x hx
      rcases List.mem_cons.mp hx with rfl | hx
      · omega
      · have := h1 x hx; omega
    · next hge =>
      rw [List.pairwise_cons]
      refine ⟨?_, ih h2⟩
      intro x hx
      rcases placeEntry_mem e l x hx with rfl | hx
      · omega
      · exact h1 x hx
theorem placeEntry_lawful (e : QueueEntry) (l : List QueueEntry) (h : QueueLawful l) (hl : l.length < 8) : QueueLawful (placeEntry e l) :=
  ⟨by rw [placeEntry_length]; omega, placeEntry_sorted e l h.2⟩
@[simp] theorem QueueLawful_nil : QueueLawful [] := ⟨by simp, by simp⟩
@[simp] theorem QueueLawful_filter (l) (p) (h : QueueLawful l) : QueueLawful (l.filter p) :=
  ⟨Nat.le_trans (List.length_filter_le _ _) h.1, h.2.filter _⟩
theorem QueueLawful_map (l : List QueueEntry) (f : QueueEntry → QueueEntry) (h : QueueLawful l) (hf : ∀ e, (f e).message = e.message) : QueueLawful (l.map f) := by
  refine ⟨by simpa using h.1, ?_⟩
  rw [List.pairwise_map]
  exact h.2.imp (fun {a b} hab => by rw [hf, hf]; exact hab)
@[simp] theorem forEach_queueLawful (n f) (s : State) (h : ∀ i s, QueueLawful s.line.queue → QueueLawful (f i s).line.queue) (hs : QueueLawful s.line.queue) : QueueLawful (forEach n f s).line.queue := forEach_holds (P := fun s => QueueLawful s.line.queue) n f h s hs
@[simp] theorem forZones_queueLawful (f) (s : State) (h : ∀ i s, QueueLawful s.line.queue → QueueLawful (f i s).line.queue) (hs : QueueLawful s.line.queue) : QueueLawful (s.forZones f).line.queue := forEach_queueLawful 4 f s h hs
@[simp] theorem foldl_queueLawful {α : Type} (f : State → α → State) (l : List α) (s : State) (h : ∀ s x, QueueLawful s.line.queue → QueueLawful (f s x).line.queue) (hs : QueueLawful s.line.queue) : QueueLawful (l.foldl f s).line.queue := foldl_holds (P := fun s => QueueLawful s.line.queue) f h l s hs
@[simp] theorem atStart_queueLawful (l : LineInterface) (a b) (h : QueueLawful l.queue) : QueueLawful (l.atStart a b).queue :=
  QueueLawful_map _ _ h (fun _ => rfl)
@[simp] theorem asleep_queue (l : LineInterface) : l.asleep.queue = l.queue := rfl
@[simp] theorem holdFor_message (e : QueueEntry) (n) : (e.holdFor n).message = e.message := rfl
@[simp] theorem State.enter_queueLawful (s : State) (e : QueueEntry)
    (h : QueueLawful s.line.queue) (hq : s.line.queue.length < 8) : QueueLawful (State.enter s e).line.queue := by
  unfold State.enter; exact placeEntry_lawful _ _ h hq
@[simp] theorem State.send_queueLawful (s : State) (e : QueueEntry)
    (h : QueueLawful s.line.queue) : QueueLawful (State.send s e).line.queue := by
  unfold State.send; split
  · dsimp only; split
    · exact foldl_queueLawful _ _ _ (fun s x h => by simpa using h) h
    · exact h
  · next hq => exact State.enter_queueLawful _ _ h (by simp [State.queueFull] at hq; omega)
@[simp] theorem State.moveWaiting_queueLawful (s : State)
    (h : QueueLawful s.line.queue) : QueueLawful (State.moveWaiting s).line.queue := by
  unfold State.moveWaiting; dsimp only
  have key : ∀ (l : List QueueEntry) (t : State), QueueLawful t.line.queue → t.line.queue.length + l.length ≤ 8 → QueueLawful (l.foldl (fun acc e => acc.enter e) t).line.queue := by
    intro l
    induction l with
    | nil => intro t ht _; exact ht
    | cons e l ih =>
      intro t ht hl
      simp only [List.length_cons] at hl
      rw [List.foldl_cons]
      refine ih _ (State.enter_queueLawful t e ht (by omega)) ?_
      show (placeEntry _ _).length + _ ≤ 8
      rw [placeEntry_length]; omega
  refine key _ _ h ?_
  simp only [List.length_take]
  have := h.1
  omega
@[simp] theorem State.removeEntry_queueLawful (s : State) (order : Nat)
    (h : QueueLawful s.line.queue) : QueueLawful (State.removeEntry s order).line.queue := by
  unfold State.removeEntry; (try dsimp only); (repeat' split) <;>
    first | (simp (maxDischargeDepth := 12) +contextual [h]; done) | (simp_all (maxDischargeDepth := 12); done)
@[simp] theorem State.claimUplink_queueLawful (s : State)
    (h : QueueLawful s.line.queue) : QueueLawful (State.claimUplink s).line.queue := by
  unfold State.claimUplink; (try dsimp only); (repeat' split) <;>
    first | (simp (maxDischargeDepth := 12) +contextual [h]; done) | (simp_all (maxDischargeDepth := 12); done)
@[simp] theorem State.releaseUplink_queueLawful (s : State) (i : Nat)
    (h : QueueLawful s.line.queue) : QueueLawful (State.releaseUplink s i).line.queue := by
  unfold State.releaseUplink; (try dsimp only); (repeat' split) <;>
    first | (simp (maxDischargeDepth := 12) +contextual [h]; done) | (simp_all (maxDischargeDepth := 12); done)
@[simp] theorem State.lookAtUplink_queueLawful (s : State)
    (h : QueueLawful s.line.queue) : QueueLawful (State.lookAtUplink s).line.queue := by
  unfold State.lookAtUplink; (try dsimp only); (repeat' split) <;>
    first | (simp (maxDischargeDepth := 12) +contextual [h]; done) | (simp_all (maxDischargeDepth := 12); done)
@[simp] theorem State.sendPart_queueLawful (s : State) (part : Nat)
    (h : QueueLawful s.line.queue) : QueueLawful (State.sendPart s part).line.queue := by
  unfold State.sendPart; (try dsimp only); (repeat' split) <;>
    first | (simp (maxDischargeDepth := 12) +contextual [h]; done) | (simp_all (maxDischargeDepth := 12); done)
@[simp] theorem State.noteUnitTold_queueLawful (s : State) (d : Departure)
    (h : QueueLawful s.line.queue) : QueueLawful (State.noteUnitTold s d).line.queue := by
  unfold State.noteUnitTold; (try dsimp only); (repeat' split) <;>
    first | (simp (maxDischargeDepth := 12) +contextual [h]; done) | (simp_all (maxDischargeDepth := 12); done)
@[simp] theorem State.tell_queueLawful (s : State) (e : QueueEntry) (d : Departure)
    (h : QueueLawful s.line.queue) : QueueLawful (State.tell s e d).line.queue := by
  unfold State.tell; (try dsimp only); (repeat' split) <;>
    first | (simp (maxDischargeDepth := 12) +contextual [h]; done) | (simp_all (maxDischargeDepth := 12); done)
@[simp] theorem State.dropAll_queueLawful (s : State)
    (h : QueueLawful s.line.queue) : QueueLawful (State.dropAll s).line.queue := by
  unfold State.dropAll; (try dsimp only); (repeat' split) <;>
    first | (simp (maxDischargeDepth := 12) +contextual [h]; done) | (simp_all (maxDischargeDepth := 12); done)
@[simp] theorem State.changeTables_queueLawful (s : State) (changed : LineTables) (cause : Cause) (callCause : Nat → Cause)
    (h : QueueLawful s.line.queue) : QueueLawful (State.changeTables s changed cause callCause).line.queue := by
  unfold State.changeTables; (try dsimp only); (repeat' split) <;>
    first | (simp (maxDischargeDepth := 12) +contextual [h]; done) | (simp_all (maxDischargeDepth := 12); done)
@[simp] theorem State.leaveTakingPart_queueLawful (s : State)
    (h : QueueLawful s.line.queue) : QueueLawful (State.leaveTakingPart s).line.queue := by
  unfold State.leaveTakingPart; (try dsimp only); (repeat' split) <;>
    first | (simp (maxDischargeDepth := 12) +contextual [h]; done) | (simp_all (maxDischargeDepth := 12); done)
@[simp] theorem State.queueOffer_queueLawful (s : State) (o : AutonomousOffer)
    (h : QueueLawful s.line.queue) : QueueLawful (State.queueOffer s o).line.queue := by
  unfold State.queueOffer; (try dsimp only); (repeat' split) <;>
    first | (simp (maxDischargeDepth := 12) +contextual [h]; done) | (simp_all (maxDischargeDepth := 12); done)
@[simp] theorem State.queueOffers_queueLawful (s : State)
    (h : QueueLawful s.line.queue) : QueueLawful (State.queueOffers s).line.queue := by
  unfold State.queueOffers; (try dsimp only); (repeat' split) <;>
    first | (simp (maxDischargeDepth := 12) +contextual [h]; done) | (simp_all (maxDischargeDepth := 12); done)
@[simp] theorem State.goTo_queueLawful (s : State) (new : StationState) (cause : Cause)
    (h : QueueLawful s.line.queue) : QueueLawful (State.goTo s new cause).line.queue := by
  unfold State.goTo; (try dsimp only); (repeat' split) <;>
    first | (simp (maxDischargeDepth := 12) +contextual [h]; done) | (simp_all (maxDischargeDepth := 12); done)
@[simp] theorem State.noteAtRemoval_queueLawful (s : State) (n : Nat)
    (h : QueueLawful s.line.queue) : QueueLawful (State.noteAtRemoval s n).line.queue := by
  unfold State.noteAtRemoval; (try dsimp only); (repeat' split) <;>
    first | (simp (maxDischargeDepth := 12) +contextual [h]; done) | (simp_all (maxDischargeDepth := 12); done)
@[simp] theorem State.removeStation_queueLawful (s : State) (n : Nat) (cause : Cause)
    (h : QueueLawful s.line.queue) : QueueLawful (State.removeStation s n cause).line.queue := by
  unfold State.removeStation; (try dsimp only); (repeat' split) <;>
    first | (simp (maxDischargeDepth := 12) +contextual [h]; done) | (simp_all (maxDischargeDepth := 12); done)
@[simp] theorem State.ownRemoved_queueLawful (s : State)
    (h : QueueLawful s.line.queue) : QueueLawful (State.ownRemoved s).line.queue := by
  unfold State.ownRemoved; (try dsimp only); (repeat' split) <;>
    first | (simp (maxDischargeDepth := 12) +contextual [h]; done) | (simp_all (maxDischargeDepth := 12); done)
@[simp] theorem State.judgePresence_queueLawful (s : State) (sender : Nat) (roles : Byte) (zones privateZones : ZoneSet) (owned : SlotSet) (d : Descriptor)
    (h : QueueLawful s.line.queue) :
    QueueLawful (State.judgePresence s sender roles zones privateZones owned d).1.line.queue := by
  unfold State.judgePresence; (try dsimp only); (repeat' split) <;>
    first | (simp (maxDischargeDepth := 12) +contextual [h]; done) | (simp_all (maxDischargeDepth := 12); done)
@[simp] theorem State.judgeLeave_queueLawful (s : State) (sender : Nat)
    (h : QueueLawful s.line.queue) : QueueLawful (State.judgeLeave s sender).1.line.queue := by
  unfold State.judgeLeave; (try dsimp only); (repeat' split) <;>
    first | (simp (maxDischargeDepth := 12) +contextual [h]; done) | (simp_all (maxDischargeDepth := 12); done)
@[simp] theorem State.judgeStream_queueLawful (s : State) (sender : Nat) (kind : Cause) (verdict : LineTables → LineTables × Cause)
    (h : QueueLawful s.line.queue) : QueueLawful (State.judgeStream s sender kind verdict).1.line.queue := by
  unfold State.judgeStream; (try dsimp only); (repeat' split) <;>
    first | (simp (maxDischargeDepth := 12) +contextual [h]; done) | (simp_all (maxDischargeDepth := 12); done)
@[simp] theorem State.judgeCallMessage_queueLawful (s : State) (sender j action : Nat) (f : CallFields)
    (h : QueueLawful s.line.queue) : QueueLawful (State.judgeCallMessage s sender j action f).1.line.queue := by
  unfold State.judgeCallMessage; (try dsimp only); (repeat' split) <;>
    first | (simp (maxDischargeDepth := 12) +contextual [h]; done) | (simp_all (maxDischargeDepth := 12); done)
@[simp] theorem State.answerRoute_queueLawful (s : State) (sender : Nat) (zone stream : Byte) (verdict : RouteVerdict)
    (h : QueueLawful s.line.queue) : QueueLawful (State.answerRoute s sender zone stream verdict).line.queue := by
  unfold State.answerRoute; (try dsimp only); (repeat' split) <;>
    first | (simp (maxDischargeDepth := 12) +contextual [h]; done) | (simp_all (maxDischargeDepth := 12); done)
@[simp] theorem State.judgeRouteMessage_queueLawful (s : State) (sender : Nat) (zone stream action level : Byte)
    (h : QueueLawful s.line.queue) :
    QueueLawful (State.judgeRouteMessage s sender zone stream action level).line.queue := by
  unfold State.judgeRouteMessage; (try dsimp only); (repeat' split) <;>
    first | (simp (maxDischargeDepth := 12) +contextual [h]; done) | (simp_all (maxDischargeDepth := 12); done)
@[simp] theorem State.judge_queueLawful (s : State) (sender : Nat) (m : Message)
    (h : QueueLawful s.line.queue) : QueueLawful (State.judge s sender m).1.line.queue := by
  unfold State.judge; cases m <;> dsimp only <;> (try split) <;>
    first | with_reducible exact h | (simp [h]; done) | (simp_all; done)
@[simp] theorem State.concludeOwn_queueLawful (s : State) (before : LineTables) (sent : Sent) (verdict : Cause)
    (h : QueueLawful s.line.queue) : QueueLawful (State.concludeOwn s before sent verdict).line.queue := by
  unfold State.concludeOwn; (try dsimp only); (repeat' split) <;>
    first | (simp (maxDischargeDepth := 12) +contextual [h]; done) | (simp_all (maxDischargeDepth := 12); done)
@[simp] theorem State.moveByMessage_queueLawful (s : State) (own : Bool) (sender : Nat) (m : Message) (verdict : Cause)
    (h : QueueLawful s.line.queue) : QueueLawful (State.moveByMessage s own sender m verdict).line.queue := by
  unfold State.moveByMessage; cases m <;> dsimp only <;> (repeat' split) <;>
    first | with_reducible exact h | with_reducible exact State.goTo_queueLawful _ _ _ h | with_reducible exact State.ownRemoved_queueLawful _ h
@[simp] theorem State.takeEffect_queueLawful (s : State) (sender : Nat) (m : Message)
    (h : QueueLawful s.line.queue) : QueueLawful (State.takeEffect s sender m).line.queue := by
  unfold State.takeEffect; (try dsimp only); (repeat' split) <;>
    first | (simp (maxDischargeDepth := 12) +contextual [h]; done) | (simp_all (maxDischargeDepth := 12); done)
@[simp] theorem State.start_queueLawful (s : State) (emitted inWindow : Bool)
    (h : QueueLawful s.line.queue) : QueueLawful (State.start s emitted inWindow).line.queue := by
  unfold State.start; (try dsimp only); (repeat' split) <;>
    first | (simp (maxDischargeDepth := 12) +contextual [h]; done) | (simp_all (maxDischargeDepth := 12); done)
@[simp] theorem State.leadStart_queueLawful (s : State)
    (h : QueueLawful s.line.queue) : QueueLawful (State.leadStart s).line.queue := by
  unfold State.leadStart; (try dsimp only); (repeat' split) <;>
    first | (simp (maxDischargeDepth := 12) +contextual [h]; done) | (simp_all (maxDischargeDepth := 12); done)
@[simp] theorem State.expireTimer_queueLawful (s : State)
    (h : QueueLawful s.line.queue) : QueueLawful (State.expireTimer s).line.queue := by
  unfold State.expireTimer; (try dsimp only); (repeat' split) <;>
    first | (simp (maxDischargeDepth := 12) +contextual [h]; done) | (simp_all (maxDischargeDepth := 12); done)
@[simp] theorem State.keepUpStart_queueLawful (s : State)
    (h : QueueLawful s.line.queue) : QueueLawful (State.keepUpStart s).line.queue := by
  unfold State.keepUpStart; (try dsimp only); (repeat' split) <;>
    first | (simp (maxDischargeDepth := 12) +contextual [h]; done) | (simp_all (maxDischargeDepth := 12); done)
@[simp] theorem State.chooseReady_queueLawful (n : Nat) (s : State)
    (h : QueueLawful s.line.queue) : QueueLawful (State.chooseReady n s).1.line.queue := by
  induction n generalizing s with
  | zero => exact h
  | succ n ih =>
    unfold State.chooseReady
    (repeat' split) <;> first | with_reducible exact h | skip
    exact ih _ (by simp (maxDischargeDepth := 12) [h])
@[simp] theorem State.controlField_queueLawful (s : State) (others : Option (BitVec 187)) (readable : Bool)
    (h : QueueLawful s.line.queue) : QueueLawful (State.controlField s others readable).line.queue := by
  unfold State.controlField; (try dsimp only); (repeat' split) <;>
    first | (simp (maxDischargeDepth := 12) +contextual [h]; done) | (simp_all (maxDischargeDepth := 12); done)
@[simp] theorem State.onEntry_queueLawful (s : State) (order : Nat) (f : QueueEntry → QueueEntry)
    (h : QueueLawful s.line.queue) (hf : ∀ e, (f e : QueueEntry).message = e.message) :
    QueueLawful (State.onEntry s order f).line.queue := by
  unfold State.onEntry; exact QueueLawful_map _ _ h (fun e => by split <;> simp [hf])
@[simp] theorem State.joinVetoed_queueLawful (s : State) (e : QueueEntry)
    (h : QueueLawful s.line.queue) : QueueLawful (State.joinVetoed s e).line.queue := by
  unfold State.joinVetoed; split
  · simp (maxDischargeDepth := 12) [h]
  · dsimp only; exact State.onEntry_queueLawful _ _ _ h (fun _ => rfl)
@[simp] theorem State.abandon_queueLawful (s : State) (e : QueueEntry)
    (h : QueueLawful s.line.queue) : QueueLawful (State.abandon s e).line.queue := by
  unfold State.abandon; (try dsimp only); (repeat' split) <;>
    first | (simp (maxDischargeDepth := 12) +contextual [h]; done) | (simp_all (maxDischargeDepth := 12); done)
@[simp] theorem State.ownVetoed_queueLawful (s : State)
    (h : QueueLawful s.line.queue) : QueueLawful (State.ownVetoed s).line.queue := by
  unfold State.ownVetoed
  split
  · next order _ _ =>
    split
    · exact h
    · dsimp only
      have hc := State.onEntry_queueLawful s order (fun e => { e with vetoes := e.vetoes + 1 }) h (fun _ => rfl)
      generalize s.onEntry order (fun e => { e with vetoes := e.vetoes + 1 }) = u at hc
      split
      · exact State.joinVetoed_queueLawful _ _ hc
      · split
        · exact State.abandon_queueLawful _ _ hc
        · exact State.onEntry_queueLawful _ _ _ hc (fun _ => rfl)
      · split
        · exact State.abandon_queueLawful _ _ hc
        · exact hc
  · exact h
@[simp] theorem State.closeFrame_queueLawful (s : State)
    (h : QueueLawful s.line.queue) : QueueLawful (State.closeFrame s).line.queue := by
  unfold State.closeFrame; (try dsimp only); (repeat' split) <;>
    first | (simp (maxDischargeDepth := 12) +contextual [h]; done) | (simp_all (maxDischargeDepth := 12); done)
@[simp] theorem State.tail_queueLawful (s : State) (message : Option (Nat × Message)) (veto : Bool)
    (h : QueueLawful s.line.queue) : QueueLawful (State.tail s message veto).line.queue := by
  unfold State.tail; (try dsimp only); (repeat' split) <;>
    first | (simp (maxDischargeDepth := 12) +contextual [h]; done) | (simp_all (maxDischargeDepth := 12); done)
@[simp] theorem State.tailEnd_queueLawful (s : State) (veto : Bool)
    (h : QueueLawful s.line.queue) : QueueLawful (State.tailEnd s veto).line.queue := by
  unfold State.tailEnd; (try dsimp only); (repeat' split) <;>
    first | (simp (maxDischargeDepth := 12) +contextual [h]; done) | (simp_all (maxDischargeDepth := 12); done)
@[simp] theorem State.messageEffect_queueLawful (s : State) (sender : Nat) (m : Message)
    (h : QueueLawful s.line.queue) : QueueLawful (State.messageEffect s sender m).line.queue := by
  unfold State.messageEffect; (try dsimp only); (repeat' split) <;>
    first | (simp (maxDischargeDepth := 12) +contextual [h]; done) | (simp_all (maxDischargeDepth := 12); done)
@[simp] theorem State.selfVetoDue_queueLawful (s : State)
    (h : QueueLawful s.line.queue) : QueueLawful (State.selfVetoDue s).line.queue := by
  unfold State.selfVetoDue; (try dsimp only); (repeat' split) <;>
    first | (simp (maxDischargeDepth := 12) +contextual [h]; done) | (simp_all (maxDischargeDepth := 12); done)
@[simp] theorem State.listenEnd_queueLawful (s : State)
    (h : QueueLawful s.line.queue) : QueueLawful (State.listenEnd s).line.queue := by
  unfold State.listenEnd; (try dsimp only); (repeat' split) <;>
    first | (simp (maxDischargeDepth := 12) +contextual [h]; done) | (simp_all (maxDischargeDepth := 12); done)
@[simp] theorem State.agedOut_queueLawful (s : State) (n : Nat)
    (h : QueueLawful s.line.queue) : QueueLawful (State.agedOut s n).line.queue := by
  unfold State.agedOut; (try dsimp only); (repeat' split) <;>
    first | (simp (maxDischargeDepth := 12) +contextual [h]; done) | (simp_all (maxDischargeDepth := 12); done)
@[simp] theorem State.readyEntries_queueLawful (s : State)
    (h : QueueLawful s.line.queue) : QueueLawful (State.readyEntries s).line.queue := by
  unfold State.readyEntries; split
  · exact QueueLawful_map _ _ h (fun e => by split <;> rfl)
  · exact h
@[simp] theorem State.silenceEnded_queueLawful (s : State)
    (h : QueueLawful s.line.queue) : QueueLawful (State.silenceEnded s).line.queue := by
  unfold State.silenceEnded; (try dsimp only); (repeat' split) <;>
    first | (simp (maxDischargeDepth := 12) +contextual [h]; done) | (simp_all (maxDischargeDepth := 12); done)
@[simp] theorem State.uplinkRetry_queueLawful (s : State)
    (h : QueueLawful s.line.queue) : QueueLawful (State.uplinkRetry s).line.queue := by
  unfold State.uplinkRetry; (try dsimp only); (repeat' split) <;>
    first | (simp (maxDischargeDepth := 12) +contextual [h]; done) | (simp_all (maxDischargeDepth := 12); done)
@[simp] theorem State.beginNote_queueLawful (s : State) (target total : Nat) (data : List Byte)
    (h : QueueLawful s.line.queue) : QueueLawful (State.beginNote s target total data).line.queue := by
  unfold State.beginNote; (try dsimp only); (repeat' split) <;>
    first | (simp (maxDischargeDepth := 12) +contextual [h]; done) | (simp_all (maxDischargeDepth := 12); done)
@[simp] theorem State.recordRead_queueLawful (s : State) (read : RecordRead)
    (h : QueueLawful s.line.queue) : QueueLawful (State.recordRead s read).line.queue := by
  unfold State.recordRead; (try dsimp only); (repeat' split) <;>
    first | (simp (maxDischargeDepth := 12) +contextual [h]; done) | (simp_all (maxDischargeDepth := 12); done)
@[simp] theorem State.wake_queueLawful (s : State) (cause : Cause) (stayAwake : Bool)
    (h : QueueLawful s.line.queue) : QueueLawful (State.wake s cause stayAwake).line.queue := by
  unfold State.wake; split
  · exact h
  · dsimp only
    with_reducible refine State.goTo_queueLawful _ _ _ ?_
    simp; exact QueueLawful_nil
@[simp] theorem State.startSeen_queueLawful (s : State) (inWindow : Bool)
    (h : QueueLawful s.line.queue) : QueueLawful (State.startSeen s inWindow).line.queue := by
  unfold State.startSeen; (try dsimp only); (repeat' split) <;>
    first | (simp (maxDischargeDepth := 12) +contextual [h]; done) | (simp_all (maxDischargeDepth := 12); done)
@[simp] theorem State.enterDormant_queueLawful (s : State)
    (h : QueueLawful s.line.queue) : QueueLawful (State.enterDormant s).line.queue := by
  unfold State.enterDormant; (try dsimp only); (repeat' split) <;>
    first | (simp (maxDischargeDepth := 12) +contextual [h]; done) | (simp_all (maxDischargeDepth := 12); done)
@[simp] theorem State.carryRetry_queueLawful (s : State) (i : Nat)
    (h : QueueLawful s.line.queue) : QueueLawful (State.carryRetry s i).line.queue := by
  unfold State.carryRetry; (try dsimp only); (repeat' split) <;>
    first | (simp (maxDischargeDepth := 12) +contextual [h]; done) | (simp_all (maxDischargeDepth := 12); done)
@[simp] theorem State.queueHost_queueLawful (s : State) (m : Message) (auto : Bool) (companion : Option Binding)
    (h : QueueLawful s.line.queue) : QueueLawful (State.queueHost s m auto companion).1.line.queue := by
  unfold State.queueHost; split
  · exact h
  · next hq => exact State.enter_queueLawful _ _ h (by simp [State.queueFull] at hq; omega)
@[simp] theorem State.leaveLine_queueLawful (s : State)
    (h : QueueLawful s.line.queue) : QueueLawful (State.leaveLine s).1.line.queue := by
  unfold State.leaveLine; split
  · exact h
  · next hq =>
    dsimp only
    with_reducible refine State.goTo_queueLawful _ _ _ ?_
    exact State.enter_queueLawful _ _ h (by simp [State.queueFull] at hq; omega)
@[simp] theorem State.rejoin_queueLawful (s : State)
    (h : QueueLawful s.line.queue) : QueueLawful (State.rejoin s).1.line.queue := by
  unfold State.rejoin; (try dsimp only); (repeat' split) <;>
    first | (simp (maxDischargeDepth := 12) +contextual [h]; done) | (simp_all (maxDischargeDepth := 12); done)
@[simp] theorem State.wakeRequest_queueLawful (s : State) (flag : Byte)
    (h : QueueLawful s.line.queue) : QueueLawful (State.wakeRequest s flag).line.queue := by
  unfold State.wakeRequest; (try dsimp only); (repeat' split) <;>
    first | (simp (maxDischargeDepth := 12) +contextual [h]; done) | (simp_all (maxDischargeDepth := 12); done)
@[simp] theorem State.offerOwn_queueLawful (s : State) (index kind channels cls : Byte) (b : Binding)
    (h : QueueLawful s.line.queue) : QueueLawful (State.offerOwn s index kind channels cls b).1.line.queue := by
  unfold State.offerOwn; (try dsimp only); (repeat' split) <;>
    first | (simp (maxDischargeDepth := 12) +contextual [h]; done) | (simp_all (maxDischargeDepth := 12); done)
@[simp] theorem State.carryOwn_queueLawful (s : State) (index first : Byte)
    (h : QueueLawful s.line.queue) : QueueLawful (State.carryOwn s index first).1.line.queue := by
  unfold State.carryOwn; (try dsimp only); (repeat' split) <;>
    first | (simp (maxDischargeDepth := 12) +contextual [h]; done) | (simp_all (maxDischargeDepth := 12); done)
@[simp] theorem State.noteRequest_queueLawful (s : State) (target total : Nat) (data : List Byte)
    (h : QueueLawful s.line.queue) : QueueLawful (State.noteRequest s target total data).1.line.queue := by
  unfold State.noteRequest; (try dsimp only); (repeat' split) <;>
    first | (simp (maxDischargeDepth := 12) +contextual [h]; done) | (simp_all (maxDischargeDepth := 12); done)

/-- Every operation keeps the law of the send queue. -/
theorem queueLawful_kept : Kept (fun s => QueueLawful s.line.queue) where
  lineSilent := by intro a0 h; simp (maxDischargeDepth := 12) [h]
  enterDormant := by intro a0 h; simp (maxDischargeDepth := 12) [h]
  selfVetoDue := by intro a0 h; simp (maxDischargeDepth := 12) [h]
  listenEnd := by intro a0 h; simp (maxDischargeDepth := 12) [h]
  agedOut := by intro a0 a1 h; simp (maxDischargeDepth := 12) [h]
  freeSlot := by intro a0 a1 h; simp (maxDischargeDepth := 12) [h]
  readyEntries := by intro a0 h; simp (maxDischargeDepth := 12) [h]
  presenceFallsDue := by intro a0 h; simp (maxDischargeDepth := 12) [h]
  silenceEnded := by intro a0 h; simp (maxDischargeDepth := 12) [h]
  noteStall := by intro a0 h; simp (maxDischargeDepth := 12) [h]
  noteExpiry := by intro a0 h; simp (maxDischargeDepth := 12) [h]
  uplinkRetry := by intro a0 h; simp (maxDischargeDepth := 12) [h]
  carryRetry := by intro a0 a1 h; simp (maxDischargeDepth := 12) [h]
  arrivalGap := by intro a0 h; simp (maxDischargeDepth := 12) [h]
  qualityBlock := by intro a0 h; simp (maxDischargeDepth := 12) [h]
  endGateRamp := by intro a0 h; simp (maxDischargeDepth := 12) [h]
  endEntryRamp := by intro a0 a1 a2 h; simp (maxDischargeDepth := 12) [h]
  endPositionRamp := by intro a0 a1 h; simp (maxDischargeDepth := 12) [h]
  refreshDebtRise := by intro a0 h; simp (maxDischargeDepth := 12) [h]
  filled := by intro a0 h; simp (maxDischargeDepth := 12) [h]
  primingDone := by intro a0 h; simp (maxDischargeDepth := 12) [h]
  correlationResult := by intro a0 h; simp (maxDischargeDepth := 12) [h]
  crossfadeEnd := by intro a0 h; simp (maxDischargeDepth := 12) [h]
  toDigitalComplete := by intro a0 h; simp (maxDischargeDepth := 12) [h]
  toAnalogueComplete := by intro a0 h; simp (maxDischargeDepth := 12) [h]
  cancellerBlock := by intro a0 h; simp (maxDischargeDepth := 12) [h]
  freezeEnd := by intro a0 h; simp (maxDischargeDepth := 12) [h]
  referenceLost := by intro a0 h; simp (maxDischargeDepth := 12) [h]
  triggerFollowers := by intro a0 a1 h; simp (maxDischargeDepth := 12) [h]
  countRepetition := by intro a0 a1 h; simp (maxDischargeDepth := 12) [h]
  fire := by intro a0 a1 h; simp (maxDischargeDepth := 12) [h]
  playCompleted := by intro a0 a1 h; simp (maxDischargeDepth := 12) [h]
  recordRead := by intro a0 a1 h; simp (maxDischargeDepth := 12) [h]
  startSeen := by intro a0 a1 h; simp (maxDischargeDepth := 12) [h]
  leadStart := by intro a0 h; simp (maxDischargeDepth := 12) [h]
  expireTimer := by intro a0 h; simp (maxDischargeDepth := 12) [h]
  missFurther := by intro a0 h; simp (maxDischargeDepth := 12) [h]
  controlField := by intro a0 a1 a2 h; simp (maxDischargeDepth := 12) [h]
  audioSlots := by intro a0 a1 h; simp (maxDischargeDepth := 12) [h]
  tailEnd := by intro a0 a1 h; simp (maxDischargeDepth := 12) [h]
  messageEffect := by intro a0 a1 a2 h; simp (maxDischargeDepth := 12) [h]
  localSample := by intro a0 a1 h; simp (maxDischargeDepth := 12) [h]
  decoderArrives := by intro a0 a1 a2 h; simp (maxDischargeDepth := 12) [h]
  burstComplete := by intro a0 a1 h; simp (maxDischargeDepth := 12) [h]
  completeOpen := by intro a0 a1 h; simp (maxDischargeDepth := 12) [h]
  completeClose := by intro a0 a1 h; simp (maxDischargeDepth := 12) [h]
  completeRefresh := by intro a0 a1 h; simp (maxDischargeDepth := 12) [h]
  keepUpStart := by intro a0 h; simp (maxDischargeDepth := 12) [h]
  host := by intro a0 a1 h; simp (maxDischargeDepth := 12) [h]
  noteBox := by intro a0 a1 h; simp (maxDischargeDepth := 12) [h]
  rest := by intro s q h; exact h
  enterHost := by
    intro s m a b hq h; exact State.enter_queueLawful _ _ h (by simp [State.queueFull] at hq; omega)
  leaveLine := by intro a0 h; simp (maxDischargeDepth := 12) [h]
  goToListening := by intro a0 h; simp (maxDischargeDepth := 12) [h]
  wake := by intro a0 a1 a2 h; simp (maxDischargeDepth := 12) [h]
  judgeRoute := by intro a0 a1 a2 a3 a4 h; simp (maxDischargeDepth := 12) [h]
  clipLoadBegin := by intro a0 a1 a2 a3 h; simp (maxDischargeDepth := 12) [h]
  clipData := by intro a0 a1 a2 h; simp (maxDischargeDepth := 12) [h]
  clipLoadEnd := by intro a0 a1 h; simp (maxDischargeDepth := 12) [h]
  clipLock := by intro a0 a1 h; simp (maxDischargeDepth := 12) [h]
  startPlay := by
    intro s u c l r p e h; have := State.startPlay_frame s c l r .host (p, u) e; simp only at this; simp [this, h]
  cadenceSet := by intro a0 a1 a2 h; simp (maxDischargeDepth := 12) [h]
  cadenceStart := by intro a0 a1 h; simp (maxDischargeDepth := 12) [h]
  cadenceStop := by intro a0 a1 h; simp (maxDischargeDepth := 12) [h]
  blendEnable := by intro a0 h; simp (maxDischargeDepth := 12) [h]
  blendDisable := by intro a0 h; simp (maxDischargeDepth := 12) [h]
  tuned := by intro a0 h; simp (maxDischargeDepth := 12) [h]
  beginNote := by intro a0 a1 a2 a3 h; simp (maxDischargeDepth := 12) [h]
  powerOn := by
    intro s h; exact QueueLawful_nil
  assertPin := by intro a0 h; simp (maxDischargeDepth := 12) [h]
  resetLine := by
    intro s h; exact QueueLawful_nil

end Sys2Proof.Machine
end

