-- ==== Sys2Proof/Laws/QueueOrdered.lean ====
section
/-! SUPPORT. Every operation keeps every queued message's order of entry below the next one, and the host out of the waiting places
(R18). -/

namespace Sys2Proof.Machine

set_option maxRecDepth 20000
set_option linter.unusedSimpArgs false
set_option linter.unusedVariables false

/-- The orders of entry of queued messages lie below the next one, and no message of the host waits. -/
def QueueOrdered (l : LineInterface) : Prop :=
  (∀ e, e ∈ l.queue → e.order < l.nextOrder) ∧ ∀ e, e ∈ l.waiting → e.originator ≠ .host

@[simp] theorem forEach_queueOrdered (n f) (s : State) (h : ∀ i s, QueueOrdered s.line → QueueOrdered (f i s).line) (hs : QueueOrdered s.line) : QueueOrdered (forEach n f s).line := forEach_holds (P := fun s => QueueOrdered s.line) n f h s hs
@[simp] theorem forZones_queueOrdered (f) (s : State) (h : ∀ i s, QueueOrdered s.line → QueueOrdered (f i s).line) (hs : QueueOrdered s.line) : QueueOrdered (s.forZones f).line := forEach_queueOrdered 4 f s h hs
@[simp] theorem foldl_queueOrdered {α : Type} (f : State → α → State) (l : List α) (s : State) (h : ∀ s x, QueueOrdered s.line → QueueOrdered (f s x).line) (hs : QueueOrdered s.line) : QueueOrdered (l.foldl f s).line := foldl_holds (P := fun s => QueueOrdered s.line) f h l s hs
theorem QueueOrdered_same {l m : LineInterface} (h : QueueOrdered l) (h1 : m.queue = l.queue) (h2 : m.waiting = l.waiting)
    (h3 : m.nextOrder = l.nextOrder) : QueueOrdered m := by
  unfold QueueOrdered; rw [h1, h2, h3]; exact h

theorem QueueOrdered_nil : QueueOrdered LineInterface.reset :=
  ⟨fun _ he => absurd he (List.not_mem_nil), fun _ he => absurd he (List.not_mem_nil)⟩

theorem QueueOrdered_map (l : LineInterface) (f : QueueEntry → QueueEntry) (h : QueueOrdered l) (hf : ∀ e, (f e).order = e.order) :
    QueueOrdered { l with queue := l.queue.map f } := by
  refine ⟨fun e he => ?_, h.2⟩
  obtain ⟨d, hd, rfl⟩ := List.mem_map.mp he
  rw [hf]; exact h.1 d hd

@[simp] theorem QueueOrdered_filter (l : LineInterface) (p : QueueEntry → Bool) (h : QueueOrdered l) :
    QueueOrdered { l with queue := l.queue.filter p } := ⟨fun e he => h.1 e (List.mem_filter.mp he).1, h.2⟩

theorem QueueOrdered_filters {l m : LineInterface} (p : QueueEntry → Bool) (h : QueueOrdered l)
    (h1 : m.queue = l.queue.filter p := by rfl) (h2 : m.waiting = l.waiting.filter p := by rfl)
    (h3 : m.nextOrder = l.nextOrder := by rfl) : QueueOrdered m := by
  unfold QueueOrdered; rw [h1, h2, h3]
  exact ⟨fun e he => h.1 e (List.mem_filter.mp he).1, fun e he => h.2 e (List.mem_filter.mp he).1⟩

@[simp] theorem atStart_queueOrdered (l : LineInterface) (a b) (h : QueueOrdered l) : QueueOrdered (l.atStart a b) :=
  QueueOrdered_same (QueueOrdered_map l (fun e => { e with hold := e.hold - 1 }) h (fun _ => rfl)) rfl rfl rfl

@[simp] theorem State.enter_queueOrdered (s : State) (e : QueueEntry) (h : QueueOrdered s.line) :
    QueueOrdered (State.enter s e).line := by
  refine ⟨fun d hd => ?_, h.2⟩
  show d.order < s.line.nextOrder + 1
  rcases placeEntry_mem _ _ _ hd with rfl | hd
  · exact Nat.lt_succ_self _
  · exact Nat.lt_succ_of_lt (h.1 d hd)

theorem State.send_queueOrdered (s : State) (e : QueueEntry) (h : QueueOrdered s.line) (he : e.originator ≠ .host) :
    QueueOrdered (State.send s e).line := by
  have stored : QueueOrdered { s.line with waiting := s.line.waiting.filter (fun w => w.originator != e.originator) ++ [e] } := by
    refine ⟨h.1, fun d hd => ?_⟩
    rcases List.mem_append.mp hd with hd | hd
    · exact h.2 d (List.mem_filter.mp hd).1
    · rw [List.mem_singleton.mp hd]; exact he
  unfold State.send; split
  · dsimp only; split
    · exact foldl_queueOrdered _ _ _ (fun s x h => by simpa using h) stored
    · exact stored
  · exact State.enter_queueOrdered _ _ h

@[simp] theorem State.sendNew_queueOrdered (s : State) (m : Message) (o : Originator) (a : Bool) (c : Option Binding)
    (h : QueueOrdered s.line) (ho : o ≠ .host) : QueueOrdered (s.send (newEntry m o a c)).line :=
  State.send_queueOrdered s _ h ho

@[simp] theorem State.moveWaiting_queueOrdered (s : State)
    (h : QueueOrdered s.line) : QueueOrdered (State.moveWaiting s).line := by
  unfold State.moveWaiting; dsimp only
  refine foldl_queueOrdered _ _ _ (fun s x h => State.enter_queueOrdered s x h) ⟨h.1, fun e he => h.2 e (List.mem_of_mem_drop he)⟩
@[simp] theorem State.removeEntry_queueOrdered (s : State) (order : Nat)
    (h : QueueOrdered s.line) : QueueOrdered (State.removeEntry s order).line := by
  unfold State.removeEntry; (try dsimp only); (repeat' split) <;>
    first
      | (simp (maxDischargeDepth := 12) +contextual [h]; done) | (simp_all (maxDischargeDepth := 12); done)
      | (simp (maxDischargeDepth := 12); first | exact QueueOrdered_same h rfl rfl rfl | exact QueueOrdered_filters _ h)
@[simp] theorem State.claimUplink_queueOrdered (s : State)
    (h : QueueOrdered s.line) : QueueOrdered (State.claimUplink s).line := by
  unfold State.claimUplink; (try dsimp only); (repeat' split) <;>
    first
      | (simp (maxDischargeDepth := 12) +contextual [h]; done) | (simp_all (maxDischargeDepth := 12); done)
      | (simp (maxDischargeDepth := 12); first | exact QueueOrdered_same h rfl rfl rfl | exact QueueOrdered_filters _ h)
@[simp] theorem State.releaseUplink_queueOrdered (s : State) (i : Nat)
    (h : QueueOrdered s.line) : QueueOrdered (State.releaseUplink s i).line := by
  unfold State.releaseUplink; (try dsimp only); (repeat' split) <;>
    first
      | (simp (maxDischargeDepth := 12) +contextual [h]; done) | (simp_all (maxDischargeDepth := 12); done)
      | (simp (maxDischargeDepth := 12); first | exact QueueOrdered_same h rfl rfl rfl | exact QueueOrdered_filters _ h)
@[simp] theorem State.lookAtUplink_queueOrdered (s : State)
    (h : QueueOrdered s.line) : QueueOrdered (State.lookAtUplink s).line := by
  unfold State.lookAtUplink; (try dsimp only); (repeat' split) <;>
    first
      | (simp (maxDischargeDepth := 12) +contextual [h]; done) | (simp_all (maxDischargeDepth := 12); done)
      | (simp (maxDischargeDepth := 12); first | exact QueueOrdered_same h rfl rfl rfl | exact QueueOrdered_filters _ h)
@[simp] theorem State.sendPart_queueOrdered (s : State) (part : Nat)
    (h : QueueOrdered s.line) : QueueOrdered (State.sendPart s part).line := by
  unfold State.sendPart; (try dsimp only); (repeat' split) <;>
    first
      | (simp (maxDischargeDepth := 12) +contextual [h]; done) | (simp_all (maxDischargeDepth := 12); done)
      | (simp (maxDischargeDepth := 12); first | exact QueueOrdered_same h rfl rfl rfl | exact QueueOrdered_filters _ h)
@[simp] theorem State.noteUnitTold_queueOrdered (s : State) (d : Departure)
    (h : QueueOrdered s.line) : QueueOrdered (State.noteUnitTold s d).line := by
  unfold State.noteUnitTold; (try dsimp only); (repeat' split) <;>
    first
      | (simp (maxDischargeDepth := 12) +contextual [h]; done) | (simp_all (maxDischargeDepth := 12); done)
      | (simp (maxDischargeDepth := 12); first | exact QueueOrdered_same h rfl rfl rfl | exact QueueOrdered_filters _ h)
@[simp] theorem State.tell_queueOrdered (s : State) (e : QueueEntry) (d : Departure)
    (h : QueueOrdered s.line) : QueueOrdered (State.tell s e d).line := by
  unfold State.tell; (try dsimp only); (repeat' split) <;>
    first
      | (simp (maxDischargeDepth := 12) +contextual [h]; done) | (simp_all (maxDischargeDepth := 12); done)
      | (simp (maxDischargeDepth := 12); first | exact QueueOrdered_same h rfl rfl rfl | exact QueueOrdered_filters _ h)
@[simp] theorem State.dropAll_queueOrdered (s : State)
    (h : QueueOrdered s.line) : QueueOrdered (State.dropAll s).line := by
  unfold State.dropAll
  exact foldl_queueOrdered _ _ _ (fun s x h => State.tell_queueOrdered s x _ h)
    ⟨fun _ he => absurd he (List.not_mem_nil), fun _ he => absurd he (List.not_mem_nil)⟩
@[simp] theorem State.changeTables_queueOrdered (s : State) (changed : LineTables) (cause : Cause) (callCause : Nat → Cause)
    (h : QueueOrdered s.line) : QueueOrdered (State.changeTables s changed cause callCause).line := by
  unfold State.changeTables
  dsimp only
  have applied : QueueOrdered (State.emptyBindings { s with tables := changed.strip s.tables }).line :=
    QueueOrdered_same h rfl rfl rfl
  generalize State.emptyBindings { s with tables := changed.strip s.tables } = a at applied ⊢
  have noticed := foldl_queueOrdered (fun acc n => ((State.noticeHost acc n).zonesAtNotice a n).lookAtUplink)
    (notices s.tables (changed.strip s.tables) cause) a (fun s x h => by simp [h]) applied
  generalize List.foldl _ a _ = b at noticed ⊢
  split
  · exact noticed
  · simp [noticed]
@[simp] theorem State.leaveTakingPart_queueOrdered (s : State)
    (h : QueueOrdered s.line) : QueueOrdered (State.leaveTakingPart s).line := by
  unfold State.leaveTakingPart; (try dsimp only); (repeat' split) <;>
    first
      | (simp (maxDischargeDepth := 12) +contextual [h]; done) | (simp_all (maxDischargeDepth := 12); done)
      | (simp (maxDischargeDepth := 12); first | exact QueueOrdered_same h rfl rfl rfl | exact QueueOrdered_filters _ h)
@[simp] theorem State.queueOffer_queueOrdered (s : State) (o : AutonomousOffer)
    (h : QueueOrdered s.line) : QueueOrdered (State.queueOffer s o).line := by
  unfold State.queueOffer; (try dsimp only); (repeat' split) <;>
    first
      | (simp (maxDischargeDepth := 12) +contextual [h]; done) | (simp_all (maxDischargeDepth := 12); done)
      | (simp (maxDischargeDepth := 12); first | exact QueueOrdered_same h rfl rfl rfl | exact QueueOrdered_filters _ h)
@[simp] theorem State.queueOffers_queueOrdered (s : State)
    (h : QueueOrdered s.line) : QueueOrdered (State.queueOffers s).line := by
  unfold State.queueOffers; (try dsimp only); (repeat' split) <;>
    first
      | (simp (maxDischargeDepth := 12) +contextual [h]; done) | (simp_all (maxDischargeDepth := 12); done)
      | (simp (maxDischargeDepth := 12); first | exact QueueOrdered_same h rfl rfl rfl | exact QueueOrdered_filters _ h)
@[simp] theorem State.goTo_queueOrdered (s : State) (new : StationState) (cause : Cause)
    (h : QueueOrdered s.line) : QueueOrdered (State.goTo s new cause).line := by
  unfold State.goTo
  dsimp only
  simp only [State.checkServed_frame, State.zonesAtStation_frame]
  have moved : QueueOrdered (raise .stationChanged [stationCode new] (some cause)
    { s with member.station := new, member.cause := some cause }).line := by simp [h]
  generalize raise .stationChanged [stationCode new] (some cause) { s with member.station := new, member.cause := some cause } = a
    at moved ⊢
  have left : QueueOrdered (if (s.member.station.takesPart && !new.takesPart) = true then a.leaveTakingPart else a).line := by
    split <;> simp [moved]
  generalize (if (s.member.station.takesPart && !new.takesPart) = true then a.leaveTakingPart else a) = b at left ⊢
  have dropped : QueueOrdered (if new.dropsTables = true then b.dropTables else b).line := by
    split
    · exact QueueOrdered_same left rfl rfl rfl
    · exact left
  generalize (if new.dropsTables = true then b.dropTables else b) = c at dropped ⊢
  have entered : QueueOrdered (c.enterStation new).line := by
    cases new <;> exact QueueOrdered_same dropped rfl rfl rfl
  generalize c.enterStation new = d at entered ⊢
  have counted : QueueOrdered (if new.drives = true then d else
      { d with startUp.carryRetry := List.replicate 4 { count := 0, armed := false }, line.presenceDue := false }).line := by
    split
    · exact entered
    · exact QueueOrdered_same entered rfl rfl rfl
  generalize (if new.drives = true then d else _) = e at counted ⊢
  split
  · simp [counted]
  · exact counted
@[simp] theorem State.noteAtRemoval_queueOrdered (s : State) (n : Nat)
    (h : QueueOrdered s.line) : QueueOrdered (State.noteAtRemoval s n).line := by
  unfold State.noteAtRemoval; (try dsimp only); (repeat' split) <;>
    first
      | (simp (maxDischargeDepth := 12) +contextual [h]; done) | (simp_all (maxDischargeDepth := 12); done)
      | (simp (maxDischargeDepth := 12); first | exact QueueOrdered_same h rfl rfl rfl | exact QueueOrdered_filters _ h)
@[simp] theorem State.removeStation_queueOrdered (s : State) (n : Nat) (cause : Cause)
    (h : QueueOrdered s.line) : QueueOrdered (State.removeStation s n cause).line := by
  unfold State.removeStation; (try dsimp only); (repeat' split) <;>
    first
      | (simp (maxDischargeDepth := 12) +contextual [h]; done) | (simp_all (maxDischargeDepth := 12); done)
      | (simp (maxDischargeDepth := 12); first | exact QueueOrdered_same h rfl rfl rfl | exact QueueOrdered_filters _ h)
@[simp] theorem State.ownRemoved_queueOrdered (s : State)
    (h : QueueOrdered s.line) : QueueOrdered (State.ownRemoved s).line := by
  unfold State.ownRemoved; (try dsimp only); (repeat' split) <;>
    first
      | (simp (maxDischargeDepth := 12) +contextual [h]; done) | (simp_all (maxDischargeDepth := 12); done)
      | (simp (maxDischargeDepth := 12); first | exact QueueOrdered_same h rfl rfl rfl | exact QueueOrdered_filters _ h)
@[simp] theorem State.judgePresence_queueOrdered (s : State) (sender : Nat) (roles : Byte) (zones privateZones : ZoneSet) (owned : SlotSet) (d : Descriptor)
    (h : QueueOrdered s.line) :
    QueueOrdered (State.judgePresence s sender roles zones privateZones owned d).1.line := by
  unfold State.judgePresence; (try dsimp only); (repeat' split) <;>
    first
      | (simp (maxDischargeDepth := 12) +contextual [h]; done) | (simp_all (maxDischargeDepth := 12); done)
      | (simp (maxDischargeDepth := 12); first | exact QueueOrdered_same h rfl rfl rfl | exact QueueOrdered_filters _ h)
@[simp] theorem State.judgeLeave_queueOrdered (s : State) (sender : Nat)
    (h : QueueOrdered s.line) : QueueOrdered (State.judgeLeave s sender).1.line := by
  unfold State.judgeLeave; (try dsimp only); (repeat' split) <;>
    first
      | (simp (maxDischargeDepth := 12) +contextual [h]; done) | (simp_all (maxDischargeDepth := 12); done)
      | (simp (maxDischargeDepth := 12); first | exact QueueOrdered_same h rfl rfl rfl | exact QueueOrdered_filters _ h)
@[simp] theorem State.judgeStream_queueOrdered (s : State) (sender : Nat) (kind : Cause) (verdict : LineTables → LineTables × Cause)
    (h : QueueOrdered s.line) : QueueOrdered (State.judgeStream s sender kind verdict).1.line := by
  unfold State.judgeStream; (try dsimp only); (repeat' split) <;>
    first
      | (simp (maxDischargeDepth := 12) +contextual [h]; done) | (simp_all (maxDischargeDepth := 12); done)
      | (simp (maxDischargeDepth := 12); first | exact QueueOrdered_same h rfl rfl rfl | exact QueueOrdered_filters _ h)
@[simp] theorem State.judgeCallMessage_queueOrdered (s : State) (sender j action : Nat) (f : CallFields)
    (h : QueueOrdered s.line) : QueueOrdered (State.judgeCallMessage s sender j action f).1.line := by
  unfold State.judgeCallMessage; (try dsimp only); (repeat' split) <;>
    first
      | (simp (maxDischargeDepth := 12) +contextual [h]; done) | (simp_all (maxDischargeDepth := 12); done)
      | (simp (maxDischargeDepth := 12); first | exact QueueOrdered_same h rfl rfl rfl | exact QueueOrdered_filters _ h)
@[simp] theorem State.answerRoute_queueOrdered (s : State) (sender : Nat) (zone stream : Byte) (verdict : RouteVerdict)
    (h : QueueOrdered s.line) : QueueOrdered (State.answerRoute s sender zone stream verdict).line := by
  unfold State.answerRoute; (try dsimp only); (repeat' split) <;>
    first
      | (simp (maxDischargeDepth := 12) +contextual [h]; done) | (simp_all (maxDischargeDepth := 12); done)
      | (simp (maxDischargeDepth := 12); first | exact QueueOrdered_same h rfl rfl rfl | exact QueueOrdered_filters _ h)
@[simp] theorem State.judgeRouteMessage_queueOrdered (s : State) (sender : Nat) (zone stream action level : Byte)
    (h : QueueOrdered s.line) :
    QueueOrdered (State.judgeRouteMessage s sender zone stream action level).line := by
  unfold State.judgeRouteMessage; (try dsimp only); (repeat' split) <;>
    first
      | (simp (maxDischargeDepth := 12) +contextual [h]; done) | (simp_all (maxDischargeDepth := 12); done)
      | (simp (maxDischargeDepth := 12); first | exact QueueOrdered_same h rfl rfl rfl | exact QueueOrdered_filters _ h)
@[simp] theorem State.judge_queueOrdered (s : State) (sender : Nat) (m : Message)
    (h : QueueOrdered s.line) : QueueOrdered (State.judge s sender m).1.line := by
  unfold State.judge; cases m <;> dsimp only <;> (try split) <;>
    first | with_reducible exact h | (simp [h]; done) | (simp_all; done)
@[simp] theorem State.concludeOwn_queueOrdered (s : State) (before : LineTables) (sent : Sent) (verdict : Cause)
    (h : QueueOrdered s.line) : QueueOrdered (State.concludeOwn s before sent verdict).line := by
  unfold State.concludeOwn
  split
  · split
    · exact h
    · refine State.tell_queueOrdered _ _ _ (State.removeEntry_queueOrdered _ _ ?_)
      unfold State.placeBinding
      split
      · split
        · exact QueueOrdered_same h rfl rfl rfl
        · exact h
      · exact h
  · split
    · exact QueueOrdered_same h rfl rfl rfl
    · exact h
@[simp] theorem State.moveByMessage_queueOrdered (s : State) (own : Bool) (sender : Nat) (m : Message) (verdict : Cause)
    (h : QueueOrdered s.line) : QueueOrdered (State.moveByMessage s own sender m verdict).line := by
  have counted : QueueOrdered ({ s with line.presenceCounter := 0 } : State).line := QueueOrdered_same h rfl rfl rfl
  unfold State.moveByMessage
  generalize ({ s with line.presenceCounter := 0 } : State) = u at counted ⊢
  cases m <;> dsimp only <;> (repeat' split) <;>
    first
      | with_reducible exact h | with_reducible exact State.goTo_queueOrdered _ _ _ h
      | with_reducible exact State.goTo_queueOrdered _ _ _ counted | with_reducible exact State.ownRemoved_queueOrdered _ h
@[simp] theorem State.takeEffect_queueOrdered (s : State) (sender : Nat) (m : Message)
    (h : QueueOrdered s.line) : QueueOrdered (State.takeEffect s sender m).line := by
  unfold State.takeEffect; (try dsimp only); (repeat' split) <;>
    first
      | (simp (maxDischargeDepth := 12) +contextual [h]; done) | (simp_all (maxDischargeDepth := 12); done)
      | (simp (maxDischargeDepth := 12); first | exact QueueOrdered_same h rfl rfl rfl | exact QueueOrdered_filters _ h)
theorem State.cut_queueOrdered (s : State) (h : QueueOrdered s.line) : QueueOrdered s.cut.line := by
  refine QueueOrdered_same h (by simp) (by simp) ?_
  have counts : ∀ w : State, w.countReference.line = w.line := by
    intro w; unfold State.countReference; (repeat' split) <;> rfl
  unfold State.cut State.handSlots
  split <;> simp [counts]

@[simp] theorem State.start_queueOrdered (s : State) (emitted inWindow : Bool)
    (h : QueueOrdered s.line) : QueueOrdered (State.start s emitted inWindow).line := by
  have begun := atStart_queueOrdered s.cut.line s.cut.member.station.drives emitted (State.cut_queueOrdered s h)
  unfold State.start
  simpa using begun
@[simp] theorem State.leadStart_queueOrdered (s : State)
    (h : QueueOrdered s.line) : QueueOrdered (State.leadStart s).line := by
  unfold State.leadStart; (try dsimp only); (repeat' split) <;>
    first
      | (simp (maxDischargeDepth := 12) +contextual [h]; done) | (simp_all (maxDischargeDepth := 12); done)
      | (simp (maxDischargeDepth := 12); first | exact QueueOrdered_same h rfl rfl rfl | exact QueueOrdered_filters _ h)
@[simp] theorem State.expireTimer_queueOrdered (s : State)
    (h : QueueOrdered s.line) : QueueOrdered (State.expireTimer s).line := by
  unfold State.expireTimer
  split
  · exact h
  · split
    · exact State.start_queueOrdered _ _ _ h
    · unfold State.missStart
      simp only [State.storeBoundary_frame, State.judgeMiss_frame, State.countSilence_frame]
      exact QueueOrdered_same h rfl rfl rfl
@[simp] theorem State.keepUpStart_queueOrdered (s : State)
    (h : QueueOrdered s.line) : QueueOrdered (State.keepUpStart s).line := by
  unfold State.keepUpStart; (try dsimp only); (repeat' split) <;>
    first
      | (simp (maxDischargeDepth := 12) +contextual [h]; done) | (simp_all (maxDischargeDepth := 12); done)
      | (simp (maxDischargeDepth := 12); first | exact QueueOrdered_same h rfl rfl rfl | exact QueueOrdered_filters _ h)
@[simp] theorem State.chooseReady_queueOrdered (n : Nat) (s : State)
    (h : QueueOrdered s.line) : QueueOrdered (State.chooseReady n s).1.line := by
  induction n generalizing s with
  | zero => exact h
  | succ n ih =>
    unfold State.chooseReady
    (repeat' split) <;> first | with_reducible exact h | skip
    exact ih _ (by simp (maxDischargeDepth := 12) [h])
@[simp] theorem State.controlField_queueOrdered (s : State) (others : Option (BitVec 187)) (readable : Bool)
    (h : QueueOrdered s.line) : QueueOrdered (State.controlField s others readable).line := by
  unfold State.controlField
  split
  · split
    · dsimp only
      split
      · exact QueueOrdered_same (State.chooseReady_queueOrdered 16 s h) rfl rfl rfl
      · exact QueueOrdered_same h rfl rfl rfl
    · exact QueueOrdered_same h rfl rfl rfl
  · exact h
@[simp] theorem State.onEntry_queueOrdered (s : State) (order : Nat) (f : QueueEntry → QueueEntry)
    (h : QueueOrdered s.line) (hf : ∀ e, (f e : QueueEntry).order = e.order) :
    QueueOrdered (State.onEntry s order f).line := by
  unfold State.onEntry; exact QueueOrdered_map _ _ h (fun e => by split <;> simp [hf])
@[simp] theorem State.joinVetoed_queueOrdered (s : State) (e : QueueEntry)
    (h : QueueOrdered s.line) : QueueOrdered (State.joinVetoed s e).line := by
  unfold State.joinVetoed; split
  · simp (maxDischargeDepth := 12) [h]
  · dsimp only; exact State.onEntry_queueOrdered _ _ _ h (fun _ => rfl)
@[simp] theorem State.abandon_queueOrdered (s : State) (e : QueueEntry)
    (h : QueueOrdered s.line) : QueueOrdered (State.abandon s e).line := by
  unfold State.abandon; (try dsimp only); (repeat' split) <;>
    first
      | (simp (maxDischargeDepth := 12) +contextual [h]; done) | (simp_all (maxDischargeDepth := 12); done)
      | (simp (maxDischargeDepth := 12); first | exact QueueOrdered_same h rfl rfl rfl | exact QueueOrdered_filters _ h)
@[simp] theorem State.ownVetoed_queueOrdered (s : State)
    (h : QueueOrdered s.line) : QueueOrdered (State.ownVetoed s).line := by
  unfold State.ownVetoed
  split
  · next order _ _ =>
    split
    · exact h
    · dsimp only
      have hc := State.onEntry_queueOrdered s order (fun e => { e with vetoes := e.vetoes + 1 }) h (fun _ => rfl)
      generalize s.onEntry order (fun e => { e with vetoes := e.vetoes + 1 }) = u at hc
      split
      · exact State.joinVetoed_queueOrdered _ _ hc
      · split
        · exact State.abandon_queueOrdered _ _ hc
        · exact State.onEntry_queueOrdered _ _ _ hc (fun _ => rfl)
      · split
        · exact State.abandon_queueOrdered _ _ hc
        · exact hc
  · exact h
@[simp] theorem State.closeFrame_queueOrdered (s : State)
    (h : QueueOrdered s.line) : QueueOrdered (State.closeFrame s).line :=
  QueueOrdered_same (State.moveWaiting_queueOrdered s h) rfl rfl rfl
theorem State.handSlots_queueOrdered (s : State) (reads : List SlotRead) (h : QueueOrdered s.line) :
    QueueOrdered (s.handSlots reads).line := by
  have counts : ∀ w : State, w.countReference.line = w.line := by
    intro w; unfold State.countReference; (repeat' split) <;> rfl
  unfold State.handSlots
  rw [counts]
  exact QueueOrdered_same h rfl rfl rfl

@[simp] theorem State.audioSlots_queueOrdered (s : State) (reads : List SlotRead) (h : QueueOrdered s.line) :
    QueueOrdered (s.audioSlots reads).line := by
  unfold State.audioSlots
  split
  · exact State.handSlots_queueOrdered _ _ (QueueOrdered_same h rfl rfl rfl)
  · exact h

@[simp] theorem State.presenceFallsDue_queueOrdered (s : State) (h : QueueOrdered s.line) : QueueOrdered s.presenceFallsDue.line := by
  unfold State.presenceFallsDue
  split
  · exact QueueOrdered_same h rfl rfl rfl
  · exact h

@[simp] theorem State.lineSilent_queueOrdered (s : State) (h : QueueOrdered s.line) : QueueOrdered s.lineSilent.line := by
  unfold State.lineSilent
  dsimp only
  split
  · split
    · exact QueueOrdered_same h rfl rfl rfl
    · simp only [State.follow_frame]; exact QueueOrdered_same h rfl rfl rfl
  · exact h

theorem State.missStart_queueOrdered (s : State) (h : QueueOrdered s.line) : QueueOrdered s.missStart.line := by
  unfold State.missStart
  simp only [State.storeBoundary_frame, State.judgeMiss_frame, State.countSilence_frame]
  exact QueueOrdered_same h rfl rfl rfl

@[simp] theorem State.missFurther_queueOrdered (s : State) (h : QueueOrdered s.line) : QueueOrdered s.missFurther.line := by
  unfold State.missFurther
  split
  · exact State.missStart_queueOrdered s h
  · exact h

@[simp] theorem State.tail_queueOrdered (s : State) (message : Option (Nat × Message)) (veto : Bool)
    (h : QueueOrdered s.line) : QueueOrdered (State.tail s message veto).line := by
  unfold State.tail
  dsimp only
  split
  · exact QueueOrdered_same h rfl rfl rfl
  · split
    · have counted : QueueOrdered (({ s with line.selfVeto := s.line.selfVetoAtTail } : State).listenAtTail (veto || s.vetoes)).line := by
        simp only [State.listenAtTail_frame]; exact QueueOrdered_same h rfl rfl rfl
      generalize State.listenAtTail _ _ = c at counted ⊢
      refine State.closeFrame_queueOrdered _ ?_
      split
      · exact State.ownVetoed_queueOrdered _ counted
      · split
        · exact counted
        · split
          · exact State.takeEffect_queueOrdered _ _ _ counted
          · exact counted
    · exact State.closeFrame_queueOrdered _ h
@[simp] theorem State.tailEnd_queueOrdered (s : State) (veto : Bool)
    (h : QueueOrdered s.line) : QueueOrdered (State.tailEnd s veto).line := by
  unfold State.tailEnd; (try dsimp only); (repeat' split) <;>
    first
      | (simp (maxDischargeDepth := 12) +contextual [h]; done) | (simp_all (maxDischargeDepth := 12); done)
      | (simp (maxDischargeDepth := 12); first | exact QueueOrdered_same h rfl rfl rfl | exact QueueOrdered_filters _ h)
@[simp] theorem State.messageEffect_queueOrdered (s : State) (sender : Nat) (m : Message)
    (h : QueueOrdered s.line) : QueueOrdered (State.messageEffect s sender m).line := by
  unfold State.messageEffect; (try dsimp only); (repeat' split) <;>
    first
      | (simp (maxDischargeDepth := 12) +contextual [h]; done) | (simp_all (maxDischargeDepth := 12); done)
      | (simp (maxDischargeDepth := 12); first | exact QueueOrdered_same h rfl rfl rfl | exact QueueOrdered_filters _ h)
@[simp] theorem State.selfVetoDue_queueOrdered (s : State)
    (h : QueueOrdered s.line) : QueueOrdered (State.selfVetoDue s).line := by
  unfold State.selfVetoDue; (try dsimp only); (repeat' split) <;>
    first
      | (simp (maxDischargeDepth := 12) +contextual [h]; done) | (simp_all (maxDischargeDepth := 12); done)
      | (simp (maxDischargeDepth := 12); first | exact QueueOrdered_same h rfl rfl rfl | exact QueueOrdered_filters _ h)
@[simp] theorem State.listenEnd_queueOrdered (s : State)
    (h : QueueOrdered s.line) : QueueOrdered (State.listenEnd s).line := by
  unfold State.listenEnd; (try dsimp only); (repeat' split) <;>
    first
      | (simp (maxDischargeDepth := 12) +contextual [h]; done) | (simp_all (maxDischargeDepth := 12); done)
      | (simp (maxDischargeDepth := 12); first | exact QueueOrdered_same h rfl rfl rfl | exact QueueOrdered_filters _ h)
@[simp] theorem State.agedOut_queueOrdered (s : State) (n : Nat)
    (h : QueueOrdered s.line) : QueueOrdered (State.agedOut s n).line := by
  unfold State.agedOut; (try dsimp only); (repeat' split) <;>
    first
      | (simp (maxDischargeDepth := 12) +contextual [h]; done) | (simp_all (maxDischargeDepth := 12); done)
      | (simp (maxDischargeDepth := 12); first | exact QueueOrdered_same h rfl rfl rfl | exact QueueOrdered_filters _ h)
@[simp] theorem State.readyEntries_queueOrdered (s : State)
    (h : QueueOrdered s.line) : QueueOrdered (State.readyEntries s).line := by
  unfold State.readyEntries; split
  · exact QueueOrdered_map _ _ h (fun e => by split <;> rfl)
  · exact h
@[simp] theorem State.silenceEnded_queueOrdered (s : State)
    (h : QueueOrdered s.line) : QueueOrdered (State.silenceEnded s).line := by
  unfold State.silenceEnded; (try dsimp only); (repeat' split) <;>
    first
      | (simp (maxDischargeDepth := 12) +contextual [h]; done) | (simp_all (maxDischargeDepth := 12); done)
      | (simp (maxDischargeDepth := 12); first | exact QueueOrdered_same h rfl rfl rfl | exact QueueOrdered_filters _ h)
@[simp] theorem State.uplinkRetry_queueOrdered (s : State)
    (h : QueueOrdered s.line) : QueueOrdered (State.uplinkRetry s).line := by
  unfold State.uplinkRetry; (try dsimp only); (repeat' split) <;>
    first
      | (simp (maxDischargeDepth := 12) +contextual [h]; done) | (simp_all (maxDischargeDepth := 12); done)
      | (simp (maxDischargeDepth := 12); first | exact QueueOrdered_same h rfl rfl rfl | exact QueueOrdered_filters _ h)
@[simp] theorem State.beginNote_queueOrdered (s : State) (target total : Nat) (data : List Byte)
    (h : QueueOrdered s.line) : QueueOrdered (State.beginNote s target total data).line := by
  unfold State.beginNote; (try dsimp only); (repeat' split) <;>
    first
      | (simp (maxDischargeDepth := 12) +contextual [h]; done) | (simp_all (maxDischargeDepth := 12); done)
      | (simp (maxDischargeDepth := 12); first | exact QueueOrdered_same h rfl rfl rfl | exact QueueOrdered_filters _ h)
@[simp] theorem State.recordRead_queueOrdered (s : State) (read : RecordRead)
    (h : QueueOrdered s.line) : QueueOrdered (State.recordRead s read).line := by
  unfold State.recordRead; (try dsimp only); (repeat' split) <;>
    first
      | (simp (maxDischargeDepth := 12) +contextual [h]; done) | (simp_all (maxDischargeDepth := 12); done)
      | (simp (maxDischargeDepth := 12); first | exact QueueOrdered_same h rfl rfl rfl | exact QueueOrdered_filters _ h)
@[simp] theorem State.wake_queueOrdered (s : State) (cause : Cause) (stayAwake : Bool)
    (h : QueueOrdered s.line) : QueueOrdered (State.wake s cause stayAwake).line := by
  unfold State.wake; split
  · exact h
  · dsimp only
    with_reducible refine State.goTo_queueOrdered _ _ _ ?_
    simp; exact QueueOrdered_nil
@[simp] theorem State.startSeen_queueOrdered (s : State) (inWindow : Bool)
    (h : QueueOrdered s.line) : QueueOrdered (State.startSeen s inWindow).line := by
  unfold State.startSeen
  split
  · dsimp only
    have seen := State.start_queueOrdered _ false false (State.wake_queueOrdered s .wakeStart false h)
    generalize State.start _ false false = u at seen ⊢
    exact QueueOrdered_same seen rfl rfl rfl
  · exact State.start_queueOrdered _ _ _ h
@[simp] theorem State.enterDormant_queueOrdered (s : State)
    (h : QueueOrdered s.line) : QueueOrdered (State.enterDormant s).line := by
  unfold State.enterDormant
  dsimp only
  split
  · have gone := State.goTo_queueOrdered s .dormant .silentLine h
    generalize s.goTo .dormant .silentLine = u at gone ⊢
    have rest : u.emptyLoads.stopCadences.followerAsleep.cancellerAsleep.line = u.line := by simp
    generalize u.emptyLoads.stopCadences.followerAsleep.cancellerAsleep = w at rest ⊢
    exact QueueOrdered_same (rest ▸ gone) rfl rfl rfl
  · exact h
@[simp] theorem State.carryRetry_queueOrdered (s : State) (i : Nat)
    (h : QueueOrdered s.line) : QueueOrdered (State.carryRetry s i).line := by
  unfold State.carryRetry; (try dsimp only); (repeat' split) <;>
    first
      | (simp (maxDischargeDepth := 12) +contextual [h]; done) | (simp_all (maxDischargeDepth := 12); done)
      | (simp (maxDischargeDepth := 12); first | exact QueueOrdered_same h rfl rfl rfl | exact QueueOrdered_filters _ h)
@[simp] theorem State.queueHost_queueOrdered (s : State) (m : Message) (auto : Bool) (companion : Option Binding)
    (h : QueueOrdered s.line) : QueueOrdered (State.queueHost s m auto companion).1.line := by
  unfold State.queueHost; split
  · exact h
  · next hq => exact State.enter_queueOrdered _ _ h
@[simp] theorem State.leaveLine_queueOrdered (s : State)
    (h : QueueOrdered s.line) : QueueOrdered (State.leaveLine s).1.line := by
  unfold State.leaveLine; split
  · exact h
  · next hq =>
    dsimp only
    with_reducible refine State.goTo_queueOrdered _ _ _ ?_
    exact State.enter_queueOrdered _ _ h
@[simp] theorem State.rejoin_queueOrdered (s : State)
    (h : QueueOrdered s.line) : QueueOrdered (State.rejoin s).1.line := by
  unfold State.rejoin; (try dsimp only); (repeat' split) <;>
    first
      | (simp (maxDischargeDepth := 12) +contextual [h]; done) | (simp_all (maxDischargeDepth := 12); done)
      | (simp (maxDischargeDepth := 12); first | exact QueueOrdered_same h rfl rfl rfl | exact QueueOrdered_filters _ h)
@[simp] theorem State.wakeRequest_queueOrdered (s : State) (flag : Byte)
    (h : QueueOrdered s.line) : QueueOrdered (State.wakeRequest s flag).line := by
  unfold State.wakeRequest; (try dsimp only); (repeat' split) <;>
    first
      | (simp (maxDischargeDepth := 12) +contextual [h]; done) | (simp_all (maxDischargeDepth := 12); done)
      | (simp (maxDischargeDepth := 12); first | exact QueueOrdered_same h rfl rfl rfl | exact QueueOrdered_filters _ h)
@[simp] theorem State.offerOwn_queueOrdered (s : State) (index kind channels cls : Byte) (b : Binding)
    (h : QueueOrdered s.line) : QueueOrdered (State.offerOwn s index kind channels cls b).1.line := by
  unfold State.offerOwn; (try dsimp only); (repeat' split) <;>
    first
      | (simp (maxDischargeDepth := 12) +contextual [h]; done) | (simp_all (maxDischargeDepth := 12); done)
      | (simp (maxDischargeDepth := 12); first | exact QueueOrdered_same h rfl rfl rfl | exact QueueOrdered_filters _ h)
@[simp] theorem State.carryOwn_queueOrdered (s : State) (index first : Byte)
    (h : QueueOrdered s.line) : QueueOrdered (State.carryOwn s index first).1.line := by
  unfold State.carryOwn; (try dsimp only); (repeat' split) <;>
    first
      | (simp (maxDischargeDepth := 12) +contextual [h]; done) | (simp_all (maxDischargeDepth := 12); done)
      | (simp (maxDischargeDepth := 12); first | exact QueueOrdered_same h rfl rfl rfl | exact QueueOrdered_filters _ h)
@[simp] theorem State.noteRequest_queueOrdered (s : State) (target total : Nat) (data : List Byte)
    (h : QueueOrdered s.line) : QueueOrdered (State.noteRequest s target total data).1.line := by
  unfold State.noteRequest; (try dsimp only); (repeat' split) <;>
    first
      | (simp (maxDischargeDepth := 12) +contextual [h]; done) | (simp_all (maxDischargeDepth := 12); done)
      | (simp (maxDischargeDepth := 12); first | exact QueueOrdered_same h rfl rfl rfl | exact QueueOrdered_filters _ h)

/-- Every operation keeps the law of the send queue. -/
theorem queueOrdered_kept : Kept (fun s => QueueOrdered s.line) where
  lineSilent := by intro a0 h; simp (maxDischargeDepth := 12) [h]
  enterDormant := by intro a0 h; simp (maxDischargeDepth := 12) [h]
  selfVetoDue := by intro a0 h; simp (maxDischargeDepth := 12) [h]
  listenEnd := by intro a0 h; simp (maxDischargeDepth := 12) [h]
  agedOut := by intro a0 a1 h; simp (maxDischargeDepth := 12) [h]
  freeSlot := by intro a0 a1 h; simp (maxDischargeDepth := 12) [h]
  readyEntries := by intro a0 h; simp (maxDischargeDepth := 12) [h]
  presenceFallsDue := by intro a0 h; simp (maxDischargeDepth := 12) [h]
  silenceEnded := by intro a0 h; simp (maxDischargeDepth := 12) [h]
  noteStall := by intro a0 h; simp (maxDischargeDepth := 12) [h]
  noteExpiry := by intro a0 h; simp (maxDischargeDepth := 12) [h]
  uplinkRetry := by intro a0 h; simp (maxDischargeDepth := 12) [h]
  carryRetry := by intro a0 a1 h; simp (maxDischargeDepth := 12) [h]
  arrivalGap := by intro a0 h; simp (maxDischargeDepth := 12) [h]
  qualityBlock := by intro a0 h; simp (maxDischargeDepth := 12) [h]
  endGateRamp := by intro a0 h; simp (maxDischargeDepth := 12) [h]
  endEntryRamp := by intro a0 a1 a2 h; simp (maxDischargeDepth := 12) [h]
  endPositionRamp := by intro a0 a1 h; simp (maxDischargeDepth := 12) [h]
  refreshDebtRise := by intro a0 h; simp (maxDischargeDepth := 12) [h]
  filled := by intro a0 h; simp (maxDischargeDepth := 12) [h]
  primingDone := by intro a0 h; simp (maxDischargeDepth := 12) [h]
  correlationResult := by intro a0 h; simp (maxDischargeDepth := 12) [h]
  crossfadeEnd := by intro a0 h; simp (maxDischargeDepth := 12) [h]
  toDigitalComplete := by intro a0 h; simp (maxDischargeDepth := 12) [h]
  toAnalogueComplete := by intro a0 h; simp (maxDischargeDepth := 12) [h]
  cancellerBlock := by intro a0 h; simp (maxDischargeDepth := 12) [h]
  freezeEnd := by intro a0 h; simp (maxDischargeDepth := 12) [h]
  referenceLost := by intro a0 h; simp (maxDischargeDepth := 12) [h]
  triggerFollowers := by intro a0 a1 h; simp (maxDischargeDepth := 12) [h]
  countRepetition := by intro a0 a1 h; simp (maxDischargeDepth := 12) [h]
  fire := by intro a0 a1 h; simp (maxDischargeDepth := 12) [h]
  playCompleted := by intro a0 a1 h; simp (maxDischargeDepth := 12) [h]
  recordRead := by intro a0 a1 h; simp (maxDischargeDepth := 12) [h]
  startSeen := by intro a0 a1 h; simp (maxDischargeDepth := 12) [h]
  leadStart := by intro a0 h; simp (maxDischargeDepth := 12) [h]
  expireTimer := by intro a0 h; simp (maxDischargeDepth := 12) [h]
  missFurther := by intro a0 h; simp (maxDischargeDepth := 12) [h]
  controlField := by intro a0 a1 a2 h; simp (maxDischargeDepth := 12) [h]
  audioSlots := by intro a0 a1 h; simp (maxDischargeDepth := 12) [h]
  tailEnd := by intro a0 a1 h; simp (maxDischargeDepth := 12) [h]
  messageEffect := by intro a0 a1 a2 h; simp (maxDischargeDepth := 12) [h]
  localSample := by intro a0 a1 h; simp (maxDischargeDepth := 12) [h]
  decoderArrives := by intro a0 a1 a2 h; simp (maxDischargeDepth := 12) [h]
  burstComplete := by intro a0 a1 h; simp (maxDischargeDepth := 12) [h]
  completeOpen := by intro a0 a1 h; simp (maxDischargeDepth := 12) [h]
  completeClose := by intro a0 a1 h; simp (maxDischargeDepth := 12) [h]
  completeRefresh := by intro a0 a1 h; simp (maxDischargeDepth := 12) [h]
  keepUpStart := by intro a0 h; simp (maxDischargeDepth := 12) [h]
  host := by intro a0 a1 h; simp (maxDischargeDepth := 12) [h]
  noteBox := by intro a0 a1 h; simp (maxDischargeDepth := 12) [h]
  rest := by intro s q h; exact h
  enterHost := by
    intro s m a b hq h; exact State.enter_queueOrdered _ _ h
  leaveLine := by intro a0 h; simp (maxDischargeDepth := 12) [h]
  goToListening := by intro a0 h; simp (maxDischargeDepth := 12) [h]
  wake := by intro a0 a1 a2 h; simp (maxDischargeDepth := 12) [h]
  judgeRoute := by intro a0 a1 a2 a3 a4 h; simp (maxDischargeDepth := 12) [h]
  clipLoadBegin := by intro a0 a1 a2 a3 h; simp (maxDischargeDepth := 12) [h]
  clipData := by intro a0 a1 a2 h; simp (maxDischargeDepth := 12) [h]
  clipLoadEnd := by intro a0 a1 h; simp (maxDischargeDepth := 12) [h]
  clipLock := by intro a0 a1 h; simp (maxDischargeDepth := 12) [h]
  startPlay := by
    intro s u c l r p e h; have := State.startPlay_frame s c l r .host (p, u) e; simp only at this; simp [this, h]
  cadenceSet := by intro a0 a1 a2 h; simp (maxDischargeDepth := 12) [h]
  cadenceStart := by intro a0 a1 h; simp (maxDischargeDepth := 12) [h]
  cadenceStop := by intro a0 a1 h; simp (maxDischargeDepth := 12) [h]
  blendEnable := by intro a0 h; simp (maxDischargeDepth := 12) [h]
  blendDisable := by intro a0 h; simp (maxDischargeDepth := 12) [h]
  tuned := by intro a0 h; simp (maxDischargeDepth := 12) [h]
  beginNote := by intro a0 a1 a2 a3 h; simp (maxDischargeDepth := 12) [h]
  powerOn := by
    intro s h; exact QueueOrdered_nil
  assertPin := by intro a0 h; simp (maxDischargeDepth := 12) [h]
  resetLine := by
    intro s h; exact QueueOrdered_nil

end Sys2Proof.Machine
end

