-- ==== Sys2Proof/Laws/Requests.lean ====
section
/-! SUPPORT. What a request of one client of the store leaves alone in the blocks of the others, and what the stages of a local
sample do one by one (R65, R83). -/

namespace Sys2Proof.Machine

set_option maxRecDepth 20000
set_option linter.unusedVariables false
set_option linter.unusedSimpArgs false

/-! ## One request -/

/-- The block whose data the end of a request changes. -/
inductive Owner where
  | mixer | announce | blend | call
  deriving DecidableEq

/-- The block that waits for a request. -/
def Purpose.owner : Purpose → Owner
  | .alignWrite .. => .mixer
  | .alignRead .. => .mixer
  | .blendWrite .. => .blend
  | .blendRead .. => .blend
  | .echoWrite .. => .call
  | .echoRead .. => .call
  | .clipRead .. => .announce
  | .clipWrite _ => .announce

theorem takeGap_others (s : State) (r : Request) :
    (r.purpose.owner ≠ .mixer → (s.takeGap r).mixer = s.mixer)
      ∧ (r.purpose.owner ≠ .announce → (s.takeGap r).announce = s.announce)
      ∧ (r.purpose.owner ≠ .blend → (s.takeGap r).blend = s.blend)
      ∧ (r.purpose.owner ≠ .call → (s.takeGap r).call = s.call) := by
  unfold State.takeGap
  cases r.purpose <;> simp [Purpose.owner]

theorem request_others (s : State) (r : Request) :
    (r.purpose.owner ≠ .mixer → (s.request r).mixer = s.mixer)
      ∧ (r.purpose.owner ≠ .announce → (s.request r).announce = s.announce)
      ∧ (r.purpose.owner ≠ .blend → (s.request r).blend = s.blend)
      ∧ (r.purpose.owner ≠ .call → (s.request r).call = s.call) := by
  unfold State.request
  split
  · exact ⟨fun _ => rfl, fun _ => rfl, fun _ => rfl, fun _ => rfl⟩
  · split
    · unfold State.endRequest
      dsimp only
      rw [raise_eq]
      exact takeGap_others _ r
    · exact ⟨fun _ => rfl, fun _ => rfl, fun _ => rfl, fun _ => rfl⟩

/-- The write positions and the groups being written of the output paths. -/
def State.pathsSeen (s : State) := s.mixer.paths.map (fun p => (p.ring.write, p.ring.current))

/-- What no request changes: of an output path its write position and current group; of the blend engine all but what its taps
hold; of a play all but its groups; of the call unit all but its tap, its freeze count and whether the block was unfrozen. -/
def State.kept (s : State) :=
  (s.mixer.zones, s.pathsSeen, s.ports, s.localCount, s.announce.out,
    s.announce.plays.map (Option.map Play.bare),
    (s.blend.state, s.blend.mix, s.blend.gain, s.blend.fill, s.blend.out, s.blend.ring,
      s.blend.crossfade.map (fun x => (x.weight, x.delay))),
    (s.call.state, s.call.microphone, s.call.uplink, s.call.references, s.call.window, s.call.windowZeros, s.call.history,
      s.call.coefficients, s.call.fallback, s.call.downlinkLive, s.call.block.count, s.call.block.reference,
      s.call.block.microphone, s.call.block.estimate, s.call.block.output, s.call.copies))

theorem map_modify_kept {α β : Type} (g : α → β) (f : α → α) (h : ∀ x, g (f x) = g x) :
    ∀ (l : List α) (k : Nat), (l.modify k f).map g = l.map g
  | [], k => by simp
  | x :: l, 0 => by simp [h]
  | x :: l, k + 1 => by simp [map_modify_kept g f h l k]

theorem takeGap_kept (s : State) (r : Request) : (s.takeGap r).kept = s.kept := by
  unfold State.takeGap
  cases r.purpose with
  | alignRead pair group right =>
    simp only [State.kept, State.pathsSeen, State.onPath]
    rw [map_modify_kept]
    intro p; rfl
  | blendRead tap group right =>
    simp only [State.kept, State.settleBlendRead, Option.map_map]
    rfl
  | echoRead ring group =>
    simp only [State.kept, State.freezeForGap, State.settleEchoRead]
    split <;> rfl
  | clipRead play repetition group =>
    simp only [State.kept, State.settleClipRead, List.map_map]
    have : ((Option.map Play.bare) ∘ (Option.map fun (p : Play) => if p.serial = play then
        { p with groups := p.groups.map (fun g => if g.repetition = repetition ∧ g.group = group then { g with part := .silent } else g) }
        else p)) = Option.map Play.bare := by
      funext o
      cases o with
      | none => rfl
      | some p => simp only [Function.comp, Option.map_some]; split <;> rfl
    rw [this]
    rfl
  | echoWrite _ _ => rfl
  | alignWrite _ _ _ => rfl
  | blendWrite _ _ _ => rfl
  | clipWrite _ => rfl

theorem request_kept (s : State) (r : Request) : (s.request r).kept = s.kept := by
  unfold State.request
  split
  · rfl
  · split
    · unfold State.endRequest
      dsimp only
      rw [raise_eq]
      exact (takeGap_kept _ r).trans rfl
    · rfl

/-! ## The turn of an output pair (R114) -/

theorem requests_others {α : Type} (o : Owner) (f : State → α → Request) (hf : ∀ s x, (f s x).purpose.owner = o) :
    ∀ (l : List α) (s : State),
      (o ≠ .mixer → (l.foldl (fun acc x => acc.request (f acc x)) s).mixer = s.mixer)
        ∧ (o ≠ .announce → (l.foldl (fun acc x => acc.request (f acc x)) s).announce = s.announce)
        ∧ (o ≠ .blend → (l.foldl (fun acc x => acc.request (f acc x)) s).blend = s.blend)
        ∧ (o ≠ .call → (l.foldl (fun acc x => acc.request (f acc x)) s).call = s.call)
        ∧ (l.foldl (fun acc x => acc.request (f acc x)) s).kept = s.kept
  | [], s => ⟨fun _ => rfl, fun _ => rfl, fun _ => rfl, fun _ => rfl, rfl⟩
  | x :: l, s => by
    obtain ⟨a, b, c, d, e⟩ := requests_others o f hf l (s.request (f s x))
    obtain ⟨a', b', c', d'⟩ := request_others s (f s x)
    rw [hf] at a' b' c' d'
    exact ⟨fun h => (a h).trans (a' h), fun h => (b h).trans (b' h), fun h => (c h).trans (c' h),
      fun h => (d h).trans (d' h), e.trans (request_kept _ _)⟩

/-- What the requests of the output paths leave alone. -/
def State.alignKept (s : State) :=
  (s.mixer.zones, s.pathsSeen, s.ports, s.localCount, s.announce, s.blend, s.call)

theorem request_alignKept (s : State) (r : Request) (h : r.purpose.owner = .mixer) : (s.request r).alignKept = s.alignKept := by
  obtain ⟨_, b, c, d⟩ := request_others s r
  rw [h] at b c d
  have k := request_kept s r
  simp only [State.kept, Prod.mk.injEq] at k
  simp only [State.alignKept, Prod.mk.injEq]
  exact ⟨k.1, k.2.1, k.2.2.1, k.2.2.2.1, b (by decide), c (by decide), d (by decide)⟩

theorem onPath_alignKept (s : State) (k : Nat) (f : OutputPath → OutputPath)
    (h : ∀ p, ((f p).ring.write, (f p).ring.current) = (p.ring.write, p.ring.current)) :
    (s.onPath k f).alignKept = s.alignKept := by
  simp only [State.alignKept, State.pathsSeen, State.onPath]
  rw [map_modify_kept _ _ h]

theorem alignWrites_alignKept (s : State) (p : Nat) : (s.alignWrites p).alignKept = s.alignKept := by
  unfold State.alignWrites
  split
  · rfl
  · exact (request_alignKept _ _ rfl).trans ((request_alignKept _ _ rfl).trans (onPath_alignKept _ _ _ (fun _ => rfl)))

theorem alignReads_alignKept (s : State) (p d : Nat) : (s.alignReads p d).alignKept = s.alignKept := by
  unfold State.alignReads
  dsimp only
  have holds (x : State) (more : List HeldGroup) :
      (x.onPath p (fun q => { q with held := q.held ++ more })).alignKept = x.alignKept :=
    onPath_alignKept x p _ (fun _ => rfl)
  split
  · exact holds _ _
  · exact (request_alignKept _ _ rfl).trans ((request_alignKept _ _ rfl).trans ((holds _ _).trans (holds _ _)))

theorem alignTurn_alignKept (s : State) : s.alignTurn.alignKept = s.alignKept := by
  unfold State.alignTurn
  have h (x : State) (r : Nat) : ({ x with mixer.round := r } : State).alignKept = x.alignKept := rfl
  refine (h _ _).trans ?_
  split
  · exact (alignReads_alignKept _ _ _).trans (alignWrites_alignKept _ _)
  · rfl

/-! ## The output pairs one by one (R113) -/

/-- An output pair: its path and what it emits. -/
def State.pairSeen (s : State) (p : Nat) : OutputPath × Stereo := (s.path p, s.ports.outputs.getD p .zero)

/-- What the sounding of a pair reads beside its own path. -/
def State.pairInputs (s : State) :=
  (s.mixer.zones, s.localCount, s.follower, s.member, s.startUp, s.announce, s.blend, s.call, s.mixer.paths.length,
    s.ports.outputs.length)

theorem playPair_inputs (s : State) (k : Nat) : (s.playPair k).pairInputs = s.pairInputs := by
  unfold State.playPair
  split
  · simp [State.pairInputs, State.emit]
  · simp [State.pairInputs, State.emit, State.onPath]

/-- The ports but for what the output pairs emit. -/
def Ports.quiet (p : Ports) : Ports := { p with outputs := [] }

theorem playPair_ports (s : State) (k : Nat) : (s.playPair k).ports.quiet = s.ports.quiet := by
  unfold State.playPair
  split <;> rfl

theorem playPair_ne (s : State) (k p : Nat) (h : p ≠ k) : (s.playPair k).pairSeen p = s.pairSeen p := by
  unfold State.playPair
  split
  · simp [State.pairSeen, State.emit, State.path, List.getD_eq_getElem?_getD, List.getElem?_set_ne (Ne.symm h)]
  · simp [State.pairSeen, State.emit, State.path, State.onPath, List.getD_eq_getElem?_getD,
      List.getElem?_set_ne (Ne.symm h), List.getElem?_modify, Ne.symm h]

theorem assigned_congr (s u : State) (h : s.pairInputs = u.pairInputs) (p : Nat) : s.assigned p = u.assigned p := by
  simp only [State.pairInputs, Prod.mk.injEq] at h
  simp only [State.assigned, State.definitions, State.inForce, h]

theorem playPair_eq (s : State) (p : Nat) (hp : p < s.mixer.paths.length) (ho : p < s.ports.outputs.length) :
    (s.playPair p).pairSeen p = (match s.assigned p with
      | none => (s.path p, .zero)
      | some (z, o) =>
        let path := s.path p
        let written := path.ring.push alignPositions (s.zone z).sum
        let q := playedPosition path.ring.write o.delay
        ({ ring := written, held := stillHeld path.held (q :: following alignPositions q 16) },
          emitted o.trim s.follower.gain (readHeld path.held written q p s.localCount))) := by
  unfold State.playPair
  split
  · rename_i h
    simp [State.pairSeen, State.emit, State.path, List.getD_eq_getElem?_getD, h, List.getElem?_set_self ho]
  · rename_i z o h
    simp [State.pairSeen, State.emit, State.path, State.onPath, List.getD_eq_getElem?_getD, h,
      List.getElem?_set_self ho, List.getElem?_modify, hp]

theorem playPair_congr (s u : State) (p : Nat) (h : s.pairInputs = u.pairInputs) (hs : s.pairSeen p = u.pairSeen p)
    (hp : p < s.mixer.paths.length) (ho : p < s.ports.outputs.length) :
    (s.playPair p).pairSeen p = (u.playPair p).pairSeen p := by
  have a := assigned_congr s u h p
  simp only [State.pairInputs, Prod.mk.injEq] at h
  simp only [State.pairSeen, Prod.mk.injEq] at hs
  rw [playPair_eq s p hp ho, playPair_eq u p (h.2.2.2.2.2.2.2.2.1 ▸ hp) (h.2.2.2.2.2.2.2.2.2 ▸ ho), a, hs.1]
  simp only [State.zone, h]

theorem playLoop (p : Nat) : ∀ (l : List Nat), l.Nodup → ∀ s : State,
    (l.foldl (fun acc k => acc.playPair k) s).pairInputs = s.pairInputs
      ∧ (l.foldl (fun acc k => acc.playPair k) s).ports.quiet = s.ports.quiet
      ∧ (p ∉ l → (l.foldl (fun acc k => acc.playPair k) s).pairSeen p = s.pairSeen p)
      ∧ (p ∈ l → p < s.mixer.paths.length → p < s.ports.outputs.length →
          (l.foldl (fun acc k => acc.playPair k) s).pairSeen p = (s.playPair p).pairSeen p)
  | [], _, s => ⟨rfl, rfl, fun _ => rfl, fun h => by simp at h⟩
  | k :: l, hl, s => by
    obtain ⟨hk, hl⟩ := List.nodup_cons.1 hl
    obtain ⟨a, b, c, d⟩ := playLoop p l hl (s.playPair k)
    have i := playPair_inputs s k
    rw [List.foldl_cons]
    refine ⟨a.trans i, b.trans (playPair_ports s k), ?_, ?_⟩
    · intro h
      obtain ⟨h1, h2⟩ := not_or.1 (fun x => h (List.mem_cons.2 x))
      exact (c h2).trans (playPair_ne s k p h1)
    · intro h hp ho
      by_cases e : p = k
      · subst e; exact c hk
      · have h2 : p ∈ l := (List.mem_cons.1 h).resolve_left e
        have i' := i
        simp only [State.pairInputs, Prod.mk.injEq] at i'
        have hp' : p < (s.playPair k).mixer.paths.length := by rw [i'.2.2.2.2.2.2.2.2.1]; exact hp
        have ho' : p < (s.playPair k).ports.outputs.length := by rw [i'.2.2.2.2.2.2.2.2.2]; exact ho
        exact (d h2 hp' ho').trans (playPair_congr _ _ p i (playPair_ne s k p e) hp' ho')

theorem playPairs_stage (s : State) :
    (s.playPairs.mixer.zones, s.playPairs.localCount, s.playPairs.announce, s.playPairs.blend, s.playPairs.call,
        s.playPairs.ports.quiet) = (s.mixer.zones, s.localCount, s.announce, s.blend, s.call, s.ports.quiet)
      ∧ ∀ p, p < 6 → p < s.mixer.paths.length → p < s.ports.outputs.length →
        s.playPairs.ports.outputs.getD p .zero = ((s.playPair p).pairSeen p).2
        ∧ (s.playPairs.path p).ring.write = ((s.playPair p).pairSeen p).1.ring.write
        ∧ (s.playPairs.path p).ring.current = ((s.playPair p).pairSeen p).1.ring.current := by
  unfold State.playPairs forEach
  have L (p : Nat) := playLoop p (List.range 6) (by decide) s
  generalize (List.range 6).foldl (fun acc k => acc.playPair k) s = w at L ⊢
  have k := alignTurn_alignKept w
  generalize w.alignTurn = v at k ⊢
  simp only [State.alignKept, State.pathsSeen, Prod.mk.injEq] at k
  obtain ⟨k1, k2, k3, k4, k5, k6, k7⟩ := k
  obtain ⟨i, q, _⟩ := L 0
  simp only [State.pairInputs, Prod.mk.injEq] at i
  refine ⟨by rw [k1, k3, k4, k5, k6, k7, i.1, i.2.1, i.2.2.2.2.2.1, i.2.2.2.2.2.2.1, i.2.2.2.2.2.2.2.1, q], ?_⟩
  intro p h6 hp ho
  obtain ⟨_, _, _, d⟩ := L p
  have d := d (List.mem_range.2 h6) hp ho
  rw [← d]
  have e : ∀ (l m : List OutputPath), l.map (fun p => (p.ring.write, p.ring.current)) = m.map (fun p => (p.ring.write, p.ring.current)) →
      (l.getD p { ring := .cleared 0, held := [] }).ring.write = (m.getD p { ring := .cleared 0, held := [] }).ring.write
        ∧ (l.getD p { ring := .cleared 0, held := [] }).ring.current = (m.getD p { ring := .cleared 0, held := [] }).ring.current := by
    intro l m h
    have h := congrArg (fun x => x[p]?) h
    simp only [List.getElem?_map, List.getD_eq_getElem?_getD] at h ⊢
    cases hl : l[p]? <;> cases hm : m[p]? <;> simp [hl, hm] at h ⊢
    exact h
  exact ⟨by rw [k3]; rfl, (e _ _ k2).1, (e _ _ k2).2⟩

/-! ## The announce unit, the blend engine and the call unit at a local sample -/

/-- What the requests of the announce unit leave alone. -/
def State.clipKept (s : State) :=
  (s.mixer, s.blend, s.call, s.ports, s.localCount, s.announce.out, s.announce.plays.map (Option.map Play.bare))

theorem request_clipKept (s : State) (r : Request) (h : r.purpose.owner = .announce) : (s.request r).clipKept = s.clipKept := by
  obtain ⟨a, _, c, d⟩ := request_others s r
  rw [h] at a c d
  have k := request_kept s r
  simp only [State.kept, Prod.mk.injEq] at k
  simp only [State.clipKept, Prod.mk.injEq]
  exact ⟨a (by decide), c (by decide), d (by decide), k.2.2.1, k.2.2.2.1, k.2.2.2.2.1, k.2.2.2.2.2.1⟩

theorem requestGroup_clipKept (s : State) (p a b c d : Nat) : (s.requestGroup p a b c d).clipKept = s.clipKept := by
  unfold State.requestGroup
  split
  · rfl
  · rename_i play h
    split
    · rfl
    · refine (request_clipKept _ _ rfl).trans ?_
      have e : (s.announce.plays.set p (some { play with groups := play.groups ++ [{ repetition := b, group := c, part := Part.awaited }] })).map (Option.map Play.bare)
          = s.announce.plays.map (Option.map Play.bare) := by
        apply List.ext_getElem?
        intro k
        simp only [List.getElem?_map, List.getElem?_set]
        rw [List.getD_eq_getElem?_getD] at h
        split
        · rename_i hk
          subst hk
          split
          · rename_i hl
            rw [List.getElem?_eq_getElem hl] at h ⊢
            simp only [Option.getD_some] at h
            simp [h, Play.bare]
          · rename_i hl
            rw [List.getElem?_eq_none (by omega)]
        · rfl
      simp only [State.clipKept, e]

theorem announceSample_clipKept (s : State) : s.announceSample.clipKept = s.soundPlays.clipKept := by
  unfold State.announceSample forEach
  have each (p o : Nat) (l : List (Nat × Nat × Nat)) (s : State) :
      (l.foldl (fun acc g => acc.requestGroup p o g.1 g.2.1 g.2.2) s).clipKept = s.clipKept := by
    induction l generalizing s with
    | nil => rfl
    | cons g l ih => rw [List.foldl_cons, ih]; exact requestGroup_clipKept _ _ _ _ _ _
  have groups (s : State) (p : Nat) : (s.requestGroups p).clipKept = s.clipKept := by
    unfold State.requestGroups
    split
    · rfl
    · exact each _ _ _ _
  generalize s.soundPlays = v
  generalize List.range 4 = l
  induction l generalizing v with
  | nil => rfl
  | cons p l ih => rw [List.foldl_cons, ih]; exact groups _ _

/-- What the requests of the blend engine leave alone. -/
def State.blendKept (s : State) :=
  (s.mixer, s.announce, s.call, s.ports, s.localCount, s.blend.state, s.blend.mix, s.blend.gain, s.blend.fill, s.blend.out,
    s.blend.ring.write, s.blend.crossfade.map (fun x => (x.weight, x.delay)))

theorem request_blendKept (s : State) (r : Request) (h : r.purpose.owner = .blend) : (s.request r).blendKept = s.blendKept := by
  obtain ⟨a, b, _, d⟩ := request_others s r
  rw [h] at a b d
  have k := request_kept s r
  simp only [State.kept, Prod.mk.injEq] at k
  obtain ⟨_, _, kp, kl, _, _, ⟨k1, k2, k3, k4, k5, k6, k7⟩, _⟩ := k
  simp only [State.blendKept, Prod.mk.injEq]
  exact ⟨a (by decide), b (by decide), d (by decide), kp, kl, k1, k2, k3, k4, k5, by rw [k6], k7⟩

theorem blendTurn_blendKept (s : State) : s.blendTurn.blendKept = s.blendKept := by
  have reads (tap : Nat) (l : List Nat) (s : State) : (s.blendReads tap l).blendKept = s.blendKept := by
    unfold State.blendReads
    induction l generalizing s with
    | nil => rfl
    | cons g l ih => rw [List.foldl_cons, ih]; exact (request_blendKept _ _ rfl).trans (request_blendKept _ _ rfl)
  unfold State.blendTurn
  split
  · unfold State.blendWrites
    split
    · rfl
    · exact (request_blendKept _ _ rfl).trans ((request_blendKept _ _ rfl).trans rfl)
  · exact (reads _ _ _).trans rfl
  · split
    · rfl
    · rename_i x h
      refine (reads _ _ _).trans ?_
      simp only [State.blendKept, h, Option.map_some]
  · split
    · rfl
    · exact (reads _ _ _).trans rfl
  · rfl

/-- What the requests of the call unit leave alone. -/
def State.callKept (s : State) :=
  (s.mixer, s.announce, s.blend, s.ports, s.localCount, (s.call.state, s.call.microphone, s.call.uplink, s.call.references,
    s.call.window, s.call.windowZeros, s.call.history.write, s.call.coefficients, s.call.fallback, s.call.downlinkLive,
    s.call.block.count, s.call.block.reference, s.call.block.microphone, s.call.block.estimate, s.call.block.output,
    s.call.copies))

theorem request_callKept (s : State) (r : Request) (h : r.purpose.owner = .call) : (s.request r).callKept = s.callKept := by
  obtain ⟨a, b, c, _⟩ := request_others s r
  rw [h] at a b c
  have k := request_kept s r
  simp only [State.kept, Prod.mk.injEq] at k
  obtain ⟨_, _, kp, kl, _, _, _, k1, k2, k3, k4, k5, k6, k7, k8, k9⟩ := k
  simp only [State.callKept, Prod.mk.injEq]
  exact ⟨a (by decide), b (by decide), c (by decide), kp, kl, k1, k2, k3, k4, k5, k6, by rw [k7], k8, k9⟩

theorem echoTurn_callKept (s : State) : s.echoTurn.callKept = s.callKept := by
  unfold State.echoTurn
  split
  · unfold State.echoWrite
    split
    · rfl
    · exact (request_callKept _ _ rfl).trans rfl
  · split
    · unfold State.echoReads
      dsimp only
      have reads (l : List Nat) (n : Nat) (d : BitVec 32) (s : State) :
          (l.foldl (fun acc g => acc.request (burst .echo .read (g * 8) [] d (.echoRead n g))) s).callKept = s.callKept := by
        induction l generalizing s with
        | nil => rfl
        | cons g l ih => rw [List.foldl_cons, ih]; exact request_callKept _ _ rfl
      exact (reads _ _ _ _).trans rfl
    · rfl

/-! ## One local sample as a whole (R65) -/

/-- The state in which the zones of a local sample are mixed: the ports have taken it and the gate has moved. -/
def State.gatedFor (s : State) (i : InputSamples) : State :=
  { s.portSample i with follower := (s.portSample i).follower.stepGate }

theorem gatedFor_facts (s : State) (i : InputSamples) :
    (s.gatedFor i).mixer = s.mixer ∧ (s.gatedFor i).announce = s.announce ∧ (s.gatedFor i).call = s.call
      ∧ (s.gatedFor i).localCount = s.localCount ∧ (s.gatedFor i).line = s.line ∧ (s.gatedFor i).tables = s.tables
      ∧ (s.gatedFor i).member = s.member ∧ (s.gatedFor i).startUp = s.startUp ∧ (s.gatedFor i).store = s.store
      ∧ (s.gatedFor i).follower = s.follower.stepGate ∧ (s.gatedFor i).ports = (s.ports.sample i).1 := by
  obtain ⟨a, c, m, st, l, f, p, _, _⟩ := portSample_turned s i
  simp only [State.gatedFor]
  exact ⟨m, a, c, l, by simp, by simp, by simp, by simp, st, by rw [f], p⟩

/-- The stages of a local sample: what the announce unit, the blend engine and the call unit make of the state in which each
begins, the blocks of the others as they stood. -/
theorem localSample_stages (s : State) (i : InputSamples) (h : s.member.station ≠ .dormant) :
    ∃ a b d x : State,
      a = (s.gatedFor i).mixZones.playPairs ∧ b = a.announceSample ∧ d = b.cadenceSample ∧ x = d.blendSample
      ∧ s.localSample i = { x.callSample with
          store.refreshTick := x.callSample.store.refreshTick + 1, localCount := x.callSample.localCount + 1 } := by
  refine ⟨_, _, _, _, rfl, rfl, rfl, rfl, ?_⟩
  generalize hg : s.gatedFor i = g
  unfold State.localSample
  rw [if_neg h, ← hg]
  unfold State.gatedFor
  with_reducible rfl

theorem blendSample_others (s : State) :
    s.blendSample.mixer = s.mixer ∧ s.blendSample.announce = s.announce ∧ s.blendSample.call = s.call
      ∧ s.blendSample.ports = s.ports ∧ s.blendSample.localCount = s.localCount := by
  unfold State.blendSample
  split
  · exact ⟨rfl, rfl, rfl, rfl, rfl⟩
  · have k := blendTurn_blendKept s.blendWork
    have F := State.blendWork_frame s
    generalize s.blendWork = v at k F
    simp only [State.blendKept, Prod.mk.injEq] at k
    exact ⟨k.1.trans (by simp [F]), k.2.1.trans (by simp [F]), k.2.2.1.trans (by simp [F]),
      k.2.2.2.1.trans (by simp [F]), k.2.2.2.2.1.trans (by simp [F])⟩

theorem callSample_others (s : State) :
    s.callSample.mixer = s.mixer ∧ s.callSample.announce = s.announce ∧ s.callSample.blend = s.blend
      ∧ s.callSample.ports = s.ports ∧ s.callSample.localCount = s.localCount := by
  unfold State.callSample
  dsimp only
  split
  · exact ⟨rfl, rfl, rfl, rfl, rfl⟩
  · have F := State.cancelSample_frame { s with call := { s.call with microphone := s.microphoneSum } }
    generalize State.cancelSample { s with call := { s.call with microphone := s.microphoneSum } } = v at F
    have k := echoTurn_callKept v
    simp only [State.callKept, Prod.mk.injEq] at k
    exact ⟨k.1.trans (by simp [F]), k.2.1.trans (by simp [F]), k.2.2.1.trans (by simp [F]),
      k.2.2.2.1.trans (by simp [F]), k.2.2.2.2.1.trans (by simp [F])⟩

end Sys2Proof.Machine
end

