-- ==== Sys2Proof/Laws/State.lean ====
section
/-! SUPPORT. One update of one component of the state at a time: what each field reads after it. -/

namespace Sys2Proof.Machine

/-- The fields after an update of `pending`. -/
@[simp] theorem State.setPending_fields (s : State) (v : List Instr) :
    ({ s with pending := v } : State).pending = v ∧
    ({ s with pending := v } : State).localCount = s.localCount ∧
    ({ s with pending := v } : State).line = s.line ∧
    ({ s with pending := v } : State).tables = s.tables ∧
    ({ s with pending := v } : State).member = s.member ∧
    ({ s with pending := v } : State).follower = s.follower ∧
    ({ s with pending := v } : State).ports = s.ports ∧
    ({ s with pending := v } : State).store = s.store ∧
    ({ s with pending := v } : State).mixer = s.mixer ∧
    ({ s with pending := v } : State).announce = s.announce ∧
    ({ s with pending := v } : State).blend = s.blend ∧
    ({ s with pending := v } : State).call = s.call ∧
    ({ s with pending := v } : State).note = s.note ∧
    ({ s with pending := v } : State).host = s.host ∧
    ({ s with pending := v } : State).startUp = s.startUp :=
  ⟨rfl, rfl, rfl, rfl, rfl, rfl, rfl, rfl, rfl, rfl, rfl, rfl, rfl, rfl, rfl⟩

/-- The fields after an update of `localCount`. -/
@[simp] theorem State.setLocalCount_fields (s : State) (v : Nat) :
    ({ s with localCount := v } : State).pending = s.pending ∧
    ({ s with localCount := v } : State).localCount = v ∧
    ({ s with localCount := v } : State).line = s.line ∧
    ({ s with localCount := v } : State).tables = s.tables ∧
    ({ s with localCount := v } : State).member = s.member ∧
    ({ s with localCount := v } : State).follower = s.follower ∧
    ({ s with localCount := v } : State).ports = s.ports ∧
    ({ s with localCount := v } : State).store = s.store ∧
    ({ s with localCount := v } : State).mixer = s.mixer ∧
    ({ s with localCount := v } : State).announce = s.announce ∧
    ({ s with localCount := v } : State).blend = s.blend ∧
    ({ s with localCount := v } : State).call = s.call ∧
    ({ s with localCount := v } : State).note = s.note ∧
    ({ s with localCount := v } : State).host = s.host ∧
    ({ s with localCount := v } : State).startUp = s.startUp :=
  ⟨rfl, rfl, rfl, rfl, rfl, rfl, rfl, rfl, rfl, rfl, rfl, rfl, rfl, rfl, rfl⟩

/-- The fields after an update of `line`. -/
@[simp] theorem State.setLine_fields (s : State) (v : LineInterface) :
    ({ s with line := v } : State).pending = s.pending ∧
    ({ s with line := v } : State).localCount = s.localCount ∧
    ({ s with line := v } : State).line = v ∧
    ({ s with line := v } : State).tables = s.tables ∧
    ({ s with line := v } : State).member = s.member ∧
    ({ s with line := v } : State).follower = s.follower ∧
    ({ s with line := v } : State).ports = s.ports ∧
    ({ s with line := v } : State).store = s.store ∧
    ({ s with line := v } : State).mixer = s.mixer ∧
    ({ s with line := v } : State).announce = s.announce ∧
    ({ s with line := v } : State).blend = s.blend ∧
    ({ s with line := v } : State).call = s.call ∧
    ({ s with line := v } : State).note = s.note ∧
    ({ s with line := v } : State).host = s.host ∧
    ({ s with line := v } : State).startUp = s.startUp :=
  ⟨rfl, rfl, rfl, rfl, rfl, rfl, rfl, rfl, rfl, rfl, rfl, rfl, rfl, rfl, rfl⟩

/-- The fields after an update of `tables`. -/
@[simp] theorem State.setTables_fields (s : State) (v : LineTables) :
    ({ s with tables := v } : State).pending = s.pending ∧
    ({ s with tables := v } : State).localCount = s.localCount ∧
    ({ s with tables := v } : State).line = s.line ∧
    ({ s with tables := v } : State).tables = v ∧
    ({ s with tables := v } : State).member = s.member ∧
    ({ s with tables := v } : State).follower = s.follower ∧
    ({ s with tables := v } : State).ports = s.ports ∧
    ({ s with tables := v } : State).store = s.store ∧
    ({ s with tables := v } : State).mixer = s.mixer ∧
    ({ s with tables := v } : State).announce = s.announce ∧
    ({ s with tables := v } : State).blend = s.blend ∧
    ({ s with tables := v } : State).call = s.call ∧
    ({ s with tables := v } : State).note = s.note ∧
    ({ s with tables := v } : State).host = s.host ∧
    ({ s with tables := v } : State).startUp = s.startUp :=
  ⟨rfl, rfl, rfl, rfl, rfl, rfl, rfl, rfl, rfl, rfl, rfl, rfl, rfl, rfl, rfl⟩

/-- The fields after an update of `member`. -/
@[simp] theorem State.setMember_fields (s : State) (v : Membership) :
    ({ s with member := v } : State).pending = s.pending ∧
    ({ s with member := v } : State).localCount = s.localCount ∧
    ({ s with member := v } : State).line = s.line ∧
    ({ s with member := v } : State).tables = s.tables ∧
    ({ s with member := v } : State).member = v ∧
    ({ s with member := v } : State).follower = s.follower ∧
    ({ s with member := v } : State).ports = s.ports ∧
    ({ s with member := v } : State).store = s.store ∧
    ({ s with member := v } : State).mixer = s.mixer ∧
    ({ s with member := v } : State).announce = s.announce ∧
    ({ s with member := v } : State).blend = s.blend ∧
    ({ s with member := v } : State).call = s.call ∧
    ({ s with member := v } : State).note = s.note ∧
    ({ s with member := v } : State).host = s.host ∧
    ({ s with member := v } : State).startUp = s.startUp :=
  ⟨rfl, rfl, rfl, rfl, rfl, rfl, rfl, rfl, rfl, rfl, rfl, rfl, rfl, rfl, rfl⟩

/-- The fields after an update of `follower`. -/
@[simp] theorem State.setFollower_fields (s : State) (v : Follower) :
    ({ s with follower := v } : State).pending = s.pending ∧
    ({ s with follower := v } : State).localCount = s.localCount ∧
    ({ s with follower := v } : State).line = s.line ∧
    ({ s with follower := v } : State).tables = s.tables ∧
    ({ s with follower := v } : State).member = s.member ∧
    ({ s with follower := v } : State).follower = v ∧
    ({ s with follower := v } : State).ports = s.ports ∧
    ({ s with follower := v } : State).store = s.store ∧
    ({ s with follower := v } : State).mixer = s.mixer ∧
    ({ s with follower := v } : State).announce = s.announce ∧
    ({ s with follower := v } : State).blend = s.blend ∧
    ({ s with follower := v } : State).call = s.call ∧
    ({ s with follower := v } : State).note = s.note ∧
    ({ s with follower := v } : State).host = s.host ∧
    ({ s with follower := v } : State).startUp = s.startUp :=
  ⟨rfl, rfl, rfl, rfl, rfl, rfl, rfl, rfl, rfl, rfl, rfl, rfl, rfl, rfl, rfl⟩

/-- The fields after an update of `ports`. -/
@[simp] theorem State.setPorts_fields (s : State) (v : Ports) :
    ({ s with ports := v } : State).pending = s.pending ∧
    ({ s with ports := v } : State).localCount = s.localCount ∧
    ({ s with ports := v } : State).line = s.line ∧
    ({ s with ports := v } : State).tables = s.tables ∧
    ({ s with ports := v } : State).member = s.member ∧
    ({ s with ports := v } : State).follower = s.follower ∧
    ({ s with ports := v } : State).ports = v ∧
    ({ s with ports := v } : State).store = s.store ∧
    ({ s with ports := v } : State).mixer = s.mixer ∧
    ({ s with ports := v } : State).announce = s.announce ∧
    ({ s with ports := v } : State).blend = s.blend ∧
    ({ s with ports := v } : State).call = s.call ∧
    ({ s with ports := v } : State).note = s.note ∧
    ({ s with ports := v } : State).host = s.host ∧
    ({ s with ports := v } : State).startUp = s.startUp :=
  ⟨rfl, rfl, rfl, rfl, rfl, rfl, rfl, rfl, rfl, rfl, rfl, rfl, rfl, rfl, rfl⟩

/-- The fields after an update of `store`. -/
@[simp] theorem State.setStore_fields (s : State) (v : Store) :
    ({ s with store := v } : State).pending = s.pending ∧
    ({ s with store := v } : State).localCount = s.localCount ∧
    ({ s with store := v } : State).line = s.line ∧
    ({ s with store := v } : State).tables = s.tables ∧
    ({ s with store := v } : State).member = s.member ∧
    ({ s with store := v } : State).follower = s.follower ∧
    ({ s with store := v } : State).ports = s.ports ∧
    ({ s with store := v } : State).store = v ∧
    ({ s with store := v } : State).mixer = s.mixer ∧
    ({ s with store := v } : State).announce = s.announce ∧
    ({ s with store := v } : State).blend = s.blend ∧
    ({ s with store := v } : State).call = s.call ∧
    ({ s with store := v } : State).note = s.note ∧
    ({ s with store := v } : State).host = s.host ∧
    ({ s with store := v } : State).startUp = s.startUp :=
  ⟨rfl, rfl, rfl, rfl, rfl, rfl, rfl, rfl, rfl, rfl, rfl, rfl, rfl, rfl, rfl⟩

/-- The fields after an update of `mixer`. -/
@[simp] theorem State.setMixer_fields (s : State) (v : Mixer) :
    ({ s with mixer := v } : State).pending = s.pending ∧
    ({ s with mixer := v } : State).localCount = s.localCount ∧
    ({ s with mixer := v } : State).line = s.line ∧
    ({ s with mixer := v } : State).tables = s.tables ∧
    ({ s with mixer := v } : State).member = s.member ∧
    ({ s with mixer := v } : State).follower = s.follower ∧
    ({ s with mixer := v } : State).ports = s.ports ∧
    ({ s with mixer := v } : State).store = s.store ∧
    ({ s with mixer := v } : State).mixer = v ∧
    ({ s with mixer := v } : State).announce = s.announce ∧
    ({ s with mixer := v } : State).blend = s.blend ∧
    ({ s with mixer := v } : State).call = s.call ∧
    ({ s with mixer := v } : State).note = s.note ∧
    ({ s with mixer := v } : State).host = s.host ∧
    ({ s with mixer := v } : State).startUp = s.startUp :=
  ⟨rfl, rfl, rfl, rfl, rfl, rfl, rfl, rfl, rfl, rfl, rfl, rfl, rfl, rfl, rfl⟩

/-- The fields after an update of `announce`. -/
@[simp] theorem State.setAnnounce_fields (s : State) (v : Announce) :
    ({ s with announce := v } : State).pending = s.pending ∧
    ({ s with announce := v } : State).localCount = s.localCount ∧
    ({ s with announce := v } : State).line = s.line ∧
    ({ s with announce := v } : State).tables = s.tables ∧
    ({ s with announce := v } : State).member = s.member ∧
    ({ s with announce := v } : State).follower = s.follower ∧
    ({ s with announce := v } : State).ports = s.ports ∧
    ({ s with announce := v } : State).store = s.store ∧
    ({ s with announce := v } : State).mixer = s.mixer ∧
    ({ s with announce := v } : State).announce = v ∧
    ({ s with announce := v } : State).blend = s.blend ∧
    ({ s with announce := v } : State).call = s.call ∧
    ({ s with announce := v } : State).note = s.note ∧
    ({ s with announce := v } : State).host = s.host ∧
    ({ s with announce := v } : State).startUp = s.startUp :=
  ⟨rfl, rfl, rfl, rfl, rfl, rfl, rfl, rfl, rfl, rfl, rfl, rfl, rfl, rfl, rfl⟩

/-- The fields after an update of `blend`. -/
@[simp] theorem State.setBlend_fields (s : State) (v : Blend) :
    ({ s with blend := v } : State).pending = s.pending ∧
    ({ s with blend := v } : State).localCount = s.localCount ∧
    ({ s with blend := v } : State).line = s.line ∧
    ({ s with blend := v } : State).tables = s.tables ∧
    ({ s with blend := v } : State).member = s.member ∧
    ({ s with blend := v } : State).follower = s.follower ∧
    ({ s with blend := v } : State).ports = s.ports ∧
    ({ s with blend := v } : State).store = s.store ∧
    ({ s with blend := v } : State).mixer = s.mixer ∧
    ({ s with blend := v } : State).announce = s.announce ∧
    ({ s with blend := v } : State).blend = v ∧
    ({ s with blend := v } : State).call = s.call ∧
    ({ s with blend := v } : State).note = s.note ∧
    ({ s with blend := v } : State).host = s.host ∧
    ({ s with blend := v } : State).startUp = s.startUp :=
  ⟨rfl, rfl, rfl, rfl, rfl, rfl, rfl, rfl, rfl, rfl, rfl, rfl, rfl, rfl, rfl⟩

/-- The fields after an update of `call`. -/
@[simp] theorem State.setCall_fields (s : State) (v : CallUnit) :
    ({ s with call := v } : State).pending = s.pending ∧
    ({ s with call := v } : State).localCount = s.localCount ∧
    ({ s with call := v } : State).line = s.line ∧
    ({ s with call := v } : State).tables = s.tables ∧
    ({ s with call := v } : State).member = s.member ∧
    ({ s with call := v } : State).follower = s.follower ∧
    ({ s with call := v } : State).ports = s.ports ∧
    ({ s with call := v } : State).store = s.store ∧
    ({ s with call := v } : State).mixer = s.mixer ∧
    ({ s with call := v } : State).announce = s.announce ∧
    ({ s with call := v } : State).blend = s.blend ∧
    ({ s with call := v } : State).call = v ∧
    ({ s with call := v } : State).note = s.note ∧
    ({ s with call := v } : State).host = s.host ∧
    ({ s with call := v } : State).startUp = s.startUp :=
  ⟨rfl, rfl, rfl, rfl, rfl, rfl, rfl, rfl, rfl, rfl, rfl, rfl, rfl, rfl, rfl⟩

/-- The fields after an update of `note`. -/
@[simp] theorem State.setNote_fields (s : State) (v : NoteUnit) :
    ({ s with note := v } : State).pending = s.pending ∧
    ({ s with note := v } : State).localCount = s.localCount ∧
    ({ s with note := v } : State).line = s.line ∧
    ({ s with note := v } : State).tables = s.tables ∧
    ({ s with note := v } : State).member = s.member ∧
    ({ s with note := v } : State).follower = s.follower ∧
    ({ s with note := v } : State).ports = s.ports ∧
    ({ s with note := v } : State).store = s.store ∧
    ({ s with note := v } : State).mixer = s.mixer ∧
    ({ s with note := v } : State).announce = s.announce ∧
    ({ s with note := v } : State).blend = s.blend ∧
    ({ s with note := v } : State).call = s.call ∧
    ({ s with note := v } : State).note = v ∧
    ({ s with note := v } : State).host = s.host ∧
    ({ s with note := v } : State).startUp = s.startUp :=
  ⟨rfl, rfl, rfl, rfl, rfl, rfl, rfl, rfl, rfl, rfl, rfl, rfl, rfl, rfl, rfl⟩

/-- The fields after an update of `host`. -/
@[simp] theorem State.setHost_fields (s : State) (v : HostPort) :
    ({ s with host := v } : State).pending = s.pending ∧
    ({ s with host := v } : State).localCount = s.localCount ∧
    ({ s with host := v } : State).line = s.line ∧
    ({ s with host := v } : State).tables = s.tables ∧
    ({ s with host := v } : State).member = s.member ∧
    ({ s with host := v } : State).follower = s.follower ∧
    ({ s with host := v } : State).ports = s.ports ∧
    ({ s with host := v } : State).store = s.store ∧
    ({ s with host := v } : State).mixer = s.mixer ∧
    ({ s with host := v } : State).announce = s.announce ∧
    ({ s with host := v } : State).blend = s.blend ∧
    ({ s with host := v } : State).call = s.call ∧
    ({ s with host := v } : State).note = s.note ∧
    ({ s with host := v } : State).host = v ∧
    ({ s with host := v } : State).startUp = s.startUp :=
  ⟨rfl, rfl, rfl, rfl, rfl, rfl, rfl, rfl, rfl, rfl, rfl, rfl, rfl, rfl, rfl⟩

/-- The fields after an update of `startUp`. -/
@[simp] theorem State.setStartUp_fields (s : State) (v : StartUp) :
    ({ s with startUp := v } : State).pending = s.pending ∧
    ({ s with startUp := v } : State).localCount = s.localCount ∧
    ({ s with startUp := v } : State).line = s.line ∧
    ({ s with startUp := v } : State).tables = s.tables ∧
    ({ s with startUp := v } : State).member = s.member ∧
    ({ s with startUp := v } : State).follower = s.follower ∧
    ({ s with startUp := v } : State).ports = s.ports ∧
    ({ s with startUp := v } : State).store = s.store ∧
    ({ s with startUp := v } : State).mixer = s.mixer ∧
    ({ s with startUp := v } : State).announce = s.announce ∧
    ({ s with startUp := v } : State).blend = s.blend ∧
    ({ s with startUp := v } : State).call = s.call ∧
    ({ s with startUp := v } : State).note = s.note ∧
    ({ s with startUp := v } : State).host = s.host ∧
    ({ s with startUp := v } : State).startUp = v :=
  ⟨rfl, rfl, rfl, rfl, rfl, rfl, rfl, rfl, rfl, rfl, rfl, rfl, rfl, rfl, rfl⟩

/-- The fields after another queue is put in place. -/
@[simp] theorem State.withPending_fields (s : State) (queue : List Instr) :
    (s.withPending queue).pending = queue ∧
    (s.withPending queue).localCount = s.localCount ∧
    (s.withPending queue).line = s.line ∧
    (s.withPending queue).tables = s.tables ∧
    (s.withPending queue).member = s.member ∧
    (s.withPending queue).follower = s.follower ∧
    (s.withPending queue).ports = s.ports ∧
    (s.withPending queue).store = s.store ∧
    (s.withPending queue).mixer = s.mixer ∧
    (s.withPending queue).announce = s.announce ∧
    (s.withPending queue).blend = s.blend ∧
    (s.withPending queue).call = s.call ∧
    (s.withPending queue).note = s.note ∧
    (s.withPending queue).host = s.host ∧
    (s.withPending queue).startUp = s.startUp :=
  ⟨rfl, rfl, rfl, rfl, rfl, rfl, rfl, rfl, rfl, rfl, rfl, rfl, rfl, rfl, rfl⟩

end Sys2Proof.Machine
end

