-- ==== Sys2Proof/Laws/StoreFrames.lean ====
section
/-! SUPPORT. Requests of the sample store: their arrival, their gaps, the store frame boundary, and what the loader and the end of
a burst make of the queues (R80, R83 to R85, R93). -/

namespace Sys2Proof.Machine

set_option maxRecDepth 20000
set_option linter.unusedVariables false
set_option linter.unusedSimpArgs false

/-! ## Gaps (R93) -/

theorem settleEchoRead_call (s : State) (ring group : Nat) (part : Part) :
    ∃ c, s.settleEchoRead ring group part = { s with call := c } := by
  unfold State.settleEchoRead
  split
  · exact ⟨_, rfl⟩
  · exact ⟨s.call, rfl⟩

/-- A request that ends as a gap is a gap of its client. -/
theorem endRequest_gapOf (s : State) (r : Request) (c : Cause) : s.gapOf (s.endRequest r (.gap c)) r c := by
  unfold State.gapOf State.endRequest
  dsimp only
  rw [raise_eq]
  unfold State.takeGap State.eventRaised
  cases r.purpose <;> dsimp only
  case echoWrite => exact ⟨rfl, rfl, rfl, rfl, rfl⟩
  case echoRead ring group =>
    obtain ⟨x, e⟩ := settleEchoRead_call ({ s with
      store := { s.store with gaps := s.store.gaps.modify (clientCode r.queue.client) (fun n => min 65535 (n + 1)) }
      host := s.eventRaised .storeGap [clientCode r.queue.client, accessCode r.access] (some c) } : State) ring group .silent
    unfold State.eventRaised at e
    erw [e]
    exact ⟨rfl, rfl, rfl, rfl, rfl⟩
  all_goals exact ⟨rfl, rfl, rfl⟩

theorem gapOf_sees {s u : State} {r : Request} {c : Cause} (h : s.gapOf u r c) : u.hasHost = s.hasHost ∧ u.tables = s.tables := by
  obtain ⟨_, _, h⟩ := h
  cases hp : r.purpose <;> rw [hp] at h <;> dsimp only at h
  case echoWrite | echoRead => rw [h.1]; exact ⟨rfl, rfl⟩
  all_goals rw [h]; exact ⟨rfl, rfl⟩

/-- A run of gaps: the counts rise one by one, and the store changes in nothing else. -/
theorem gaps_store (c : Cause) : ∀ (l : List Request) (s : State),
    (l.foldl (fun acc r => acc.endRequest r (.gap c)) s).store = { s.store with gaps := l.foldl countGap s.store.gaps }
  | [], s => rfl
  | r :: l, s => by
    rw [List.foldl_cons, gaps_store c l, (endRequest_gapOf s r c).1]
    rfl

theorem addEvent_length (r : EventRecord) (l : List EventRecord) : (addEvent r l).length ≤ l.length + 1 := by
  unfold addEvent
  split
  · simp
  · split <;> simp

theorem eventRaised_length (s : State) (k : EventKind) (l : List Nat) (c : Option Cause) :
    (s.eventRaised k l c).events.length ≤ s.host.events.length + 1 := by
  unfold State.eventRaised
  split
  · exact addEvent_length _ _
  · omega

theorem addEvent_mem (r : EventRecord) (l : List EventRecord) (h : l.length < 31) :
    r ∈ addEvent r l ∧ ∀ e, e ∈ l → e ∈ addEvent r l := by
  unfold addEvent
  rw [if_pos h]
  exact ⟨by simp, fun e k => by simp [k]⟩

theorem eventRaised_mem (s : State) (k : EventKind) (l : List Nat) (c : Option Cause) (h : s.host.events.length < 31) :
    ∀ e, e ∈ s.host.events → e ∈ (s.eventRaised k l c).events := by
  unfold State.eventRaised
  split
  · exact fun e m => (addEvent_mem _ _ h).2 e m
  · exact fun e m => m

/-- A run of gaps lists STORE_GAP for each of them where the event list has room for all. -/
theorem gaps_events (c : Cause) : ∀ (l : List Request) (s : State), s.hasHost = true → s.host.events.length + l.length ≤ 31 →
    let u := l.foldl (fun acc r => acc.endRequest r (.gap c)) s
    u.tables = s.tables ∧ (∀ e, e ∈ s.host.events → e ∈ u.host.events)
      ∧ ∀ r, r ∈ l → { kind := .storeGap, subject := [clientCode r.queue.client, accessCode r.access], cause := some c,
                       stamp := s.tables.frameCount.setWidth 16 } ∈ u.host.events
  | [], s, _, _ => ⟨rfl, fun _ k => k, fun r k => by simp at k⟩
  | r :: l, s, hh, hn => by
    dsimp only
    rw [List.foldl_cons]
    have g := endRequest_gapOf s r c
    obtain ⟨g1, g2⟩ := gapOf_sees g
    simp only [List.length_cons] at hn
    have len := eventRaised_length s .storeGap [clientCode r.queue.client, accessCode r.access] (some c)
    have keep := eventRaised_mem s .storeGap [clientCode r.queue.client, accessCode r.access] (some c) (by omega)
    have I := gaps_events c l (s.endRequest r (.gap c)) (g1.trans hh) (by rw [g.2.1]; omega)
    dsimp only at I
    generalize l.foldl (fun acc r => acc.endRequest r (RequestEnd.gap c)) (s.endRequest r (.gap c)) = u at I ⊢
    rw [g2, g.2.1] at I
    obtain ⟨i1, i2, i3⟩ := I
    refine ⟨i1, fun e k => i2 e (keep e k), ?_⟩
    intro x hx
    rcases List.mem_cons.1 hx with rfl | hx
    · refine i2 _ ?_
      unfold State.eventRaised
      rw [if_pos hh]
      exact (addEvent_mem _ _ (by omega)).1
    · exact i3 x hx

/-! ## Arrivals (R83, R85) -/

theorem onQueue_queue (st : Store) (q p : QueueId) (f : List Request → List Request) (h : st.queues.length = 5) :
    (st.onQueue q f).queue p = if p = q then f (st.queue q) else st.queue p := by
  unfold Store.onQueue Store.queue
  have : q.place < st.queues.length := by rw [h]; cases q <;> decide
  by_cases e : p = q
  · subst e
    rw [if_pos rfl]
    simp [List.getD_eq_getElem?_getD, List.getElem?_modify, this]
  · have hne : q.place ≠ p.place := by intro k; apply e; cases q <;> cases p <;> first | rfl | (simp [QueueId.place] at k)
    rw [if_neg e]
    simp [List.getD_eq_getElem?_getD, List.getElem?_modify, hne]

theorem arrivalGap_eq (st : Store) (r : Request) : st.arrivalGap r =
    if 4 ≤ (st.queue r.queue).length then some .queueFull else if r.reached st.frames = true then some .deadline else none := by
  unfold Store.arrivalGap Request.reached deadlineReached
  split
  · rfl
  · cases r.deadline <;> simp

/-- A request that is no gap stands last in its queue, where the arbiter acts if it is the head. -/
theorem request_queued (s : State) (r : Request) (hs : s.store.spaceOf r.queue.client ≠ 0)
    (h1 : (s.store.queue r.queue).length < 4) (h2 : r.reached s.store.frames = false) :
    let m := s.store.onQueue r.queue (fun q => q ++ [r])
    s.request r = { s with store := if s.store.queue r.queue = [] then m.arbitrate else m } := by
  unfold State.request
  rw [arrivalGap_eq, if_neg hs, if_neg (by omega), if_neg (by rw [h2]; simp)]
  dsimp only
  unfold Store.enqueue
  simp only [List.isEmpty_iff]

/-- Everything an arriving request can do. -/
theorem request_cases (s : State) (r : Request) (h : s.store.queues.length = 5) :
    (s.store.spaceOf r.queue.client = 0 → s.request r = s)
    ∧ (s.store.spaceOf r.queue.client ≠ 0 →
      (4 ≤ (s.store.queue r.queue).length → s.gapOf (s.request r) r .queueFull)
      ∧ ((s.store.queue r.queue).length < 4 → r.reached s.store.frames = true → s.gapOf (s.request r) r .deadline)
      ∧ ((s.store.queue r.queue).length < 4 → r.reached s.store.frames = false → ∃ m : Store,
          m = { s.store with queues := m.queues } ∧ m.queue r.queue = s.store.queue r.queue ++ [r]
          ∧ (∀ q, q ≠ r.queue → m.queue q = s.store.queue q)
          ∧ s.request r = { s with store := if s.store.queue r.queue = [] then m.arbitrate else m })) := by
  refine ⟨fun k => by unfold State.request; rw [if_pos k], fun k => ⟨?_, ?_, ?_⟩⟩
  · intro h1
    unfold State.request
    rw [arrivalGap_eq, if_neg k, if_pos h1]
    exact endRequest_gapOf s r _
  · intro h1 h2
    unfold State.request
    rw [arrivalGap_eq, if_neg k, if_neg (by omega), if_pos h2]
    exact endRequest_gapOf s r _
  · intro h1 h2
    exact ⟨s.store.onQueue r.queue (fun q => q ++ [r]), rfl, by rw [onQueue_queue _ _ _ _ h, if_pos rfl],
      fun q hq => by rw [onQueue_queue _ _ _ _ h, if_neg hq], request_queued s r k h1 h2⟩

/-! ## The store frame boundary (R84, R85) -/

theorem overdue_reached (st : Store) (r : Request) : st.overdue? r = r.reached st.frames := by
  unfold Store.overdue? Request.reached deadlineReached
  cases r.deadline <;> rfl

theorem withdrawn_eq (st : Store) : st.newFrame.withdrawn = st.lapsed := by
  unfold Store.withdrawn Store.lapsed Store.unbegun
  have : st.newFrame.overdue? = fun r => r.reached (st.frames + 1) := by funext r; rw [overdue_reached]; rfl
  rw [this]
  rfl

theorem withdraw_queue (st : Store) (q : QueueId) : st.withdraw.queue q = st.afterWithdrawal q := by
  unfold Store.withdraw Store.queue allQueues
  cases q <;> rfl

/-- What a store frame boundary makes of the store. -/
theorem storeBoundary_store (s : State) : ∃ m, s.store.boundary m ∧ s.storeBoundary.store = m.arbitrate := by
  unfold State.storeBoundary
  dsimp only
  rw [gaps_store, withdrawn_eq]
  refine ⟨_, ⟨rfl, rfl, ?_⟩, rfl⟩
  intro q
  show (_ → s.store.newFrame.withdraw.queue q = _) ∧ ∀ r rest, _ → _ → s.store.newFrame.withdraw.queue q = _
  rw [withdraw_queue]
  unfold Store.afterWithdrawal Store.unbegun
  have e1 : s.store.newFrame.inFlight q = s.store.inFlight q := rfl
  have e2 : s.store.newFrame.queue q = s.store.queue q := rfl
  have e3 : s.store.newFrame.overdue? = fun r => r.reached (s.store.frames + 1) := by funext r; rw [overdue_reached]; rfl
  rw [e1, e2, e3]
  constructor
  · intro h; rw [h]; rfl
  · intro r rest h k
    rw [h, k]; rfl

/-- The gaps of a store frame boundary are listed where the event list has room for all. -/
theorem storeBoundary_events (s : State) (hh : s.hasHost = true) (hn : s.host.events.length + s.store.lapsed.length ≤ 31) :
    ∀ r, r ∈ s.store.lapsed → { kind := .storeGap, subject := [clientCode r.queue.client, accessCode r.access],
                                cause := some .deadline, stamp := s.tables.frameCount.setWidth 16 }
      ∈ s.storeBoundary.host.events := by
  intro r hr
  unfold State.storeBoundary
  dsimp only
  rw [withdrawn_eq]
  exact (gaps_events .deadline s.store.lapsed { s with store := s.store.newFrame.withdraw } hh hn).2.2 r hr

/-! ## The loader and the end of a burst (R80, R85, R120) -/

/-- What the loader leaves of everything but the announce unit: it adds to the loading queue alone, and makes no gap. -/
structure Loaded (s u : State) : Prop where
  outside : u = { s with store := u.store, announce := u.announce }
  gaps : u.store.gaps = s.store.gaps
  regions : u.store.regions = s.store.regions
  queues : u.store.queues.length = s.store.queues.length
  plays : u.announce.plays = s.announce.plays
  others : ∀ q, q ≠ .loading → u.store.queue q = s.store.queue q
  more : ∃ l, u.store.queue .loading = s.store.queue .loading ++ l
  closing : ∀ b, (s.store.bank b).state = .closing → (u.store.bank b).state = .closing

theorem Loaded.refl (s : State) : Loaded s s :=
  ⟨rfl, rfl, rfl, rfl, rfl, fun _ _ => rfl, ⟨[], by simp⟩, fun _ h => h⟩

theorem Loaded.trans {s u v : State} (h : Loaded s u) (k : Loaded u v) : Loaded s v := by
  obtain ⟨l, hl⟩ := h.more
  obtain ⟨l', hl'⟩ := k.more
  refine ⟨?_, k.gaps.trans h.gaps, k.regions.trans h.regions, k.queues.trans h.queues, k.plays.trans h.plays,
    fun q n => (k.others q n).trans (h.others q n), ⟨l ++ l', by rw [hl', hl, List.append_assoc]⟩, fun b e => k.closing b (h.closing b e)⟩
  rw [k.outside, h.outside]

theorem arbitrate_closing (st : Store) (b : Nat) (h : (st.bank b).state = .closing) : (st.arbitrate.bank b).state = .closing := by
  obtain ⟨a, e, A⟩ := arbitrate_of st
  rw [← e]
  by_cases hb : b ∈ a.2
  · rcases A.may b hb with ⟨h1, _⟩ | ⟨⟨r, h1⟩, _⟩ <;> rw [h] at h1 <;> cases h1
  · rw [A.fresh b hb]; exact h

theorem arbitrate_queue (st : Store) (q : QueueId) : st.arbitrate.queue q = st.queue q := by
  obtain ⟨a, e, A⟩ := arbitrate_of st
  rw [← e]
  unfold Store.queue
  rw [A.queues]

theorem arbitrate_loaded (st : Store) :
    st.arbitrate.gaps = st.gaps ∧ st.arbitrate.regions = st.regions ∧ st.arbitrate.queues = st.queues := by
  obtain ⟨a, e, A⟩ := arbitrate_of st
  exact ⟨by rw [← e, A.gaps], by simp, by rw [← e, A.queues]⟩

/-- A loading request that finds room in its queue. -/
theorem request_loaded (s : State) (r : Request) (h : s.store.queues.length = 5) (hq : r.queue = .loading) (hd : r.deadline = none)
    (hr : (s.store.queue .loading).length < 4) : Loaded s (s.request r) := by
  by_cases k : s.store.spaceOf r.queue.client = 0
  · rw [(request_cases s r h).1 k]; exact Loaded.refl s
  · rw [request_queued s r k (by rw [hq]; exact hr) (by unfold Request.reached; rw [hd])]
    rw [hq]
    have base : Loaded s { s with store := s.store.onQueue .loading (fun q => q ++ [r]) } :=
      ⟨rfl, rfl, rfl, by simp [Store.onQueue], rfl, fun q n => by rw [onQueue_queue _ _ _ _ h, if_neg n],
        ⟨[r], by rw [onQueue_queue _ _ _ _ h, if_pos rfl]⟩, fun _ k => k⟩
    generalize s.store.onQueue .loading (fun q => q ++ [r]) = m at base ⊢
    split
    · obtain ⟨a1, a2, a3⟩ := arbitrate_loaded m
      exact ⟨rfl, a1.trans base.gaps, a2.trans base.regions, by rw [← base.queues]; exact congrArg _ a3, rfl,
        fun q n => (arbitrate_queue m q).trans (base.others q n), by
          obtain ⟨l, e⟩ := base.more
          exact ⟨l, (arbitrate_queue m _).trans e⟩, fun b k => arbitrate_closing m b (base.closing b k)⟩
    · exact base

theorem loadOne_loaded (s : State) (h : s.store.queues.length = 5) : Loaded s s.loadOne := by
  unfold State.loadOne
  split
  · exact Loaded.refl s
  · dsimp only
    split
    · next hc =>
      refine Loaded.trans (u := { s with announce := _ }) ?_ (request_loaded _ _ h rfl rfl hc.2.2.2)
      exact ⟨rfl, rfl, rfl, rfl, rfl, fun _ _ => rfl, ⟨[], by simp⟩, fun _ k => k⟩
    · exact Loaded.refl s

/-- What the loader does. -/
theorem feedLoader_loaded (s : State) (h : s.store.queues.length = 5) : Loaded s s.feedLoader := by
  have a := loadOne_loaded s h
  have b := loadOne_loaded s.loadOne (a.queues.trans h)
  have ab := a.trans b
  have c := loadOne_loaded s.loadOne.loadOne (ab.queues.trans h)
  have abc := ab.trans c
  exact abc.trans (loadOne_loaded s.loadOne.loadOne.loadOne (abc.queues.trans h))

end Sys2Proof.Machine
end

