-- ==== Sys2Proof/Laws/StoreSized.lean ====
section
/-! SUPPORT. Every operation keeps the sizes of the banks and queues of the store. -/

namespace Sys2Proof.Machine

set_option maxRecDepth 20000
set_option linter.unusedSimpArgs false
set_option linter.unusedVariables false

@[simp] theorem State.endRequest_storeSized (s : State) (r : Request) (e : RequestEnd)
    (h : StoreSized s.store) : StoreSized (State.endRequest s r e).store := by
  unfold State.endRequest; (try dsimp only); (repeat' split) <;>
    first | (simp (maxDischargeDepth := 12) +contextual [h]; done) | (simp_all (maxDischargeDepth := 12); done)
@[simp] theorem State.request_storeSized (s : State) (r : Request)
    (h : StoreSized s.store) : StoreSized (State.request s r).store := by
  unfold State.request; (try dsimp only); (repeat' split) <;>
    first | (simp (maxDischargeDepth := 12) +contextual [h]; done) | (simp_all (maxDischargeDepth := 12); done)
@[simp] theorem State.loadOne_storeSized (s : State)
    (h : StoreSized s.store) : StoreSized (State.loadOne s).store := by
  unfold State.loadOne; (try dsimp only); (repeat' split) <;>
    first | (simp (maxDischargeDepth := 12) +contextual [h]; done) | (simp_all (maxDischargeDepth := 12); done)
@[simp] theorem State.feedLoader_storeSized (s : State)
    (h : StoreSized s.store) : StoreSized (State.feedLoader s).store := by
  unfold State.feedLoader; (try dsimp only); (repeat' split) <;>
    first | (simp (maxDischargeDepth := 12) +contextual [h]; done) | (simp_all (maxDischargeDepth := 12); done)
@[simp] theorem State.storeBoundary_storeSized (s : State)
    (h : StoreSized s.store) : StoreSized (State.storeBoundary s).store := by
  unfold State.storeBoundary; (try dsimp only); (repeat' split) <;>
    first | (simp (maxDischargeDepth := 12) +contextual [h]; done) | (simp_all (maxDischargeDepth := 12); done)
@[simp] theorem State.burstComplete_storeSized (s : State) (bank : Nat)
    (h : StoreSized s.store) : StoreSized (State.burstComplete s bank).store := by
  unfold State.burstComplete
  have hb := completeBurst_sized s.store bank h
  split
  · next e => rw [e] at hb; exact hb
  · next e => rw [e] at hb; simp at hb; simp (maxDischargeDepth := 12) [hb]
@[simp] theorem State.start_storeSized (s : State) (emitted inWindow : Bool)
    (h : StoreSized s.store) : StoreSized (State.start s emitted inWindow).store := by
  unfold State.start; (try dsimp only); (repeat' split) <;>
    first | (simp (maxDischargeDepth := 12) +contextual [h]; done) | (simp_all (maxDischargeDepth := 12); done)
@[simp] theorem State.missStart_storeSized (s : State)
    (h : StoreSized s.store) : StoreSized (State.missStart s).store := by
  unfold State.missStart; (try dsimp only); (repeat' split) <;>
    first | (simp (maxDischargeDepth := 12) +contextual [h]; done) | (simp_all (maxDischargeDepth := 12); done)
@[simp] theorem State.leadStart_storeSized (s : State)
    (h : StoreSized s.store) : StoreSized (State.leadStart s).store := by
  unfold State.leadStart; (try dsimp only); (repeat' split) <;>
    first | (simp (maxDischargeDepth := 12) +contextual [h]; done) | (simp_all (maxDischargeDepth := 12); done)
@[simp] theorem State.expireTimer_storeSized (s : State)
    (h : StoreSized s.store) : StoreSized (State.expireTimer s).store := by
  unfold State.expireTimer; (try dsimp only); (repeat' split) <;>
    first | (simp (maxDischargeDepth := 12) +contextual [h]; done) | (simp_all (maxDischargeDepth := 12); done)
@[simp] theorem State.missFurther_storeSized (s : State)
    (h : StoreSized s.store) : StoreSized (State.missFurther s).store := by
  unfold State.missFurther; (try dsimp only); (repeat' split) <;>
    first | (simp (maxDischargeDepth := 12) +contextual [h]; done) | (simp_all (maxDischargeDepth := 12); done)
@[simp] theorem State.keepUpStart_storeSized (s : State)
    (h : StoreSized s.store) : StoreSized (State.keepUpStart s).store := by
  unfold State.keepUpStart; (try dsimp only); (repeat' split) <;>
    first | (simp (maxDischargeDepth := 12) +contextual [h]; done) | (simp_all (maxDischargeDepth := 12); done)
@[simp] theorem State.alignBurst_storeSized (s : State) (access : Access) (pair group : Nat) (right : Bool) (data : List (Nat × Sample)) (purpose : Purpose)
    (h : StoreSized s.store) : StoreSized (State.alignBurst s access pair group right data purpose).store := by
  unfold State.alignBurst; (try dsimp only); (repeat' split) <;>
    first | (simp (maxDischargeDepth := 12) +contextual [h]; done) | (simp_all (maxDischargeDepth := 12); done)
@[simp] theorem State.alignWrites_storeSized (s : State) (pair : Nat)
    (h : StoreSized s.store) : StoreSized (State.alignWrites s pair).store := by
  unfold State.alignWrites; (try dsimp only); (repeat' split) <;>
    first | (simp (maxDischargeDepth := 12) +contextual [h]; done) | (simp_all (maxDischargeDepth := 12); done)
@[simp] theorem State.alignReads_storeSized (s : State) (pair delay : Nat)
    (h : StoreSized s.store) : StoreSized (State.alignReads s pair delay).store := by
  unfold State.alignReads; (try dsimp only); (repeat' split) <;>
    first | (simp (maxDischargeDepth := 12) +contextual [h]; done) | (simp_all (maxDischargeDepth := 12); done)
@[simp] theorem State.alignTurn_storeSized (s : State)
    (h : StoreSized s.store) : StoreSized (State.alignTurn s).store := by
  unfold State.alignTurn; (try dsimp only); (repeat' split) <;>
    first | (simp (maxDischargeDepth := 12) +contextual [h]; done) | (simp_all (maxDischargeDepth := 12); done)
@[simp] theorem State.playPairs_storeSized (s : State)
    (h : StoreSized s.store) : StoreSized (State.playPairs s).store := by
  unfold State.playPairs; (try dsimp only); (repeat' split) <;>
    first | (simp (maxDischargeDepth := 12) +contextual [h]; done) | (simp_all (maxDischargeDepth := 12); done)
@[simp] theorem State.requestGroup_storeSized (s : State) (place : Nat) (offset repetition group due : Nat)
    (h : StoreSized s.store) : StoreSized (State.requestGroup s place offset repetition group due).store := by
  unfold State.requestGroup; (try dsimp only); (repeat' split) <;>
    first | (simp (maxDischargeDepth := 12) +contextual [h]; done) | (simp_all (maxDischargeDepth := 12); done)
@[simp] theorem State.requestGroups_storeSized (s : State) (place : Nat)
    (h : StoreSized s.store) : StoreSized (State.requestGroups s place).store := by
  unfold State.requestGroups; (try dsimp only); (repeat' split) <;>
    first | (simp (maxDischargeDepth := 12) +contextual [h]; done) | (simp_all (maxDischargeDepth := 12); done)
@[simp] theorem State.announceSample_storeSized (s : State)
    (h : StoreSized s.store) : StoreSized (State.announceSample s).store := by
  unfold State.announceSample; (try dsimp only); (repeat' split) <;>
    first | (simp (maxDischargeDepth := 12) +contextual [h]; done) | (simp_all (maxDischargeDepth := 12); done)
theorem State.startPlay_storeSized (s : State) (clip level repeats : Nat) (starter : Starter) (x : Nat × State)
    (e : s.startPlay clip level repeats starter = some x) (h : StoreSized s.store) : StoreSized x.2.store := by
  unfold State.startPlay at e
  split at e
  · split at e
    · simp at e
    · simp only [Option.some.injEq] at e; subst e; simp (maxDischargeDepth := 12) [h]
  · simp at e
@[simp] theorem State.fire_storeSized (s : State) (c : Nat)
    (h : StoreSized s.store) : StoreSized (State.fire s c).store := by
  unfold State.fire; (try dsimp only); (repeat' split) <;>
    first | (with_reducible exact h) | (simp (maxDischargeDepth := 12) [h]; done) | (rename_i e; have := State.startPlay_storeSized _ _ _ _ _ _ e; simp (maxDischargeDepth := 12) [h] at this; simp_all; done)
@[simp] theorem State.fireFollowers_storeSized (s : State) (leader : Nat)
    (h : StoreSized s.store) : StoreSized (State.fireFollowers s leader).store := by
  unfold State.fireFollowers; (try dsimp only); (repeat' split) <;>
    first | (simp (maxDischargeDepth := 12) +contextual [h]; done) | (simp_all (maxDischargeDepth := 12); done)
@[simp] theorem State.cadenceExpiry_storeSized (s : State) (c : Nat)
    (h : StoreSized s.store) : StoreSized (State.cadenceExpiry s c).store := by
  unfold State.cadenceExpiry; (try dsimp only); (repeat' split) <;>
    first | (simp (maxDischargeDepth := 12) +contextual [h]; done) | (simp_all (maxDischargeDepth := 12); done)
@[simp] theorem State.cadencePass_storeSized (s : State)
    (h : StoreSized s.store) : StoreSized (State.cadencePass s).store := by
  unfold State.cadencePass; (try dsimp only); (repeat' split) <;>
    first | (simp (maxDischargeDepth := 12) +contextual [h]; done) | (simp_all (maxDischargeDepth := 12); done)
@[simp] theorem State.cadenceStart_storeSized (s : State) (c : Nat)
    (h : StoreSized s.store) : StoreSized (State.cadenceStart s c).1.store := by
  unfold State.cadenceStart; (try dsimp only); (repeat' split) <;>
    first | (simp (maxDischargeDepth := 12) +contextual [h]; done) | (simp_all (maxDischargeDepth := 12); done)
@[simp] theorem State.blendBurst_storeSized (s : State) (access : Access) (group : Nat) (right : Bool) (data : List (Nat × Sample)) (purpose : Purpose)
    (h : StoreSized s.store) : StoreSized (State.blendBurst s access group right data purpose).store := by
  unfold State.blendBurst; (try dsimp only); (repeat' split) <;>
    first | (simp (maxDischargeDepth := 12) +contextual [h]; done) | (simp_all (maxDischargeDepth := 12); done)
@[simp] theorem State.blendWrites_storeSized (s : State)
    (h : StoreSized s.store) : StoreSized (State.blendWrites s).store := by
  unfold State.blendWrites; (try dsimp only); (repeat' split) <;>
    first | (simp (maxDischargeDepth := 12) +contextual [h]; done) | (simp_all (maxDischargeDepth := 12); done)
@[simp] theorem State.blendReads_storeSized (s : State) (tap : Nat) (groups : List Nat)
    (h : StoreSized s.store) : StoreSized (State.blendReads s tap groups).store := by
  unfold State.blendReads; (try dsimp only); (repeat' split) <;>
    first | (simp (maxDischargeDepth := 12) +contextual [h]; done) | (simp_all (maxDischargeDepth := 12); done)
@[simp] theorem State.blendTurn_storeSized (s : State)
    (h : StoreSized s.store) : StoreSized (State.blendTurn s).store := by
  unfold State.blendTurn; (try dsimp only); (repeat' split) <;>
    first | (simp (maxDischargeDepth := 12) +contextual [h]; done) | (simp_all (maxDischargeDepth := 12); done)
@[simp] theorem State.blendSample_storeSized (s : State)
    (h : StoreSized s.store) : StoreSized (State.blendSample s).store := by
  unfold State.blendSample; (try dsimp only); (repeat' split) <;>
    first | (simp (maxDischargeDepth := 12) +contextual [h]; done) | (simp_all (maxDischargeDepth := 12); done)
@[simp] theorem State.echoWrite_storeSized (s : State)
    (h : StoreSized s.store) : StoreSized (State.echoWrite s).store := by
  unfold State.echoWrite; (try dsimp only); (repeat' split) <;>
    first | (simp (maxDischargeDepth := 12) +contextual [h]; done) | (simp_all (maxDischargeDepth := 12); done)
@[simp] theorem State.echoReads_storeSized (s : State)
    (h : StoreSized s.store) : StoreSized (State.echoReads s).store := by
  unfold State.echoReads; (try dsimp only); (repeat' split) <;>
    first | (simp (maxDischargeDepth := 12) +contextual [h]; done) | (simp_all (maxDischargeDepth := 12); done)
@[simp] theorem State.echoTurn_storeSized (s : State)
    (h : StoreSized s.store) : StoreSized (State.echoTurn s).store := by
  unfold State.echoTurn; (try dsimp only); (repeat' split) <;>
    first | (simp (maxDischargeDepth := 12) +contextual [h]; done) | (simp_all (maxDischargeDepth := 12); done)
@[simp] theorem State.callSample_storeSized (s : State)
    (h : StoreSized s.store) : StoreSized (State.callSample s).store := by
  unfold State.callSample; (try dsimp only); (repeat' split) <;>
    first | (simp (maxDischargeDepth := 12) +contextual [h]; done) | (simp_all (maxDischargeDepth := 12); done)
@[simp] theorem State.localSample_storeSized (s : State) (i : InputSamples)
    (h : StoreSized s.store) : StoreSized (State.localSample s i).store := by
  unfold State.localSample; (try dsimp only); (repeat' split) <;>
    first | (simp (maxDischargeDepth := 12) +contextual [h]; done) | (simp_all (maxDischargeDepth := 12); done)
@[simp] theorem State.refreshDebtRise_storeSized (s : State)
    (h : StoreSized s.store) : StoreSized (State.refreshDebtRise s).store := by
  unfold State.refreshDebtRise; (try dsimp only); (repeat' split) <;>
    first | (simp (maxDischargeDepth := 12) +contextual [h]; done) | (simp_all (maxDischargeDepth := 12); done)
@[simp] theorem State.setUp_storeSized (s : State) (r : StartUpRecord)
    (h : StoreSized s.store) : StoreSized (State.setUp s r).store := by
  unfold State.setUp; (try dsimp only); (repeat' split) <;>
    first | (simp (maxDischargeDepth := 12) +contextual [h]; done) | (simp_all (maxDischargeDepth := 12); done)
@[simp] theorem State.recordRead_storeSized (s : State) (read : RecordRead)
    (h : StoreSized s.store) : StoreSized (State.recordRead s read).store := by
  unfold State.recordRead; (try dsimp only); (repeat' split) <;>
    first | (simp (maxDischargeDepth := 12) +contextual [h]; done) | (simp_all (maxDischargeDepth := 12); done)
@[simp] theorem State.assertPin_storeSized (s : State)
    (h : StoreSized s.store) : StoreSized (State.assertPin s).store := by
  unfold State.assertPin; (try dsimp only); (repeat' split) <;>
    first | (simp (maxDischargeDepth := 12) +contextual [h]; done) | (simp_all (maxDischargeDepth := 12); done)
@[simp] theorem State.wake_storeSized (s : State) (cause : Cause) (stayAwake : Bool)
    (h : StoreSized s.store) : StoreSized (State.wake s cause stayAwake).store := by
  unfold State.wake; split
  · exact h
  · dsimp only; simp [State.keepingReset]
@[simp] theorem State.startSeen_storeSized (s : State) (inWindow : Bool)
    (h : StoreSized s.store) : StoreSized (State.startSeen s inWindow).store := by
  unfold State.startSeen; (try dsimp only); (repeat' split) <;>
    first | (simp (maxDischargeDepth := 12) +contextual [h]; done) | (simp_all (maxDischargeDepth := 12); done)
@[simp] theorem State.enterDormant_storeSized (s : State)
    (h : StoreSized s.store) : StoreSized (State.enterDormant s).store := by
  unfold State.enterDormant; (try dsimp only); (repeat' split) <;>
    first | (simp (maxDischargeDepth := 12) +contextual [h]; done) | (simp_all (maxDischargeDepth := 12); done)
@[simp] theorem State.wakeRequest_storeSized (s : State) (flag : Byte)
    (h : StoreSized s.store) : StoreSized (State.wakeRequest s flag).store := by
  unfold State.wakeRequest; (try dsimp only); (repeat' split) <;>
    first | (simp (maxDischargeDepth := 12) +contextual [h]; done) | (simp_all (maxDischargeDepth := 12); done)
@[simp] theorem State.clipData_storeSized (s : State) (i : Nat) (samples : List Sample)
    (h : StoreSized s.store) : StoreSized (State.clipData s i samples).1.store := by
  unfold State.clipData; (try dsimp only); (repeat' split) <;>
    first | (simp (maxDischargeDepth := 12) +contextual [h]; done) | (simp_all (maxDischargeDepth := 12); done)

/-- Every operation keeps these sizes. -/
theorem storeSized_kept : Kept (fun s => StoreSized s.store) where
  lineSilent := by intro a0 h; simp (maxDischargeDepth := 12) [h]
  enterDormant := by intro a0 h; simp (maxDischargeDepth := 12) [h]
  selfVetoDue := by intro a0 h; simp (maxDischargeDepth := 12) [h]
  listenEnd := by intro a0 h; simp (maxDischargeDepth := 12) [h]
  agedOut := by intro a0 a1 h; simp (maxDischargeDepth := 12) [h]
  freeSlot := by intro a0 a1 h; simp (maxDischargeDepth := 12) [h]
  readyEntries := by intro a0 h; simp (maxDischargeDepth := 12) [h]
  presenceFallsDue := by intro a0 h; simp (maxDischargeDepth := 12) [h]
  silenceEnded := by intro a0 h; simp (maxDischargeDepth := 12) [h]
  noteStall := by intro a0 h; simp (maxDischargeDepth := 12) [h]
  noteExpiry := by intro a0 h; simp (maxDischargeDepth := 12) [h]
  uplinkRetry := by intro a0 h; simp (maxDischargeDepth := 12) [h]
  carryRetry := by intro a0 a1 h; simp (maxDischargeDepth := 12) [h]
  arrivalGap := by intro a0 h; simp (maxDischargeDepth := 12) [h]
  qualityBlock := by intro a0 h; simp (maxDischargeDepth := 12) [h]
  endGateRamp := by intro a0 h; simp (maxDischargeDepth := 12) [h]
  endEntryRamp := by intro a0 a1 a2 h; simp (maxDischargeDepth := 12) [h]
  endPositionRamp := by intro a0 a1 h; simp (maxDischargeDepth := 12) [h]
  refreshDebtRise := by intro a0 h; simp (maxDischargeDepth := 12) [h]
  filled := by intro a0 h; simp (maxDischargeDepth := 12) [h]
  primingDone := by intro a0 h; simp (maxDischargeDepth := 12) [h]
  correlationResult := by intro a0 h; simp (maxDischargeDepth := 12) [h]
  crossfadeEnd := by intro a0 h; simp (maxDischargeDepth := 12) [h]
  toDigitalComplete := by intro a0 h; simp (maxDischargeDepth := 12) [h]
  toAnalogueComplete := by intro a0 h; simp (maxDischargeDepth := 12) [h]
  cancellerBlock := by intro a0 h; simp (maxDischargeDepth := 12) [h]
  freezeEnd := by intro a0 h; simp (maxDischargeDepth := 12) [h]
  referenceLost := by intro a0 h; simp (maxDischargeDepth := 12) [h]
  triggerFollowers := by intro a0 a1 h; simp (maxDischargeDepth := 12) [h]
  countRepetition := by intro a0 a1 h; simp (maxDischargeDepth := 12) [h]
  fire := by intro a0 a1 h; simp (maxDischargeDepth := 12) [h]
  playCompleted := by intro a0 a1 h; simp (maxDischargeDepth := 12) [h]
  recordRead := by intro a0 a1 h; simp (maxDischargeDepth := 12) [h]
  startSeen := by intro a0 a1 h; simp (maxDischargeDepth := 12) [h]
  leadStart := by intro a0 h; simp (maxDischargeDepth := 12) [h]
  expireTimer := by intro a0 h; simp (maxDischargeDepth := 12) [h]
  missFurther := by intro a0 h; simp (maxDischargeDepth := 12) [h]
  controlField := by intro a0 a1 a2 h; simp (maxDischargeDepth := 12) [h]
  audioSlots := by intro a0 a1 h; simp (maxDischargeDepth := 12) [h]
  tailEnd := by intro a0 a1 h; simp (maxDischargeDepth := 12) [h]
  messageEffect := by intro a0 a1 a2 h; simp (maxDischargeDepth := 12) [h]
  localSample := by intro a0 a1 h; simp (maxDischargeDepth := 12) [h]
  decoderArrives := by intro a0 a1 a2 h; simp (maxDischargeDepth := 12) [h]
  burstComplete := by intro a0 a1 h; simp (maxDischargeDepth := 12) [h]
  completeOpen := by intro a0 a1 h; simp (maxDischargeDepth := 12) [h]
  completeClose := by intro a0 a1 h; simp (maxDischargeDepth := 12) [h]
  completeRefresh := by intro a0 a1 h; simp (maxDischargeDepth := 12) [h]
  keepUpStart := by intro a0 h; simp (maxDischargeDepth := 12) [h]
  host := by intro a0 a1 h; simp (maxDischargeDepth := 12) [h]
  noteBox := by intro a0 a1 h; simp (maxDischargeDepth := 12) [h]
  rest := by intro s q h; exact h
  enterHost := by intro a0 a1 a2 a3 q h; simp (maxDischargeDepth := 12) [h]
  leaveLine := by intro a0 h; simp (maxDischargeDepth := 12) [h]
  goToListening := by intro a0 h; simp (maxDischargeDepth := 12) [h]
  wake := by intro a0 a1 a2 h; simp (maxDischargeDepth := 12) [h]
  judgeRoute := by intro a0 a1 a2 a3 a4 h; simp (maxDischargeDepth := 12) [h]
  clipLoadBegin := by intro a0 a1 a2 a3 h; simp (maxDischargeDepth := 12) [h]
  clipData := by intro a0 a1 a2 h; simp (maxDischargeDepth := 12) [h]
  clipLoadEnd := by intro a0 a1 h; simp (maxDischargeDepth := 12) [h]
  clipLock := by intro a0 a1 h; simp (maxDischargeDepth := 12) [h]
  startPlay := by
    intro s u c l r p e h; exact State.startPlay_storeSized s c l r .host (p, u) e h
  cadenceSet := by intro a0 a1 a2 h; simp (maxDischargeDepth := 12) [h]
  cadenceStart := by intro a0 a1 h; simp (maxDischargeDepth := 12) [h]
  cadenceStop := by intro a0 a1 h; simp (maxDischargeDepth := 12) [h]
  blendEnable := by intro a0 h; simp (maxDischargeDepth := 12) [h]
  blendDisable := by intro a0 h; simp (maxDischargeDepth := 12) [h]
  tuned := by intro a0 h; simp (maxDischargeDepth := 12) [h]
  beginNote := by intro a0 a1 a2 a3 h; simp (maxDischargeDepth := 12) [h]
  powerOn := by
    intro s h; exact ⟨rfl, rfl⟩
  assertPin := by intro a0 h; simp (maxDischargeDepth := 12) [h]
  resetLine := by
    intro s h; exact afterReset_sized _

end Sys2Proof.Machine
end

