-- ==== Sys2Proof/Laws/TablesSized.lean ====
section
/-! SUPPORT. Every operation keeps the sizes of the line tables. -/

namespace Sys2Proof.Machine

set_option maxRecDepth 20000
set_option linter.unusedSimpArgs false
set_option linter.unusedVariables false

@[simp] theorem State.changeTables_tablesSized (s : State) (changed : LineTables) (cause : Cause) (callCause : Nat → Cause)
    (h : TablesSized s.tables) (hc : TablesSized changed) :
    TablesSized (State.changeTables s changed cause callCause).tables := by
  unfold State.changeTables; dsimp only; split <;> simp [hc]
@[simp] theorem State.dropTables_tablesSized (s : State)
    (h : TablesSized s.tables) : TablesSized (State.dropTables s).tables := by
  unfold State.dropTables; (try dsimp only); (repeat' split) <;>
    first | (simp (maxDischargeDepth := 12) +contextual [h]; done) | (simp_all (maxDischargeDepth := 12); done)
@[simp] theorem State.goTo_tablesSized (s : State) (new : StationState) (cause : Cause)
    (h : TablesSized s.tables) : TablesSized (State.goTo s new cause).tables := by
  unfold State.goTo; (try dsimp only); (repeat' split) <;>
    first | (simp (maxDischargeDepth := 12) +contextual [h]; done) | (simp_all (maxDischargeDepth := 12); done)
@[simp] theorem State.removeStation_tablesSized (s : State) (n : Nat) (cause : Cause)
    (h : TablesSized s.tables) : TablesSized (State.removeStation s n cause).tables := by
  unfold State.removeStation; (try dsimp only); (repeat' split) <;>
    first | (simp (maxDischargeDepth := 12) +contextual [h]; done) | (simp_all (maxDischargeDepth := 12); done)
@[simp] theorem State.ownRemoved_tablesSized (s : State)
    (h : TablesSized s.tables) : TablesSized (State.ownRemoved s).tables := by
  unfold State.ownRemoved; (try dsimp only); (repeat' split) <;>
    first | (simp (maxDischargeDepth := 12) +contextual [h]; done) | (simp_all (maxDischargeDepth := 12); done)
@[simp] theorem State.judgeJoin_tablesSized (s : State) (sender : Nat) (roles : Byte) (zones privateZones : ZoneSet) (serial : BitVec 32)
    (h : TablesSized s.tables) :
    TablesSized (State.judgeJoin s sender roles zones privateZones serial).1.tables := by
  unfold State.judgeJoin; (try dsimp only); (repeat' split) <;>
    first | (simp (maxDischargeDepth := 12) +contextual [h]; done) | (simp_all (maxDischargeDepth := 12); done)
@[simp] theorem State.countDescriptor_tablesSized (s : State) (before : LineTables) (sender : Nat) (owned : SlotSet) (d : Descriptor)
    (h : TablesSized s.tables) : TablesSized (State.countDescriptor s before sender owned d).tables := by
  unfold State.countDescriptor; (try dsimp only); (repeat' split) <;>
    first | (simp (maxDischargeDepth := 12) +contextual [h]; done) | (simp_all (maxDischargeDepth := 12); done)
@[simp] theorem State.judgePresence_tablesSized (s : State) (sender : Nat) (roles : Byte) (zones privateZones : ZoneSet) (owned : SlotSet) (d : Descriptor)
    (h : TablesSized s.tables) :
    TablesSized (State.judgePresence s sender roles zones privateZones owned d).1.tables := by
  unfold State.judgePresence; (try dsimp only); (repeat' split) <;>
    first | (simp (maxDischargeDepth := 12) +contextual [h]; done) | (simp_all (maxDischargeDepth := 12); done)
@[simp] theorem State.judgeLeave_tablesSized (s : State) (sender : Nat)
    (h : TablesSized s.tables) : TablesSized (State.judgeLeave s sender).1.tables := by
  unfold State.judgeLeave; (try dsimp only); (repeat' split) <;>
    first | (simp (maxDischargeDepth := 12) +contextual [h]; done) | (simp_all (maxDischargeDepth := 12); done)
@[simp] theorem State.judgeStream_tablesSized (s : State) (sender : Nat) (kind : Cause) (verdict : LineTables → LineTables × Cause)
    (h : TablesSized s.tables) (hv : ∀ t, TablesSized t → TablesSized (verdict t).1) :
    TablesSized (State.judgeStream s sender kind verdict).1.tables := by
  unfold State.judgeStream; split
  · exact State.changeTables_tablesSized _ _ _ _ h (hv _ h)
  · exact h
@[simp] theorem State.judgeCallMessage_tablesSized (s : State) (sender j action : Nat) (f : CallFields)
    (h : TablesSized s.tables) : TablesSized (State.judgeCallMessage s sender j action f).1.tables := by
  unfold State.judgeCallMessage; (try dsimp only); (repeat' split) <;>
    first | (simp (maxDischargeDepth := 12) +contextual [h]; done) | (simp_all (maxDischargeDepth := 12); done)
@[simp] theorem State.judge_tablesSized (s : State) (sender : Nat) (m : Message)
    (h : TablesSized s.tables) : TablesSized (State.judge s sender m).1.tables := by
  unfold State.judge; cases m <;> dsimp only <;> (try split) <;> first | exact h | (simp [h]; done) | skip
  · exact State.judgeStream_tablesSized _ _ _ _ h (fun t ht => offer_sized t _ _ ht)
  · exact State.judgeStream_tablesSized _ _ _ _ h (fun t ht => withdraw_sized t _ ht)
  · exact State.judgeStream_tablesSized _ _ _ _ h (fun t ht => claim_sized t _ _ ht)
  · exact State.judgeStream_tablesSized _ _ _ _ h (fun t ht => release_sized t _ ht)
@[simp] theorem State.refreshAge_tablesSized (s : State) (sender : Nat)
    (h : TablesSized s.tables) : TablesSized (State.refreshAge s sender).tables := by
  unfold State.refreshAge; (try dsimp only); (repeat' split) <;>
    first | (simp (maxDischargeDepth := 12) +contextual [h]; done) | (simp_all (maxDischargeDepth := 12); done)
@[simp] theorem State.moveByMessage_tablesSized (s : State) (own : Bool) (sender : Nat) (m : Message) (verdict : Cause)
    (h : TablesSized s.tables) : TablesSized (State.moveByMessage s own sender m verdict).tables := by
  unfold State.moveByMessage; cases m <;> dsimp only <;> (repeat' split) <;>
    first | with_reducible exact h | with_reducible exact State.goTo_tablesSized _ _ _ h | with_reducible exact State.ownRemoved_tablesSized _ h
@[simp] theorem State.takeEffect_tablesSized (s : State) (sender : Nat) (m : Message)
    (h : TablesSized s.tables) : TablesSized (State.takeEffect s sender m).tables := by
  unfold State.takeEffect; (try dsimp only); (repeat' split) <;>
    first | (simp (maxDischargeDepth := 12) +contextual [h]; done) | (simp_all (maxDischargeDepth := 12); done)
@[simp] theorem State.start_tablesSized (s : State) (emitted inWindow : Bool)
    (h : TablesSized s.tables) : TablesSized (State.start s emitted inWindow).tables := by
  unfold State.start; (try dsimp only); (repeat' split) <;>
    first | (simp (maxDischargeDepth := 12) +contextual [h]; done) | (simp_all (maxDischargeDepth := 12); done)
@[simp] theorem State.leadStart_tablesSized (s : State)
    (h : TablesSized s.tables) : TablesSized (State.leadStart s).tables := by
  unfold State.leadStart; (try dsimp only); (repeat' split) <;>
    first | (simp (maxDischargeDepth := 12) +contextual [h]; done) | (simp_all (maxDischargeDepth := 12); done)
@[simp] theorem State.expireTimer_tablesSized (s : State)
    (h : TablesSized s.tables) : TablesSized (State.expireTimer s).tables := by
  unfold State.expireTimer; (try dsimp only); (repeat' split) <;>
    first | (simp (maxDischargeDepth := 12) +contextual [h]; done) | (simp_all (maxDischargeDepth := 12); done)
@[simp] theorem State.keepUpStart_tablesSized (s : State)
    (h : TablesSized s.tables) : TablesSized (State.keepUpStart s).tables := by
  unfold State.keepUpStart; (try dsimp only); (repeat' split) <;>
    first | (simp (maxDischargeDepth := 12) +contextual [h]; done) | (simp_all (maxDischargeDepth := 12); done)
@[simp] theorem State.listenAtTail_tablesSized (s : State) (vetoed : Bool)
    (h : TablesSized s.tables) : TablesSized (State.listenAtTail s vetoed).tables := by
  unfold State.listenAtTail; (try dsimp only); (repeat' split) <;>
    first | (simp (maxDischargeDepth := 12) +contextual [h]; done) | (simp_all (maxDischargeDepth := 12); done)
@[simp] theorem State.joinVetoed_tablesSized (s : State) (e : QueueEntry)
    (h : TablesSized s.tables) : TablesSized (State.joinVetoed s e).tables := by
  unfold State.joinVetoed; (try dsimp only); (repeat' split) <;>
    first | (simp (maxDischargeDepth := 12) +contextual [h]; done) | (simp_all (maxDischargeDepth := 12); done)
@[simp] theorem State.abandon_tablesSized (s : State) (e : QueueEntry)
    (h : TablesSized s.tables) : TablesSized (State.abandon s e).tables := by
  unfold State.abandon; (try dsimp only); (repeat' split) <;>
    first | (simp (maxDischargeDepth := 12) +contextual [h]; done) | (simp_all (maxDischargeDepth := 12); done)
@[simp] theorem State.ownVetoed_tablesSized (s : State)
    (h : TablesSized s.tables) : TablesSized (State.ownVetoed s).tables := by
  unfold State.ownVetoed; (try dsimp only); (repeat' split) <;>
    first | (simp (maxDischargeDepth := 12) +contextual [h]; done) | (simp_all (maxDischargeDepth := 12); done)
@[simp] theorem State.tail_tablesSized (s : State) (message : Option (Nat × Message)) (veto : Bool)
    (h : TablesSized s.tables) : TablesSized (State.tail s message veto).tables := by
  unfold State.tail; (try dsimp only); (repeat' split) <;>
    first | (simp (maxDischargeDepth := 12) +contextual [h]; done) | (simp_all (maxDischargeDepth := 12); done)
@[simp] theorem State.tailEnd_tablesSized (s : State) (veto : Bool)
    (h : TablesSized s.tables) : TablesSized (State.tailEnd s veto).tables := by
  unfold State.tailEnd; (try dsimp only); (repeat' split) <;>
    first | (simp (maxDischargeDepth := 12) +contextual [h]; done) | (simp_all (maxDischargeDepth := 12); done)
@[simp] theorem State.messageEffect_tablesSized (s : State) (sender : Nat) (m : Message)
    (h : TablesSized s.tables) : TablesSized (State.messageEffect s sender m).tables := by
  unfold State.messageEffect; (try dsimp only); (repeat' split) <;>
    first | (simp (maxDischargeDepth := 12) +contextual [h]; done) | (simp_all (maxDischargeDepth := 12); done)
@[simp] theorem State.selfVetoDue_tablesSized (s : State)
    (h : TablesSized s.tables) : TablesSized (State.selfVetoDue s).tables := by
  unfold State.selfVetoDue; (try dsimp only); (repeat' split) <;>
    first | (simp (maxDischargeDepth := 12) +contextual [h]; done) | (simp_all (maxDischargeDepth := 12); done)
@[simp] theorem State.listenEnd_tablesSized (s : State)
    (h : TablesSized s.tables) : TablesSized (State.listenEnd s).tables := by
  unfold State.listenEnd; (try dsimp only); (repeat' split) <;>
    first | (simp (maxDischargeDepth := 12) +contextual [h]; done) | (simp_all (maxDischargeDepth := 12); done)
@[simp] theorem State.agedOut_tablesSized (s : State) (n : Nat)
    (h : TablesSized s.tables) : TablesSized (State.agedOut s n).tables := by
  unfold State.agedOut; (try dsimp only); (repeat' split) <;>
    first | (simp (maxDischargeDepth := 12) +contextual [h]; done) | (simp_all (maxDischargeDepth := 12); done)
@[simp] theorem State.freeSlot_tablesSized (s : State) (slot : Nat)
    (h : TablesSized s.tables) : TablesSized (State.freeSlot s slot).tables := by
  unfold State.freeSlot; (try dsimp only); (repeat' split) <;>
    first | (simp (maxDischargeDepth := 12) +contextual [h]; done) | (simp_all (maxDischargeDepth := 12); done)
@[simp] theorem State.silenceEnded_tablesSized (s : State)
    (h : TablesSized s.tables) : TablesSized (State.silenceEnded s).tables := by
  unfold State.silenceEnded; (try dsimp only); (repeat' split) <;>
    first | (simp (maxDischargeDepth := 12) +contextual [h]; done) | (simp_all (maxDischargeDepth := 12); done)
@[simp] theorem State.recordRead_tablesSized (s : State) (read : RecordRead)
    (h : TablesSized s.tables) : TablesSized (State.recordRead s read).tables := by
  unfold State.recordRead; (try dsimp only); (repeat' split) <;>
    first | (simp (maxDischargeDepth := 12) +contextual [h]; done) | (simp_all (maxDischargeDepth := 12); done)
@[simp] theorem State.wake_tablesSized (s : State) (cause : Cause) (stayAwake : Bool)
    (h : TablesSized s.tables) : TablesSized (State.wake s cause stayAwake).tables := by
  unfold State.wake; split
  · exact h
  · exact State.goTo_tablesSized _ _ _ (by simp; exact tables_reset_sized)
@[simp] theorem State.startSeen_tablesSized (s : State) (inWindow : Bool)
    (h : TablesSized s.tables) : TablesSized (State.startSeen s inWindow).tables := by
  unfold State.startSeen; (try dsimp only); (repeat' split) <;>
    first | (simp (maxDischargeDepth := 12) +contextual [h]; done) | (simp_all (maxDischargeDepth := 12); done)
@[simp] theorem State.enterDormant_tablesSized (s : State)
    (h : TablesSized s.tables) : TablesSized (State.enterDormant s).tables := by
  unfold State.enterDormant; (try dsimp only); (repeat' split) <;>
    first | (simp (maxDischargeDepth := 12) +contextual [h]; done) | (simp_all (maxDischargeDepth := 12); done)
@[simp] theorem State.leaveLine_tablesSized (s : State)
    (h : TablesSized s.tables) : TablesSized (State.leaveLine s).1.tables := by
  unfold State.leaveLine; (try dsimp only); (repeat' split) <;>
    first | (simp (maxDischargeDepth := 12) +contextual [h]; done) | (simp_all (maxDischargeDepth := 12); done)
@[simp] theorem State.rejoin_tablesSized (s : State)
    (h : TablesSized s.tables) : TablesSized (State.rejoin s).1.tables := by
  unfold State.rejoin; (try dsimp only); (repeat' split) <;>
    first | (simp (maxDischargeDepth := 12) +contextual [h]; done) | (simp_all (maxDischargeDepth := 12); done)
@[simp] theorem State.wakeRequest_tablesSized (s : State) (flag : Byte)
    (h : TablesSized s.tables) : TablesSized (State.wakeRequest s flag).tables := by
  unfold State.wakeRequest; (try dsimp only); (repeat' split) <;>
    first | (simp (maxDischargeDepth := 12) +contextual [h]; done) | (simp_all (maxDischargeDepth := 12); done)

/-- Every operation keeps these sizes. -/
theorem tablesSized_kept : Kept (fun s => TablesSized s.tables) where
  lineSilent := by intro a0 h; simp (maxDischargeDepth := 12) [h]
  enterDormant := by intro a0 h; simp (maxDischargeDepth := 12) [h]
  selfVetoDue := by intro a0 h; simp (maxDischargeDepth := 12) [h]
  listenEnd := by intro a0 h; simp (maxDischargeDepth := 12) [h]
  agedOut := by intro a0 a1 h; simp (maxDischargeDepth := 12) [h]
  freeSlot := by intro a0 a1 h; simp (maxDischargeDepth := 12) [h]
  readyEntries := by intro a0 h; simp (maxDischargeDepth := 12) [h]
  presenceFallsDue := by intro a0 h; simp (maxDischargeDepth := 12) [h]
  silenceEnded := by intro a0 h; simp (maxDischargeDepth := 12) [h]
  noteStall := by intro a0 h; simp (maxDischargeDepth := 12) [h]
  noteExpiry := by intro a0 h; simp (maxDischargeDepth := 12) [h]
  uplinkRetry := by intro a0 h; simp (maxDischargeDepth := 12) [h]
  carryRetry := by intro a0 a1 h; simp (maxDischargeDepth := 12) [h]
  arrivalGap := by intro a0 h; simp (maxDischargeDepth := 12) [h]
  qualityBlock := by intro a0 h; simp (maxDischargeDepth := 12) [h]
  endGateRamp := by intro a0 h; simp (maxDischargeDepth := 12) [h]
  endEntryRamp := by intro a0 a1 a2 h; simp (maxDischargeDepth := 12) [h]
  endPositionRamp := by intro a0 a1 h; simp (maxDischargeDepth := 12) [h]
  refreshDebtRise := by intro a0 h; simp (maxDischargeDepth := 12) [h]
  filled := by intro a0 h; simp (maxDischargeDepth := 12) [h]
  primingDone := by intro a0 h; simp (maxDischargeDepth := 12) [h]
  correlationResult := by intro a0 h; simp (maxDischargeDepth := 12) [h]
  crossfadeEnd := by intro a0 h; simp (maxDischargeDepth := 12) [h]
  toDigitalComplete := by intro a0 h; simp (maxDischargeDepth := 12) [h]
  toAnalogueComplete := by intro a0 h; simp (maxDischargeDepth := 12) [h]
  cancellerBlock := by intro a0 h; simp (maxDischargeDepth := 12) [h]
  freezeEnd := by intro a0 h; simp (maxDischargeDepth := 12) [h]
  referenceLost := by intro a0 h; simp (maxDischargeDepth := 12) [h]
  triggerFollowers := by intro a0 a1 h; simp (maxDischargeDepth := 12) [h]
  countRepetition := by intro a0 a1 h; simp (maxDischargeDepth := 12) [h]
  fire := by intro a0 a1 h; simp (maxDischargeDepth := 12) [h]
  playCompleted := by intro a0 a1 h; simp (maxDischargeDepth := 12) [h]
  recordRead := by intro a0 a1 h; simp (maxDischargeDepth := 12) [h]
  startSeen := by intro a0 a1 h; simp (maxDischargeDepth := 12) [h]
  leadStart := by intro a0 h; simp (maxDischargeDepth := 12) [h]
  expireTimer := by intro a0 h; simp (maxDischargeDepth := 12) [h]
  missFurther := by intro a0 h; simp (maxDischargeDepth := 12) [h]
  controlField := by intro a0 a1 a2 h; simp (maxDischargeDepth := 12) [h]
  audioSlots := by intro a0 a1 h; simp (maxDischargeDepth := 12) [h]
  tailEnd := by intro a0 a1 h; simp (maxDischargeDepth := 12) [h]
  messageEffect := by intro a0 a1 a2 h; simp (maxDischargeDepth := 12) [h]
  localSample := by intro a0 a1 h; simp (maxDischargeDepth := 12) [h]
  decoderArrives := by intro a0 a1 a2 h; simp (maxDischargeDepth := 12) [h]
  burstComplete := by intro a0 a1 h; simp (maxDischargeDepth := 12) [h]
  completeOpen := by intro a0 a1 h; simp (maxDischargeDepth := 12) [h]
  completeClose := by intro a0 a1 h; simp (maxDischargeDepth := 12) [h]
  completeRefresh := by intro a0 a1 h; simp (maxDischargeDepth := 12) [h]
  keepUpStart := by intro a0 h; simp (maxDischargeDepth := 12) [h]
  host := by intro a0 a1 h; simp (maxDischargeDepth := 12) [h]
  noteBox := by intro a0 a1 h; simp (maxDischargeDepth := 12) [h]
  rest := by intro s q h; exact h
  enterHost := by intro a0 a1 a2 a3 q h; simp (maxDischargeDepth := 12) [h]
  leaveLine := by intro a0 h; simp (maxDischargeDepth := 12) [h]
  goToListening := by intro a0 h; simp (maxDischargeDepth := 12) [h]
  wake := by intro a0 a1 a2 h; simp (maxDischargeDepth := 12) [h]
  judgeRoute := by intro a0 a1 a2 a3 a4 h; simp (maxDischargeDepth := 12) [h]
  clipLoadBegin := by intro a0 a1 a2 a3 h; simp (maxDischargeDepth := 12) [h]
  clipData := by intro a0 a1 a2 h; simp (maxDischargeDepth := 12) [h]
  clipLoadEnd := by intro a0 a1 h; simp (maxDischargeDepth := 12) [h]
  clipLock := by intro a0 a1 h; simp (maxDischargeDepth := 12) [h]
  startPlay := by intro s u c l r p e h; have := State.startPlay_frame s c l r .host (p, u) e; simp only at this; simp [this, h]
  cadenceSet := by intro a0 a1 a2 h; simp (maxDischargeDepth := 12) [h]
  cadenceStart := by intro a0 a1 h; simp (maxDischargeDepth := 12) [h]
  cadenceStop := by intro a0 a1 h; simp (maxDischargeDepth := 12) [h]
  blendEnable := by intro a0 h; simp (maxDischargeDepth := 12) [h]
  blendDisable := by intro a0 h; simp (maxDischargeDepth := 12) [h]
  tuned := by intro a0 h; simp (maxDischargeDepth := 12) [h]
  beginNote := by intro a0 a1 a2 a3 h; simp (maxDischargeDepth := 12) [h]
  powerOn := by
    intro s h; exact tables_reset_sized
  assertPin := by intro a0 h; simp (maxDischargeDepth := 12) [h]
  resetLine := by
    intro s h; exact tables_reset_sized

end Sys2Proof.Machine
end

