-- ==== Sys2Proof/Tests/Slice0.lean ====
section
/-! SUPPORT. Tests by evaluation: ill-formed commands, small steps of the commands, and for the statements of Obligations
states and operands that meet their hypotheses. -/

set_option maxRecDepth 100000

namespace Sys2Proof.Tests

open Sys2Proof Sys2Proof.Machine

/-! ## Ill-formed commands are refused -/

theorem test_frame_of_39_slots_is_ill_formed :
    (Instr.audioSlots (List.replicate 39 { sample := 0, valid := false, check := false })).wellFormed = false := by decide

theorem test_clip_data_of_256_samples_is_ill_formed : (Instr.clipData 0 (List.replicate 256 0)).wellFormed = false := by
  decide

theorem test_note_of_another_length_is_ill_formed : (Instr.noteSend 5 3 [1, 2]).wellFormed = false := by decide

theorem test_transfer_beyond_a_request_is_ill_formed : (Instr.badTransfer (List.replicate 278 0)).wellFormed = false := by
  decide

theorem test_no_word_spells_a_command : decodeTableWord 8 5 = none := by decide

/-! ## Small states -/

/-- The state that an outcome goes on with. -/
def after : Host.Outcome State Fault Refusal → State
  | .next s => s
  | _ => .reset

/-- A record of station 3: two zones, an align, a blend and a clip region, bank 2 retained. -/
def record3 : StartUpRecord :=
  { station := 3, serial := 7, roles := { attended := true, outputs := true, mics := false, tuner := true },
    zones := [{ id := 5, kind := .openZone, pairs := [{ pair := 0, delay := 480, trim := 63 }], duckDepth := 12,
                policy1 := .mix, policy2 := .mix, policy3 := .duck },
              { id := 6, kind := .privateZone, pairs := [{ pair := 1, delay := 0, trim := 63 }], duckDepth := 12,
                policy1 := .mix, policy2 := .mix, policy3 := .duck }],
    regions := [{ client := .align, group := 1, firstBank := 0, firstRow := 0, rows := 120 },
                { client := .blend, group := 1, firstBank := 1, firstRow := 0, rows := 206 },
                { client := .clip, group := 1, firstBank := 2, firstRow := 0, rows := 8 }],
    retained := 4, nominalDelay := 24000, autostart := false, microphones := 0, offers := [], routes := [] }

/-- A present entry with roles and an own open zone each. -/
def entryOf (zones : ZoneSet) : RosterEntry :=
  { RosterEntry.absent with present := true, roles := { attended := true, outputs := true, mics := true, tuner := false },
                            zones := zones }

/-- Station 3 in a station state, with stations 3 and 5 present and station 5's stream 20 CARRIED in slot 39. -/
def at3 (st : StationState) : State :=
  { State.reset with
    member.station := st, startUp.reading := false, startUp.record := some record3, store.regions := record3.regions,
    store.retained := record3.retained,
    tables.roster := (LineTables.reset.roster.set 3 (entryOf 0x60)).set 5 (entryOf 0x100),
    tables.directory := LineTables.reset.directory.set 20 (.carried { kind := .voiceDownlink, channels := 1, cls := 0 } 39),
    tables.slots := LineTables.reset.slots.set 39 (.owned 20) }

/-- A queued message of the host. -/
def queued (m : Message) : QueueEntry :=
  { message := m, originator := .host, auto := false, companion := none, vetoes := 0, hold := 0, ready := true, order := 0 }

/-- The member with a message in its queue. -/
def sending (m : Message) : State := { at3 .member with line.queue := [queued m], line.nextOrder := 1 }

/-- The member in a call that station 5 rang. -/
def inCall (st : CallState) : State :=
  { at3 .member with tables.calls := [{ CallRecord.none with state := st, owner := some 5, downlink := some 20,
                                                              zones := 0x20 }, CallRecord.none] }

/-- The fields of a CALL that rings with stream 20 in zone 5. -/
def ringFields : CallFields := { downlink := 20, uplink := 255, reference := 255, mic := 255, zones := 0x20 }

/-- A control field, with its check, that spells a message of a sender. -/
def quiet : InputSamples := { in0 := .zero, in1 := .zero, in2 := .zero, in3 := .zero }

/-- A read of the memory whose record length of no further bytes and whose check are good. -/
def readWell (fields : Option StartUpRecord) : RecordRead := .read [0, 0] [] (crcBytes [0, 0]) 0 fields

theorem test_the_record_is_valid : judgeRecord (readWell (some record3)) = some record3 := by decide

theorem test_a_settled_member_stands : (at3 .member).settle = at3 .member := by decide


/-! ## The control field (R8), bits written out from Table 1-3 -/

theorem test_field_of_leave : judgeField 0x153000000000000000000000000000000000000000038b1#187 = some (5, .leave) := by decide

theorem test_field_of_offer :
    judgeField 0x23401000203000000000000000000000000000000006542#187 = some (3, .offer 1 0 2 3) := by decide

theorem test_field_of_ring :
    judgeField 0x5a000014ffffff00200000000000000000000000005562#187 = some (5, .call 0 0 ringFields) := by decide

theorem test_field_of_note_part :
    judgeField 0x45b03000001070000000000000000000000000000001bf6#187
      = some (5, .notePart 3 0 1 0x07000000000000000000000000000000#128) := by decide

theorem test_one_flipped_bit_fails : judgeField 0x153000000000000000000000000000000000000000038b0#187 = none := by decide

/-! ## Hypotheses of the statements are met: resets, start-up and the frame -/

theorem test_hypotheses_of_HeldPinStopsCommands :
    isReset .getStatus = false ∧ ({ at3 .member with store.pinHeld := true } : State).store.pinHeld = true := by decide

theorem test_hypotheses_of_AnExpiredTimerLeadsAtOnce :
    (at3 .member).line.timerExpired = false
    ∧ (let u := { sending .leave with line.timerExpired := true }
       u.line.timerExpired = true ∧ u.keepUp = true ∧ u.member.station.onLine = true)
    ∧ (isReset .frameTimerExpiry = false ∧ (at3 .member).store.pinHeld = false
       ∧ (after (exec .frameTimerExpiry (at3 .member))).line.timerExpired = true) := by decide

theorem test_clauses_of_KeepUpFlagFollowsItsReasons :
    (sending .leave).keepUp = true ∧ (at3 .member).keepUp = false ∧ (at3 .member).line.timerExpired = false := by decide

theorem test_hypotheses_of_ResetLineKeepsRetainedContents :
    ((at3 .member).released ∧ (∀ q, (at3 .member).store.inFlight q = false)
      ∧ (at3 .member).member.station ≠ .offline ∧ (at3 .member).store.retained.getLsbD ((2 * 131072) / 131072) = true
      ∧ (at3 .member).store.retained.getLsbD ((3 * 131072) / 131072) = false)
    ∧ ({ at3 .member with store.pinHeld := true } : State).store.pinHeld = true := by
  refine ⟨⟨rfl, ?_, by decide, by decide, by decide⟩, by decide⟩; intro q; cases q <;> decide

theorem test_hypotheses_of_StartUpRecordIsJudged :
    State.reset.released ∧ State.reset.settle.startUp.reading = true ∧ State.reset.settle.member.station = .offline
    ∧ judgeRecord (readWell (some { record3 with station := 16 })) = none ∧ judgeRecord (readWell none) = none
    ∧ judgeRecord (.read [0, 1] [] (crcBytes [0, 1]) 1 (some record3)) = none
    ∧ judgeRecord (.read [0, 0] [] (crcBytes [0, 0] + 1) 0 (some record3)) = none
    ∧ (at3 .member).settle.startUp.reading = false
    ∧ (∀ z : Fin 4, (State.reset.settle.zone z.val).routes = []) ∧ State.reset.settle.mixer.zones.length = 4
    ∧ State.reset.settle.blend.state = .idle ∧ record3.autostart = false
    ∧ record3.nominalDelay + 2368 ≤ 128 * spaceRows record3.regions .blend := by
  refine ⟨rfl, ?_⟩; decide

/-- The member in a frame. -/
def framed (s : State) : State := { s with line.phase := .started }

theorem test_hypotheses_of_AStartSeenBeginsAFrame :
    (at3 .member).released ∧ (at3 .member).settle.member.station ≠ .dormant
    ∧ ((at3 .member).settle.tables.station 3).present = true ∧ ((at3 .member).settle.tables.station 4).present = false
    ∧ (framed (at3 .listening)).settle.line.phase = .started
    ∧ (at3 .dormant).settle.member.station = .dormant ∧ (at3 .dormant).settle.startUp.record = some record3 := by
  refine ⟨rfl, ?_⟩; decide

theorem test_hypotheses_of_AKeptUpLineIsLed :
    let s := sending .leave
    s.released ∧ s.settle.keepUp = true ∧ s.settle.member.station.onLine = true ∧ s.settle.line.timerExpired = false := by
  refine ⟨rfl, ?_⟩; decide

theorem test_hypotheses_of_MissingStartsAreCounted :
    let s := at3 .silenced
    let e := { at3 .silenced with line.timerExpired := true, member.silenceCount := 1 }
    s.released ∧ e.released ∧ (s.settle.member.station ≠ .dormant ∧ s.settle.keepUp = false ∧ s.settle.line.timerExpired = false)
    ∧ (e.settle.member.station ≠ .dormant ∧ e.settle.keepUp = false ∧ e.settle.line.timerExpired = true) := by
  refine ⟨rfl, rfl, ?_⟩; decide

/-- The member with its clock follower in a state. -/
def following (st : FollowerState) (onTime miss : Nat) (g : GateState) (gain : Nat) : State :=
  { at3 .member with follower := { state := st, onTime := onTime, miss := miss, rate := .towardsLine, gate := g, gain := gain } }

theorem test_clauses_of_FollowerJudgesEveryStart :
    (at3 .member).settle.follower.state = .freeRun
    ∧ (let t := (sending .leave).settle
       t.keepUp = true ∧ t.member.station.onLine = true ∧ t.line.timerExpired = false)
    ∧ (let t := (at3 .member).settle; t.keepUp = false ∧ t.line.timerExpired = false ∧ t.member.station ≠ .dormant)
    ∧ { at3 .member with line.timerExpired := true }.settle.line.timerExpired = true
    ∧ (let t := (following .pulling 254 0 .shut 0).settle; t.follower.state = .pulling ∧ t.follower.onTime = 254
       ∧ (true && !t.line.phase.isOpen && !t.line.timerExpired) = true)
    ∧ (let t := (following .pulling 255 0 .shut 0).settle; t.follower.state = .pulling ∧ t.follower.onTime = 255
       ∧ t.follower.gate = .shut)
    ∧ (let t := (following .locked 256 2 .open 480).settle; t.follower.state = .locked ∧ t.follower.miss = 2
       ∧ t.follower.gate = .open)
    ∧ (let t := (following .locked 0 3 .opening 7).settle; t.follower.state = .locked ∧ t.follower.miss = 3
       ∧ t.follower.gate = .opening) := by decide

theorem test_clauses_of_ASilentLineFreesTheFollower :
    (let s := { at3 .member with line.silentCount := 63 }; s.line.silentCount < 64)
    ∧ (let s := { following .locked 256 0 .open 480 with line.silentCount := 64 }
       64 ≤ s.line.silentCount ∧ s.line.silent = false ∧ s.follower.state = .locked ∧ s.follower.gate = .open) := by decide

theorem test_clauses_of_DormancyEntryEmptiesTheBlocks :
    (let s := { at3 .member with line.silentCount := 47999 }; s.line.silentCount < 48000)
    ∧ (let s := { at3 .member with line.silentCount := 48000 }
       48000 ≤ s.line.silentCount ∧ s.host.stayAwake = false ∧ s.member.station ≠ .offline ∧ s.member.station ≠ .dormant
       ∧ s.member.station.takesPart = true ∧ (allQueues.all (fun q => !s.store.inFlight q)) = true
       ∧ s.store.retained.getLsbD 2 = true ∧ s.store.retained.getLsbD 3 = false) := by decide

theorem test_clauses_of_AReceiverJudgesTheControlField :
    (let t := (framed (at3 .member)).settle
     t.line.phase = .started ∧ t.member.station.onLine = true ∧ t.candidate = none)
    ∧ (framed (at3 .listening)).settle.member.station.takesPart = false
    ∧ (3 : Byte).toNat = (at3 .member).settle.number ∧ (at3 .member).settle.note.box = .free
    ∧ heardField (some 0x45b03000001070000000000000000000000000000001bf6#187) true
        = .passed 5 (.notePart 3 0 1 0x07000000000000000000000000000000#128)
    ∧ heardField none true = .empty ∧ heardField (some 1) true = .failed ∧ heardField none false = .empty := by decide

/-- The member whose own stream 12 is OFFERED with 8 channels, with an AUTO claim of it ready and its slots all in one state. -/
def claiming (slot : Slot) : State :=
  { framed (at3 .member) with
    tables.directory := (at3 .member).tables.directory.set 12 (.offered { kind := .programme, channels := 8, cls := 3 }),
    tables.slots := List.replicate 40 slot,
    line.queue := [{ queued (.claim 0 0) with auto := true }, { queued (.release 1) with order := 1 }], line.nextOrder := 2 }

theorem test_clauses_of_TheLowestArbitrationValueWins :
    (let t := (framed (sending .leave)).settle
     t.line.phase = .started ∧ t.member.station.takesPart = true ∧ t.standsReady (.queued 0 .leave)
     ∧ arbitrationValue t.number .leave < fieldArbitration 0x23401000203000000000000000000000000000000006542#187
     ∧ fieldArbitration 0x5a000014ffffff00200000000000000000000000005562#187 < arbitrationValue t.number .leave
     ∧ fieldArbitration (fieldBits t.number .leave) = arbitrationValue t.number .leave
     ∧ fieldArbitration (fieldBits t.number .leave ^^^ 1) = arbitrationValue t.number .leave
     ∧ fieldBits t.number .leave ^^^ 1 ≠ fieldBits t.number .leave) :=
  ⟨by decide, by decide, .inl ⟨queued .leave, by decide⟩, by decide⟩

theorem test_an_auto_claim_stands_ready : (claiming .free).settle.standsReady (.queued 0 (.claim 0 0)) := by
  have run : ∀ i, i < 8 → (claiming .free).settle.tables.slots.getD (0 + i) (.held 0) = .free := by decide
  exact .inr (.inl ⟨_, 0, 0, 0, rfl, rfl, rfl, rfl, rfl,
    .inl ⟨{ kind := .programme, channels := 8, cls := 3 }, rfl, .inl ⟨⟨by decide, run⟩, fun g h => absurd h (Nat.not_lt_zero g)⟩⟩⟩)

theorem test_clauses_of_AutomaticChoiceTakesTheLowestRun :
    (let p : StreamParameters := { kind := .programme, channels := 8, cls := 3 }
     1 ≤ p.channels ∧ (claiming .free).tables.entry 12 = .offered p ∧ (claiming .free).choosesRun p 0
     ∧ (claiming .free).tables.chooseRun 8 3 = some 0 ∧ (claiming (.held 9)).tables.chooseRun 8 3 = none)
    ∧ (let low := { (claiming (.held 9)).tables with
                    slots := List.replicate 38 (Slot.held 9) ++ [Slot.free, Slot.free] }
       low.chooseRun 2 0 = some 38 ∧ low.chooseRun 2 3 = none) := by
  have run : ∀ i, i < 8 → (claiming .free).tables.slots.getD (0 + i) (.held 0) = .free := by decide
  exact ⟨⟨by decide, by decide, .inl ⟨⟨by decide, run⟩, fun g h => absurd h (Nat.not_lt_zero g)⟩, by decide, by decide⟩,
    by decide⟩

theorem test_an_auto_claim_finds_no_run :
    (claiming (.held 9)).settle.noRunFor { kind := .programme, channels := 8, cls := 3 } := by
  have none : ∀ k, k < 40 → (claiming (.held 9)).settle.tables.slots.getD k (.held 0) ≠ .free := by decide
  refine ⟨fun g h => none (g + 0) ?_ (h.2 0 (by decide)), fun h => absurd h (by decide)⟩
  have h1 : g + 8 ≤ 37 + 1 := h.1
  omega

theorem test_a_due_presence_stands_ready :
    ({ framed (at3 .member) with line.presenceDue := true } : State).settle.standsReady
      (.presence (.presence 11 0x60 0x40 0 (.stream 0 0 0 0 0 0))) := by
  have d : ({ framed (at3 .member) with line.presenceDue := true } : State).settle.nextDescribed (.stream 0 0 0 0 0 0) :=
    ⟨fun i h => by cases h; rfl, fun k h => by cases h⟩
  exact .inr (.inr ⟨record3, .stream 0 0 0 0 0 0, rfl, rfl, fun e h => absurd h (by intro h; cases h), d, rfl⟩)

/-- The member with two own CARRIED streams, 12 without a binding in slot 0 and 13 bound to ANNOUNCE in slot 1, a HELD slot
2, and a route entry that takes the stream in slot 39. -/
def driving : State :=
  { framed (at3 .member) with
    tables.directory := ((at3 .member).tables.directory.set 12 (.carried { kind := .programme, channels := 1, cls := 3 } 0)).set 13
      (.carried { kind := .announce, channels := 1, cls := 3 } 1),
    tables.slots := (((at3 .member).tables.slots.set 0 (.owned 12)).set 1 (.owned 13)).set 2 (.held 3),
    line.bindings := [none, some .announce, none, none],
    mixer.zones := State.reset.mixer.zones.set 0 { Zone.reset with
      routes := [{ stream := 20, cls := some 0, level := 63, state := .live, ramp := .at 0, age := 0 }] } }

/-- The member whose four own streams are bound to INPUT, BLEND, UPLINK and ZONE_MIX, one of them with three channels. -/
def sourced : State :=
  { framed (at3 .member) with
    tables.directory := ((((at3 .member).tables.directory.set 12 (.carried { kind := .programme, channels := 3, cls := 3 } 0)).set 13
      (.carried { kind := .programme, channels := 1, cls := 3 } 3)).set 14 (.carried { kind := .voiceUplink, channels := 1, cls := 0 } 4)).set 15
      (.carried { kind := .reference, channels := 1, cls := 3 } 5),
    tables.slots := (((((((at3 .member).tables.slots.set 0 (.owned 12)).set 1 (.owned 12)).set 2 (.owned 12)).set 3 (.owned 13)).set 4
      (.owned 14)).set 5 (.owned 15)),
    line.bindings := [some (.input 3), some .blend, some .uplink, some (.zoneMix 5)] }

theorem test_more_clauses_of_SlotsAreDrivenAndHanded :
    let t := sourced.settle
    t.tables.slots.getD 2 .free = .owned 12 ∧ t.tables.entry 12 = .carried { kind := .programme, channels := 3, cls := 3 } 0
    ∧ t.line.bindings.getD (12 % 4) none = some (.input 3) ∧ t.line.bindings.getD (13 % 4) none = some .blend
    ∧ t.tables.entry 13 = .carried { kind := .programme, channels := 1, cls := 3 } 3
    ∧ t.line.bindings.getD (14 % 4) none = some .uplink ∧ t.line.bindings.getD (15 % 4) none = some (.zoneMix 5)
    ∧ t.ownZone 5 = some 0 ∧ 0 + 2 ≤ 2
    ∧ (framed (at3 .listening)).settle.member.station ≠ .member ∧ (framed (at3 .listening)).settle.member.station ≠ .leaving := by
  decide

theorem test_clauses_of_SlotsAreDrivenAndHanded :
    let t := driving.settle
    t.line.phase = .started ∧ t.member.station = .member
    ∧ t.tables.slots.getD 0 .free = .owned 12 ∧ t.tables.entry 12 = .carried { kind := .programme, channels := 1, cls := 3 } 0
    ∧ t.line.bindings.getD (12 % 4) none = none
    ∧ t.tables.slots.getD 1 .free = .owned 13 ∧ t.line.bindings.getD (13 % 4) none = some .announce
    ∧ t.tables.slots.getD 39 .free = .owned 20 ∧ 20 / 4 ≠ t.number
    ∧ t.tables.slots.getD 2 .free = .held 3 ∧ t.tables.slots.getD 3 .free = .free
    ∧ 0 < t.channelsTaken 20 1 := by decide

/-- The member that has driven its queued message in this frame. -/
def drove (m : Message) : State :=
  { sending m with line.phase := .slotsPassed, line.field := .passed 3 m, line.sent := some (.queued 0 m) }

/-- The same with an entry of its own. -/
def droveEntry (e : QueueEntry) : State := { drove e.message with line.queue := [e] }

theorem test_clauses_of_TheTailDecides :
    (at3 .member).settle.line.phase = .over
    ∧ (let t := { framed (at3 .member) with line.field := .passed 5 .leave }.settle
       t.line.phase ≠ .over ∧ t.line.field = .passed (5 : Fin 16).val .leave)
    ∧ (let t := { framed (at3 .listening) with line.field := .failed, line.vetoing := .failedCheck }.settle
       t.line.phase ≠ .over ∧ t.line.phase ≠ .unread ∧ t.member.station.onLine = true ∧ t.line.sent = none
       ∧ t.member.station = .listening ∧ t.line.field = .failed ∧ t.line.vetoing ≠ .none)
    ∧ (let m : Message := .release 0
       let t := (drove m).settle
       t.line.phase ≠ .over ∧ t.line.phase ≠ .unread ∧ t.member.station.takesPart = true ∧ t.line.sent = some (.queued 0 m)
       ∧ t.line.queue.find? (fun e => e.order == 0) = some (queued m) ∧ m.kindCode ≠ 1 ∧ m.kindCode ≠ 11
       ∧ (queued m).vetoes < 31 ∧ t.line.waiting = []) := by decide

theorem test_vetoed_messages_of_TheTailDecides :
    (let e : QueueEntry := { queued (.join 3 0x60 0x40 7) with vetoes := 7 }
     (droveEntry e).settle.line.queue.find? (fun e => e.order == 0) = some e ∧ e.message.kindCode = 1 ∧ 7 ≤ e.vetoes)
    ∧ (let e : QueueEntry := { queued (.notePart 5 0 1 0) with originator := .noteUnit, vetoes := 31 }
       let t := { droveEntry e with note.outbound.state := .sending 0 }.settle
       t.line.queue.find? (fun e => e.order == 0) = some e ∧ e.message.kindCode = 11 ∧ t.note.outbound.state = .sending 0)
    ∧ (let e : QueueEntry := { queued (.release 0) with vetoes := 31 }
       (droveEntry e).settle.line.queue.find? (fun e => e.order == 0) = some e ∧ 31 ≤ e.vetoes ∧ e.originator = .host)
    ∧ (let e : QueueEntry := { queued .leave with vetoes := 31 }
       let t := { droveEntry e with member.station := .leaving }.settle
       t.line.queue.find? (fun e => e.order == 0) = some e ∧ t.member.station = .leaving) := by decide

/-! ## Hypotheses of the statements are met: messages -/

/-- What the message statements ask of a settled state. -/
def ready (t : State) : Prop := t.hears ∧ t.tableSizes ∧ t.droveNothing

theorem test_ready_member : (at3 .member).released ∧ ready (at3 .member).settle := by
  unfold ready State.released State.hears State.tableSizes State.droveNothing; decide

theorem test_ready_listener : (at3 .listening).released ∧ ready (at3 .listening).settle := by
  unfold ready State.released State.hears State.tableSizes State.droveNothing; decide

/-- The joining station that has driven its JOIN in this frame. -/
def joining : State :=
  let m : Message := .join 3 0x60 0x40 7
  { drove m with member.station := .joining, tables.roster := (drove m).tables.roster.set 3 .absent }

theorem test_clauses_of_JoinIsJudged :
    (let t := (at3 .member).settle
     t.isOwn 4 (.join 3 0x2 0 9) = false ∧ (4 : Fin 16).val ≠ t.number
     ∧ (t.tables.station 4).present = false ∧ (0x2 : ZoneSet) &&& t.tables.zonesPresent = 0
     ∧ (0x100 : ZoneSet) &&& t.tables.zonesPresent ≠ 0 ∧ (t.tables.station 5).present = true
     ∧ t.startUp.record = some record3 ∧ record3.serial ≠ 8 ∧ t.isOwn 3 (.join 3 0 0 8) = false)
    ∧ (let t := joining.settle
       t.isOwn 3 (.join 3 0x60 0x40 7) = true ∧ (t.tables.station 3).present = false
       ∧ (0x60 : ZoneSet) &&& t.tables.zonesPresent = 0 ∧ t.line.phase ≠ .unread ∧ t.member.station = .joining) := by decide

theorem test_clauses_of_PresenceIsApplied :
    let t := (at3 .member).settle
    let m (d : Descriptor) : Message := .presence 7 0x100 0 0 d
    (m (.stream 3 0 0 0 0 0)).inRange = true ∧ (m (.stream 0 1 2 1 0 255)).inRange = true
    ∧ (m (.stream 0 2 0 8 3 30)).inRange = true ∧ (m (.call 1 2 20 255 255 255 0x100)).inRange = true
    ∧ (m (.call 1 0 255 255 255 255 0)).inRange = true ∧ (m (.other 2)).inRange = false
    ∧ (t.tables.station 5).present = true ∧ (t.tables.station 4).present = false
    ∧ impossibleDescriptor 1 .voiceDownlink 1 0 255 = false ∧ impossibleDescriptor 2 .programme 8 3 30 = false
    ∧ impossibleDescriptor 2 .programme 8 3 33 = true ∧ (t.tables.call (1 - 1)).state = .none
    ∧ ((inCall .active).settle.tables.call (1 - 1)).state = .active := by decide

theorem test_clauses_of_LeaveRemovesTheSender :
    (let t := { drove .leave with member.station := .leaving }.settle; t.isOwn 3 .leave = true)
    ∧ (let t := (at3 .member).settle
       t.isOwn 5 .leave = false ∧ (5 : Fin 16).val ≠ t.number ∧ (t.tables.station 5).present = true
       ∧ (t.tables.station 4).present = false ∧ t.tables.slots.getD 39 .free = .owned 20 ∧ 20 / 4 = (5 : Fin 16).val
       ∧ (3 : Fin 16).val = t.number ∧ t.isOwn 3 .leave = false ∧ (t.tables.station 3).present = true)
    ∧ (let t := (inCall .active).settle; (t.tables.call 0).owner = some (5 : Fin 16).val) := by decide

theorem test_clauses_of_OfferIsJudged :
    let t := (at3 .member).settle
    (Message.offer 4 0 1 0).inRange = false ∧ (Message.offer 3 4 8 3).inRange = true ∧ kindOf 4 = some .reference
    ∧ kindOf 2 = some .voiceDownlink ∧ (Message.offer 0 2 1 1).inRange = true
    ∧ (t.tables.station 5).present = true ∧ (t.tables.station 4).present = false
    ∧ t.tables.entry (5 * 4 + 3) = .none
    ∧ t.tables.entry (5 * 4 + 0) = .carried { kind := .voiceDownlink, channels := 1, cls := 0 } 39 := by decide

/-- The member that knows station 5's stream 21 as OFFERED. -/
def offered21 (channels cls : Nat) : State :=
  { at3 .member with
    tables.directory := (at3 .member).tables.directory.set 21
      (.offered { kind := .programme, channels := channels, cls := cls }) }

theorem test_clauses_of_ClaimIsJudgedInOrder :
    (let t := (offered21 2 3).settle
     t.tables.entry 21 = .offered { kind := .programme, channels := 2, cls := 3 } ∧ t.tables.entry 22 = .none
     ∧ t.tables.entry 20 = .carried { kind := .voiceDownlink, channels := 1, cls := 0 } 39
     ∧ 39 < 39 + 2 - 1 ∧ t.tables.slots.getD (38 + 1) (.held 0) ≠ .free
     ∧ t.tables.slots.getD (37 + 1) (.held 0) = .free ∧ 38 ≤ 37 + 2 - 1 ∧ 36 + 2 - 1 < 38
     ∧ t.tables.slots.getD 36 (.held 0) = .free ∧ t.tables.slots.getD 37 (.held 0) = .free)
    ∧ (offered21 1 0).settle.tables.slots.getD 38 (.held 0) = .free := by decide

theorem test_clauses_of_ReleaseHoldsTheSlots_and_WithdrawEndsTheStream :
    let t := (offered21 1 0).settle
    t.tables.entry (5 * 4 + 0) = .carried { kind := .voiceDownlink, channels := 1, cls := 0 } 39
    ∧ t.tables.slots.getD 39 .free = .owned 20 ∧ t.tables.entry (5 * 4 + 1) ≠ .none ∧ t.tables.entry (5 * 4 + 3) = .none
    ∧ (t.tables.station 5).present = true ∧ (t.tables.station 4).present = false
    ∧ ((inCall .active).settle.tables.call 0).downlink = some 20 := by decide

/-- The member with an entry of stream 20 in its zone 5. -/
def routed (st : RouteState) (gain : Gain) : State :=
  { at3 .member with mixer.zones := State.reset.mixer.zones.set 0 { Zone.reset with
      routes := [{ stream := 20, cls := some 0, level := 63, state := st, ramp := .at gain, age := 0 }] } }

theorem test_clauses_of_RoutesAreJudgedByTheOwner :
    (let t := (offered21 1 0).settle
     t.ownZone 5 = some 0 ∧ t.ownZone 8 = none ∧ 0 < t.mixer.zones.length ∧ t.member.station.drives = true
     ∧ t.routeCode 0 21 0 = 0 ∧ t.routeCode 0 20 0 = 2 ∧ t.routeCode 0 22 0 = 1 ∧ t.routeCode 0 21 1 = 1)
    ∧ (let t := (routed .live 5).settle; t.routeCode 0 20 1 = 0 ∧ t.routeCode 0 20 2 = 0)
    ∧ (let t := (routed .leaving 5).settle; t.routeCode 0 20 2 = 0)
    ∧ (at3 .listening).settle.member.station.drives = false := by decide

theorem test_clauses_of_ARouteAnswerTellsItsRequester :
    let t := (at3 .member).settle
    (3 : Byte).toNat = t.number ∧ t.hasHost = true ∧ (4 : Byte).toNat ≠ t.number ∧ t.line.sent = none := by decide

theorem test_clauses_of_the_call_statements :
    (let t := (at3 .member).settle
     let downlink := t.tables.entry 20
     (Message.call 0 0 ringFields).inRange = true ∧ (t.tables.station 5).present = true ∧ (t.tables.call 0).state = .none
     ∧ presentByte ringFields.downlink = some 20 ∧ 20 / 4 = (5 : Fin 16).val
     ∧ downlink.parameters = some { kind := .voiceDownlink, channels := 1, cls := 0 }
     ∧ ringFields.zones &&& ~~~t.tables.zonesPresent = 0 ∧ ringFields.zones &&& t.tables.privateZonesPresent = 0
     ∧ (Message.call 2 0 ringFields).inRange = false ∧ (t.tables.station 4).present = false)
    ∧ (let t := (inCall .ringing).settle
       (t.tables.call 0).owner = some 5 ∧ (t.tables.call 0).state = .ringing ∧ (Message.call 0 1 emptyCallFields).inRange = true
       ∧ (t.tables.call 0).owner ≠ some 4 ∧ (t.tables.station 5).roles.mics = true)
    ∧ (inCall .active).settle.tables.call 0 = { CallRecord.none with state := .active, owner := some 5, downlink := some 20,
                                                                     zones := 0x20 }
    ∧ ((inCall .held).settle.tables.call 0).state = .held
    ∧ (∀ a : Fin 6, (Message.call 0 (BitVec.ofNat 8 a.val) emptyCallFields).inRange = true) := by decide

/-- The member with a note from station 5 in its box. -/
def boxed (b : NoteBox) : State := { at3 .member with note.box := b }

theorem test_clauses_of_ANotePartFillsTheBox :
    (let t := (at3 .member).settle
     t.member.station.takesPart = true ∧ (3 : Byte).toNat = t.number ∧ t.note.box = .free ∧ t.hasHost = true)
    ∧ (boxed (.filling 5 17 1 0 (List.replicate 16 1))).settle.note.box = .filling 5 17 1 0 (List.replicate 16 1)
    ∧ 1 = (17 - 1) / 16 ∧ 0 < (17 - 1) / 16 ∧ 0 = (16 - 1) / 16
    ∧ (boxed (.full 5 1 0 [1])).settle.note.box = .full 5 1 0 [1] := by decide

/-! ## Hypotheses of the statements are met: what falls due -/

theorem test_clauses_of_StationMovesFallDue :
    (let s := { at3 .member with line.selfVeto := 31 }; s.member.station.takesPart = true ∧ s.line.selfVeto < 32)
    ∧ (let s := { at3 .member with line.selfVeto := 32 }; s.member.station.takesPart = true ∧ 32 ≤ s.line.selfVeto)
    ∧ (let s := at3 .silenced; s.member.station = .silenced ∧ s.member.silenceCount = 0)
    ∧ (let s := { at3 .silenced with member.silenceCount := 1 }; s.member.silenceCount ≠ 0)
    ∧ (let due (s : State) : Bool := decide (s.member.station = .listening ∧ s.member.undamaged = 12800 ∧ s.line.phase = .over)
          && s.tables.roster.all (fun e => !e.present || decide (e.completeness = .complete))
       let taken := { at3 .listening with member.undamaged := 12800,
                                          tables.roster := LineTables.reset.roster.set 3 { entryOf 0 with completeness := .complete } }
       let zone := { at3 .listening with member.undamaged := 12800,
                                         tables.roster := LineTables.reset.roster.set 5 { entryOf 0x20 with completeness := .complete } }
       let free := { at3 .listening with member.undamaged := 12800, tables.roster := LineTables.reset.roster }
       due taken = true ∧ (taken.tables.station 3).present = true
       ∧ due zone = true ∧ (zone.tables.station 3).present = false ∧ zoneSetOf record3.zones &&& zone.tables.zonesPresent ≠ 0
       ∧ due free = true ∧ zoneSetOf record3.zones &&& free.tables.zonesPresent = 0
       ∧ due { free with member.undamaged := 12799 } = false ∧ free.startUp.record = some record3) := by decide

theorem test_clauses_of_HoldsAndCountersRunOut :
    (let s := { at3 .member with tables.slots := State.reset.tables.slots.set 39 (.held 0), line.presenceCounter := 2048 }
     s.tables.slots.getD (39 : Fin 40).val .free = .held 0 ∧ s.tables.slots.getD (0 : Fin 40).val .free ≠ .held 0
     ∧ s.member.station = .member ∧ 2048 ≤ s.line.presenceCounter)
    ∧ (at3 .member).line.presenceCounter < 2048 := by decide

/-- The state in which a station's entry has an age. -/
def agedAt (s : State) (n age : Nat) : State :=
  { s with tables.roster := s.tables.roster.set n { s.tables.station n with age := age } }

theorem test_clauses_of_AnAgedStationIsRemoved :
    (let s := agedAt (inCall .active) 5 8192
     (s.tables.station (5 : Fin 16).val).present = true ∧ 8192 ≤ (s.tables.station 5).age ∧ 5 ≠ s.number
     ∧ s.tables.slots.getD 39 .free = .owned 20 ∧ (s.tables.call 0).owner = some 5)
    ∧ (let s := agedAt (at3 .member) 3 8192; (3 : Fin 16).val = s.number ∧ s.member.station = .member)
    ∧ (let s := agedAt (at3 .leaving) 3 8192; (3 : Fin 16).val = s.number ∧ s.member.station = .leaving)
    ∧ ((agedAt (at3 .member) 5 8191).tables.station 5).age < 8192
    ∧ (let s := { at3 .member with tables.calls := [{ CallRecord.none with state := .held, owner := some 5, mic := some 3 },
                                                    CallRecord.none] }
       (s.tables.call 0).owner ≠ some 3 ∧ (s.tables.call 0).mic = some 3) := by decide

/-- The mic station of an ACTIVE call, whose own uplink 12 is OFFERED. -/
def talking : State :=
  { at3 .member with
    tables.calls := [{ state := .active, owner := some 5, downlink := some 20, uplink := some 12, reference := none, mic := some 3,
                       zones := 0x20 }, CallRecord.none],
    tables.directory := (at3 .member).tables.directory.set 12 (.offered { kind := .voiceUplink, channels := 1, cls := 0 }),
    call.retryArmed := true, call.retry := 0,
    startUp.carryRetry := State.reset.startUp.carryRetry.set 0 { count := 0, armed := true } }

theorem test_clauses_of_NoteCountsAndRetriesRunOut :
    (boxed (.filling 5 17 1 512 [])).note.box = .filling 5 17 1 512 []
    ∧ (boxed (.full 5 1 48000 [1])).note.box = .full 5 1 48000 [1]
    ∧ (at3 .member).call.retryArmed = false
    ∧ (let s := talking
       s.call.retryArmed = true ∧ s.call.retry = 0 ∧ s.member.station.drives = true ∧ s.demandedUplink = some 12
       ∧ s.tables.entry 12 = .offered { kind := .voiceUplink, channels := 1, cls := 0 } ∧ 12 / 4 = s.number
       ∧ s.hasOutgoing .callUnit Message.isClaim = false ∧ s.line.queue.length < 8
       ∧ s.startUp.carryRetry.getD 0 { count := 0, armed := false } = { count := 0, armed := true }
       ∧ s.startUp.carryRetry.getD 1 { count := 0, armed := false } = { count := 0, armed := false }
       ∧ s.tables.entry (s.number * 4 + 0) = .offered { kind := .voiceUplink, channels := 1, cls := 0 }) := by decide

/-! ## The correlator finds and misses (R142) -/

theorem fold_keeps_a_highest_first (d : Int) (x : Score) (l : List (Score × Nat))
    (h : ∀ p, p ∈ l → Score.higher d p.1 x = false) :
    l.foldl (fun best p => if Score.higher d p.1 best.2 then (p.2, p.1) else best) (0, x) = (0, x) := by
  induction l with
  | nil => rfl
  | cons a rest ih =>
    rw [List.foldl_cons, h a (by simp)]
    exact ih (fun p hp => h p (List.mem_cons_of_mem _ hp))

theorem scores_stand_in_order (c : Correlator) (p : Score × Nat) (h : p ∈ ((List.range 4096).map c.score).zipIdx) :
    p.1 = c.score p.2 := by
  obtain ⟨x, i⟩ := p
  have := List.mem_zipIdx' h
  rw [this.2]; simp

theorem a_lone_agreement_is_found (c : Correlator) (alone : ∀ j, j ≠ 0 → c.score j = { product := 0, energy := 0 })
    (first : Score.higher c.digitalEnergy (c.score 0) (c.score 0) = false)
    (rest : Score.higher c.digitalEnergy { product := 0, energy := 0 } (c.score 0) = false)
    (strong : Score.strong c.digitalEnergy (c.score 0) = true) : c.result = some (-2048) := by
  have hd : ((List.range 4096).map c.score).headD { product := 0, energy := 0 } = c.score 0 := by
    rw [List.range_eq_range', List.range'_succ, List.map_cons, List.headD_cons]
  have hp : peakOf c.digitalEnergy ((List.range 4096).map c.score) = (0, c.score 0) := by
    unfold peakOf
    rw [hd]
    apply fold_keeps_a_highest_first
    intro p h
    rw [scores_stand_in_order c p h]
    by_cases hz : p.2 = 0
    · rw [hz]; exact first
    · rw [alone _ hz]; exact rest
  have hc : (((List.range 4096).map c.score).zipIdx.all (fun p =>
      decide ((p.2 : Int) - (0 : Nat) ≤ 16 ∧ ((0 : Nat) : Int) - p.2 ≤ 16)
        || Score.clears c.digitalEnergy (c.score 0) p.1)) = true := by
    rw [List.all_eq_true]
    intro p h
    rw [scores_stand_in_order c p h]
    by_cases hz : p.2 = 0
    · rw [hz, Bool.or_eq_true]; left; decide
    · rw [alone _ hz]
      simp [Score.clears]
  unfold Correlator.result
  simp only [hp, hc, strong, Bool.and_self, if_true]
  rfl

theorem no_digital_energy_agrees_with_nothing (c : Correlator) (h : c.digitalEnergy = 0) : c.result = none := by
  have weak : ∀ peak, Score.strong 0 peak = false := by
    intro peak
    unfold Score.strong; rw [decide_eq_false_iff_not]; rintro ⟨h, -⟩; exact absurd h (by decide)
  unfold Correlator.result
  simp only [h, weak, Bool.false_and, Bool.false_eq_true, if_false]

/-- A correlator whose window agrees with the lowest candidate alone. -/
def agreeing : Correlator :=
  { Correlator.stopped with phase := .forming, done := 64, analogue := List.replicate 64 0 ++ [3], digital := [3] }

theorem test_a_clear_agreement_is_found : agreeing.result = some (-2048) :=
  a_lone_agreement_is_found agreeing
    (fun j hj => by
      unfold Correlator.score
      rw [show agreeing.analogue.drop (64 + j) = [] by rw [List.drop_eq_nil_iff]; simp [agreeing]; omega]
      rfl)
    (by decide) (by decide) (by decide)

theorem test_silence_agrees_with_nothing : Correlator.stopped.result = none :=
  no_digital_energy_agrees_with_nothing _ (by decide)

/-! ## Hypotheses of the statements are met: the blocks that count local samples -/

/-- The member with its decoder buffer at a fill, reading, and its slip guard at a count. -/
def buffered (fill guard : Nat) : State :=
  { at3 .member with ports.buffer := List.replicate fill { sample := .zero, quality := .good }, ports.reading := true,
                     ports.slipGuard := guard }

/-- The member with a cadence: channel 0 leads, channels 1 and 2 follow it. -/
def cadenced (running : Bool) (time remaining : Nat) : State :=
  let leader : CadenceChannel := { CadenceChannel.reset with role := .leader, running := running, time := time }
  let follower : CadenceChannel := { CadenceChannel.reset with role := .follower 0, stagedDelay := 5, remaining := remaining,
                                                               counting := true, activeClip := 1, stagedClip := 1 }
  { at3 .member with
    announce.channels := ((State.reset.announce.channels.set 0 leader).set 1 follower).set 2
      { follower with stagedDelay := 0, counting := false } }

theorem test_clauses_of_ALocalSampleMovesTheBlocks :
    (at3 .dormant).settle.member.station = .dormant ∧ (at3 .member).settle.ports.reading = false
    ∧ (let p := (buffered 0 64).settle.ports; p.reading = true ∧ p.buffer = [])
    ∧ (let p := (buffered 7 63).settle.ports; p.slipGuard < 64 ∧ p.buffer.length = 7)
    ∧ (let p := (buffered 8 64).settle.ports; 8 ≤ p.buffer.length ∧ p.buffer.length ≤ 56)
    ∧ (let p := (buffered 7 64).settle.ports; p.buffer.length < 8 ∧ 64 ≤ p.slipGuard ∧ p.balance.natAbs < 257)
    ∧ (let p := (buffered 57 64).settle.ports; 56 < p.buffer.length ∧ 64 ≤ p.slipGuard ∧ p.balance.natAbs < 257)
    ∧ (following .freeRun 0 0 .closing 10).settle.follower.gate = .closing
    ∧ (following .locked 9 0 .opening 479).settle.follower.gate = .opening
    ∧ (following .locked 9 0 .open 480).settle.follower.gate = .open
    ∧ (let t := (cadenced true 7 7).settle
       (t.channel 0).role = .leader ∧ (t.channel 0).running = true ∧ (t.channel 1).role = .follower 0
       ∧ (t.channel 1).counting = true)
    ∧ (at3 .member).settle.blend.state = .idle ∧ (at3 .member).settle.call.state = .off := by decide

theorem test_clauses_of_DecoderSamplesAndQuality :
    (at3 .dormant).settle.member.station = .dormant
    ∧ (let p := (buffered 64 64).settle.ports; 64 ≤ p.buffer.length ∧ p.reading = true)
    ∧ (let p := { buffered 30 64 with ports.reading := false }.settle.ports; p.reading = false ∧ p.buffer.length + 1 < 32)
    ∧ (let p := { buffered 31 64 with ports.reading := false }.settle.ports; p.buffer.length < 64 ∧ 32 ≤ p.buffer.length + 1)
    ∧ (let s := { at3 .member with ports.blockReads := 1024, ports.blockWorst := .poor, blend.state := .digital, blend.poorRun := 1 }
       1024 ≤ s.ports.blockReads ∧ Quality.poor = s.ports.blockWorst ∧ blendAfterQuality s.blend .poor = .toAnalogue)
    ∧ (at3 .member).ports.blockReads < 1024 ∧ (at3 .member).ports.arrivalGap < (at3 .member).ports.nextLost
    ∧ (let s := { at3 .member with ports.arrivalGap := 64, blend.state := .toDigital }
       s.ports.nextLost ≤ s.ports.arrivalGap ∧ blendAfterQuality s.blend .lost = .toAnalogue)
    ∧ blendAfterQuality { Blend.reset with state := .analogue, goodRun := 7 } .good = .aligning
    ∧ blendAfterQuality { Blend.reset with state := .analogue, goodRun := 6 } .good = .analogue := by decide

/-- The member with a bank in a state. -/
def banked (st : BankState) (burst : Option QueueId) : State :=
  { at3 .member with store.banks := State.reset.store.banks.set 2 { Bank.reset with state := st, burst := burst, debt := 15 } }

theorem test_clauses_of_BanksCompleteAndTheArbiterActs :
    ((banked (.opening 3) none).settle.store.bank (2 : Fin 8).val).state = .opening 3
    ∧ ((banked .closing none).settle.store.bank 2).state = .closing
    ∧ ((banked .refreshing none).settle.store.bank 2).state = .refreshing
    ∧ ((banked (.open 511) none).settle.store.bank 2).state = .open 511
    ∧ (let s := { banked .idle none with store.refreshTick := 6 }
       6 ≤ s.store.refreshTick ∧ s.store.banks.length = 8 ∧ (s.store.bank 2).debt = 15 ∧ (s.store.bank 1).debt ≠ 15)
    ∧ (let s := { at3 .member with store.refreshTick := 6 }
       6 ≤ s.store.refreshTick ∧ s.store.banks.length = 8 ∧ ∀ b : Fin 8, (s.store.bank b.val).debt ≠ 7)
    ∧ (at3 .member).store.refreshTick < 6
    ∧ ({ at3 .member with store.retention := true, store.budget := 0 } : State).store.budget = 0 := by decide

/-- The member with a burst of the load queue in flight. -/
def bursting (access : Access) : State :=
  { banked (.open 0) (some .loading) with
    store.queues := [[], [], [], [], [{ queue := .loading, access := access, word := 8, short := true, data := [(0, 5), (3, 6)],
                                        closeAfter := false, deadline := none, late := false, purpose := .clipWrite 1 }]] }

theorem test_clauses_of_ABurstMovesItsWords :
    ((at3 .member).settle.store.bank 2).burst = none
    ∧ (let t := (bursting .write).settle
       (t.store.bank 2).burst = some .loading ∧ t.store.queue .loading ≠ [] ∧ t.store.memory.wf = true
       ∧ ((t.store.queue .loading).map (fun r => (r.access, t.store.address r, r.words))) = [(.write, some 262152, 4)])
    ∧ ((bursting .read).settle.store.queue .loading).map (fun r => r.access) = [.read] := by decide

/-- A ramp of an entry that has taken its 480 steps. -/
def endedRamp : Ramp := { start := 0, target := 9, current := 9, steps := 480, running := true }

/-- The member whose zone 5 holds an entry with an ended ramp and a call position with one. -/
def ramping (st : RouteState) : State :=
  { at3 .member with
    mixer.zones := State.reset.mixer.zones.set 0
      { routes := [{ stream := 20, cls := some 0, level := 63, state := st, ramp := endedRamp, age := 0 }],
        position := { state := .live, downlink := some 20, record := some 0, ramp := endedRamp }, sum := .zero } }

theorem test_clauses_of_RampsEnd :
    (following .freeRun 0 0 .closing 0).follower.gain = 0 ∧ 480 ≤ (following .locked 9 0 .opening 480).follower.gain
    ∧ (following .locked 9 0 .opening 479).follower.gain < 480
    ∧ (let s := ramping .leaving
       (s.zone 0).position.ramp.running = true ∧ (s.zone 0).position.ramp.steps = 480 ∧ 0 < s.mixer.zones.length
       ∧ ((s.zone 0).routes.find? (fun e => e.stream == 20)).map (fun e => (e.state, e.ramp)) = some (.leaving, endedRamp))
    ∧ (((ramping .live).zone 0).routes.find? (fun e => e.stream == 20)).map (fun e => e.state) = some .live
    ∧ ((at3 .member).zone 3).position.ramp.running = false := by decide

/-- The member with its blend engine in a state. -/
def blending (st : BlendState) : State := { at3 .member with blend.state := st }

theorem test_clauses_of_BlendMovesAndResults :
    (let s := { blending .filling with blend.fill := 24000 }
     s.blend.state = .filling ∧ (s.nominalDelay : Int) + s.blend.correction + s.ports.balance ≤ s.blend.fill)
    ∧ 2400 ≤ ({ blending .toDigital with blend.mix := 2400 } : State).blend.mix
    ∧ (blending .toAnalogue).blend.mix = 0
    ∧ ({ blending .digital with blend.crossfade := some { old := { serial := 0, held := [] }, delay := 0, weight := 480 } } :
        State).blend.crossfade.map (fun f => f.weight) = some 480
    ∧ 4096 ≤ ({ Correlator.stopped with phase := .priming, done := 4096 } : Correlator).done
    ∧ agreeing.phase = .forming ∧ 64 ≤ agreeing.done
    ∧ (-2048 : Int) ≤ -2048 + 0 ∧ ¬((-2048 : Int) ≤ -2048 + -1)
    ∧ ({ Blend.reset with attempts := 1 } : Blend).attempts < 2 ∧ 2 ≤ ({ Blend.reset with attempts := 2 } : Blend).attempts := by
  decide

/-- The member whose canceller ends a block. -/
def judging (st : CancellerState) (reference microphone output : Nat) (run : Nat) : State :=
  { at3 .member with
    call.state := st, call.searchDone := true, call.convergedRun := run, call.lossRun := run, call.quietRun := run,
    call.block := { CancellerBlock.start with count := 480, reference := reference, microphone := microphone, estimate := 0,
                                              output := output } }

theorem test_clauses_of_TheCancellerJudgesItsBlocks :
    (at3 .member).call.block.count < 480
    ∧ (let c := (judging .converging 1000000000000 100 1 49).call
       480 ≤ c.block.count ∧ loudEnough c.block.reference = true ∧ loudEnough c.block.microphone = false
       ∧ c.erleHigh 0 = true ∧ c.block.unfrozen = true ∧ c.block.whole = true)
    ∧ (let c := (judging .converged 1000000000000 1 1 9).call; c.erleLow 0 = true)
    ∧ (let c := (judging .converged 1000000000000 1000000000000 1 0).call
       (loudEnough c.block.microphone && decide (1000 * c.block.estimate ^ 5 ≤ c.block.microphone ^ 5)) = true)
    ∧ (judging .doubleTalk 0 0 0 9).call.quietRun = 9
    ∧ (let c := { judging .converging 1000000000000 100 1 0 with call.searchDone := false, call.gathered := 19 }.call
       c.searchDone = false ∧ 19 ≤ c.gathered)
    ∧ (let c := { at3 .member with call.frozen := true }.call; c.frozen = true ∧ c.freeze = 0)
    ∧ (judging .converged 0 0 0 0).call.usable = false := by decide

theorem test_clauses_of_CadencesAndPlaysFallDue :
    let held : Play := { clip := 1, level := 63, repeats := 1, done := 1, position := 0, starter := .host, groups := [], wait := 0,
                         finished := true, serial := 0 }
    (let s := cadenced true 0 0
     (s.channel 0).role = .leader ∧ (s.channel 0).running = true ∧ (s.channel 0).time = 0
     ∧ (s.channel 1).role = .follower 0 ∧ (s.channel 1).stagedDelay ≠ 0 ∧ (s.channel 2).stagedDelay = 0
     ∧ (s.channel 3).role ≠ .follower 0)
    ∧ (let s := cadenced true 7 0
       (s.channel 1).role = .follower 0 ∧ (s.channel 1).counting = true ∧ (s.channel 1).remaining = 0
       ∧ ¬((s.channel 0).role = .leader ∧ (s.channel 0).running = true ∧ (s.channel 0).time = 0)
       ∧ (s.clip (s.channel 1).activeClip).state.playable = false ∧ s.announce.plays.getD 0 none = none)
    ∧ (let s := { cadenced true 7 0 with
         announce.clips := State.reset.announce.clips.set 1 { state := .ready, offset := 0, length := 8, received := 0, written := 0 } }
       (s.clip (s.channel 1).activeClip).state.playable = true)
    ∧ (let s := { at3 .member with announce.plays := [some held, none, none, some { held with starter := .follower 1 }] }
       s.announce.plays.getD (0 : Fin 4).val none = some held ∧ held.finished = true
       ∧ s.announce.plays.getD (3 : Fin 4).val none = some { held with starter := .follower 1 }) := by decide

theorem test_the_member_has_fixed_sizes : (cadenced true 7 7).fixedSizes := by
  unfold State.fixedSizes State.tableSizes; decide

/-- The member whose zone 5 mixes a LIVE entry near the end of its ramp and a LIVE call position; zone 6 waits. -/
def mixing : State :=
  let near : Ramp := { endedRamp with steps := 479 }
  let entry : RouteEntry := { stream := 20, cls := some 0, level := 63, state := .live, ramp := near, age := 0 }
  { at3 .member with
    mixer.zones := (State.reset.mixer.zones.set 0
        { routes := [entry], position := { state := .live, downlink := some 20, record := some 0, ramp := near }, sum := .zero }).set 1
      { Zone.reset with routes := [{ entry with state := .waiting, ramp := .at 0 }] } }

theorem test_audio_clauses_of_ALocalSampleMovesTheBlocks :
    let t := mixing.settle
    t.ports.outputs.length = 6 ∧ t.mixer.paths.length = 6 ∧ t.mixer.zones.length = 4
    ∧ (t.zone 0).routes.map (fun e => (e.ramp.running, e.ramp.steps)) = [(true, 479)]
    ∧ (t.zone 0).position.ramp.running = true ∧ (t.zone 0).position.ramp.steps = 479
    ∧ (∀ e ∈ (t.zone 1).routes, e.state = .waiting) ∧ (t.zone 1).position.state ≠ .live
    ∧ (∀ d ∈ t.definitions, ∀ o ∈ d.pairs, o.pair ≠ 5)
    ∧ t.definitions.map (fun d => d.pairs.map (fun o => o.pair)) = [[0], [1]]
    ∧ (t.definitions.flatMap (fun e => e.pairs)).Pairwise (fun a b => a.pair ≠ b.pair)
    ∧ ((t.path 0).ring.write + 1) % 8 ≠ 0 := by decide

/-- A read of the head of a queue, at a word of its client's region. -/
def head (q : QueueId) (word : Nat) : Request :=
  { queue := q, access := .read, word := word, short := false, data := [], closeAfter := false, deadline := none, late := false,
    purpose := .clipRead 0 0 0 }

/-- The member's store with a BLEND head on row 0 of bank 1, a loading head on row 0 of bank 2, and these banks in a state. -/
def contended (blend loading : Bank) (budget allowance : Nat) : Store :=
  { (at3 .member).store with
    queues := [[], [], [head .blend 8], [], [head .loading 8]], budget := budget, allowance := allowance,
    banks := (State.reset.store.banks.set 1 blend).set 2 loading }

theorem test_the_heads_claim_their_rows (b l : Bank) (h : b.burst = none ∧ l.burst = none) :
    (contended b l 6 2).claims .blend 1 0 ∧ (contended b l 6 2).claims .loading 2 0 := by
  have named : (contended .reset .reset 6 2).named (head .blend 8) = some (1, 0, 8)
      ∧ (contended .reset .reset 6 2).named (head .loading 8) = some (2, 0, 8) := by decide
  refine ⟨⟨head .blend 8, [], 8, rfl, ?_, named.1⟩, ⟨head .loading 8, [], 8, rfl, ?_, named.2⟩⟩ <;>
    simp [Store.inFlight, contended, h.1, h.2, State.reset, Store.reset, Bank.reset]

theorem test_only_its_queue_claims_a_bank (p : QueueId) (row : Nat) (h : (contended .reset .reset 6 2).claims p 1 row) :
    p = .blend := by
  obtain ⟨r, rest, w, hq, -, hn⟩ := h
  cases p <;> simp [Store.queue, contended, QueueId.place] at hq
  · rfl
  · obtain ⟨rfl, rfl⟩ := hq
    have : (contended .reset .reset 6 2).named (head .loading 8) = some (2, 0, 8) := by decide
    rw [this] at hn; cases hn

theorem test_arbiter_clauses_of_BanksCompleteAndTheArbiterActs :
    (let st := contended { Bank.reset with debt := 8 } { Bank.reset with state := .open 3, debt := 8 } 6 2
     st.retention = false ∧ st.banks.length = 8 ∧ (st.bank 1).state = .idle ∧ (st.bank 2).state = .open 3
     ∧ st.idleBanks (fun c => decide (8 ≤ (st.bank c).debt) && st.refreshedBefore c 1) < st.budget)
    ∧ (let st := contended { Bank.reset with state := .open 0 } { Bank.reset with state := .open 3 } 6 2
       (st.bank 1).burst = none ∧ 3 ≠ 0 ∧ st.openingsOf 4 + min st.allowance (st.idleBanks (fun c => decide (1 ≤ (st.bank c).debt)))
         < st.budget)
    ∧ (let st := contended .reset .reset 1 2
       (st.bank 1).debt = 0 ∧ st.idleBanks (fun c => decide (8 ≤ (st.bank c).debt)) + st.openingsOf 2 < st.budget
       ∧ ¬(st.openingsOf 4 < st.budget))
    ∧ (let st := contended { Bank.reset with debt := 7 } { Bank.reset with debt := 1 } 2 1
       st.idleBanks (fun e => decide (1 ≤ (st.bank e).debt ∧ (st.bank e).debt < 8) && st.refreshedBefore e 2) = 1
       ∧ st.idleBanks (fun e => decide (1 ≤ (st.bank e).debt ∧ (st.bank e).debt < 8) && st.refreshedBefore e 1) = 0
       ∧ st.openingsOf 4 + 0 < st.budget ∧ 0 < st.allowance)
    ∧ (contended .reset .reset 0 0).budget = 0 ∧ (contended .reset .reset 0 0).allowance = 0 := by decide

theorem test_clauses_of_requests_and_boundaries_of_ABurstMovesItsWords :
    (let s := at3 .member
     s.store.queues.length = 5 ∧ s.store.banks.length = 8 ∧ s.store.spaceOf .echo = 0 ∧ s.store.spaceOf .clip ≠ 0)
    ∧ (let s := { at3 .member with store.queues := [[], [], [], [], List.replicate 4 (head .loading 8)] }
       4 ≤ (s.store.queue .loading).length)
    ∧ { head .loading 8 with deadline := some 7 }.reached 7 = true ∧ { head .loading 8 with deadline := some 8 }.reached 7 = false
    ∧ (head .loading 8).reached 7 = false ∧ { head .loading 8 with deadline := some 0xFFFFFFFF }.reached 0 = true
    ∧ (let t := { at3 .member with store := { contended .reset .reset 6 2 with
                    queues := [[], [], [], [], [{ head .loading 8 with deadline := some 1 }, head .loading 16]] } }.settle
       t.store.lapsed.length = 1 ∧ t.hasHost = true ∧ t.host.events.length + 1 + t.store.lapsed.length ≤ 31)
    ∧ (let t := { bursting .write with store.queues := [[], [], [], [], [{ head .loading 8 with late := true }]] }.settle
       (t.store.queue .loading).map (fun r => r.late) = [true] ∧ t.store.queues.length = 5 ∧ t.store.banks.length = 8) := by decide

theorem test_sample_clauses_of_BlendMovesAndResults :
    (at3 .member).settle.blend.state = .idle ∧ { at3 .member with store.regions := [] }.settle.blendLength = 0
    ∧ (let t := { blending .digital with blend.crossfade := some { old := { serial := 0, held := [] }, delay := 0, weight := 479 } }.settle
       t.blend.state ≠ .idle ∧ 0 < t.blendLength ∧ t.ports.reading = false ∧ t.blend.crossfade.map (fun f => f.weight) = some 479)
    ∧ (blending .toAnalogue).settle.blend.state ≠ .idle ∧ (blending .filling).settle.blend.crossfade = none := by decide

/-- The member whose canceller serves a record with a CARRIED reference and a CARRIED downlink. -/
def cancelling (st : CancellerState) : State :=
  { at3 .member with
    tables.calls := [{ CallRecord.none with state := .active, owner := some 5, downlink := some 20, reference := some 21 },
                     CallRecord.none],
    tables.directory := (at3 .member).tables.directory.set 21 (.carried { kind := .reference, channels := 1, cls := 3 } 36),
    call.state := st, call.served := some 0, call.servedReference := some 21,
    call.usable := true }

theorem test_the_reference_and_the_downlink_are_heard : (cancelling .fallback).hearsReference ∧ (cancelling .fallback).hearsDownlink :=
  ⟨⟨0, 21, by decide⟩, ⟨0, 20, by decide⟩⟩

theorem test_sample_clauses_of_TheCancellerJudgesItsBlocks :
    (at3 .member).settle.call.state = .off ∧ (cancelling .fallback).settle.call.state = .fallback
    ∧ (cancelling .fallback).settle.call.servedReference = some 21
    ∧ (cancelling .converging).settle.call.state = .converging ∧ (cancelling .converging).settle.member.station ≠ .dormant
    ∧ (cancelling .converging).settle.call.coefficients.length = 1024 := by decide

theorem test_more_clauses_of_CadencesAndPlaysFallDue :
    (let c (repetitions : Nat) := { (cadenced true 0 0).channel 0 with stagedRepetitions := repetitions, done := 1 }
     c 2 = { c 2 with running := true, time := 0 } ∧ (2 ≠ 0 ∧ 2 ≤ min 255 ((c 2).done + 1)) ∧ ¬(3 ≤ min 255 ((c 3).done + 1)))
    ∧ (let held (wait position : Nat) (finished : Bool) : Play :=
         { clip := 1, level := 63, repeats := 1, done := 0, position := position, starter := .follower 1, groups := [], wait := wait,
           finished := finished, serial := 0 }
       let t := { cadenced true 7 7 with announce.plays := [some (held 2 0 false), some (held 1 0 false), some (held 1 7 false), none],
                                         announce.clips := (at3 .member).announce.clips.set 1 { state := .ready, offset := 0, length := 8, received := 0, written := 0 } }.settle
       t.announce.plays.length = 4 ∧ (t.clip 1).length = 8
       ∧ t.announce.plays.map (fun (p : Option Play) => p.map (fun (q : Play) => (q.wait, q.position))) = [some (2, 0), some (1, 0), some (1, 7), none]) := by
  decide

theorem test_own_entry_of_AnAgedStationIsRemoved :
    let s := agedAt (at3 .listening) 3 8192
    (3 : Fin 16).val = s.number ∧ s.member.station ≠ .member ∧ s.member.station ≠ .leaving
    ∧ 8192 ≤ (s.tables.station 3).age ∧ (s.tables.station 3).present = true := by decide

/-! ## Hypotheses of the statements are met: requests -/

theorem test_clauses_of_the_requests_that_read :
    let t := (at3 .member).settle
    (t.member.station ≠ .dormant ∧ t.member.station ≠ .offline)
    ∧ (63 : Byte).toNat < 64 ∧ t.ownZone (5 : Byte).toNat = some 0 ∧ t.ownZone (6 : Byte).toNat = some 1
    ∧ t.definitions[0]? = record3.zones[0]? ∧ t.ownZone (8 : Byte).toNat = none := by decide

theorem test_clauses_of_RequestsAreRefusedByState :
    requestCode .getStatus = some 2 ∧ requestCode (.wake 0) = some 6 ∧ requestCode (.clipLock 3) = some 18
    ∧ (Instr.clipLock 32).wellFormed = true ∧ (at3 .dormant).settle.member.station = .dormant
    ∧ State.reset.settle.member.station = .offline ∧ ¬((32 : Byte).toNat ≤ 31) := by decide

/-- The member whose own stream 12 is OFFERED with 8 channels and whose slots are all HELD. -/
def crowded : State :=
  { at3 .member with
    tables.directory := (at3 .member).tables.directory.set 12 (.offered { kind := .programme, channels := 8, cls := 3 }),
    tables.slots := List.replicate 40 (.held 9) }

/-- The member whose send queue is full. -/
def queueFull : State :=
  { at3 .member with line.queue := (List.range 8).map (fun i => { queued (.release 0) with order := i }), line.nextOrder := 8 }

theorem test_clauses_of_MessageRequestsQueueInMember :
    (at3 .member).settle.requestMessage (.carryStream 0 255) = some (.claim 0 0, true, none)
    ∧ (at3 .member).settle.requestMessage (.dropStream 3) = some (.release 3, false, none)
    ∧ (at3 .member).settle.requestMessage (.offerStream 0 2 1 0 2 0) = some (.offer 0 2 1 0, false, some .announce)
    ∧ bindingOf 2 0 = some .announce ∧ bindingAllowed record3.zones .announce .voiceDownlink = false
    ∧ (at3 .leaving).settle.member.station = .leaving ∧ (at3 .detached).settle.member.station ≠ .member
    ∧ crowded.settle.tables.entry (crowded.settle.number * 4 + 0) = .offered { kind := .programme, channels := 8, cls := 3 }
    ∧ crowded.settle.tables.chooseRun 8 3 = none
    ∧ 8 ≤ queueFull.settle.line.queue.length ∧ (at3 .member).settle.line.queue.length < 8 := by decide

theorem test_clauses_of_StationRequestsMoveTheStation :
    (at3 .member).settle.member.station = .member ∧ 8 ≤ queueFull.settle.line.queue.length
    ∧ (at3 .leaving).settle.member.station = .leaving ∧ (at3 .detached).settle.member.station = .detached
    ∧ { at3 .silenced with member.silenceCount := 5 }.settle.member.station = .silenced
    ∧ (at3 .dormant).settle.member.station = .dormant ∧ (at3 .dormant).settle.startUp.record = some record3
    ∧ (1 : Byte).toNat ≤ 1 ∧ 1 < (2 : Byte).toNat := by decide

theorem test_clauses_of_RouteRequestsAreJudgedOrQueued :
    let t := (at3 .member).settle
    t.ownZone 5 = some 0 ∧ 0 < t.mixer.zones.length ∧ t.routeCode 0 20 0 = 2
    ∧ t.ownZone 8 = none ∧ inSet t.tables.zonesPresent 8 = true ∧ t.ownZone 15 = none ∧ inSet t.tables.zonesPresent 15 = false
    ∧ (offered21 1 0).settle.routeCode 0 21 0 = 0 := by decide

/-- The member with a clip in a state. -/
def clipped (st : ClipState) (received written : Nat) : State :=
  { at3 .member with
    announce.clips := State.reset.announce.clips.set 1 { state := st, offset := 0, length := 8, received := received,
                                                         written := written } }

theorem test_clauses_of_ClipRequestsLoadClips :
    (let t := (clipped .loading 8 8).settle
     (t.clip 1).state = .loading ∧ (t.clip 1).length ≤ (t.clip 1).received ∧ (t.clip 1).written = (t.clip 1).length
     ∧ (t.clip 1).state.holdsWords = true ∧ 0 + 8 ≤ t.store.spaceOf .clip)
    ∧ ((clipped .loading 8 4).settle.clip 1).written ≠ 8 ∧ ((clipped .loading 7 4).settle.clip 1).received < 8
    ∧ ((clipped .locked 0 0).settle.clip 1).state = .locked ∧ ((clipped .ready 0 0).settle.clip 1).state = .ready
    ∧ (let t := { clipped .loading 0 0 with announce.bufferClip := some 2 }.settle; t.announce.bufferClip = some 2)
    ∧ (let t := (clipped .loading 0 0).settle
       (t.store.queue .loading).length < 4 ∧ t.announce.bufferClip = none ∧ t.announce.buffer.length + 8 ≤ 128)
    ∧ 2048 < 2040 + 16 ∧ (at3 .member).settle.store.spaceOf .clip = 2048 := by decide

theorem test_clauses_of_PlayTakesTheLowestPlace :
    let held : Play := { clip := 1, level := 63, repeats := 1, done := 0, position := 0, starter := .host, groups := [], wait := 16,
                         finished := false, serial := 0 }
    ((at3 .member).settle.clip 1).state = .empty ∧ ((clipped .locked 0 0).settle.clip 1).state = .locked
    ∧ (let t := { clipped .ready 0 0 with announce.plays := [some held, none, some held, none] }.settle
       (t.clip 1).state = .ready ∧ t.announce.plays.getD 1 none = none ∧ t.announce.plays.getD 0 none ≠ none)
    ∧ (let t := { clipped .ready 0 0 with announce.plays := List.replicate 4 (some held) }.settle
       ∀ p : Fin 4, t.announce.plays.getD p.val none ≠ none) := by decide

theorem test_clauses_of_CadenceRequestsSetStartAndStop :
    (let t := (cadenced false 48 7).settle
     (t.channel 0).role = .leader ∧ (t.channel 0).running = false ∧ (t.channel 0).trigger = false
     ∧ (t.channel 1).role = .follower 0 ∧ (t.channel 1).stagedDelay ≠ 0 ∧ (t.channel 2).stagedDelay = 0
     ∧ setupRole (.leader 48 0 1) = .leader ∧ setupRole .off = .off ∧ setupRole (.other 3) = .off
     ∧ 48 ≤ (48 : BitVec 24).toNat ∧ (480000 : BitVec 24).toNat ≤ 480000 ∧ (t.channel 7).role ≠ .leader)
    ∧ ((cadenced true 48 7).settle.channel 0).running = true := by decide

theorem test_clauses_of_BlendRequestsEnableAndDisable :
    (let t := (at3 .member).settle
     t.blend.state = .idle ∧ 0 < t.store.rowsOf .blend * 128 ∧ t.nominalDelay + 2368 ≤ t.store.rowsOf .blend * 128)
    ∧ (let t := { at3 .member with store.regions := [] }.settle; t.blend.state = .idle ∧ t.store.rowsOf .blend * 128 = 0)
    ∧ (blending .lockout).settle.blend.state = .lockout ∧ (blending .aligning).settle.blend.state = .aligning := by decide

theorem test_clauses_of_NoteRequestsSendAndRead :
    (let t := (at3 .member).settle
     (5 : Byte).toNat ≠ t.number ∧ (t.tables.station 5).present = true ∧ (t.tables.station 5).roles.attended = true
     ∧ (3 : Byte).toNat = t.number ∧ (Instr.noteSend 5 2 [7, 8]).wellFormed = true ∧ t.note.outbound.state = .idle)
    ∧ { at3 .member with note.outbound.state := .sending 3 }.settle.note.outbound.state = .sending 3
    ∧ (boxed (.full 5 3 0 [7, 8, 9])).settle.note.box = .full 5 3 0 [7, 8, 9]
    ∧ 3 ≤ (3 : Byte).toNat ∧ (1 : Byte).toNat + (1 : Byte).toNat < 3 ∧ 3 ≤ (1 : Byte).toNat + (2 : Byte).toNat := by decide

/-- A transfer that brings a request code, a length and no parameters, with its check. -/
def bareTransfer (code : Byte) : List Byte := [code, 0, 0] ++ inBytes 2 (crcBytes [code, 0, 0]).toNat

theorem test_clauses_of_EventsAndTransfers :
    (let bytes := bareTransfer 1
     5 + 0 ≤ bytes.length ∧ (bytes.drop 3).take 2 = inBytes 2 (crcBytes (bytes.take 3)).toNat
     ∧ lengthMatches 1 ((bytes.drop 3).take 0) = false ∧ (bytes.headD 0).toNat ≠ 0)
    ∧ ([41, 0, 0, 0, 0] : List Byte).drop 3 ≠ inBytes 2 (crcBytes [41, 0, 0]).toNat
    ∧ ((bareTransfer 0).headD 0).toNat = 0 ∧ bareTransfer 0 ≠ []
    ∧ lengthMatches 3 [] = true ∧ requestOf 3 [] = some .leaveLine := by decide

/-! ## Hypotheses of the invariants are met -/

theorem test_reset_meets_the_invariants :
    State.reset.memoryCanonical ∧ State.reset.gateLaw ∧ State.reset.tableSizes ∧ State.reset.directoryLaw
      ∧ State.reset.oneActiveCall ∧ State.reset.queueLaw := by
  unfold State.memoryCanonical State.gateLaw State.tableSizes State.directoryLaw State.oneActiveCall State.queueLaw
  decide

theorem test_the_member_in_a_call_meets_the_invariants :
    let s := { inCall .active with pending := [.localSample quiet], store.memory := [(262144, 5)] }
    s.memoryCanonical ∧ s.gateLaw ∧ s.tableSizes ∧ s.directoryLaw ∧ s.oneActiveCall ∧ s.queueLaw := by
  unfold State.memoryCanonical State.gateLaw State.tableSizes State.directoryLaw State.oneActiveCall State.queueLaw
  decide

/-! ## Small steps: what one command makes of a small state -/

/-- The state after a command. -/
def run (c : Instr) (s : State) : State := after (exec c s)

/-- The status of the response that a request leaves. -/
def status (c : Instr) (s : State) : Option Status := (run c s).host.response.map (fun r => r.status)

/-- The result bytes that a request leaves. -/
def results (c : Instr) (s : State) : List Byte := ((run c s).host.response.map (fun r => r.results)).getD []

/-! ## Hypotheses of the clauses on zones, on own messages, on slips, gaps and overdue banks are met -/

theorem test_own_message_clause_of_TheTailDecides :
    let t := (drove (.release 0)).settle
    t.hears ∧ t.orderLaw ∧ (3 : Fin 16).val = t.number ∧ t.line.sent = some (.queued 0 (.release 0))
    ∧ t.line.queue.find? (fun e => e.order == 0) = some (queued (.release 0)) ∧ (queued (.release 0)).originator = .host
    ∧ (Message.release 0).kindCode ≠ 1 ∧ Message.release 0 ≠ .leave ∧ t.hasHost = true := by
  unfold State.hears State.orderLaw; decide

/-- The joining station with a record of one autonomous offer, to be carried, and its JOIN alone in the queue. -/
def offering : State :=
  { joining with
    startUp.record := some { record3 with
      offers := [{ index := 1, kind := .announce, channels := 1, cls := 3, binding := .announce, carry := true }] },
    line.queue := joining.line.queue.map (fun e => { e with originator := .membership }) }

theorem test_offers_clause_of_JoinIsJudged :
    let t := offering.settle
    t.hears ∧ t.tableSizes ∧ t.member.station = .joining ∧ t.line.waiting = []
    ∧ t.line.queue = [{ queued (.join 3 0x60 0x40 7) with originator := .membership }]
    ∧ t.line.sent = some (.queued 0 (.join 3 0x60 0x40 7)) ∧ (t.startUp.record.map (fun r => r.offers.length)) = some 1
    ∧ (run (.join 3 3 0x60 0x40 7) offering).line.queue.map (fun e => (e.message, e.auto, e.companion))
        = [(.offer 1 (BitVec.ofNat 8 (kindCode .announce)) 1 3, false, some .announce), (.claim 1 0, true, none)] := by
  unfold State.hears State.tableSizes; decide

/-- The member that has driven its PRESENCE with a descriptor in this frame, its pointer at a place. -/
def declaring (p : Pointer) (d : Descriptor) : State :=
  let m : Message := .presence 11 0x60 0x40 0 d
  { at3 .member with line.phase := .slotsPassed, line.field := .passed 3 m, line.sent := some (.presence m), line.presenceDue := true,
                     line.presenceCounter := 2048, member.pointer := p }

theorem test_own_clauses_of_PresenceIsApplied :
    (let t := (declaring (.stream 3) (.stream 3 0 0 0 0 0)).settle
     t.hears ∧ (3 : Fin 16).val = t.number ∧ t.line.sent = some (.presence (.presence 11 0x60 0x40 0 (.stream 3 0 0 0 0 0)))
     ∧ t.member.pointer = .stream 3)
    ∧ (run (.presence 3 11 0x60 0x40 0 (.stream 3 0 0 0 0 0)) (declaring (.stream 3) (.stream 3 0 0 0 0 0))).member.pointer = .callFrom 0
    ∧ (run (.presence 3 11 0x60 0x40 0 (.stream 0 0 0 0 0 0)) (declaring (.callFrom 1) (.stream 0 0 0 0 0 0))).member.pointer = .stream 1
    ∧ (run (.presence 3 11 0x60 0x40 0 (.call 0 0 255 255 255 255 0))
        (declaring (.callFrom 0) (.call 0 0 255 255 255 255 0))).member.pointer = .callFrom 1
    ∧ (run (.presence 3 11 0x60 0x40 0 (.call 1 0 255 255 255 255 0))
        (declaring (.callFrom 0) (.call 1 0 255 255 255 255 0))).member.pointer = .stream 0 := by
  unfold State.hears; decide

theorem test_zone_clauses_of_the_stream_statements :
    (let t := (routed .live 5).settle
     0 < t.mixer.zones.length ∧ t.definitions[0]? = record3.zones[0]? ∧ t.hasHost = true ∧ t.member.station = .member
     ∧ (t.tables.entry 20).isCarried = true ∧ (t.zone 0).routes.map (fun e => (e.stream, e.state)) = [(20, .live)])
    ∧ (let u := run (.presence 5 7 0x100 0 0 (.stream 0 0 0 0 0 0)) (routed .live 5)
       (u.tables.entry 20).code ≠ ((routed .live 5).settle.tables.entry 20).code
       ∧ (∀ y : Fin 64, y.val ≠ 20 → u.tables.entry y.val = (routed .live 5).settle.tables.entry y.val)
       ∧ u.tables.calls = (routed .live 5).settle.tables.calls
       ∧ (u.zone 0).routes.map (fun e => (e.stream, e.state)) = [(20, .waiting)])
    ∧ ((run (.release 5 0) (routed .live 5)).tables.entry 20).isCarried = false
    ∧ (run (.withdraw 5 0) (routed .live 5)).tables.calls = (routed .live 5).settle.tables.calls
    ∧ ((run (.claim 5 1 36) (offered21 2 3)).tables.entry 21).isCarried = true := by decide

theorem test_zone_clauses_of_the_call_statements :
    (run (.ring 5 0 ringFields) (at3 .member)).tables.calls ≠ (at3 .member).settle.tables.calls
    ∧ (run (.hold 5 0 emptyCallFields) (inCall .active)).tables.calls ≠ (inCall .active).settle.tables.calls
    ∧ ((run (.ring 5 0 ringFields) (at3 .member)).zone 0).position.state = .live
    ∧ ((run (.endCall 5 0 emptyCallFields) (run (.ring 5 0 ringFields) (at3 .member))).zone 0).position.state = .empty := by decide

/-- The member that has driven its OFFER of stream 13, bound to ANNOUNCE, beside its own stream 12. -/
def binding : State :=
  let e : QueueEntry := { queued (.offer 1 1 1 3) with companion := some .announce }
  { droveEntry e with tables.directory := (at3 .member).tables.directory.set 12 (.offered { kind := .programme, channels := 2, cls := 3 }),
                      line.bindings := [some (.input 0), none, none, none] }

theorem test_binding_clauses_of_OfferIsJudged :
    (let t := binding.settle
     t.hears ∧ t.tableSizes ∧ t.line.bindings.length = 4 ∧ t.orderLaw ∧ (3 : Fin 16).val = t.number
     ∧ t.tables.entry (t.number * 4 + 1) = .none ∧ t.line.sent = some (.queued 0 (.offer 1 1 1 3))
     ∧ (t.line.queue.find? (fun e => e.order == 0)).map (fun e => (e.message, e.companion)) = some (.offer 1 1 1 3, some .announce))
    ∧ (run (.offer 3 1 1 1 3) binding).line.bindings = [some (.input 0), some .announce, none, none]
    ∧ (run (.offer 3 1 1 1 3) binding).tables.entry (3 * 4 + 0) ≠ .none := by
  unfold State.hears State.tableSizes State.orderLaw; decide

theorem test_quality_clauses_of_DecoderSamplesAndQuality :
    blendAfterQuality { Blend.reset with state := .digital, poorRun := 0 } .poor = .digital
    ∧ blendAfterQuality { Blend.reset with state := .aligning } .poor = .analogue
    ∧ blendCauseAfter { Blend.reset with state := .aligning } .lost = .abandoned
    ∧ blendCauseAfter { Blend.reset with state := .digital } .lost = .lost
    ∧ (let s := { at3 .member with ports.blockReads := 1024, blend.state := .analogue, blend.goodRun := 7 }
       (run .qualityBlock s).blend.state = .aligning ∧ (run .qualityBlock s).host.events.map (fun e => e.cause) = [some .powerOn, some .goodRun]) := by
  decide

/-- The member whose bank 2 owes 15 refreshes at the sixth local sample, with READY clip 1 in it and clip 2 EMPTY of a length, and a
play of clip 1. -/
def overdue : State :=
  { clipped .ready 8 8 with
    announce.clips := (clipped .ready 8 8).announce.clips.set 2 { state := .empty, offset := 8, length := 8, received := 0, written := 0 },
    announce.plays := [none, some { clip := 1, level := 63, repeats := 1, done := 0, position := 0, starter := .host, groups := [],
                                    wait := 16, finished := false, serial := 0 }, none, none],
    store.banks := (banked .idle none).store.banks, store.refreshTick := 6 }

theorem test_clip_1_lies_in_the_overdue_bank : overdue.clipOverdue 1 := ⟨by decide, 2, by decide, by decide, 0, 0, by decide⟩

theorem test_clip_2_holds_no_words : ¬overdue.clipOverdue 2 := fun h => absurd h.1 (by decide)

theorem test_overdue_clauses_of_BanksCompleteAndTheArbiterActs :
    overdue.announce.clips.length = 32 ∧ 1 ≤ (overdue.clip 1).length ∧ 1 ≤ (overdue.clip 2).length ∧ overdue.hasHost = true
    ∧ (overdue.store.bank 2).debt = 15 ∧ (overdue.announce.plays.getD 1 none).map (fun p => p.clip) = some 1
    ∧ (let u := run .refreshDebtRise overdue
       (u.clip 1).state = .invalid ∧ u.announce.plays = [none, none, none, none]
       ∧ u.host.events.map (fun e => e.kind) = [.reset, .refreshOverdue, .clipLost, .playDone]) := by decide

theorem test_aim_clauses_of_RampsEnd :
    (ramping .leaving).definitions[(0 : Fin 4).val]? = record3.zones[0]? ∧ ((run (.rampEnd 0 (.entry 20)) (ramping .leaving)).zone 0).routes = []
    ∧ ((run (.rampEnd 0 (.entry 20)) (ramping .live)).zone 0).routes.map (fun e => e.ramp.running) = [false] := by decide

/-- The member whose slip balance stands at its limit, with a slip due. -/
def slipping (st : BlendState) : State :=
  { buffered 7 64 with blend.state := st, blend.valid := true, ports.balance := 256 }

theorem test_slip_clauses_of_BlendMovesAndResults :
    (let t := (slipping .digital).settle
     t.blend.state = .digital ∧ 0 < t.blendLength ∧ t.hasHost = true ∧ ¬t.ports.keepsStep ∧ (t.ports.sample quiet).1.balance = 257)
    ∧ (slipping .aligning).settle.blend.state = .aligning ∧ (slipping .analogue).settle.blend.valid = true := by
  unfold Ports.keepsStep; decide

theorem test_a_slip_beyond_the_limit :
    (run (.localSample quiet) (slipping .digital)).ports.balance = 257
    ∧ (run (.localSample quiet) (slipping .digital)).blend.state = .toAnalogue
    ∧ (run (.localSample quiet) (slipping .aligning)).blend.valid = true
    ∧ (run (.localSample quiet) (slipping .analogue)).blend.valid = false := by decide

/-- The member whose canceller asks for a write while the ECHO queue is full, or not. -/
def gapping (full : Bool) : State :=
  { cancelling .converged with
    store.regions := [{ client := .echo, group := 1, firstBank := 3, firstRow := 0, rows := 40 }],
    store.queues := [if full then List.replicate 4 (head .echo 8) else [], [], [], [], []],
    call.coefficients := [], call.freeze := 9, call.history.whole := some (0, List.replicate 8 .zero) }

theorem test_gap_clauses_of_TheCancellerJudgesItsBlocks :
    (gapping true).settle.store.gaps[clientCode .echo]? = some 0 ∧ (gapping true).settle.call.state ≠ .off
    ∧ (run (.localSample quiet) (gapping true)).store.gaps[clientCode .echo]? = some 1
    ∧ (run (.localSample quiet) (gapping true)).call.freeze = 4800
    ∧ (run (.localSample quiet) (gapping false)).store.gaps[clientCode .echo]? = some 0
    ∧ (run (.localSample quiet) (gapping false)).call.freeze = 8 := by decide

/-- The running cadence in which channels 1 and 2 follow with delay 0, clip 1 READY and one place of the play list free. -/
def atOnce (trigger : Bool) : State :=
  let held : Play := { clip := 3, level := 63, repeats := 1, done := 0, position := 0, starter := .host, groups := [], wait := 16,
                       finished := false, serial := 0 }
  let s := cadenced true 0 0
  { s with
    announce.channels := (s.announce.channels.set 1 { s.channel 1 with stagedDelay := 0, counting := false }).set 0
      { s.channel 0 with running := !trigger, trigger := trigger },
    announce.clips := (clipped .ready 8 8).announce.clips, announce.plays := [some held, none, some held, some held] }

theorem test_fire_clauses_of_CadencesAndPlaysFallDue :
    let s := atOnce false
    (s.channel 1).role = .follower 0 ∧ (s.channel 2).role = .follower 0 ∧ (s.channel 1).stagedDelay = 0
    ∧ (s.channel 2).stagedDelay = 0 ∧ (s.clip 1).state.playable = true ∧ s.freeBelow 4 = 1
    ∧ s.soundingBelow 0 1 = 0 ∧ s.freeBelow 1 = 0 ∧ s.soundingBelow 0 2 = 1
    ∧ ((run (.cadenceExpiry 0) s).channel 1).missed = false ∧ ((run (.cadenceExpiry 0) s).channel 2).missed = true
    ∧ ((run (.cadenceExpiry 0) s).announce.plays.getD 1 none).map (fun p => (p.starter, p.wait)) = some (.follower 1, 16) := by
  decide

theorem test_trigger_clauses_of_CadenceRequestsSetStartAndStop :
    ((atOnce true).settle.channel 0).trigger = true ∧ ((atOnce true).settle.channel 0).running = false
    ∧ ((run (.cadenceStart 0) (atOnce true)).channel 2).missed = true
    ∧ ((run (.cadenceStart 0) (atOnce true)).announce.plays.getD 1 none).map (fun p => p.starter) = some (.follower 1) := by decide

theorem test_reset_and_a_queued_message_meet_the_order_law : State.reset.orderLaw ∧ (drove (.release 0)).orderLaw := by
  unfold State.orderLaw; decide

theorem test_step_takes_the_front : (step { at3 .member with pending := [.getStatus, .readEvents] }) =
    exec .getStatus { at3 .member with pending := [.readEvents] } := by rfl

theorem test_step_idles_on_an_empty_queue : step (at3 .member) = .next (at3 .member) := by rfl

theorem test_power_on : (run .powerOn (at3 .member)).member.station = .offline
    ∧ (run .powerOn (at3 .member)).startUp.reading = true := by decide

theorem test_pin_assertion_keeps_bank_2_alone :
    (run .resetPinAsserted { at3 .member with store.memory := [(262143, 4), (262144, 5), (393215, 6), (393216, 7)] }).store.memory
      = [(262144, 5), (393215, 6)] := by decide

theorem test_reset_line_keeps_the_clips :
    ((run .resetLine { clipped .locked 0 0 with store.pinHeld := true }).clip 1).state = .locked := by decide

theorem test_record_read :
    (run (.startUpRecordRead (readWell (some record3))) .reset).member.station = .listening
    ∧ (run (.startUpRecordRead (readWell none)) .reset).member.cause = some .configInvalid
    ∧ (run (.startUpRecordRead .noAcknowledge) .reset).host.events.length = 3 := by decide

/-- A station that waits for its record with a READY clip in bank 2, retained or not. -/
def rereading (retained : BitVec 8) : State :=
  { State.reset with store.retained := retained,
                     announce.clips := State.reset.announce.clips.set 1 { state := .ready, offset := 0, length := 8, received := 8,
                                                                          written := 8 } }

theorem test_content_report :
    ((run (.startUpRecordRead (readWell (some record3))) (rereading 4)).clip 1).state = .ready
    ∧ ((run (.startUpRecordRead (readWell (some record3))) (rereading 3)).clip 1).state = .invalid := by decide

theorem test_frame_start : (run (.frameStart true) (at3 .member)).tables.frameCount = 1
    ∧ (run (.frameStart true) (at3 .member)).follower.state = .pulling
    ∧ ((run (.frameStart true) (at3 .member)).tables.station 5).age = 1 := by decide

/-- A start that wakes a DORMANT station is its first start seen (log 40). -/
theorem test_frame_start_wakes :
    let u := run (.frameStart true) (at3 .dormant)
    u.member.station = .listening ∧ u.tables.frameCount = 1 ∧ u.follower.state = .pulling
    ∧ u.line.phase = .unread ∧ u.host.stayAwake = false := by decide

theorem test_lead_start : (run .leadStart (sending .leave)).line.lead = true := by decide

theorem test_frame_timer_expiry : (run .frameTimerExpiry (at3 .member)).line.silentCount = 1 := by decide

theorem test_missing_start :
    (run .missingStart { at3 .member with line.timerExpired := true, line.silentCount := 4 }).line.silentCount = 5 := by decide

theorem test_silent_line :
    (run .silentLine { following .locked 9 0 .open 480 with line.silentCount := 64 }).follower.gate = .closing := by decide

theorem test_dormancy_entry :
    (run .dormancyEntry { at3 .member with line.silentCount := 48000 }).member.station = .dormant := by decide

theorem test_control_field : (run (.controlField none true) (framed (sending .leave))).line.sent = some (.queued 0 .leave) := by
  decide

theorem test_audio_slots :
    let u := run (.audioSlots (List.replicate 40 { sample := 9, valid := true, check := slotCheck 9 true })) driving
    u.line.driven.getD 0 none = some { sample := 0, valid := true, check := true } ∧ u.line.driven.getD 39 none = none
    ∧ u.handed 20 0 = some (true, 9) := by decide

theorem test_tail_end : (run (.tailEnd true) (drove (.release 0))).line.queue.map (fun e => e.vetoes) = [1]
    ∧ (run (.tailEnd false) (drove (.release 0))).line.queue = [] := by decide

theorem test_self_veto : (run .selfVeto { at3 .member with line.selfVeto := 32 }).member.silenceCount = 1024 := by decide

theorem test_listen_end :
    (run .listenEnd { at3 .listening with member.undamaged := 12800, tables.roster := LineTables.reset.roster }).member.station
      = .joining := by decide

theorem test_join : (run (.join 4 7 0x200 0 9) (at3 .member)).tables.station 4
    = { RosterEntry.absent with present := true, roles := { attended := true, outputs := true, mics := true, tuner := false },
                                zones := 0x200, serial := some 9, completeness := .complete } := by decide

theorem test_own_join : (run (.join 3 3 0x60 0x40 7) joining).member.station = .member := by decide

theorem test_presence : (run (.presence 5 7 0x100 0 0 (.stream 3 1 4 1 1 255)) (at3 .member)).tables.entry 23
    = .offered { kind := .reference, channels := 1, cls := 1 } := by decide

theorem test_leave : let u := run (.leave 5) (inCall .active)
    (u.tables.station 5).present = false ∧ u.tables.entry 20 = .none ∧ u.tables.slots.getD 39 .free = .held 64
    ∧ u.tables.call 0 = .none := by decide

theorem test_offer : (run (.offer 5 1 0 2 3) (at3 .member)).tables.entry 21
    = .offered { kind := .programme, channels := 2, cls := 3 } := by decide

theorem test_claim : let u := run (.claim 5 1 36) (offered21 2 3)
    u.tables.entry 21 = .carried { kind := .programme, channels := 2, cls := 3 } 36
    ∧ u.tables.slots.getD 37 .free = .owned 21 := by decide

theorem test_claim_of_a_call_slot_is_refused : (run (.claim 5 1 37) (offered21 2 3)).tables.entry 21
    = .offered { kind := .programme, channels := 2, cls := 3 } := by decide

theorem test_release : (run (.release 5 0) (at3 .member)).tables.entry 20
    = .offered { kind := .voiceDownlink, channels := 1, cls := 0 } := by decide

theorem test_withdraw : ((run (.withdraw 5 0) (inCall .active)).tables.call 0).downlink = none := by decide

theorem test_add : let u := run (.add 5 5 21 60) (offered21 1 0)
    (u.zone 0).routes.map (fun e => (e.stream, e.level, e.state)) = [(21, 60, .waiting)]
    ∧ u.line.queue.map (fun e => e.message) = [.routeAnswer 5 5 21 0] := by decide

theorem test_set_level : ((run (.setLevel 5 5 20 11) (routed .live 5)).zone 0).routes.map (fun e => e.level) = [11] := by decide

theorem test_remove : ((run (.remove 5 5 20 0) (routed .live 5)).zone 0).routes.map (fun e => e.state) = [.leaving] := by decide

theorem test_route_answer : (run (.routeAnswer 5 3 8 20 3) (at3 .member)).host.events.getLast?
    = some { kind := .routeAnswer, subject := [8, 20], cause := some .zoneFull, stamp := 0 } := by decide

theorem test_ring : ((run (.ring 5 0 ringFields) (at3 .member)).tables.call 0).state = .ringing := by decide

theorem test_answer : ((run (.answer 5 0 { emptyCallFields with uplink := 12, mic := 3 })
    { talking with tables.calls := (inCall .ringing).tables.calls,
                   tables.roster := (at3 .member).tables.roster.set 3 (entryOf 0x60) }).tables.call 0).mic = some 3 := by decide

theorem test_hold : ((run (.hold 5 0 emptyCallFields) (inCall .active)).tables.call 0).state = .held := by decide

theorem test_resume : ((run (.resume 5 0 emptyCallFields) (inCall .held)).tables.call 0).state = .active := by decide

theorem test_zones : ((run (.zones 5 0 { emptyCallFields with zones := 0x120 }) (inCall .active)).tables.call 0).zones = 0x120 := by
  decide

theorem test_end_call : (run (.endCall 5 0 emptyCallFields) (inCall .active)).tables.call 0 = .none := by decide

theorem test_note_part : (run (.notePart 5 3 0 3 0x070809#128) (at3 .member)).note.box = .full 5 3 0 [0, 0, 0]
    ∧ (run (.notePart 5 3 0 17 0#128) (at3 .member)).note.box = .filling 5 17 1 0 (List.replicate 16 0) := by decide

theorem test_aged_out : ((run (.agedOut 5) (agedAt (at3 .member) 5 8192)).tables.station 5).present = false := by decide

theorem test_hold_expiry :
    (run (.holdExpiry 4) { at3 .member with tables.slots := State.reset.tables.slots.set 4 (.held 0) }).tables.slots.getD 4 (.held 1)
      = .free := by decide

theorem test_queue_hold_expiry :
    (run .queueHoldExpiry { at3 .member with line.queue := [{ queued .leave with ready := false }] }).line.queue
      = [queued .leave] := by decide

theorem test_presence_due : (run .presenceDue { at3 .member with line.presenceCounter := 2048 }).line.presenceDue = true := by decide

theorem test_silence_ended : (run .silenceEnded (at3 .silenced)).member.station = .listening := by decide

theorem test_note_stall : (run .noteStall (boxed (.filling 5 17 1 512 []))).note.box = .free := by decide

theorem test_note_expiry : (run .noteExpiry (boxed (.full 5 1 48000 [1]))).note.box = .free := by decide

theorem test_uplink_retry : (run .uplinkRetry talking).line.queue.map (fun e => (e.message, e.auto)) = [(.claim 0 0, true)] := by
  decide

theorem test_carry_retry : (run (.carryRetry 0) talking).line.queue.map (fun e => e.originator) = [.startUp] := by decide

theorem test_local_sample : let u := run (.localSample quiet) (buffered 57 64)
    u.ports.buffer.length = 55 ∧ u.ports.balance = -1 ∧ u.ports.slipGuard = 0 := by decide

theorem test_decoder_arrival :
    (run (.decoderArrival .zero .good) { buffered 31 64 with ports.reading := false }).ports.reading = true
    ∧ (run (.decoderArrival .zero .good) (buffered 64 64)).ports.blockWorst = .lost := by decide

theorem test_quality_block :
    (run .qualityBlock { at3 .member with ports.blockReads := 1024, blend.state := .digital, blend.poorRun := 1,
                                          ports.blockWorst := .poor }).blend.state = .toAnalogue := by decide

theorem test_arrival_gap :
    (run .arrivalGap { at3 .member with ports.arrivalGap := 64, blend.state := .aligning }).blend.state = .analogue := by decide

theorem test_gate_ramp_end : (run .gateRampEnd (following .locked 9 0 .opening 480)).follower.gate = .open := by decide

theorem test_ramp_end : ((run (.rampEnd 0 (.entry 20)) (ramping .leaving)).zone 0).routes = [] := by decide

theorem test_refresh_debt_rise :
    let u := run .refreshDebtRise { banked .idle none with store.refreshTick := 6 }
    (u.store.bank 2).debt = 16 ∧ (u.store.bank 2).loss = some 0 ∧ (u.store.bank 1).debt = 1
    ∧ (u.store.bank 1).state = .idle := by decide


/-- The member with a bank that opens row 3 and owes no refresh. -/
def opening : State :=
  { at3 .member with store.banks := State.reset.store.banks.set 2 { Bank.reset with state := .opening 3 } }

theorem test_open_complete : ((run (.openComplete 2) (banked (.opening 3) none)).store.bank 2).state = .closing
    ∧ ((run (.openComplete 2) opening).store.bank 2).state = .open 3 := by decide

theorem test_burst_complete : (run (.burstComplete 2) (bursting .write)).store.memory = [(262152, 5), (262155, 6)] := by decide

theorem test_close_complete :
    ((run (.closeComplete 2) { banked .closing none with store.budget := 0 }).store.bank 2).state = .idle := by decide

theorem test_refresh_complete : ((run (.refreshComplete 2) (banked .refreshing none)).store.bank 2).debt = 14 := by decide

theorem test_filled : (run .filled { blending .filling with blend.fill := 24000 }).blend.state = .analogue := by decide

theorem test_priming_done :
    (run .primingDone { blending .aligning with blend.correlator.phase := .priming, blend.correlator.done := 4096 }).blend.correlator.phase
      = .window := by decide

theorem test_tap_crossfade_end :
    (run .tapCrossfadeEnd { blending .digital with
                              blend.crossfade := some { old := { serial := 0, held := [] }, delay := 0, weight := 480 } }).blend.crossfade
      = none := by decide

theorem test_to_digital_complete : (run .toDigitalComplete { blending .toDigital with blend.mix := 2400 }).blend.state = .digital := by
  decide

theorem test_to_analogue_complete : (run .toAnalogueComplete (blending .toAnalogue)).blend.state = .analogue := by decide

theorem test_canceller_block : (run .cancellerBlock (judging .converging 1000000000000 100 1 49)).call.state = .converged := by decide

theorem test_freeze_end : (run .freezeEnd { at3 .member with call.frozen := true }).call.frozen = false := by decide

theorem test_reference_lost : (run .referenceLost (judging .converged 0 0 0 0)).call.state = .fallback := by decide

theorem test_cadence_expiry : let u := run (.cadenceExpiry 0) (cadenced true 0 0)
    (u.channel 0).time = 48 ∧ (u.channel 0).done = 1 ∧ (u.channel 1).remaining = 5 ∧ (u.channel 2).missed = true := by decide

/-- The cadence whose follower has counted down, with its clip READY. -/
def firing : State :=
  { cadenced true 7 0 with
    announce.clips := State.reset.announce.clips.set 1 { state := .ready, offset := 0, length := 8, received := 0, written := 0 } }

theorem test_follower_fire :
    (run (.followerFire 1) firing).announce.plays.map (fun p => p.map (fun q => q.starter)) = [some (.follower 1), none, none, none] := by decide

theorem test_play_completed :
    (run (.playCompleted 0) { at3 .member with
                                announce.plays := [some { clip := 1, level := 63, repeats := 1, done := 1, position := 0,
                                                          starter := .host, groups := [], wait := 0, finished := true, serial := 0 },
                                                   none, none, none] }).host.events.getLast?
      = some { kind := .playDone, subject := [0, 1], cause := some .completed, stamp := 0 } := by decide

/-! ## Small steps: requests -/

theorem test_transfer_for_reading :
    (run .transferForReading { at3 .member with host.response := some { code := 3, status := .ok, results := [9] } }).host.shifted.take 5
      = [3, 0, 0, 1, 9] := by decide

theorem test_get_status : (results .getStatus (at3 .member)).take 1 = [3] := by decide

theorem test_leave_line : (run .leaveLine (at3 .member)).member.station = .leaving := by decide

theorem test_rejoin : (run .rejoin (at3 .detached)).member.station = .listening := by decide

theorem test_stay_awake : (run (.stayAwake 1) (at3 .member)).host.stayAwake = true
    ∧ status (.stayAwake 2) (at3 .member) = some .badParameter := by decide

theorem test_wake : (run (.wake 1) (at3 .dormant)).member.station = .listening ∧ status (.wake 0) (at3 .member) = some .wrongState := by
  decide

theorem test_offer_stream : status (.offerStream 0 1 1 2 2 0) (at3 .member) = some .ok
    ∧ status (.offerStream 0 2 1 0 2 0) (at3 .member) = some .badBinding := by decide

theorem test_carry_stream : status (.carryStream 0 255) crowded = some .noRoom
    ∧ status (.carryStream 0 255) (at3 .member) = some .ok := by decide

theorem test_drop_stream : status (.dropStream 0) queueFull = some .queueFull := by decide

theorem test_read_directory : results (.readDirectory 20 1) (at3 .member) = [1, 2, 2, 1, 0, 39, 255, 255] := by decide

theorem test_route : results (.route 5 20 0 63) (at3 .member) = [2] ∧ status (.route 15 20 0 63) (at3 .member) = some .noZone := by
  decide

theorem test_clip_load_begin : ((run (.clipLoadBegin 1 2040 8) (at3 .member)).clip 1).state = .loading
    ∧ status (.clipLoadBegin 1 2048 1) (at3 .member) = some .badParameter := by decide

theorem test_clip_data : let u := run (.clipData 1 (List.replicate 8 9)) (clipped .loading 0 0)
    (u.clip 1).received = 8 ∧ (u.store.queue .loading).map (fun r => r.data.length) = [8] := by decide

theorem test_clip_load_end : status (.clipLoadEnd 1) (clipped .loading 7 7) = some .short
    ∧ ((run (.clipLoadEnd 1) (clipped .loading 8 8)).clip 1).state = .ready := by decide

theorem test_clip_lock : ((run (.clipLock 1) (clipped .ready 0 0)).clip 1).state = .locked := by decide

theorem test_play : results (.play 1 63 1) (clipped .ready 0 0) = [0] := by decide

theorem test_cadence_set : ((run (.cadenceSet 1 (.leader 480000 3 1)) (at3 .member)).channel 1).stagedPeriod = 480000
    ∧ status (.cadenceSet 1 (.leader 47 3 1)) (at3 .member) = some .badParameter := by decide

theorem test_cadence_start : ((run (.cadenceStart 0) (cadenced false 9 9)).channel 0).running = true := by decide

theorem test_cadence_stop : ((run (.cadenceStop 0) (cadenced true 9 9)).channel 1).counting = false := by decide

theorem test_blend_enable : (run .blendEnable (at3 .member)).blend.state = .filling := by decide

theorem test_blend_disable : (run .blendDisable (blending .digital)).blend.state = .idle := by decide

theorem test_tuned : (run .tuned (blending .digital)).blend.state = .filling := by decide

theorem test_call_ring : (run (.callRing 0 1 0x20) (at3 .member)).line.queue.map (fun e => e.message)
    = [.call 0 0 { emptyCallFields with downlink := 13, zones := 0x20 }] := by decide

theorem test_read_calls : (results .readCalls (inCall .active)).take 3 = [2, 5, 20] := by decide

theorem test_note_send : (run (.noteSend 5 2 [7, 8]) (at3 .member)).line.queue.map (fun e => e.message)
    = [.notePart 5 0 2 0x07080000000000000000000000000000#128] := by decide

theorem test_note_read : results (.noteRead 1 2) (boxed (.full 5 3 0 [7, 8, 9])) = [5, 0, 3, 2, 8, 9]
    ∧ (run (.noteRead 1 2) (boxed (.full 5 3 0 [7, 8, 9]))).note.box = .free := by decide

theorem test_the_other_requests_of_a_call :
    (run (.callAnswer 0 5 2 255) (at3 .member)).line.queue.map (fun e => e.message)
      = [.call 0 1 { emptyCallFields with uplink := 22, mic := 5 }]
    ∧ (run (.callHold 1) (at3 .member)).line.queue.map (fun e => e.message) = [.call 1 2 emptyCallFields]
    ∧ (run (.callResume 1) (at3 .member)).line.queue.map (fun e => e.message) = [.call 1 3 emptyCallFields]
    ∧ (run (.callZones 1 0x20) (at3 .member)).line.queue.map (fun e => e.message) = [.call 1 4 { emptyCallFields with zones := 0x20 }]
    ∧ (run (.callEnd 1) (at3 .member)).line.queue.map (fun e => e.message) = [.call 1 5 emptyCallFields]
    ∧ (run (.withdrawStream 3) (at3 .member)).line.queue.map (fun e => e.message) = [.withdraw 3] := by decide

theorem test_the_other_requests_that_read :
    (results .readSlots (at3 .member)).drop 117 = [1, 20, 255] ∧ (results (.clipStatus 1 1) (clipped .ready 0 0)).take 2 = [1, 2]
    ∧ (results (.readCadence 0) (cadenced true 9 9)).take 1 = [1] ∧ (results .readBlend (blending .digital)).take 1 = [5]
    ∧ (results .readCanceller (at3 .member)).take 1 = [0] ∧ (results .noteStatus (boxed (.full 5 3 0 [7, 8, 9]))).take 2 = [2, 5]
    ∧ (results (.getInfo 1) (at3 .member)).take 1 = [1] ∧ status (.readZone 9) (at3 .member) = some .noZone
    ∧ status (.readZone 5) (at3 .member) = some .ok := by decide

theorem test_read_events : (run .readEvents (at3 .member)).host.events = [] := by decide

theorem test_bad_transfer : status (.badTransfer [40, 0, 0, 0, 0]) (at3 .member) = some .badCheck
    ∧ status (.badTransfer (bareTransfer 41)) (at3 .member) = some .badRequest
    ∧ (run (.badTransfer (bareTransfer 3)) (at3 .member)).member.station = .leaving := by decide

end Sys2Proof.Tests
end

section
/-! PROOFS. The keep-up flag (R7). -/

namespace Sys2Proof.Machine

/-! ## The reasons of the flag -/

/-- The four local indices of R7 cover exactly the streams x with x / 4 = number (R9). -/
theorem State.carriesOwn_iff (s : State) :
    s.carriesOwn = true ↔ ∃ x, x / 4 = s.number ∧ (s.tables.entry x).isCarried = true := by
  simp only [State.carriesOwn, List.any_eq_true, List.mem_range]
  constructor
  · rintro ⟨i, hi, carried⟩
    exact ⟨s.number * 4 + i, by omega, carried⟩
  · rintro ⟨x, own, carried⟩
    have index : s.number * 4 + x % 4 = x := by omega
    exact ⟨x % 4, Nat.mod_lt x (by decide), index.symm ▸ carried⟩

/-- The reasons of R7 one by one; the last turns on whether a start-up record is in force. -/
theorem State.keepUp_iff (s : State) :
    s.keepUp = true ↔
      s.line.queue ≠ [] ∨ s.line.presenceDue = true ∨ s.carriesOwn = true
        ∨ (∃ c, c ∈ s.tables.calls ∧ c.state ≠ .none) ∨ s.host.stayAwake = true
        ∨ ((s.member.station = .listening ∨ s.member.station = .joining)
          ∧ ∃ r, s.startUp.record = some r ∧ r.offers ≠ []) := by
  unfold State.keepUp
  cases s.startUp.record with
  | none => simp [or_assoc]
  | some r => simp [or_assoc]

/-! ## What the flag acts through -/

theorem State.mayLead_of_keepUp_clear (s : State) (clear : s.keepUp = false) : s.mayLead = false := by
  simp [State.mayLead, clear]

theorem State.leadStart_of_keepUp_clear (s : State) (clear : s.keepUp = false) : s.leadStart = s := by
  simp [State.leadStart, s.mayLead_of_keepUp_clear clear]

/-- Without the flag the expiry of the timer is a missing start, or nothing where the timer does not run. -/
theorem State.expireTimer_of_keepUp_clear (s : State) (clear : s.keepUp = false) :
    s.expireTimer = s ∨ s.expireTimer = s.missStart := by
  unfold State.expireTimer
  split
  · exact .inl rfl
  · simp [s.mayLead_of_keepUp_clear clear]

/-- Settles O5: the reasons by keepUp_iff and carriesOwn_iff, then each function that reads the flag with the flag clear. -/
theorem keepUpFlagFollowsItsReasons : Obligations.KeepUpFlagFollowsItsReasons := by
  intro s
  refine ⟨?reasons, ?clear, ?running⟩
  case reasons => rw [s.keepUp_iff, s.carriesOwn_iff]
  case clear =>
    intro clear
    exact ⟨keepUpStart_idle s (.inr (.inl clear)), s.leadStart_of_keepUp_clear clear, s.expireTimer_of_keepUp_clear clear⟩
  case running =>
    intro running
    exact keepUpStart_idle s (.inl running)

end Sys2Proof.Machine
end

section
/-! PROOFS. Automatic slot choice (R55). -/

namespace Sys2Proof.Machine

/-! ## The search below one last slot -/

/-- A bound of last + 2 - c on the first slot is what keeps a run of c slots at or below the last one. -/
theorem State.freeRun_iff (s : State) {last c : Nat} (f : Nat) :
    s.freeRun last c f ↔ f < last + 2 - c ∧ s.tables.runFree f c = true := by
  rw [State.freeRun, runFree_iff]
  have fits : f + c ≤ last + 1 ↔ f < last + 2 - c := by omega
  rw [fits]

theorem State.lowestRun_eq_some_iff (s : State) {last c : Nat} (f : Nat) :
    s.tables.lowestRun (last + 2 - c) c = some f
      ↔ s.freeRun last c f ∧ ∀ g, g < f → ¬s.freeRun last c g := by
  simp only [LineTables.lowestRun, List.find?_range_eq_some, List.mem_range, s.freeRun_iff, Bool.not_eq_true',
    Bool.eq_false_iff]
  constructor
  · rintro ⟨free, below, lower⟩
    exact ⟨⟨below, free⟩, fun g hg run => lower g hg run.2⟩
  · rintro ⟨⟨below, free⟩, lower⟩
    exact ⟨free, below, fun g hg run => lower g hg ⟨Nat.lt_trans hg below, run⟩⟩

theorem State.lowestRun_eq_none_iff (s : State) {last c : Nat} :
    s.tables.lowestRun (last + 2 - c) c = none ↔ ∀ g, ¬s.freeRun last c g := by
  simp [LineTables.lowestRun, s.freeRun_iff]

/-! ## The two searches of R55 and the claim of what they find (R50) -/

theorem State.chooseRun_eq_some_iff (s : State) (p : StreamParameters) (f : Nat) :
    s.tables.chooseRun p.channels p.cls = some f ↔ s.choosesRun p f := by
  have low := s.lowestRun_eq_some_iff (last := 37) (c := p.channels)
  have noLow := s.lowestRun_eq_none_iff (last := 37) (c := p.channels)
  have all := s.lowestRun_eq_some_iff (last := 39) (c := p.channels) f
  unfold LineTables.chooseRun State.choosesRun
  cases found : s.tables.lowestRun (39 - p.channels) p.channels with
  | some g =>
    have some_low : ¬∀ g, ¬s.freeRun 37 p.channels g := fun none_low => none_low g ((low g).mp found).1
    simp only [← low f, found, some_low, false_and, or_false]
  | none =>
    have none_low := noLow.mp found
    by_cases call : p.cls = 0
    · simp [call, none_low, ← all]
    · simp [call, none_low]

theorem State.chooseRun_eq_none_iff (s : State) (p : StreamParameters) :
    s.tables.chooseRun p.channels p.cls = none ↔ s.noRunFor p := by
  have noLow := s.lowestRun_eq_none_iff (last := 37) (c := p.channels)
  have noAll := s.lowestRun_eq_none_iff (last := 39) (c := p.channels)
  unfold LineTables.chooseRun State.noRunFor
  rw [← noLow, ← noAll]
  cases s.tables.lowestRun (39 - p.channels) p.channels with
  | some g => simp
  | none => simp

/-- R50 in the case that its first checks and SLOT_BUSY pass: only the place of the last slot remains to be judged. -/
theorem LineTables.claim_taken (t : LineTables) {x f : Nat} {p : StreamParameters} (offered : t.entry x = .offered p)
    (free : t.runFree f p.channels = true) (inRange : f + p.channels - 1 ≤ 39)
    (callSlots : 38 ≤ f + p.channels - 1 → p.cls = 0) : (t.claim x f).2 = .taken := by
  have notOut : ¬39 < f + p.channels - 1 := by omega
  have notCall : ¬(38 ≤ f + p.channels - 1 ∧ p.cls ≠ 0) := fun ⟨high, cls⟩ => cls (callSlots high)
  simp [LineTables.claim, offered, free, notOut, notCall]

theorem State.claim_taken_of_choosesRun (s : State) {p : StreamParameters} {x f : Nat}
    (offered : s.tables.entry x = .offered p) (chosen : s.choosesRun p f) : (s.tables.claim x f).2 = .taken := by
  obtain ⟨run, -⟩ | ⟨-, call, run, -⟩ := chosen
  · obtain ⟨below, free⟩ := (s.freeRun_iff f).mp run
    exact s.tables.claim_taken offered free (by omega) (by omega)
  · obtain ⟨below, free⟩ := (s.freeRun_iff f).mp run
    exact s.tables.claim_taken offered free (by omega) (fun _ => call)

/-- Settles O8: the two directions of the choice, then the claim of the run it gives. -/
theorem automaticChoiceTakesTheLowestRun : Obligations.AutomaticChoiceTakesTheLowestRun := by
  intro s p _
  exact ⟨s.chooseRun_eq_some_iff p, s.chooseRun_eq_none_iff p,
    fun _ _ offered chosen => s.claim_taken_of_choosesRun offered chosen⟩

end Sys2Proof.Machine
end

section
/-! SUPPORT. Facts about lists and logic that core Lean has under no name of their own. -/

namespace Sys2Proof.Machine

theorem getD_replicate_lt {α : Type} (x d : α) {i n : Nat} (low : i < n) : (List.replicate n x).getD i d = x := by
  rw [List.getD_eq_getElem?_getD, List.getElem?_replicate_of_lt low]
  rfl

theorem getD_beyond {α : Type} (l : List α) (d : α) {n : Nat} (beyond : l.length ≤ n) : l.getD n d = d := by
  rw [List.getD_eq_getElem?_getD, List.getElem?_eq_none beyond]
  rfl

theorem four_of_length {α : Type} : ∀ l : List α, l.length = 4 → ∃ a b c d, l = [a, b, c, d]
  | [a, b, c, d], _ => ⟨a, b, c, d, rfl⟩

theorem filterMap_congr_mem {α β : Type} {f g : α → Option β} {l : List α} (same : ∀ x, x ∈ l → f x = g x) :
    l.filterMap f = l.filterMap g := by
  induction l with
  | nil => rfl
  | cons x l ih =>
    rw [List.filterMap_cons, List.filterMap_cons, same x List.mem_cons_self, ih fun y mem => same y (List.mem_cons_of_mem _ mem)]

theorem filter_swap {α : Type} (p q : α → Bool) (l : List α) : (l.filter q).filter p = (l.filter p).filter q := by
  rw [List.filter_filter, List.filter_filter]
  exact List.filter_congr fun x _ => Bool.and_comm _ _

theorem flatMap_congr_mem {α β : Type} {f g : α → List β} {l : List α} (same : ∀ x, x ∈ l → f x = g x) : l.flatMap f = l.flatMap g := by
  rw [List.flatMap_def, List.flatMap_def, List.map_congr_left same]

end Sys2Proof.Machine
end

section
/-! PROOFS. The invariants: every step keeps them, and the machine right after reset meets them. -/

namespace Sys2Proof.Machine

/-- Settles O56: every operation keeps the canonical form. -/
theorem everyStepKeepsTheMemoryCanonical : Obligations.EveryStepKeepsTheMemoryCanonical :=
  fun s u canonical stepped => memory_kept.step s u canonical stepped

/-- Settles O57: every operation keeps the gate law. -/
theorem everyStepKeepsTheGateLaw : Obligations.EveryStepKeepsTheGateLaw :=
  fun s u lawful stepped => gate_kept.step s u lawful stepped

/-- Settles O58: the sizes of each component are kept by every operation. -/
theorem everyStepKeepsTheFixedSizes : Obligations.EveryStepKeepsTheFixedSizes := by
  rintro s u ⟨tables, bindings, banks, queues, zones, paths, clips, plays, channels, periods⟩ stepped
  obtain ⟨banks', queues'⟩ := storeSized_kept.step s u ⟨banks, queues⟩ stepped
  obtain ⟨zones', paths'⟩ := mixerSized_kept.step s u ⟨zones, paths⟩ stepped
  obtain ⟨clips', plays', channels', periods'⟩ := announceSized_kept.step s u ⟨clips, plays, channels, periods⟩ stepped
  exact ⟨tablesSized_kept.step s u tables stepped, bindingsSized_kept.step s u bindings stepped, banks', queues', zones',
    paths', clips', plays', channels', periods'⟩

/-- Settles O59: the laws of the line tables, of the queue and of the order of entry are each kept by every operation. -/
theorem everyStepKeepsTheTablesAndTheQueue : Obligations.EveryStepKeepsTheTablesAndTheQueue := by
  intro s u stepped
  refine ⟨fun sizes streams one queue => ?laws, fun order => queueOrdered_kept.step s u order stepped⟩
  obtain ⟨-, streams', one'⟩ := tablesLawful_kept.step s u ⟨sizes, streams, one⟩ stepped
  exact ⟨streams', one', queueLawful_kept.step s u queue stepped⟩

/-- Settles O60: each invariant at the reset state; its memory lists no word, its queues no entry. -/
theorem resetMeetsEveryInvariant : Obligations.ResetMeetsEveryInvariant := by
  have streams : State.reset.directoryLaw := fun _ h some => absurd (getD_replicate_lt _ _ h) some
  have order : State.reset.orderLaw := And.intro (fun _ mem => absurd mem List.not_mem_nil) (fun _ mem => absurd mem List.not_mem_nil)
  refine ⟨Memory.wf_reset, reset_lawful, ?sizes, streams, ?calls, ⟨Nat.zero_le 8, List.Pairwise.nil⟩, order, rfl, fun _ => rfl⟩
  case sizes =>
    have periods : ∀ k, k ∈ State.reset.announce.channels → 48 ≤ k.stagedPeriod := by decide
    exact ⟨tables_reset_sized, rfl, rfl, rfl, rfl, rfl, rfl, rfl, rfl, periods⟩
  case calls => exact fun ⟨active, _⟩ => by cases active

end Sys2Proof.Machine
end

section
/-! PROOFS. How commands complete, and how they end with the keep-up start (R3). -/

namespace Sys2Proof.Machine

/-- Every command but a transfer by its bytes completes, each by the way it acts. -/
theorem execOther_completes (c : Instr) (s : State) (noTransfer : isTransfer c = false) :
    ∃ u, exec c s = .next u ∧ u.pending = s.pending := by
  cases c
  case powerOn => exact ⟨_, rfl, rfl⟩
  case resetPinAsserted => exact ⟨_, rfl, by simp⟩
  case resetLine => exact ⟨_, rfl, resetLine_pending s⟩
  case silentLine | dormancyEntry | selfVeto | listenEnd | agedOut | holdExpiry | queueHoldExpiry | presenceDue | silenceEnded
      | noteStall | noteExpiry | uplinkRetry | carryRetry | arrivalGap | qualityBlock | gateRampEnd | refreshDebtRise
      | filled | primingDone | correlationResult | tapCrossfadeEnd | toDigitalComplete | toAnalogueComplete | cancellerBlock
      | freezeEnd | referenceLost | cadenceExpiry | followerFire | playCompleted | rampEnd =>
    exact due_pending s _ (fun t => by simp)
  case startUpRecordRead | frameStart | leadStart | frameTimerExpiry | missingStart | controlField | audioSlots | tailEnd
      | localSample | decoderArrival | openComplete | burstComplete | closeComplete | refreshComplete =>
    exact ext_pending s _ (fun t => by simp)
  case transferForReading => exact ext_pending s _ (fun _ => rfl)
  case wake => exact ext_pending s _ (fun t => wakeRequest_pending t.shiftOut _)
  case join | presence | leave | offer | withdraw | claim | release | add | setLevel | remove | routeAnswer | ring | answer | hold
      | resume | zones | endCall | notePart =>
    exact msg_pending s _ _
  case getStatus | readSlots | readBlend | readCalls | readCanceller | noteStatus | readEvents =>
    exact host_pending s _ _ (fun _ => rfl)
  case getInfo | stayAwake | readDirectory | clipStatus | readCadence =>
    exact host_pending s _ _ (checked_pending _ _ (fun _ => rfl))
  case readZone => exact host_pending s _ _ (fun t => by rw [readZone_state])
  case rejoin | clipLoadBegin | clipData | cadenceSet | cadenceStart | cadenceStop | blendEnable | blendDisable | tuned =>
    exact host_pending s _ _ (fun t => by simp)
  case leaveLine => exact host_pending s _ _ (asMember_pending · _ (fun t => by simp))
  case offerStream | carryStream | dropStream | withdrawStream =>
    exact host_pending s _ _ (checked_pending _ _ (asMember_pending · _ (fun t => by simp)))
  case route => exact host_pending s _ _ (checked_pending _ _ (routeRequest_pending · _ _ _ _))
  case clipLoadEnd | clipLock => exact host_pending s _ _ (checked_pending _ _ (fun t => by simp))
  case play => exact host_pending s _ _ (checked_pending _ _ (playRequest_pending · _ _ _))
  case callRing | callAnswer | callHold | callResume | callZones | callEnd =>
    exact host_pending s _ _ (callRequest_pending _ _ _ _)
  case noteRead => exact host_pending s _ _ (checked_pending _ _ (fun t => by simp))
  case noteSend target total data =>
    show ∃ u, execNoteSend target total data s = .next u ∧ u.pending = s.pending
    unfold execNoteSend
    split
    · exact host_pending s _ _ (checked_pending _ _ (asMember_pending · _ (fun t => by simp)))
    · exact ext_pending s _ (fun _ => rfl)
  case badTransfer => simp [isTransfer] at noTransfer

/-- Settles O2: a transfer by its bytes is a refusal or another command. -/
theorem everyCommandCompletes : Obligations.EveryCommandCompletes := by
  intro c s
  by_cases noTransfer : isTransfer c = false
  · exact execOther_completes c s noTransfer
  cases c with
  | badTransfer bytes =>
    obtain ⟨status, -, refused⟩ | ⟨-, d, other, -, same⟩ := badTransfer_cases bytes s
    · rw [refused]
      exact ext_pending s _ (fun _ => rfl)
    · rw [same]
      exact execOther_completes d s other
  | _ => exact absurd rfl noTransfer

/-- Settles O3: the two ways in which a command acts both ask whether the pin is held. -/
theorem heldPinStopsCommands : Obligations.HeldPinStopsCommands := by
  intro c s noReset held
  obtain ⟨f, acts | falls⟩ := exec_form c s noReset
  · simp [acts, State.act, held]
  · simp [falls, State.fallDue, held]

/-- A start that is emitted at once leaves no expired timer; where none is emitted the state stands. -/
theorem keepUpStart_expired (u : State) (expired : u.keepUpStart.line.timerExpired = true) :
    u.keepUpStart.mayLead = false := by
  unfold State.keepUpStart at *
  split at expired
  · rw [(start_facts u true true).1] at expired
    exact absurd expired (by decide)
  · rename_i idle
    rw [if_neg idle]
    simpa [expired] using idle

theorem keepUpStart_emits (u : State) (expired : u.line.timerExpired = true) (leads : u.mayLead = true) :
    u.keepUpStart = u.start true true := by
  simp [State.keepUpStart, expired, leads]

/-- Every command but a reset ends with the keep-up start. -/
theorem exec_ends_with_keepUpStart (c : Instr) (s v : State) (noReset : isReset c = false) (released : s.released)
    (done : exec c s = .next v) : ∃ u : State, v = u.keepUpStart := by
  obtain ⟨f, acts | falls⟩ := exec_form c s noReset
  · rw [exec_outside c s f acts released] at done
    exact ⟨_, by injection done with done; exact done.symm⟩
  · rw [exec_due c s f falls released] at done
    exact ⟨_, by injection done with done; exact done.symm⟩

/-- Settles O4: the keep-up start with and without a reason to lead, then the end of every command. -/
theorem anExpiredTimerLeadsAtOnce : Obligations.AnExpiredTimerLeadsAtOnce := by
  refine ⟨fun u idle => keepUpStart_idle u idle, ?emits, ?never⟩
  case emits =>
    intro u expired keepUp onLine
    rw [keepUpStart_emits u expired (by simp [State.mayLead, keepUp, onLine])]
    obtain ⟨timer, lead, silent, frames⟩ := start_facts u true true
    exact ⟨lead, timer, silent, frames⟩
  case never =>
    intro c s v noReset released done expired
    obtain ⟨u, rfl⟩ := exec_ends_with_keepUpStart c s v noReset released done
    have idle : (u.keepUpStart.keepUp && u.keepUpStart.member.station.onLine) = false := keepUpStart_expired u expired
    exact Bool.and_eq_false_iff.mp idle

/-- Settles O1: the step's two cases. -/
theorem stepRunsTheFrontCommand : Obligations.StepRunsTheFrontCommand :=
  fun _ _ _ => ⟨rfl, rfl⟩

end Sys2Proof.Machine
end

section
/-! PROOFS. The resets (R94, R95, R183). -/

namespace Sys2Proof.Machine

/-- Settles O6: the POWER_ON command, then each component's value after reset. -/
theorem resetHoldsTheSpecifiedValues : Obligations.ResetHoldsTheSpecifiedValues := by
  have bindings : ∀ i, i < 4 → State.reset.line.bindings.getD i none = none := fun _ h => getD_replicate_lt _ _ h
  have stations : ∀ n, n < 16 → State.reset.tables.station n = .absent := fun _ h => getD_replicate_lt _ _ h
  have streams : ∀ x, x < 64 → State.reset.tables.entry x = .none := fun _ h => getD_replicate_lt _ _ h
  have slots : ∀ i, i < 40 → State.reset.tables.slots.getD i (.held 0) = .free := fun _ h => getD_replicate_lt _ _ h
  have calls : ∀ j, j < 2 → (State.reset.tables.call j).state = .none := fun j h =>
    congrArg CallRecord.state (show State.reset.tables.call j = .none from getD_replicate_lt _ _ h)
  have banks : ∀ b, b < 8 → (State.reset.store.bank b).state = .idle ∧ (State.reset.store.bank b).debt = 0 := fun b h => by
    rw [show State.reset.store.bank b = .reset from getD_replicate_lt _ _ h]; exact ⟨rfl, rfl⟩
  have queues : ∀ q, State.reset.store.queue q = [] := fun q => by cases q <;> rfl
  have zones : ∀ z, z < 4 → (State.reset.zone z).routes = [] ∧ (State.reset.zone z).position.state = .empty := fun z h => by
    rw [show State.reset.zone z = .reset from getD_replicate_lt _ _ h]; exact ⟨rfl, rfl⟩
  have clips : ∀ i, i < 32 → (State.reset.clip i).state = .empty := fun i h =>
    congrArg Clip.state (show State.reset.clip i = .none from getD_replicate_lt _ _ h)
  have plays : ∀ p, p < 4 → State.reset.announce.plays.getD p none = none := fun _ h => getD_replicate_lt _ _ h
  have channels : ∀ c, c < 8 → (State.reset.channel c).role = .off := fun c h =>
    congrArg CadenceChannel.role (show State.reset.channel c = .reset from getD_replicate_lt _ _ h)
  refine ⟨fun _ => rfl, rfl, rfl, rfl, rfl, rfl, rfl, rfl, rfl, rfl, bindings, rfl, stations, streams, slots, calls, rfl, rfl, rfl,
    rfl, rfl, rfl, rfl, banks, queues, fun _ => rfl, zones, clips, plays, channels, rfl, rfl, rfl, rfl, rfl, rfl, rfl, rfl, rfl,
    rfl, rfl⟩

theorem Bank.retire_idle (k : Bank) (kept : Bool) : (k.retire kept).state = .idle ∧ (k.retire kept).burst = none := ⟨rfl, rfl⟩

theorem retain_banks (st u : Store) (same : u.banks = st.retain.banks) (b : Nat) (h : b < 8) :
    (u.bank b).state = .idle ∧ (u.bank b).burst = none := by
  have place : u.bank b = (st.landBursts.bank b).retire (st.retains b) := by
    simp [Store.bank, same, Store.retain, List.getD_eq_getElem?_getD, h]
  rw [place]
  exact Bank.retire_idle _ _

theorem retain_queues (st u : Store) (same : u.queues = st.retain.queues) (q : QueueId) : u.queue q = [] := by
  have none_waits : u.queues = List.replicate 5 [] := same
  cases q <;> simp [Store.queue, none_waits, QueueId.place]

/-- With no burst in flight retention keeps the words of the retained banks and no others (R94). -/
theorem retain_read (st : Store) (still : ∀ q, st.inFlight q = false) (a : Nat) :
    st.retain.memory.read a = if st.retained.getLsbD (a / 131072) = true then st.memory.read a else 0 := by
  show ((st.landBursts.memory).keepBanks st.retains).read a = _
  rw [st.landBursts_none still, Memory.read_keepBanks]
  rfl

theorem storeInForce_retained (s : State) (b : Nat) :
    (s.storeInForce.retained.getLsbD b = true) ↔ s.member.station ≠ .offline ∧ s.store.retained.getLsbD b = true := by
  unfold State.storeInForce
  split <;> simp_all

theorem storeInForce_keeps (s : State) :
    s.storeInForce.memory = s.store.memory ∧ ∀ q, s.storeInForce.inFlight q = s.store.inFlight q := by
  unfold State.storeInForce
  split <;> exact ⟨rfl, fun _ => rfl⟩

theorem assertPin_released (s : State) (released : s.released) :
    s.assertPin = { s with store := { s.storeInForce.retain with pinHeld := true } } := by
  have free : s.store.pinHeld = false := released
  simp [State.assertPin, free]

theorem assertPin_held (s : State) (held : s.store.pinHeld = true) : s.assertPin = s := by
  simp [State.assertPin, held]

/-- Settles O7: the assertion by what retention keeps, the release by the reset that follows it. -/
theorem resetLineKeepsRetainedContents : Obligations.ResetLineKeepsRetainedContents := by
  refine ⟨?assertion, ?release⟩
  case assertion =>
    intro s released still
    obtain ⟨memory, flights⟩ := storeInForce_keeps s
    have words := retain_read s.storeInForce (fun q => (flights q).trans (still q))
    simp only [storeInForce_retained, memory] at words
    refine ⟨s.assertPin, rfl, ?_⟩
    rw [assertPin_released s released]
    exact ⟨rfl, rfl, retain_banks s.storeInForce _ rfl, retain_queues s.storeInForce _ rfl, words, rfl, rfl, rfl, rfl, rfl, rfl, rfl,
      rfl, rfl, rfl, rfl, rfl⟩
  case release =>
    intro s held
    refine ⟨_, rfl, ?memory, ?clips, rfl, rfl, rfl, rfl, rfl, rfl, rfl, rfl, rfl, rfl, rfl, rfl, rfl, rfl, rfl, rfl, rfl⟩
    case memory =>
      show s.assertPin.store.memory = _
      rw [assertPin_held s held]
    case clips =>
      show s.assertPin.announce.clips = _
      rw [assertPin_held s held]

end Sys2Proof.Machine
end

section
/-! PROOFS. The audio slots of a frame: the check bit, what a station drives and what it hands on (R2, R20, R21, R59, R60). -/

namespace Sys2Proof.Machine

/-! ## The slot check bit (R2) -/

theorem foldl_xor_eq_parity (bits : List Bool) (first : Bool) :
    bits.foldl (fun acc b => acc ^^ b) first = decide ((bits.count true + first.toNat) % 2 = 1) := by
  induction bits generalizing first with
  | nil => cases first <;> rfl
  | cons b rest ih =>
    rw [List.foldl_cons, ih, List.count_cons]
    congr 1
    cases b <;> cases first <;> (simp; try omega)

theorem bitsOf_eq_reverse {n : Nat} (w : BitVec n) : bitsOf w = ((List.range n).map (fun k => w.getLsbD k)).reverse := by
  apply List.ext_getElem
  · simp [bitsOf]
  · intro i inLeft _
    have inside : i < n := by simpa [bitsOf] using inLeft
    simp [bitsOf, BitVec.getMsbD, inside]

theorem slotCheck_eq_parity (x : Sample) (valid : Bool) :
    slotCheck x valid
      = decide ((((List.range 24).filter (fun k => x.getLsbD k)).length + (if valid then 1 else 0)) % 2 = 1) := by
  have ones : (bitsOf x).count true = ((List.range 24).filter (fun k => x.getLsbD k)).length := by
    rw [bitsOf_eq_reverse, List.count_reverse, List.count_eq_countP, List.countP_map, List.countP_eq_length_filter]
    congr 2
    funext k
    simp
  rw [slotCheck, foldl_xor_eq_parity, ones]
  cases valid <;> rfl

theorem judgeSlot_invalid (r : SlotRead) (bad : r.valid = false ∨ r.check ≠ slotCheck r.sample r.valid) :
    judgeSlot r = (false, 0) := by
  have judged : (r.valid && r.check == slotCheck r.sample r.valid) = false := by
    obtain invalid | disagrees := bad
    · simp [invalid]
    · simp [disagrees]
  simp [judgeSlot, judged]

theorem judgeSlot_valid (r : SlotRead) (valid : r.valid = true) (agrees : r.check = slotCheck r.sample r.valid) :
    judgeSlot r = (true, r.sample) := by
  have judged : (r.valid && r.check == slotCheck r.sample r.valid) = true := by
    rw [← agrees]
    simp [valid]
  simp [judgeSlot, judged]

theorem judgeSlot_unread : judgeSlot unreadSlot = (false, 0) := judgeSlot_invalid _ (.inl rfl)

/-! ## Samples handed to the users of a stream (R21, R60) -/

theorem handSlots_lineSamples (s : State) (reads : List SlotRead) :
    (s.handSlots reads).line.lineSamples = s.readStreams reads := by
  simp [State.handSlots]

theorem State.handed_of_lineSamples {s u : State} (same : u.line.lineSamples = s.line.lineSamples) (x i : Nat) :
    u.handed x i = s.handed x i := by
  simp [State.handed, same]

/-- A station in MEMBER hands each channel that the users of a CARRIED stream take, as its slot is judged. -/
theorem handed_of_readStreams (s u : State) (reads : List SlotRead) (read : u.line.lineSamples = s.readStreams reads)
    (member : s.member.station = .member) {x : Nat} (inside : x < 64) {p : StreamParameters} {f : Nat}
    (carried : s.tables.entry x = .carried p f) {i : Nat} (taken : i < s.channelsTaken x p.channels) :
    u.handed x i = some (judgeSlot (reads.getD (f + i) unreadSlot)) := by
  have some_taken : s.channelsTaken x p.channels ≠ 0 := by omega
  unfold State.handed
  rw [read]
  simp only [State.readStreams, member, if_true]
  rw [find_filterMap]
  · simp [inside, carried, some_taken, taken]
  · intro y ls hy
    split at hy
    · split at hy
      · cases hy
      · injection hy with hy
        rw [← hy]
    · cases hy

theorem readStreams_elsewhere (s : State) (reads : List SlotRead) (elsewhere : s.member.station ≠ .member) :
    s.readStreams reads = [] := by
  simp [State.readStreams, elsewhere]

theorem channelsTaken_cases (s : State) (x channels : Nat) :
    (s.routed x = true → s.channelsTaken x channels = min channels 2)
      ∧ (s.routed x = false → s.calledFor x = true → s.channelsTaken x channels = 1)
      ∧ (s.routed x = false → s.calledFor x = false → s.channelsTaken x channels = 0) := by
  unfold State.channelsTaken
  refine ⟨fun routed => by simp [routed], fun routed called => by simp [routed, called],
    fun routed called => by simp [routed, called]⟩

/-! ## Slots driven (R20, R59) -/

theorem drivenInto_own (t : State) {i x : Nat} {p : StreamParameters} {f : Nat} (owned : t.tables.slots.getD i .free = .owned x)
    (carried : t.tables.entry x = .carried p f) (drives : t.member.station = .member ∨ t.member.station = .leaving)
    (own : x / 4 = t.number) :
    (t.line.bindings.getD (x % 4) none = none → t.drivenInto i = some (drivenSlot 0))
      ∧ ∀ b, t.line.bindings.getD (x % 4) none = some b →
        t.drivenInto i = some (drivenSlot (channelSample (t.sourceSamples b) p.channels (i - f))) := by
  have driving : t.member.station.drives = true := by
    obtain member | leaving := drives
    · rw [member]; rfl
    · rw [leaving]; rfl
  unfold State.drivenInto
  rw [owned]
  simp only [carried, driving, own, and_self, if_true]
  exact ⟨fun unbound => by rw [unbound], fun b bound => by rw [bound]⟩

theorem drivenInto_idle (t : State) (member : t.member.station ≠ .member) (leaving : t.member.station ≠ .leaving) (i : Nat) :
    t.drivenInto i = none := by
  have idle : t.member.station.drives = false := by
    cases h : t.member.station <;> first | rfl | exact absurd h member | exact absurd h leaving
  unfold State.drivenInto
  split
  · split
    · simp [idle]
    · rfl
  · rfl

theorem drivenInto_foreign (t : State) {i x : Nat} (owned : t.tables.slots.getD i .free = .owned x) (foreign : x / 4 ≠ t.number) :
    t.drivenInto i = none := by
  unfold State.drivenInto
  rw [owned]
  dsimp only
  split
  · simp [foreign]
  · rfl

theorem drivenInto_unowned (t : State) {i : Nat} (unowned : ∀ x, t.tables.slots.getD i .free ≠ .owned x) :
    t.drivenInto i = none := by
  unfold State.drivenInto
  split
  · rename_i x owned
    exact absurd owned (unowned x)
  · rfl

theorem channelSample_single (y : Sample) (c i : Nat) : channelSample [y] c i = y := rfl

theorem channelSample_pair (y : Stereo) (c i : Nat) :
    (c = 1 → channelSample [y.left, y.right] c i = limit24 (roundDiv (y.left.toInt + y.right.toInt) 2))
      ∧ (c ≠ 1 → channelSample [y.left, y.right] c 0 = y.left)
      ∧ (c ≠ 1 → channelSample [y.left, y.right] c 1 = y.right)
      ∧ (c ≠ 1 → 2 ≤ i → channelSample [y.left, y.right] c i = 0) := by
  refine ⟨fun one => by simp [channelSample, one], fun wide => by simp [channelSample, wide],
    fun wide => by simp [channelSample, wide], fun wide high => ?_⟩
  have not_first : i ≠ 0 := by omega
  have not_second : i ≠ 1 := by omega
  simp [channelSample, wide, not_first, not_second]

/-! ## The row AUDIO_SLOTS -/

theorem audioSlots_driven (t : State) (reads : List SlotRead) (ready : t.line.phase = .started ∨ t.line.phase = .fieldPassed) :
    (t.audioSlots reads).line.phase = .slotsPassed
      ∧ (t.audioSlots reads).line.lineSamples = t.readStreams reads
      ∧ (t.audioSlots reads).line.driven = (List.range 40).map t.drivenInto := by
  simp only [State.audioSlots, ready, if_true]
  exact ⟨by simp, handSlots_lineSamples _ _, by rw [(State.handSlots_frame _ _).2.2.2.2.2.2.2.2.2.2.2.2.2.2.2.2.2.2.2.2.2.2.2.2.1]⟩

theorem getD_map_range {α : Type} (f : Nat → Option α) (n i : Nat) :
    (i < n → ((List.range n).map f).getD i none = f i) ∧ (n ≤ i → ((List.range n).map f).getD i none = none) := by
  refine ⟨fun inside => by simp [List.getD_eq_getElem?_getD, inside], fun beyond => ?_⟩
  simp [List.getD_eq_getElem?_getD, beyond]

/-- Settles O18: the check bit, then the slots driven and the samples handed by the row. -/
theorem slotsAreDrivenAndHanded : Obligations.SlotsAreDrivenAndHanded := by
  refine ⟨fun r => ⟨judgeSlot_invalid r, judgeSlot_valid r⟩, slotCheck_eq_parity, ?row⟩
  intro reads s released t slot half source single ready
  have acts : exec (.audioSlots reads) s = .next (t.audioSlots reads).keepUpStart := exec_outside _ s (fun t => t.audioSlots reads) rfl released
  clear_value t
  obtain ⟨phase, samples, all_driven⟩ := audioSlots_driven t reads ready
  have driven : ∀ i, i < 40 → (t.audioSlots reads).line.driven.getD i none = t.drivenInto i := fun i inside => by
    rw [all_driven, (getD_map_range t.drivenInto 40 i).1 inside]
  refine ⟨t.audioSlots reads, acts, phase, ?own, ?idle, ?foreign, ?unowned, ?handed, channelsTaken_cases t, ?elsewhere,
    by simp, by simp, by simp, by simp, by simp, by simp, by simp, by simp [State.sameAudio]⟩
  case own =>
    intro i x p f inside owned carried drives own
    obtain ⟨unbound, bound⟩ := drivenInto_own t owned carried drives own
    rw [driven i inside]
    refine ⟨unbound, fun b y binding from_single => ?_, fun b y binding from_source => ?_⟩
    · rw [bound b binding]
      obtain ⟨rfl, rfl⟩ | ⟨rfl, rfl⟩ := from_single <;> rfl
    · have pair : t.sourceSamples b = [y.left, y.right] := by
        cases b with
        | input n => rw [show y = _ from from_source]; rfl
        | blend => rw [show y = _ from from_source]; rfl
        | announce => cases from_source
        | uplink => cases from_source
        | zoneMix id =>
          obtain ⟨z, zone, sum⟩ := from_source
          simp only [State.sourceSamples, zone, sum]
      obtain ⟨one, first, second, high⟩ := channelSample_pair y p.channels (i - f)
      rw [bound b binding, pair]
      refine ⟨fun mono => ?_, fun wide here => ?_, fun wide here => ?_, fun wide here => ?_⟩
      · rw [one mono]; rfl
      · rw [here, Nat.sub_self, first wide]; rfl
      · rw [here, Nat.add_sub_cancel_left, second wide]; rfl
      · rw [high wide (by omega)]; rfl
  case idle =>
    intro member leaving i
    obtain inside | beyond := Nat.lt_or_ge i 40
    · rw [driven i inside, drivenInto_idle t member leaving]
    · rw [all_driven, (getD_map_range t.drivenInto 40 i).2 beyond]
  case foreign =>
    intro i x inside owned foreign
    rw [driven i inside, drivenInto_foreign t owned foreign]
  case unowned =>
    intro i k inside unowned
    rw [driven i inside]
    exact drivenInto_unowned t (fun x owned => by rw [owned] at unowned; simp at unowned)
  case handed =>
    intro x p f i inside member carried taken
    exact handed_of_readStreams t _ reads samples member inside carried taken
  case elsewhere =>
    intro elsewhere x i
    simp [State.handed, samples, readStreams_elsewhere t reads elsewhere]

end Sys2Proof.Machine
end

section
/-! PROOFS. How the event list grows (R180): what joined it stays, and a start, a set-up and a change of state only add to it. -/

namespace Sys2Proof.Machine

/-! ## The event list -/

/-- Between two states events have joined the list, in their order. Unlike `State.grew` it says nothing of what an event is stamped
and judged by, which a start and a change of station state do change. -/
def State.moreEvents (s u : State) : Prop :=
  ∃ l : List EventRecord, u.host.events = l.foldl (fun events r => addEvent r events) s.host.events

theorem State.moreEvents_refl (s : State) : s.moreEvents s := ⟨[], rfl⟩

theorem State.moreEvents_trans {s u w : State} (first : s.moreEvents u) (second : u.moreEvents w) : s.moreEvents w := by
  obtain ⟨l, joined⟩ := first
  obtain ⟨m, more⟩ := second
  exact ⟨l ++ m, by rw [List.foldl_append, ← joined, more]⟩

theorem State.moreEvents_of_eq {s u : State} (same : u.host.events = s.host.events) : s.moreEvents u := ⟨[], same⟩

theorem State.grew.moreEvents {s u : State} (grew : s.grew u) : s.moreEvents u := grew.1

theorem moreEvents_raise (k : EventKind) (subject : List Nat) (cause : Option Cause) (s : State) :
    s.moreEvents (raise k subject cause s) := (grew_raise k subject cause s).moreEvents

/-- An operation that raises an event after an update that leaves the list alone. -/
theorem moreEvents_update_raise (k : EventKind) (subject : List Nat) (cause : Option Cause) {s w : State}
    (same : w.host.events = s.host.events) : s.moreEvents (raise k subject cause w) :=
  State.moreEvents_trans (State.moreEvents_of_eq same) (moreEvents_raise k subject cause w)

theorem moreEvents_foldl {α : Type} (f : State → α → State) (grows : ∀ (w : State) x, w.moreEvents (f w x)) (l : List α) (s : State) :
    s.moreEvents (l.foldl f s) :=
  foldl_holds f (fun w x sofar => State.moreEvents_trans sofar (grows w x)) l s (State.moreEvents_refl s)

theorem moreEvents_forEach (n : Nat) (f : Nat → State → State) (grows : ∀ i (w : State), w.moreEvents (f i w)) (s : State) :
    s.moreEvents (forEach n f s) :=
  moreEvents_foldl (fun w i => f i w) (fun w i => grows i w) (List.range n) s

theorem head_addEvent (r first : EventRecord) (events : List EventRecord) (head : events.head? = some first) :
    (addEvent r events).head? = some first := by
  cases events with
  | nil => cases head
  | cons e rest =>
    unfold addEvent
    split
    · exact head
    · split <;> exact head

/-- The oldest record stays the oldest while events only join the list. -/
theorem State.moreEvents.head {s u : State} {first : EventRecord} (more : s.moreEvents u)
    (head : s.host.events.head? = some first) : u.host.events.head? = some first := by
  obtain ⟨l, joined⟩ := more
  rw [joined]
  clear joined
  generalize s.host.events = events at head ⊢
  induction l generalizing events with
  | nil => exact head
  | cons r l ih => exact ih _ (head_addEvent r first events head)

theorem mem_take_addEvent (r e : EventRecord) (events : List EventRecord) (mem : e ∈ events.take 31) :
    e ∈ (addEvent r events).take 31 := by
  unfold addEvent
  split
  · rename_i room
    rw [List.take_of_length_le (by simp; omega)]
    exact List.mem_append_left _ (List.mem_of_mem_take mem)
  · split
    · rename_i full
      rwa [List.take_append_of_le_length (by omega)]
    · rwa [List.take_modify, List.modify_eq_self (by rw [List.length_take]; exact Nat.min_le_left _ _)]

/-- A record in one of the first 31 places stays in the list while events only join it. -/
theorem State.moreEvents.mem {s u : State} {e : EventRecord} (more : s.moreEvents u) (mem : e ∈ s.host.events.take 31) :
    e ∈ u.host.events := by
  obtain ⟨l, joined⟩ := more
  have kept : e ∈ u.host.events.take 31 := by
    rw [joined]
    clear joined
    generalize s.host.events = events at mem ⊢
    induction l generalizing events with
    | nil => exact mem
    | cons r l ih => exact ih _ (mem_take_addEvent r e events mem)
  exact List.mem_of_mem_take kept

/-- An event that is raised while the list has room stands in one of its first 31 places. -/
theorem mem_take_eventRaised (s : State) (k : EventKind) (subject : List Nat) (cause : Option Cause) (host : s.hasHost = true)
    (room : s.host.events.length < 31) :
    { kind := k, subject := subject, cause := cause, stamp := s.tables.frameCount.setWidth 16 }
      ∈ (raise k subject cause s).host.events.take 31 := by
  simp only [raise, host, if_true, addEvent, room]
  rw [List.take_of_length_le (by simp; omega)]
  exact List.mem_append_right _ (List.mem_singleton.mpr rfl)

/-! ## Operations that only add events -/

theorem moreEvents_endPlay (s : State) (place : Nat) (cause : Option Cause) : s.moreEvents (s.endPlay place cause) := by
  unfold State.endPlay
  split
  · exact State.moreEvents_refl s
  · dsimp only
    split
    · exact moreEvents_update_raise _ _ _ rfl
    · exact State.moreEvents_of_eq rfl

theorem moreEvents_endPlays (s : State) (p : Play → Bool) (cause : Option Cause) : s.moreEvents (s.endPlays p cause) := by
  refine moreEvents_forEach 4 _ (fun place w => ?_) s
  split
  · split
    · exact moreEvents_endPlay w place cause
    · exact State.moreEvents_refl w
  · exact State.moreEvents_refl w

theorem moreEvents_loseClip (s : State) (i : Nat) (cause : Cause) : s.moreEvents (s.loseClip i cause) := by
  unfold State.loseClip
  refine State.moreEvents_trans ?_ (moreEvents_endPlays _ _ _)
  refine moreEvents_update_raise _ _ _ ?_
  show (s.dropBuffer i).host.events = s.host.events
  unfold State.dropBuffer
  split <;> rfl

theorem moreEvents_contentReport (s : State) (report : Nat → Bool) : s.moreEvents (s.contentReport report) := by
  have emptied : s.moreEvents s.emptyLoads := State.moreEvents_of_eq rfl
  have lose (p : State → Nat → Bool) (w : State) : w.moreEvents (forEach 32 (fun i acc =>
      if p acc i then acc.loseClip i .notRetained else acc) w) := by
    refine moreEvents_forEach 32 _ (fun i acc => ?_) w
    split
    · exact moreEvents_loseClip acc i _
    · exact State.moreEvents_refl acc
  have fitted := lose (fun acc i => (acc.clip i).state.heldAgainstSpace && acc.store.beyondSpace (acc.clip i)) s.emptyLoads
  have judged := lose (fun acc i => (acc.clip i).state.playable && (acc.store.banksOfClip (acc.clip i)).any (fun b => !report b))
  exact State.moreEvents_trans emptied (State.moreEvents_trans fitted (judged _))

theorem moreEvents_installRoute (s : State) (zones : List ZoneDefinition) (route : AutonomousRoute) :
    s.moreEvents (s.installRoute zones route) := by
  unfold State.installRoute
  split <;> exact State.moreEvents_of_eq rfl

theorem moreEvents_autostart (s : State) : s.moreEvents s.autostart := by
  unfold State.autostart
  split
  · split
    · unfold State.enableFromIdle
      split
      · exact moreEvents_update_raise _ _ _ rfl
      · exact State.moreEvents_refl s
    · exact State.moreEvents_refl s
  · exact State.moreEvents_refl s

theorem moreEvents_setUp (s : State) (r : StartUpRecord) : s.moreEvents (s.setUp r) := by
  unfold State.setUp
  refine State.moreEvents_trans ?_ (moreEvents_autostart _)
  refine State.moreEvents_trans ?_ (moreEvents_foldl _ (fun w route => moreEvents_installRoute w r.zones route) r.routes _)
  refine State.moreEvents_trans ?_ (moreEvents_contentReport _ _)
  exact State.moreEvents_of_eq rfl

theorem moreEvents_zonesAtStation (s : State) : s.moreEvents s.zonesAtStation := by
  unfold State.zonesAtStation State.forZones
  refine moreEvents_forEach 4 _ (fun z w => ?_) s
  refine State.moreEvents_trans ?_ (grew_retarget _ z).moreEvents
  exact State.moreEvents_trans (grew_onZone w z _).moreEvents (grew_retakePosition _ z).moreEvents

theorem moreEvents_enterStation (s : State) (new : StationState) : s.moreEvents (s.enterStation new) := by
  cases new <;> exact State.moreEvents_of_eq rfl

/-- A change of state of a station that takes no part in the line only adds events. -/
theorem moreEvents_goTo (s : State) (new : StationState) (cause : Cause) (off : s.member.station.takesPart = false) :
    s.moreEvents (s.goTo new cause) := by
  have unjoined : s.member.station ≠ .joining := fun joining => by simp [joining, StationState.takesPart] at off
  simp only [State.goTo, off, unjoined, Bool.false_and, Bool.false_eq_true, if_false, false_and]
  refine State.moreEvents_trans ?_ (grew_checkServed _).moreEvents
  refine State.moreEvents_trans ?_ (moreEvents_zonesAtStation _)
  have moved := moreEvents_update_raise (s := s) .stationChanged [stationCode new] (some cause)
    (w := { s with member.station := new, member.cause := some cause }) rfl
  have entered (w : State) (grown : s.moreEvents w) : s.moreEvents (if new.drives = true then w.enterStation new
      else { w.enterStation new with startUp.carryRetry := List.replicate 4 { count := 0, armed := false },
                                     line.presenceDue := false }) := by
    have sofar := State.moreEvents_trans grown (moreEvents_enterStation w new)
    split
    · exact sofar
    · exact State.moreEvents_trans sofar (State.moreEvents_of_eq rfl)
  refine entered _ ?_
  split
  · exact State.moreEvents_trans moved (State.moreEvents_of_eq rfl)
  · exact moved

theorem raise_host (k : EventKind) (subject : List Nat) (cause : Option Cause) (s : State) :
    (raise k subject cause s).host = s.eventRaised k subject cause := by
  unfold raise State.eventRaised
  split <;> rfl

theorem moreEvents_endRequest_gap (s : State) (r : Request) (cause : Cause) : s.moreEvents (s.endRequest r (.gap cause)) := by
  obtain ⟨-, host, -⟩ := endRequest_gapOf s r cause
  refine State.moreEvents_trans (moreEvents_raise .storeGap [clientCode r.queue.client, accessCode r.access] (some cause) s) ?_
  exact State.moreEvents_of_eq (by rw [host, raise_host])

theorem moreEvents_storeBoundary (s : State) : s.moreEvents s.storeBoundary := by
  have handed (l : List Request) (w : State) (same : w.host.events = s.host.events) :
      s.moreEvents (l.foldl (fun acc r => acc.endRequest r (.gap .deadline)) w) :=
    State.moreEvents_trans (State.moreEvents_of_eq same) (moreEvents_foldl _ (fun w r => moreEvents_endRequest_gap w r .deadline) l w)
  obtain ⟨l, joined⟩ := handed s.store.newFrame.withdrawn { s with store := s.store.newFrame.withdraw } rfl
  exact ⟨l, joined⟩

theorem moreEvents_follow (s : State) (new : FollowerState) (cause : Cause) : s.moreEvents (s.follow new cause) :=
  moreEvents_update_raise _ _ _ rfl

theorem moreEvents_judgeStart (s : State) (onTime : Bool) : s.moreEvents (s.judgeStart onTime) := by
  have on_time : s.moreEvents s.judgeOnTime := by
    unfold State.judgeOnTime
    repeat' split
    all_goals first | exact moreEvents_follow s _ _ | exact State.moreEvents_of_eq rfl
  have miss : s.moreEvents s.judgeMiss := by
    unfold State.judgeMiss
    repeat' split
    all_goals first | exact moreEvents_follow s _ _ | exact State.moreEvents_of_eq rfl
  unfold State.judgeStart
  split
  · exact moreEvents_follow s _ _
  · split
    · exact on_time
    · exact miss

theorem moreEvents_start (s : State) (emitted inWindow : Bool) : s.moreEvents (s.start emitted inWindow) := by
  have counted (w : State) : w.countSilence.host = w.host := by
    unfold State.countSilence
    split <;> rfl
  unfold State.start
  refine State.moreEvents_trans ?_ (moreEvents_storeBoundary _)
  refine State.moreEvents_trans ?_ (moreEvents_judgeStart _ _)
  exact State.moreEvents_of_eq (by rw [counted]; simp)

end Sys2Proof.Machine
end

section
/-! PROOFS. Frame starts: seen, emitted and missing (R1, R3 to R6, R25, R28, R41, R47). -/

namespace Sys2Proof.Machine

/-! ## A start that is seen or emitted -/

theorem start_line (s : State) (emitted inWindow : Bool) :
    (s.start emitted inWindow).line = s.cut.line.atStart s.member.station.drives emitted := by
  simp [State.start]

theorem start_tables (s : State) (emitted inWindow : Bool) : (s.start emitted inWindow).tables = s.tables.atStart := by
  simp [State.start]

theorem start_undamaged (s : State) (emitted inWindow : Bool) :
    (s.start emitted inWindow).member.undamaged = s.member.undamaged := by
  simp only [State.start, State.storeBoundary_frame, State.judgeStart_frame, State.countSilence]
  split <;> simp

theorem cut_lineSamples (s : State) :
    (s.line.phase = .started ∨ s.line.phase = .fieldPassed → s.cut.line.lineSamples = s.readStreams [])
      ∧ (¬(s.line.phase = .started ∨ s.line.phase = .fieldPassed) → s.cut = s) := by
  refine ⟨fun short => ?_, fun whole => by simp [State.cut, whole]⟩
  simp only [State.cut, short, if_true]
  exact handSlots_lineSamples s []

theorem atStart_station (t : LineTables) (n : Nat) :
    t.atStart.station n = if (t.station n).present then { t.station n with age := (t.station n).age + 1 } else t.station n := by
  show (t.roster.map _).getD n RosterEntry.absent = _
  exact getD_map t.roster _ n RosterEntry.absent RosterEntry.absent rfl

theorem atStart_slot (t : LineTables) (i : Nat) :
    t.atStart.slots.getD i .free = (match t.slots.getD i .free with
      | .held k => .held (k - 1)
      | e => e) := by
  show (t.slots.map _).getD i Slot.free = _
  exact getD_map t.slots _ i Slot.free Slot.free rfl

/-- A start hands on to the follower's judgement, in a state that has the follower, the events and the tables of the frame begun,
and then to the store's frame boundary. -/
theorem start_eq_judged (s : State) (emitted inWindow : Bool) : ∃ b : State, b.follower = s.follower ∧ b.host = s.host
    ∧ b.hasHost = s.hasHost ∧ b.tables = s.tables.atStart
    ∧ s.start emitted inWindow
        = (b.judgeStart (emitted || (inWindow && !s.line.phase.isOpen && !s.line.timerExpired))).storeBoundary := by
  refine ⟨_, ?_, ?_, ?_, ?_, rfl⟩
  · simp
  · simp
  · simp [State.hasHost, State.roles, State.inForce]
  · simp

theorem start_follower_freeRun (s : State) (emitted inWindow : Bool) (free : s.follower.state = .freeRun) :
    (s.start emitted inWindow).follower = s.follower.followed .pulling := by
  obtain ⟨b, follower, -, -, -, started⟩ := start_eq_judged s emitted inWindow
  rw [started, (State.storeBoundary_frame _).2.2.2.2.2.1]
  simp only [State.judgeStart, follower, free, if_true, follow_follower]

theorem drives_iff (station : StationState) : station.drives = true ↔ station = .member ∨ station = .leaving := by
  cases station <;> simp [StationState.drives]

/-! ## A start that wakes the station (R22, R185) -/

theorem getD_replicate_default {α : Type} (n i : Nat) (d : α) : (List.replicate n d).getD i d = d := by
  rw [List.getD_eq_getElem?_getD, List.getElem?_replicate]
  split
  · rfl
  · rfl

theorem reset_station (n : Nat) : LineTables.reset.station n = .absent := getD_replicate_default 16 n _

theorem reset_entry (x : Nat) : LineTables.reset.entry x = .none := getD_replicate_default 64 x _

theorem reset_call (j : Nat) : LineTables.reset.call j = .none := getD_replicate_default 2 j _

/-- A wake: a reset that keeps what retention kept, the set-up of the record, and the move to LISTENING. -/
theorem wake_eq (t : State) (cause : Cause) (stayAwake : Bool) {r : StartUpRecord} (record : t.startUp.record = some r) :
    ∃ z : State, t.wake cause stayAwake = (z.setUp r).goTo .listening .startUp
      ∧ z.line = .reset ∧ z.tables = .reset ∧ z.member = .reset ∧ z.follower = .reset ∧ z.store = t.store.afterReset
      ∧ z.host.response = none ∧ z.host.stayAwake = stayAwake ∧ z.host.events = resetEvents cause :=
  ⟨_, by rw [State.wake, record], rfl, rfl, rfl, rfl, rfl, rfl, rfl, rfl⟩

theorem wake_facts (t : State) (cause : Cause) (stayAwake : Bool) {r : StartUpRecord} (record : t.startUp.record = some r) :
    let w := t.wake cause stayAwake
    w.member.station = .listening ∧ w.member.cause = some .startUp
      ∧ w.host.events.head? = some { kind := .reset, subject := [], cause := some cause, stamp := 0 }
      ∧ w.host.response = none ∧ w.host.stayAwake = stayAwake ∧ w.startUp.record = some r ∧ w.startUp.reading = false
      ∧ w.store.regions = r.regions ∧ w.store.retained = r.retained ∧ w.store.memory = t.store.memory ∧ w.follower = .reset
      ∧ w.line.queue = [] ∧ w.line.waiting = [] ∧ w.tables = LineTables.reset := by
  intro w
  obtain ⟨z, woken, line, tables, member, follower, store, response, awake, events⟩ := wake_eq t cause stayAwake record
  obtain ⟨kept, reading, regions, retained⟩ := setUp_facts z r
  have off : (z.setUp r).member.station.takesPart = false := by
    rw [(State.setUp_frame z r).2.2.2.2.1, member]; rfl
  have waits : (z.setUp r).line.queue = [] ∧ (z.setUp r).line.waiting = [] := by simp [line, LineInterface.reset]
  obtain ⟨queue, waiting⟩ := goTo_queue_off (z.setUp r) .listening .startUp rfl (.inr waits)
  have head := ((moreEvents_setUp z r).head (by rw [events]; rfl) :
    (z.setUp r).host.events.head? = some { kind := .reset, subject := [], cause := some cause, stamp := 0 })
  have memory : z.store.memory = t.store.memory := by rw [store]; rfl
  have moved := moreEvents_goTo (z.setUp r) .listening .startUp off
  obtain ⟨station, reason⟩ := goTo_station (z.setUp r) .listening .startUp
  have woke : w = (z.setUp r).goTo .listening .startUp := woken
  clear_value w
  have tables' : w.tables = LineTables.reset := by
    rw [woke, goTo_tables]
    simp [StationState.dropsTables, LineTables.cleared, tables, LineTables.reset]
  have station' : w.member.station = .listening ∧ w.member.cause = some .startUp := by rw [woke]; exact ⟨station, reason⟩
  have head' := moved.head head
  rw [← woke] at queue waiting head'
  have others : w.host.response = none ∧ w.host.stayAwake = stayAwake ∧ w.startUp.record = some r ∧ w.startUp.reading = false
      ∧ w.store.regions = r.regions ∧ w.store.retained = r.retained ∧ w.store.memory = t.store.memory ∧ w.follower = .reset := by
    rw [woke]
    simp [response, awake, kept, reading, regions, retained, memory, follower]
  obtain ⟨response', awake', kept', reading', regions', retained', memory', follower'⟩ := others
  exact ⟨station'.1, station'.2, head', response', awake', kept', reading', regions', retained', memory', follower', queue,
    waiting, tables'⟩

/-- Settles O10: what the start does to the line and the tables; a wake is a reset, the set-up of the record and a start. -/
theorem aStartSeenBeginsAFrame : Obligations.AStartSeenBeginsAFrame := by
  intro inWindow s released t cutShort
  have acts : exec (.frameStart inWindow) s = .next (t.startSeen inWindow).keepUpStart :=
    exec_outside _ s (fun t => t.startSeen inWindow) rfl released
  clear_value t
  refine ⟨?awake, ?asleep⟩
  case awake =>
    intro awake
    have seen : t.startSeen inWindow = t.start false inWindow := by simp [State.startSeen, awake]
    rw [seen, start_keepUp] at acts
    have line := start_line t false inWindow
    have tables := start_tables t false inWindow
    obtain ⟨samples, whole⟩ := cut_lineSamples t
    refine ⟨t.start false inWindow, acts, by rw [line]; rfl, by rw [line]; rfl, by rw [line]; rfl, by rw [line]; rfl,
      by rw [line]; rfl, by rw [line]; rfl, by rw [line]; rfl, by rw [line]; rfl, ?queue, ?waiting, ?bindings, ?selfVeto,
      ?counter, ?handed, ?nothing, ?kept, by rw [tables]; rfl, ?present, ?absent, ?slots, by rw [tables]; rfl,
      by rw [tables]; rfl, by simp, by simp, start_undamaged t false inWindow, by simp, by simp⟩
    case queue => rw [line]; simp [LineInterface.atStart]
    case waiting => rw [line]; simp [LineInterface.atStart]
    case bindings => rw [line]; simp [LineInterface.atStart]
    case selfVeto => rw [line]; simp [LineInterface.atStart]
    case counter => rw [line]; simp [LineInterface.atStart, drives_iff]
    case handed =>
      intro short member x p f i inside carried taken
      have samples_read : (t.start false inWindow).line.lineSamples = t.readStreams [] := by rw [line]; exact samples short
      rw [handed_of_readStreams t _ [] samples_read member inside carried taken]
      exact congrArg some judgeSlot_unread
    case nothing =>
      intro short elsewhere
      rw [line]
      exact (samples short).trans (readStreams_elsewhere t [] elsewhere)
    case kept =>
      intro whole_frame
      rw [line, whole whole_frame]
      rfl
    case present =>
      intro n present
      rw [tables, atStart_station, if_pos present]
    case absent =>
      intro n absent
      rw [tables, atStart_station, absent]
      rfl
    case slots =>
      intro i
      rw [tables]
      exact atStart_slot t.tables i
  case asleep =>
    intro r dormant record
    have seen : t.startSeen inWindow = { (t.wake .wakeStart false).start false false with line.phase := .unread } := by
      simp [State.startSeen, dormant]
    obtain ⟨station, cause, events, response, stayAwake, kept, reading, regions, retained, memory, follower, queue, waiting,
      tables⟩ := wake_facts t .wakeStart false record
    rw [seen] at acts
    clear seen
    generalize t.wake .wakeStart false = w at *
    obtain ⟨timer, lead, silent, -⟩ := start_facts w false false
    have grown := (moreEvents_start w false false).head events
    have line := start_line w false false
    have begun : (w.start false false).tables = LineTables.reset.atStart := by rw [start_tables, tables]
    have pulling : (w.start false false).follower = Follower.reset.followed .pulling := by
      rw [start_follower_freeRun w false false (by rw [follower]; rfl), follower]
    have emptied : (w.start false false).line.queue = [] ∧ (w.start false false).line.waiting = [] := by
      rw [line]
      simp [LineInterface.atStart, queue, waiting]
    obtain ⟨station', cause', response', stayAwake', record', reading', regions', retained', memory'⟩ :
        (w.start false false).member.station = .listening ∧ (w.start false false).member.cause = some .startUp
          ∧ (w.start false false).host.response = none ∧ (w.start false false).host.stayAwake = false
          ∧ (w.start false false).startUp.record = some r ∧ (w.start false false).startUp.reading = false
          ∧ (w.start false false).store.regions = r.regions ∧ (w.start false false).store.retained = r.retained
          ∧ (w.start false false).store.memory = t.store.memory := by
      simp [station, cause, response, stayAwake, kept, reading, regions, retained, memory]
    generalize w.start false false = x at *
    rw [keepUpStart_idle { x with line.phase := .unread } (.inl timer)] at acts
    refine ⟨_, acts, station', cause', grown, response', stayAwake', record', reading', regions', retained',
      by rw [begun]; rfl, ?stations, ?streams, ?calls, ?slots, rfl, timer, silent, lead, emptied.1, emptied.2,
      by rw [pulling]; rfl, by rw [pulling]; rfl, by rw [pulling]; rfl, memory'⟩
    case stations => exact fun n => by rw [begun, atStart_station, reset_station]; rfl
    case streams => exact fun y => by rw [begun]; exact reset_entry y
    case calls => exact fun j => by rw [begun]; exact reset_call j
    case slots =>
      intro i inside
      rw [begun, show LineTables.reset.atStart.slots = List.replicate 40 Slot.free from List.map_replicate]
      exact getD_replicate_lt _ _ inside

/-! ## A start that is emitted, and one that is missing (R3, R6, R41) -/

/-- A station that may lead and whose timer runs emits a start at LEAD_START as at the expiry (R3). -/
theorem exec_leads (c : Instr) (s : State) (row : c = .leadStart ∨ c = .frameTimerExpiry) (released : s.released)
    (keepUp : s.settle.keepUp = true) (onLine : s.settle.member.station.onLine = true)
    (running : s.settle.line.timerExpired = false) : exec c s = .next (s.settle.start true true) := by
  have leads : s.settle.mayLead = true := by simp [State.mayLead, keepUp, onLine]
  have awake : (s.settle.member.station == .dormant) = false := by
    cases station : s.settle.member.station <;> first | rfl | (rw [station] at onLine; cases onLine)
  obtain rfl | rfl := row
  · rw [exec_outside .leadStart s State.leadStart rfl released]
    simp only [State.leadStart, leads, running, Bool.not_false, Bool.and_self, if_true, start_keepUp]
  · rw [exec_outside .frameTimerExpiry s State.expireTimer rfl released]
    simp only [State.expireTimer, leads, running, awake, Bool.or_self, Bool.false_eq_true, if_false, if_true, start_keepUp]

/-- A station without a reason to lead misses the start at the expiry and at each further frame period. -/
theorem exec_misses (c : Instr) (s : State) (released : s.released) (awake : s.settle.member.station ≠ .dormant)
    (idle : s.settle.keepUp = false ∨ s.settle.member.station.onLine = false)
    (row : c = .frameTimerExpiry ∧ s.settle.line.timerExpired = false
      ∨ c = .missingStart ∧ s.settle.line.timerExpired = true) :
    exec c s = .next s.settle.missStart.keepUpStart := by
  have stays : s.settle.mayLead = false := Bool.and_eq_false_iff.mpr idle
  obtain ⟨rfl, running⟩ | ⟨rfl, expired⟩ := row
  · rw [exec_outside .frameTimerExpiry s State.expireTimer rfl released]
    simp [State.expireTimer, stays, running, awake]
  · rw [exec_outside .missingStart s State.missFurther rfl released]
    simp [State.missFurther, expired, awake]

theorem missStart_line (s : State) :
    s.missStart.line = { s.line with timerExpired := true, silentCount := s.line.silentCount + 1 } := by
  unfold State.missStart State.countSilence
  split <;> simp

theorem missStart_silenceCount (s : State) : s.missStart.member.silenceCount =
    (if s.member.station = .silenced then s.member.silenceCount - 1 else s.member.silenceCount) := by
  unfold State.missStart State.countSilence
  split <;> simp

/-- Settles O11: the start emitted is the same at both rows. -/
theorem aKeptUpLineIsLed : Obligations.AKeptUpLineIsLed := by
  intro c s row released t
  have acts := exec_leads c s row released
  have settled : s.settle = t := rfl
  rw [settled] at acts
  clear_value t
  intro keepUp onLine running
  obtain ⟨timer, lead, silent, frames⟩ := start_facts t true true
  have line := start_line t true true
  have tables := start_tables t true true
  exact ⟨_, acts keepUp onLine running, lead, timer, silent, by rw [line]; rfl, frames, by rw [tables]; rfl, by rw [tables]; rfl, by simp⟩

/-- Settles O12: both rows miss a start. -/
theorem missingStartsAreCounted : Obligations.MissingStartsAreCounted := by
  intro c s released t
  have acts := exec_misses c s released
  have settled : s.settle = t := rfl
  rw [settled] at acts
  clear_value t
  intro awake idle row
  exact ⟨_, acts awake idle row, missStart_line t, by simp, by simp, missStart_silenceCount t⟩

/-! ## The follower's judgement (R66, R67, R69) -/

/-- The state of the follower changed with a cause (R67): both runs are 0, the gain stands, and the event is in the list where the
station has a host and the list room. -/
def State.followerChanges (t : State) (cause : Cause) (u : State) : Prop :=
  u.follower.onTime = 0 ∧ u.follower.miss = 0 ∧ u.follower.gain = t.follower.gain
    ∧ (t.hasHost = true → t.host.events.length < 31 →
        { kind := .followerChanged, subject := [followerCode u.follower.state], cause := some cause,
          stamp := u.tables.frameCount.setWidth 16 } ∈ u.host.events)

/-- The follower after a start was judged on time or not, or missed (R66, R67). -/
def State.followerJudged (t : State) (missing : Prop) (onTime : Bool) (u : State) : Prop :=
  let f := t.follower
  (f.state = .freeRun → missing → u.follower = f)
    ∧ (f.state = .freeRun → ¬missing → u.follower = { f with state := .pulling, onTime := 0, miss := 0, rate := .towardsLine }
        ∧ t.followerChanges .startSeen u)
    ∧ (f.state = .pulling → onTime = true → f.onTime < 255 → u.follower = { f with onTime := f.onTime + 1, miss := 0 })
    ∧ (f.state = .pulling → onTime = true → 255 ≤ f.onTime →
        u.follower.state = .locked ∧ u.follower.rate = .matched ∧ t.followerChanges .settled u
          ∧ (f.gate = .shut ∨ f.gate = .closing → u.follower.gate = .opening))
    ∧ (f.state = .pulling → onTime = false → u.follower = { f with onTime := 0, miss := f.miss + 1 })
    ∧ (f.state = .locked → onTime = true → u.follower = { f with onTime := min 256 (f.onTime + 1), miss := 0 })
    ∧ (f.state = .locked → onTime = false → f.miss < 3 → u.follower = { f with onTime := 0, miss := f.miss + 1 })
    ∧ (f.state = .locked → onTime = false → 3 ≤ f.miss →
        u.follower.state = .pulling ∧ u.follower.rate = .towardsLine ∧ t.followerChanges .startsMissed u
          ∧ (f.gate = .open ∨ f.gate = .opening → u.follower.gate = .closing))

/-- A change of follower state, seen from a state with the same follower, events and host: whatever only adds events afterwards
keeps what it says. -/
theorem follow_changes {t b u : State} (new : FollowerState) (cause : Cause) (follower : b.follower = t.follower)
    (host : b.host = t.host) (hasHost : b.hasHost = t.hasHost) (kept : u.follower = (b.follow new cause).follower)
    (tables : u.tables = b.tables) (more : (b.follow new cause).moreEvents u) :
    u.follower = t.follower.followed new ∧ t.followerChanges cause u := by
  have followed : u.follower = t.follower.followed new := by rw [kept, follow_follower, follower]
  refine ⟨followed, by rw [followed]; rfl, by rw [followed]; rfl, by rw [followed]; rfl, fun attended room => ?_⟩
  rw [followed, tables]
  refine more.mem (mem_take_eventRaised { b with follower := _ } .followerChanged [followerCode new] (some cause) ?_ ?_)
  · exact hasHost.trans attended
  · rw [host]
    exact room

/-- A start that is seen or emitted, judged in a state with the same follower, events and host. -/
theorem judgeStart_judged {t b u : State} (onTime : Bool) (follower : b.follower = t.follower) (host : b.host = t.host)
    (hasHost : b.hasHost = t.hasHost) (kept : u.follower = (b.judgeStart onTime).follower) (tables : u.tables = b.tables)
    (more : (b.judgeStart onTime).moreEvents u) : t.followerJudged False onTime u := by
  have changes (new : FollowerState) (cause : Cause) (judged : b.judgeStart onTime = b.follow new cause) :=
    follow_changes (u := u) new cause follower host hasHost (judged ▸ kept) tables (judged ▸ more)
  refine ⟨fun _ missing => missing.elim, fun free _ => ?_, fun pulling timely early => ?_, fun pulling timely settled => ?_,
    fun pulling late => ?_, fun locked timely => ?_, fun locked late few => ?_, fun locked late many => ?_⟩
  · obtain ⟨followed, changed⟩ := changes .pulling .startSeen (by simp [State.judgeStart, follower, free])
    exact ⟨by rw [followed]; simp [Follower.followed, rateIn, gateAt, free], changed⟩
  · rw [kept, ← follower]
    simp [State.judgeStart, State.judgeOnTime, follower, pulling, timely, Nat.not_le.mpr early]
  · obtain ⟨followed, changed⟩ := changes .locked .settled
      (by simp [State.judgeStart, State.judgeOnTime, follower, pulling, timely, settled])
    rw [followed]
    exact ⟨rfl, rfl, changed, fun shut => by obtain shut | shut := shut <;> simp [Follower.followed, gateAt, shut]⟩
  · rw [kept, ← follower]
    simp [State.judgeStart, State.judgeMiss, follower, pulling, late]
  · rw [kept, ← follower]
    simp [State.judgeStart, State.judgeOnTime, follower, locked, timely]
  · rw [kept, ← follower]
    simp [State.judgeStart, State.judgeMiss, follower, locked, late, Nat.not_le.mpr few]
  · obtain ⟨followed, changed⟩ := changes .pulling .startsMissed
      (by simp [State.judgeStart, State.judgeMiss, follower, locked, late, many])
    rw [followed]
    exact ⟨rfl, rfl, changed, fun opened => by
      obtain opened | opened := opened <;> simp [Follower.followed, gateAt, opened, locked]⟩

/-- A missing start (R66): FREE_RUN stays as it is. -/
theorem missStart_judged (t : State) : t.followerJudged True false t.missStart := by
  obtain ⟨b, follower, host, hasHost, tables, missed⟩ : ∃ b : State, b.follower = t.follower ∧ b.host = t.host
      ∧ b.hasHost = t.hasHost ∧ b.tables = t.tables ∧ t.missStart = b.judgeMiss.storeBoundary := by
    have counted (w : State) : w.countSilence.follower = w.follower ∧ w.countSilence.host = w.host
        ∧ w.countSilence.hasHost = w.hasHost ∧ w.countSilence.tables = w.tables := by
      unfold State.countSilence
      split <;> simp [State.hasHost, State.roles, State.inForce]
    obtain ⟨follower, host, hasHost, tables⟩ :=
      counted { t with line.timerExpired := true, line.silentCount := t.line.silentCount + 1 }
    exact ⟨_, follower, host, hasHost, tables, rfl⟩
  have kept : t.missStart.follower = b.judgeMiss.follower := by rw [missed, (State.storeBoundary_frame _).2.2.2.2.2.1]
  by_cases free : t.follower.state = .freeRun
  · have stands : t.missStart.follower = t.follower := by
      rw [kept]
      simp [State.judgeMiss, follower, free]
    refine ⟨fun _ _ => stands, fun _ judged => absurd trivial judged, ?_, ?_, ?_, ?_, ?_, ?_⟩ <;>
      exact fun other => by rw [free] at other; cases other
  · have judged : b.judgeStart false = b.judgeMiss := by simp [State.judgeStart, follower, free]
    obtain ⟨-, -, timely, settles, late, stays, few, many⟩ : t.followerJudged False false t.missStart := by
      refine judgeStart_judged false follower host hasHost (by rw [kept, judged]) (by simp [tables]) ?_
      rw [judged, missed]
      exact moreEvents_storeBoundary _
    exact ⟨fun running => absurd running free, fun running => absurd running free, timely, settles, late, stays, few, many⟩

theorem start_judged (t : State) (emitted inWindow : Bool) :
    t.followerJudged False (emitted || (inWindow && !t.line.phase.isOpen && !t.line.timerExpired)) (t.start emitted inWindow) := by
  obtain ⟨b, follower, host, hasHost, tables, started⟩ := start_eq_judged t emitted inWindow
  refine judgeStart_judged _ follower host hasHost ?_ ?_ ?_
  · rw [started, (State.storeBoundary_frame _).2.2.2.2.2.1]
  · rw [start_tables, tables]
  · rw [started]
    exact moreEvents_storeBoundary _

theorem State.followerJudged_iff {t u : State} {missing missing' : Prop} {onTime : Bool} (same : missing ↔ missing')
    (judged : t.followerJudged missing onTime u) : t.followerJudged missing' onTime u := by
  rwa [propext same] at judged

/-- Settles O13: a start seen, a start emitted and a missing start, each judged as the follower does. -/
theorem followerJudgesEveryStart : Obligations.FollowerJudgesEveryStart := by
  intro c s released t f leads seen emitted missing judged changes awake onTime row
  have leading := fun row => exec_leads c s row released
  have missed := exec_misses c s released
  have started := fun w => exec_outside (.frameStart w) s (fun t => t.startSeen w) rfl released
  have settled : s.settle = t := rfl
  rw [settled] at leading missed started
  clear_value t
  obtain ⟨w, rfl, timely⟩ | ⟨⟨row, ⟨keepUp, onLine⟩, running⟩, timely⟩ | ⟨⟨idle, row⟩, late⟩ := row
  · have saw := started w
    rw [show t.startSeen w = t.start false w from by simp [State.startSeen, awake]] at saw
    have not_missing : False ↔ missing := ⟨False.elim, fun ⟨_, row⟩ => by obtain ⟨row, _⟩ | ⟨row, _⟩ := row <;> cases row⟩
    refine ⟨_, _, saw, rfl, fun _ => start_keepUp t false w, ?_⟩
    have judgement := start_judged t false w
    rw [Bool.false_or, ← timely] at judgement
    exact State.followerJudged_iff not_missing judgement
  · have not_missing : False ↔ missing := ⟨False.elim, fun ⟨idle, _⟩ => idle ⟨keepUp, onLine⟩⟩
    refine ⟨_, t.start true true, leading row keepUp onLine running, (start_keepUp t true true).symm, fun _ => rfl, ?_⟩
    have judgement : t.followerJudged False onTime (t.start true true) := by rw [timely]; exact start_judged t true true
    exact State.followerJudged_iff not_missing judgement
  · have is_missing : missing := ⟨idle, row⟩
    have stays : t.keepUp = false ∨ t.member.station.onLine = false := by
      simpa [Classical.or_iff_not_imp_left] using (not_and.mp idle)
    refine ⟨_, t.missStart, missed awake stays row, rfl, fun judged => absurd is_missing judged, ?_⟩
    rw [late]
    exact State.followerJudged_iff ⟨fun _ => is_missing, fun _ => trivial⟩ (missStart_judged t)

/-! ## The silent line (R6, R67) -/

/-- Settles O14: the line falls silent once, and the follower goes to FREE_RUN unless it is there. -/
theorem aSilentLineFreesTheFollower : Obligations.ASilentLineFreesTheFollower := by
  intro s released
  have acts := exec_due .silentLine s State.lineSilent rfl released
  have notLocked : s.follower.state = .freeRun → ¬ s.follower.state = .locked := fun free locked => by
    rw [free] at locked; cases locked
  refine ⟨fun early => ?early, fun due still => ?due⟩
  case early =>
    have stands : s.lineSilent = s := by
      obtain short | silent := early
      · simp [State.lineSilent, Nat.not_le.mpr short]
      · simp [State.lineSilent, silent]
    rwa [stands] at acts
  case due =>
    have falls : s.lineSilent = if s.follower.state = .freeRun then { s with line.silent := true }
        else State.follow { s with line.silent := true } .freeRun .silentLine := by
      simp [State.lineSilent, due, still]
    refine ⟨s.lineSilent, acts, ?_⟩
    rw [falls]
    split
    · rename_i free
      exact ⟨rfl, free, rfl, rfl, fun running => absurd free running, fun locked => (notLocked free locked).elim, rfl, rfl,
        rfl, rfl, rfl, rfl, rfl, rfl, rfl⟩
    · have followed := follow_follower { s with line.silent := true } .freeRun .silentLine
      refine ⟨by simp, by rw [followed]; rfl, by rw [followed]; rfl, by rw [followed]; rfl,
        fun _ => by rw [followed]; exact ⟨rfl, rfl⟩, fun locked opened => ?_, by simp, by simp, by simp, by simp, by simp, by simp,
        by simp, by simp, by simp⟩
      rw [followed]
      obtain opened | opened := opened <;> simp [Follower.followed, gateAt, opened, locked]

end Sys2Proof.Machine
end

section
/-! PROOFS. The entry into DORMANT (R184). -/

namespace Sys2Proof.Machine

/-! ## What each block does on falling asleep -/

theorem emptyLoads_clip (s : State) (i : Nat) :
    s.emptyLoads.clip i = if (s.clip i).state = .loading then .none else s.clip i :=
  getD_map s.announce.clips (fun c : Clip => if c.state = .loading then Clip.none else c) i .none .none rfl

theorem stopCadences_channel (s : State) (c : Nat) :
    s.stopCadences.channel c = { s.channel c with running := false, counting := false } :=
  getD_map s.announce.channels (fun c => ({ c with running := false, counting := false } : CadenceChannel)) c .reset .reset rfl

theorem followerAsleep_follower (s : State) :
    s.followerAsleep.follower.state = .freeRun ∧ s.followerAsleep.follower.gate = .shut
      ∧ s.followerAsleep.follower.gain = 0 := by
  unfold State.followerAsleep
  split
  next free => exact ⟨free, rfl, rfl⟩
  next =>
    have freed : (s.follow .freeRun .dormant).follower.state = .freeRun := by rw [follow_follower]; rfl
    exact ⟨freed, rfl, rfl⟩

/-- The blocks of a station that has just fallen asleep (R184), over the state `gone` its change to DORMANT leaves. -/
structure State.blocksAsleep (gone u : State) : Prop where
  tables : u.tables = gone.tables
  member : u.member = gone.member
  line : u.line = gone.line.asleep
  store : u.store = gone.store.retain
  clips : ∀ i, u.clip i = if (gone.clip i).state = .loading then .none else gone.clip i
  buffer : u.announce.buffer = [] ∧ u.announce.bufferClip = none
  channels : ∀ c, u.channel c = { gone.channel c with running := false, counting := false }
  plays : u.announce.plays = List.replicate 4 none
  zones : u.mixer.zones = List.replicate 4 .reset
  follower : u.follower.state = .freeRun ∧ u.follower.gate = .shut ∧ u.follower.gain = 0
  ports : u.ports = { gone.ports.enterDormant with outputs := List.replicate 6 .zero }
  blend : u.blend.state = .idle
  call : u.call.state = .off ∧ u.call.served = none ∧ u.call.coefficients = List.replicate 1024 0
    ∧ u.call.searchDone = false ∧ u.call.bulkDelay = 32
  note : u.note = .reset
  host : u.host.events = [] ∧ u.host.response = none
  record : u.startUp.record = gone.startUp.record

theorem enterDormant_blocksAsleep (s : State) (falls : s.fallsAsleep = true) :
    (s.goTo .dormant .silentLine).blocksAsleep s.enterDormant := by
  unfold State.enterDormant
  rw [if_pos falls]
  generalize s.goTo .dormant .silentLine = gone
  have follower := followerAsleep_follower gone.emptyLoads.stopCadences
  have clips : ∀ i, gone.emptyLoads.stopCadences.clip i = gone.emptyLoads.clip i := by simp [State.clip]
  have channels : ∀ c, gone.emptyLoads.channel c = gone.channel c := by simp [State.channel]
  exact {
    tables := by simp
    member := by simp
    line := by simp
    store := by simp
    clips := fun i => by
      rw [← emptyLoads_clip, ← clips]
      simp [State.clip]
    buffer := by simp [State.stopCadences, State.emptyLoads]
    channels := fun c => by
      rw [← channels, ← stopCadences_channel]
      simp [State.channel]
    plays := rfl
    zones := rfl
    follower := by simp [follower]
    ports := by simp
    blend := rfl
    call := ⟨rfl, rfl, rfl, rfl, rfl⟩
    note := rfl
    host := ⟨rfl, rfl⟩
    record := by simp }

/-- Settles O15: not due, the row does nothing; due, every block is what its part of the entry leaves. -/
theorem dormancyEntryEmptiesTheBlocks : Obligations.DormancyEntryEmptiesTheBlocks := by
  intro s released
  have acts := exec_due .dormancyEntry s State.enterDormant rfl released
  refine ⟨fun stays => ?stays, fun long free online awake emptyUnless => ?falls⟩
  case stays => rw [acts, enterDormant_no s stays]
  case falls =>
    have falls : s.fallsAsleep = true := by simp [State.fallsAsleep, long, free, online, awake]
    have asleep := enterDormant_blocksAsleep s falls
    obtain ⟨station, cause⟩ := goTo_station s .dormant .silentLine
    obtain ⟨queue, waiting⟩ := goTo_queue_off s .dormant .silentLine rfl emptyUnless
    have tables := goTo_tables s .dormant .silentLine
    have same : (s.goTo .dormant .silentLine).store = s.store ∧ (s.goTo .dormant .silentLine).announce = s.announce
      ∧ (s.goTo .dormant .silentLine).startUp.record = s.startUp.record := by simp
    generalize s.goTo .dormant .silentLine = gone at asleep station cause queue waiting tables same
    generalize s.enterDormant = u at acts asleep
    obtain ⟨store, announce, record⟩ := same
    have idle : u.keepUpStart = u := keepUpStart_idle u (.inr (.inr (by rw [asleep.member, station]; rfl)))
    rw [idle] at acts
    have cleared : u.tables = s.tables.cleared := asleep.tables.trans tables
    refine ⟨u, acts, by rw [asleep.member, station], by rw [asleep.member, cause], by rw [asleep.line]; exact queue,
      by rw [asleep.line]; exact waiting, by rw [asleep.line]; rfl, by simp [cleared], by simp [cleared],
      fun i => by rw [cleared, cleared_slot], by simp [cleared], by rw [cleared]; rfl, by rw [asleep.store]; rfl, fun q => by rw [asleep.store, retain_queues gone.store _ rfl],
      fun b exists8 => by rw [asleep.store]; exact retain_banks gone.store _ rfl b exists8,
      fun none a => by rw [asleep.store, store]; exact retain_read _ none a, fun i => ?clips, asleep.buffer.1, asleep.buffer.2,
      fun c => ?channels, fun p => by rw [asleep.plays, getD_replicate_default], fun z => ?zones, asleep.follower.1,
      asleep.follower.2.1, asleep.follower.2.2, by rw [asleep.ports]; rfl, by rw [asleep.ports]; rfl, by rw [asleep.ports]; rfl,
      fun p => by rw [asleep.ports, getD_replicate_default], asleep.blend, asleep.call.1, asleep.call.2.1, asleep.call.2.2.1,
      asleep.call.2.2.2.1, asleep.call.2.2.2.2, by rw [asleep.note]; rfl, by rw [asleep.note]; rfl, asleep.host.1, asleep.host.2,
      by rw [asleep.record, record]⟩
    case clips => rw [asleep.clips, show gone.clip i = s.clip i by simp [State.clip, announce]]
    case channels => rw [asleep.channels, show gone.channel c = s.channel c by simp [State.channel, announce]]
    case zones =>
      have reset : u.zone z = .reset := by rw [State.zone, asleep.zones, getD_replicate_default]
      rw [reset]
      exact ⟨rfl, rfl⟩

end Sys2Proof.Machine
end

section
/-! PROOFS. The control field: what a receiver judges, and what arbitration comes to (R8, R11 to R13, R54 to R56). -/

namespace Sys2Proof.Machine

/-! ## The control field as a function of what the station chose -/

/-- A state after its control field, by what it made of the field, what it sent and its veto. -/
def State.fieldTaken (s : State) (f : Field) (sent : Option Sent) (veto : Veto) : State :=
  { s with line := { s.line with field := f, sent := sent, vetoing := veto, phase := .fieldPassed } }

theorem controlField_chosen (t u : State) (own : Option Sent) (others : Option (BitVec 187)) (readable : Bool)
    (started : t.line.phase = .started) (part : t.member.station.takesPart = true) (chosen : t.chooseReady 16 = (u, own)) :
    t.controlField others readable
      = u.fieldTaken (u.arbitrate own others readable).1 (u.arbitrate own others readable).2
          (u.vetoFor (u.arbitrate own others readable).1) := by
  have onLine : t.member.station.onLine = true := by
    cases station : t.member.station <;> rw [station] at part <;> first | rfl | cases part
  simp only [State.controlField, started, onLine, part, chosen, if_true, State.fieldTaken]

theorem chooseReady_nothing (t : State) (n : Nat) (nothing : t.candidate = none) : t.chooseReady n = (t, none) := by
  cases n with
  | zero => rfl
  | succ n => simp only [State.chooseReady, nothing]

/-- A station that drives nothing takes the field as it heard it. -/
theorem controlField_heard (t : State) (others : Option (BitVec 187)) (readable : Bool) (started : t.line.phase = .started)
    (onLine : t.member.station.onLine = true) (nothing : t.member.station.takesPart = false ∨ t.candidate = none) :
    t.controlField others readable
      = t.fieldTaken (heardField others readable) none (t.vetoFor (heardField others readable)) := by
  cases part : t.member.station.takesPart with
  | true =>
    rw [part] at nothing
    have chosen := chooseReady_nothing t 16 (nothing.resolve_left (by decide))
    rw [controlField_chosen t t none others readable started part chosen, heard_eq]
  | false => simp [State.controlField, started, onLine, part, heard_eq, State.fieldTaken]

/-! ## The veto of a receiver (R13, R169) -/

theorem vetoFor_silent (t : State) (f : Field) (away : t.member.station.takesPart = false) : t.vetoFor f = .none := by
  simp [State.vetoFor, away]

theorem vetoFor_failed (t : State) (part : t.member.station.takesPart = true) : t.vetoFor .failed = .failedCheck := by
  simp [State.vetoFor, part]

theorem vetoFor_empty (t : State) : t.vetoFor .empty = .none := by
  simp [State.vetoFor]

theorem vetoFor_others (t : State) (n : Nat) (m : Message)
    (other : ∀ target index total data, m = .notePart target index total data → target.toNat ≠ t.number) :
    t.vetoFor (.passed n m) = .none := by
  unfold State.vetoFor
  split
  · cases m
    case notePart target index total data => simp [other target index total data rfl]
    all_goals rfl
  · rfl

theorem accepts_iff_acceptsPart (t : State) (n i total : Nat) :
    t.note.box.accepts n i total = true ↔ t.acceptsPart n i total := by
  rw [accepts_iff]
  simp only [State.acceptsPart, and_assoc] <;> rfl

theorem vetoFor_part (t : State) (n : Nat) (target index : Byte) (total : BitVec 16) (data : BitVec 128)
    (part : t.member.station.takesPart = true) (mine : target.toNat = t.number) :
    (t.acceptsPart n index.toNat total.toNat → t.vetoFor (.passed n (.notePart target index total data)) = .none)
      ∧ (¬t.acceptsPart n index.toNat total.toNat →
          t.vetoFor (.passed n (.notePart target index total data)) = .refusedNote) := by
  rw [← accepts_iff_acceptsPart]
  simp [State.vetoFor, part, mine]

theorem takesPart_iff_speaks (s : StationState) :
    s.takesPart = true ↔ s = .joining ∨ s = .member ∨ s = .leaving := by
  cases s <;> simp [StationState.takesPart]

/-- Settles O16: the field as heard, and the veto by the kind of the field. -/
theorem aReceiverJudgesTheControlField : Obligations.AReceiverJudgesTheControlField := by
  intro others readable s released t field speaks started onLine nothing
  have acts := exec_outside (.controlField others readable) s (fun t => t.controlField others readable) rfl released
  have settled : s.settle = t := rfl
  rw [settled] at acts
  clear_value t
  have heard : t.controlField others readable = t.fieldTaken field none (t.vetoFor field) :=
    controlField_heard t others readable started onLine nothing
  have parts : t.member.station.takesPart = true ↔ speaks := takesPart_iff_speaks t.member.station
  refine ⟨t.vetoFor field, by rw [acts, heard]; rfl, fun silent => ?_, fun empty => ?_, fun failed speaking => ?_,
    fun n m passed other => ?_, fun n target index total data passed mine speaking => ?_⟩
  · exact vetoFor_silent t field (by simpa using mt parts.mp silent)
  · rw [empty, vetoFor_empty]
  · rw [failed, vetoFor_failed t (parts.mpr speaking)]
  · rw [passed, vetoFor_others t n m other]
  · rw [passed]
    exact vetoFor_part t n target index total data (parts.mpr speaking) mine

/-! ## What stands ready (R11, R29, R54, R55) -/

theorem streamDescriptor_describes (t : State) (i : Nat) : t.describesStream i (t.streamDescriptor i) := by
  unfold State.describesStream State.streamDescriptor State.ownStream
  cases t.tables.entry (t.number * 4 + i) <;> rfl

theorem describesStream_eq (t : State) (i : Nat) (d : Descriptor) (described : t.describesStream i d) :
    d = t.streamDescriptor i := by
  unfold State.describesStream at described
  unfold State.streamDescriptor State.ownStream
  cases entry : t.tables.entry (t.number * 4 + i) <;> rw [entry] at described <;> exact described

/-- The descriptor R29 names is the one that the presence message carries. -/
theorem nextDescribed_eq (t : State) (d : Descriptor) (next : t.nextDescribed d) : d = t.nextDescriptor := by
  obtain ⟨streams, calls⟩ := next
  unfold State.nextDescriptor
  cases pointer : t.member.pointer with
  | stream i => exact describesStream_eq t i d (streams i pointer)
  | callFrom k =>
    obtain ⟨owned, none_owned⟩ := calls k pointer
    dsimp only
    cases found : (List.range 2).find? (fun j => decide (k ≤ j) && (t.tables.call j).owner == some t.number) with
    | some j =>
      simp only [List.find?_range_eq_some, List.mem_range] at found
      obtain ⟨holds, below, lowest⟩ := found
      simp only [Bool.and_eq_true, decide_eq_true_eq, beq_iff_eq] at holds
      refine owned j below holds.1 holds.2 (fun l from_k before owns => ?_)
      have skipped := lowest l before
      simp [from_k, owns] at skipped
    | none =>
      refine describesStream_eq t 0 d (none_owned (fun j below from_k owns => ?_))
      have skipped := List.find?_eq_none.mp found j (List.mem_range.mpr below)
      simp [from_k, owns] at skipped

theorem chooseReady_queued (t : State) (n : Nat) (e : QueueEntry) (chosen : t.candidate = some (.inl e))
    (plain : e.auto = false) : t.chooseReady (n + 1) = (t, some (.queued e.order e.message)) := by
  simp only [State.chooseReady, chosen, plain]

theorem chooseReady_auto (t : State) (n : Nat) (e : QueueEntry) (i g : Byte) (chosen : t.candidate = some (.inl e))
    (auto : e.auto = true) (claims : e.message = .claim i g) :
    t.chooseReady (n + 1) = match t.autoSlot i.toNat with
      | some f => (t, some (.queued e.order (.claim i (BitVec.ofNat 8 f))))
      | none => State.chooseReady n ((t.removeEntry e.order).tell e .noRoom) := by
  rw [State.chooseReady, chosen]
  simp only [auto, claims] <;> rfl

theorem candidate_queued (t : State) (e : QueueEntry) (first : t.line.queue.find? (fun e => e.ready) = some e)
    (lower : t.line.presenceDue = true → e.message.cls ≤ 1) : t.candidate = some (.inl e) := by
  unfold State.candidate
  rw [first]
  cases due : t.line.presenceDue with
  | false => rfl
  | true =>
    have high : ¬1 < e.message.cls := Nat.not_lt.mpr (lower due)
    cases t.startUp.record <;> simp [high]

theorem candidate_presence (t : State) (r : StartUpRecord) (due : t.line.presenceDue = true) (kept : t.startUp.record = some r)
    (higher : ∀ e, t.line.queue.find? (fun e => e.ready) = some e → 1 < e.message.cls) :
    t.candidate = some (.inr r) := by
  unfold State.candidate
  cases first : t.line.queue.find? (fun e => e.ready) with
  | none => simp [due, kept]
  | some e => simp [due, kept, higher e first]

/-- What stands ready is what the interface chooses, and the choice changes nothing. -/
theorem chooseReady_standsReady (t : State) (sent : Sent) (ready : t.standsReady sent) :
    t.chooseReady 16 = (t, some sent) := by
  obtain ⟨e, first, plain, lower, rfl⟩ | ⟨e, i, g, f, first, auto, claims, idle, rfl, slot⟩
    | ⟨r, d, due, kept, higher, next, rfl⟩ := ready
  · exact chooseReady_queued t 15 e (candidate_queued t e first lower) plain
  · have chosen := candidate_queued t e first (fun due => by rw [idle] at due; cases due)
    have place : t.autoSlot i.toNat = some f := by
      unfold State.autoSlot State.ownStream
      obtain ⟨p, offered, run⟩ | ⟨not_offered, rfl⟩ := slot
      · rw [offered]
        exact (t.chooseRun_eq_some_iff p f).mpr run
      · cases entry : t.tables.entry (t.number * 4 + i.toNat) with
        | offered p => exact absurd entry (not_offered p)
        | none => rfl
        | carried => rfl
    rw [chooseReady_auto t 15 e i g chosen auto claims, place]
  · have chosen := candidate_presence t r due kept higher
    rw [nextDescribed_eq t d next]
    simp only [State.chooseReady, chosen, State.presenceMessage]

/-! ## Arbitration (R12) -/

theorem arbitrate_alone (t : State) (m : Sent) : t.arbitrate (some m) none true = (.passed t.number m.message, some m) := rfl

theorem arbitrate_wins (t : State) (m : Sent) (w : BitVec 187)
    (wins : arbitrationValue t.number m.message < fieldArbitration w) :
    t.arbitrate (some m) (some w) true = (.passed t.number m.message, some m) := by
  simp [State.arbitrate, wins]

theorem arbitrate_loses (t : State) (m : Sent) (w : BitVec 187)
    (loses : fieldArbitration w < arbitrationValue t.number m.message) :
    t.arbitrate (some m) (some w) true = (heardField (some w) true, none) := by
  rw [← heard_eq t]
  simp [State.arbitrate, loses, Nat.lt_asymm loses]

theorem arbitrate_equal (t : State) (m : Sent) (w : BitVec 187)
    (equal : fieldArbitration w = arbitrationValue t.number m.message) :
    t.arbitrate (some m) (some w) true
      = if w = fieldBits t.number m.message then (.passed t.number m.message, some m) else (.failed, some m) := by
  simp [State.arbitrate, equal, eq_comm]

/-! ## An AUTO claim for which no run exists (R56) -/

/-- The host's AUTO claim is removed with NO_ROOM and the choice is made again. -/
theorem chooseReady_noRoom (t : State) (n : Nat) (e : QueueEntry) (i g : Byte) (p : StreamParameters)
    (chosen : t.candidate = some (.inl e)) (auto : e.auto = true) (host : e.originator = .host)
    (claims : e.message = .claim i g) (offered : t.tables.entry (t.number * 4 + i.toNat) = .offered p)
    (full : t.noRunFor p) :
    t.chooseReady (n + 1)
      = State.chooseReady n (raise .lineOutcome [6, i.toNat] (some .noRoom) (t.removeEntry e.order)) := by
  have no_place : t.autoSlot i.toNat = none := by
    unfold State.autoSlot State.ownStream
    rw [offered]
    exact (t.chooseRun_eq_none_iff p).mpr full
  rw [chooseReady_auto t n e i g chosen auto claims, no_place]
  simp only [State.tell, host, claims]
  rfl

theorem candidate_afterRoom (subject : List Nat) (cause : Option Cause) (t : State) (order : Nat) (idle : t.line.presenceDue = false) :
    (raise .lineOutcome subject cause (t.removeEntry order)).candidate
      = ((t.line.queue.filter (fun d => d.order != order)).find? (fun e => e.ready)).map .inl := by
  have queue : (raise .lineOutcome subject cause (t.removeEntry order)).line = (t.removeEntry order).line := by simp
  unfold State.candidate
  rw [queue]
  simp only [State.removeEntry, idle]
  cases (t.line.queue.filter (fun d => d.order != order)).find? (fun e => e.ready) <;> rfl

/-- Settles O17: what stands ready is chosen and arbitrated; an AUTO claim without a run gives its place to the next message. -/
theorem theLowestArbitrationValueWins : Obligations.TheLowestArbitrationValueWins := by
  intro others s released t started part
  have acts := exec_outside (.controlField others true) s (fun t => t.controlField others true) rfl released
  have settled : s.settle = t := rfl
  rw [settled] at acts
  clear_value t
  refine ⟨fun sent ready => ?ready, fun e i g p first auto host claims idle offered full => ?noRoom⟩
  case ready =>
    have passes := controlField_chosen t t (some sent) others true started part (chooseReady_standsReady t sent ready)
    refine ⟨_, acts, by rw [passes]; rfl, ?_, fun w driven wins => ?_, fun w driven loses => ?_, fun w driven equal => ?_,
      by rw [passes]; rfl, by rw [passes]; rfl, by rw [passes]; rfl, by rw [passes]; rfl, by rw [passes]; rfl, by rw [passes]; rfl,
      by rw [passes]; rfl, by rw [passes]; rfl, by rw [passes]; rfl, by rw [passes]; rfl,
      by rw [passes]; exact ⟨rfl, rfl, rfl, rfl, rfl, rfl⟩⟩
    · rintro rfl
      rw [passes, arbitrate_alone]
      exact ⟨rfl, rfl⟩
    · subst driven
      rw [passes, arbitrate_wins t sent w wins]
      exact ⟨rfl, rfl⟩
    · subst driven
      rw [passes, arbitrate_loses t sent w loses]
      exact ⟨rfl, rfl⟩
    · subst driven
      rw [passes, arbitrate_equal t sent w equal]
      refine ⟨fun agrees => ?_, fun differs => ?_⟩
      · rw [if_pos agrees]
        exact ⟨rfl, rfl⟩
      · rw [if_neg differs]
        exact ⟨rfl, rfl, vetoFor_failed t part⟩
  case noRoom =>
    intro rest next
    have chosen := candidate_queued t e first (fun due => by rw [idle] at due; cases due)
    have again := chooseReady_noRoom t 15 e i g p chosen auto host claims offered full
    have left := candidate_afterRoom [6, i.toNat] (some .noRoom) t e.order idle
    have told := raise_host .lineOutcome [6, i.toNat] (some .noRoom) (t.removeEntry e.order)
    have same : (raise .lineOutcome [6, i.toNat] (some .noRoom) (t.removeEntry e.order)).line.queue = rest
        ∧ (raise .lineOutcome [6, i.toNat] (some .noRoom) (t.removeEntry e.order)).tables = t.tables
        ∧ (raise .lineOutcome [6, i.toNat] (some .noRoom) (t.removeEntry e.order)).member = t.member
        ∧ (raise .lineOutcome [6, i.toNat] (some .noRoom) (t.removeEntry e.order)).number = t.number := by
      simp [State.removeEntry, rest, State.number]
    generalize raise .lineOutcome [6, i.toNat] (some .noRoom) (t.removeEntry e.order) = v at again left told same
    obtain ⟨queue, tables, member, number⟩ := same
    obtain nothing | ⟨d, second, plain⟩ := next
    · rw [nothing] at left
      rw [chooseReady_nothing v 15 left] at again
      have passes := controlField_chosen t v none others true started part again
      rw [heard_eq] at passes
      refine ⟨_, acts, ?_⟩
      rw [passes]
      exact ⟨queue, told, tables, member, fun _ => ⟨rfl, rfl⟩, fun d some => by rw [nothing] at some; cases some⟩
    · rw [second] at left
      rw [chooseReady_queued v 14 d left plain] at again
      have passes := controlField_chosen t v _ others true started part again
      refine ⟨_, acts, ?_⟩
      rw [passes]
      refine ⟨queue, told, tables, member, fun none => (by rw [second] at none; cases none), fun d' some alone => ?_⟩
      rw [second] at some
      cases some
      subst alone
      rw [arbitrate_alone, ← number]
      exact ⟨rfl, rfl⟩

end Sys2Proof.Machine
end

section
/-! PROOFS. The tail of a frame (R13 to R18, R34). -/

namespace Sys2Proof.Machine

/-! ## Messages that join the queue behind the host's (R18) -/

/-- From one state to the next messages of other originators than the host alone joined the queue, without companions and at
moments of entry from `n` on: what was there before `n`, what the host sent and what has a companion stands. -/
def State.joinedBy (n : Nat) (s u : State) : Prop :=
  n ≤ s.line.nextOrder → (∀ e, e ∈ s.line.waiting → e.originator ≠ .host) →
    n ≤ u.line.nextOrder ∧ (∀ e, e ∈ u.line.waiting → e.originator ≠ .host)
      ∧ ∀ p : QueueEntry → Bool, (∀ e, p e = true → e.order < n ∨ e.originator = .host ∨ e.companion ≠ none) →
          u.line.queue.filter p = s.line.queue.filter p

theorem State.joinedBy_of_line {n : Nat} {s u : State} (same : u.line.queue = s.line.queue)
    (waiting : u.line.waiting = s.line.waiting) (next : u.line.nextOrder = s.line.nextOrder) : State.joinedBy n s u := by
  intro order others
  rw [same, waiting, next]
  exact ⟨order, others, fun _ _ => rfl⟩

theorem State.joinedBy_trans {n : Nat} {s t u : State} (first : State.joinedBy n s t) (second : State.joinedBy n t u) :
    State.joinedBy n s u := by
  intro order others
  obtain ⟨order', others', kept⟩ := first order others
  obtain ⟨order'', others'', kept'⟩ := second order' others'
  exact ⟨order'', others'', fun p narrow => (kept' p narrow).trans (kept p narrow)⟩

theorem filter_placeEntry (p : QueueEntry → Bool) (e : QueueEntry) (l : List QueueEntry) (out : p e = false) :
    (placeEntry e l).filter p = l.filter p := by
  induction l with
  | nil => simp [placeEntry, out]
  | cons f rest ih =>
    unfold placeEntry
    split
    · simp [List.filter_cons, out]
    · rw [List.filter_cons, List.filter_cons, ih]

theorem joinedBy_enter (n : Nat) (s : State) (e : QueueEntry) (other : e.originator ≠ .host) (alone : e.companion = none) :
    State.joinedBy n s (s.enter e) := by
  intro order others
  refine ⟨Nat.le_succ_of_le order, others, fun p narrow => filter_placeEntry p _ _ ?_⟩
  refine Bool.eq_false_iff.mpr (fun holds => ?_)
  obtain early | host | companion := narrow _ holds
  · exact absurd early (Nat.not_lt.mpr order)
  · exact other host
  · exact companion alone

theorem joinedBy_send (n : Nat) (s : State) (e : QueueEntry) (other : e.originator ≠ .host) (alone : e.companion = none) :
    State.joinedBy n s (s.send e) := by
  unfold State.send
  split
  · have stored : ∀ u : State, u.line = { s.line with waiting := s.line.waiting.filter (fun w => w.originator != e.originator) ++ [e] } →
        State.joinedBy n s u := by
      intro u line order others
      rw [line]
      refine ⟨order, fun d waits => ?_, fun _ _ => rfl⟩
      obtain kept | rfl := (by simpa using waits : _ ∨ d = e)
      · exact others d kept.1
      · exact other
    dsimp only
    split
    · exact stored _ (foldl_retry_line _ _)
    · exact stored _ rfl
  · exact joinedBy_enter n s e other alone

theorem joinedBy_foldl {α : Type} (n : Nat) (f : State → α → State) (l : List α)
    (step : ∀ s a, a ∈ l → State.joinedBy n s (f s a)) (s : State) : State.joinedBy n s (l.foldl f s) := by
  induction l generalizing s with
  | nil => exact State.joinedBy_of_line rfl rfl rfl
  | cons a rest ih =>
    exact State.joinedBy_trans (step s a List.mem_cons_self) (ih (fun u b inRest => step u b (List.mem_cons_of_mem a inRest)) _)

theorem joinedBy_lookAtUplink (n : Nat) (s : State) : State.joinedBy n s s.lookAtUplink := by
  have still : ∀ u : State, State.joinedBy n u u := fun u => State.joinedBy_of_line rfl rfl rfl
  have other : Originator.callUnit ≠ Originator.host := by decide
  have claims : State.joinedBy n s s.claimUplink := by
    unfold State.claimUplink
    split
    · split
      · exact joinedBy_send n s _ other rfl
      · exact still s
    · exact still s
  have releases : ∀ (u : State) (i : Nat), State.joinedBy n u (u.releaseUplink i) := by
    intro u i
    unfold State.releaseUplink
    split
    · exact joinedBy_send n u _ other rfl
    · exact still u
  unfold State.lookAtUplink
  split
  · exact State.joinedBy_trans claims (joinedBy_foldl n _ _ (fun u i _ => releases u i) _)
  · exact still s

theorem joinedBy_forEach (n k : Nat) (f : Nat → State → State) (step : ∀ i s, State.joinedBy n s (f i s)) (s : State) :
    State.joinedBy n s (forEach k f s) :=
  joinedBy_foldl n _ _ (fun u i _ => step i u) s

theorem joinedBy_changeTables (n : Nat) (s : State) (changed : LineTables) (cause : Cause) (callCause : Nat → Cause) :
    State.joinedBy n s (s.changeTables changed cause callCause) := by
  have line : ∀ {u v : State}, v.line = u.line → State.joinedBy n u v := fun same =>
    State.joinedBy_of_line (by rw [same]) (by rw [same]) (by rw [same])
  unfold State.changeTables
  dsimp only
  have applied : State.joinedBy n s ({ s with tables := changed.strip s.tables } : State).emptyBindings :=
    State.joinedBy_of_line rfl rfl rfl
  generalize ({ s with tables := changed.strip s.tables } : State).emptyBindings = a at applied ⊢
  have noticed := State.joinedBy_trans applied (joinedBy_foldl n
    (fun acc m => ((acc.noticeHost m).zonesAtNotice a m).lookAtUplink) (notices s.tables (changed.strip s.tables) cause)
    (fun u m _ => State.joinedBy_trans (line (by simp)) (joinedBy_lookAtUplink n _)) a)
  split
  · exact noticed
  · refine State.joinedBy_trans noticed (State.joinedBy_trans (line ?_) (joinedBy_lookAtUplink n _))
    simp

theorem State.joinedBy_line {n : Nat} {s u : State} (same : u.line = s.line) : State.joinedBy n s u :=
  State.joinedBy_of_line (by rw [same]) (by rw [same]) (by rw [same])

/-- The verdict of a message that moves no station adds messages of the zone mixer and the call unit alone. -/
theorem joinedBy_judge (k : Nat) (s : State) (n : Nat) (m : Message) (stays : m.mayMove = false) :
    State.joinedBy k s (s.judge n m).1 := by
  have still : ∀ u : State, State.joinedBy k u u := fun u => State.joinedBy_line rfl
  have stream : ∀ (cause : Cause) (verdict : LineTables → LineTables × Cause),
      State.joinedBy k s (s.judgeStream n cause verdict).1 := by
    intro cause verdict
    unfold State.judgeStream
    split
    · exact joinedBy_changeTables k s _ _ _
    · exact still s
  unfold State.judge
  cases m
  case join | leave => cases stays
  case route z x a l =>
    have answer : ∀ (u : State) (v : RouteVerdict), State.joinedBy k u (u.answerRoute n z x v) := fun u _ =>
      joinedBy_send k u _ (fun h => by cases h) rfl
    dsimp only
    unfold State.judgeRouteMessage
    split
    · split
      · exact still s
      · split
        · refine State.joinedBy_trans (t := (s.judgeRoute _ x.toNat a.toNat l.toNat).1) ?_ (answer _ _)
          exact State.joinedBy_line (by simp)
        · exact answer _ _
    · exact still s
  case routeAnswer | notePart => exact State.joinedBy_line (by simp)
  all_goals
    dsimp only
    split
    · exact still s
  case presence =>
    unfold State.judgePresence
    dsimp only
    split
    · exact still s
    · have counted : ∀ (v : State) (before : LineTables) (owned : SlotSet) (d : Descriptor),
          State.joinedBy k v (v.countDescriptor before n owned d) := fun v before owned d => State.joinedBy_line (by simp)
      have added : State.joinedBy k s (if (s.tables.station n).present then s else raise .stationAdded [n] none s) := by
        split
        · exact still s
        · exact State.joinedBy_line (by simp)
      exact State.joinedBy_trans (State.joinedBy_trans added (joinedBy_changeTables k _ _ _ _)) (counted _ _ _ _)
  case call j a f _ => exact joinedBy_changeTables k s _ _ _
  all_goals exact stream _ _

/-- The end of a frame moves no message of the host into the queue (R18). -/
theorem closeFrame_hostQueue (s : State) (others : ∀ e, e ∈ s.line.waiting → e.originator ≠ .host) :
    s.closeFrame.line.queue.filter (fun d => d.originator == .host) = s.line.queue.filter (fun d => d.originator == .host) := by
  have moved : ∀ (l : List QueueEntry) (u : State), (∀ e, e ∈ l → e.originator ≠ .host) →
      (l.foldl (fun acc e => acc.enter e) u).line.queue.filter (fun d => d.originator == .host)
        = u.line.queue.filter (fun d => d.originator == .host) := by
    intro l
    induction l with
    | nil => exact fun _ _ => rfl
    | cons e rest ih =>
      intro u away
      refine (ih (u.enter e) (fun d inRest => away d (List.mem_cons_of_mem e inRest))).trans (filter_placeEntry _ _ _ ?_)
      simpa using away e List.mem_cons_self
  exact moved (s.line.waiting.take (8 - s.line.queue.length)) { s with line.waiting := s.line.waiting.drop (8 - s.line.queue.length) }
    (fun e taken => others e (List.mem_of_mem_take taken))

/-! ## The own message of the host takes effect (R15) -/

/-- The verdict of a message that moves no station does not see the age of its sender (R25). -/
theorem judge_verdict_aged (t u : State) (n : Nat) (m : Message) (stays : m.mayMove = false)
    (tables : u.tables = aged t.tables n) (station : u.member.station = t.member.station) :
    (u.judge n m).2 = (t.judge n m).2 := by
  have present : (u.tables.station n).present = (t.tables.station n).present := by rw [tables, (aged_station t.tables n n).1]
  have entry : ∀ x, u.tables.entry x = t.tables.entry x := fun x => by rw [tables]; rfl
  have runs : ∀ f c, u.tables.runFree f c = t.tables.runFree f c := fun f c => by rw [tables]; rfl
  have stream : ∀ (cause : Cause) (verdict : LineTables → LineTables × Cause),
      (verdict u.tables).2 = (verdict t.tables).2 →
      (u.judgeStream n cause verdict).2 = (t.judgeStream n cause verdict).2 := by
    intro cause verdict same
    simp only [State.judgeStream, present]
    split
    · exact same
    · rfl
  unfold State.judge
  cases m
  case join | leave => cases stays
  case route | routeAnswer | notePart => rfl
  all_goals
    dsimp only
    split
    · rfl
  case presence =>
    simp only [State.judgePresence, present, station]
    split <;> rfl
  case call j a f _ =>
    rw [State.judgeCallMessage, State.judgeCallMessage, tables]
    exact (aged_same t.tables n).verdict n j.toNat a.toNat f
  case offer =>
    refine stream _ _ ?_
    unfold LineTables.offer
    simp only [entry]
    (repeat' split) <;> rfl
  case claim =>
    refine stream _ _ ?_
    unfold LineTables.claim
    simp only [entry, runs]
    (repeat' split) <;> rfl
  case release =>
    refine stream _ _ ?_
    unfold LineTables.release
    simp only [entry]
    split <;> rfl
  case withdraw =>
    refine stream _ _ ?_
    unfold LineTables.withdraw
    simp only [entry]
    split <;> rfl

theorem mayMove_of_kind (m : Message) (not_join : m.kindCode ≠ 1) (not_leave : m ≠ .leave) : m.mayMove = false := by
  cases m
  case join => exact absurd rfl not_join
  case leave => exact absurd rfl not_leave
  all_goals rfl

theorem eventRaised_same {s u : State} (host : u.host = s.host) (station : u.member.station = s.member.station)
    (record : u.startUp.record = s.startUp.record) (tables : u.tables.frameCount = s.tables.frameCount) (k : EventKind)
    (subject : List Nat) (cause : Option Cause) : u.eventRaised k subject cause = s.eventRaised k subject cause := by
  have hasHost : u.hasHost = s.hasHost := by
    unfold State.hasHost State.roles State.inForce
    rw [station, record]
  rw [State.eventRaised, State.eventRaised, hasHost, host, tables]

/-- No verdict moves the frame count. -/
theorem judge_frameCount (s : State) (n : Nat) (m : Message) (stays : m.mayMove = false) :
    (s.judge n m).1.tables.frameCount = s.tables.frameCount := by
  have stream : ∀ (cause : Cause) (verdict : LineTables → LineTables × Cause),
      (∀ t, (verdict t).1.frameCount = t.frameCount) →
      (s.judgeStream n cause verdict).1.tables.frameCount = s.tables.frameCount := by
    intro cause verdict keeps
    unfold State.judgeStream
    split
    · rw [State.changeTables_tables]
      exact keeps s.tables
    · rfl
  unfold State.judge
  cases m
  case join | leave => cases stays
  case route | routeAnswer | notePart => simp
  all_goals
    dsimp only
    split
    · rfl
  case presence =>
    unfold State.judgePresence
    dsimp only
    split
    · rfl
    · rw [(State.countDescriptor_frame _ _ _ _ _).2.2.2.2.2.2.2.2.2.2.2.2.2.2.2.2.2, State.changeTables_tables]
      exact (applyDescriptor_roster _ _ _).1
  case call j a f _ =>
    rw [State.judgeCallMessage, State.changeTables_tables]
    exact judgeCall_frames s.tables n j.toNat a.toNat f
  case offer =>
    refine stream _ _ (fun t => ?_)
    unfold LineTables.offer
    (repeat' split) <;> rfl
  case claim =>
    refine stream _ _ (fun t => ?_)
    unfold LineTables.claim
    (repeat' split) <;> rfl
  case release =>
    refine stream _ _ (fun t => ?_)
    unfold LineTables.release
    split <;> rfl
  case withdraw =>
    refine stream _ _ (fun t => ?_)
    unfold LineTables.withdraw
    split <;> rfl

/-- While a message is judged, what was queued stays to be found, and nothing with a companion joins (R18). -/
theorem judge_queue (t : State) (n : Nat) (m : Message) (law : t.orderLaw) (stays : m.mayMove = false) :
    let u := ((t.tailCounts.refreshAge n).judge n m).1
    (∀ e, e ∈ u.line.waiting → e.originator ≠ .host)
      ∧ u.line.queue.filter (fun d => d.originator == .host) = t.line.queue.filter (fun d => d.originator == .host)
      ∧ (∀ o e, t.line.queue.find? (fun e => e.order == o) = some e → u.line.queue.find? (fun e => e.order == o) = some e)
      ∧ ∀ o e, u.line.queue.find? (fun e => e.order == o) = some e → e.companion ≠ none →
          t.line.queue.find? (fun e => e.order == o) = some e := by
  intro u
  obtain ⟨ordered, others⟩ := law
  have judged := joinedBy_judge t.line.nextOrder (t.tailCounts.refreshAge n) n m stays
  have line : (t.tailCounts.refreshAge n).line.queue = t.line.queue ∧ (t.tailCounts.refreshAge n).line.waiting = t.line.waiting
      ∧ (t.tailCounts.refreshAge n).line.nextOrder = t.line.nextOrder := by simp [State.tailCounts]
  rw [State.joinedBy, line.1, line.2.1, line.2.2] at judged
  obtain ⟨-, others', stands⟩ := judged (Nat.le_refl _) others
  have old : ∀ o, o < t.line.nextOrder →
      u.line.queue.find? (fun e => e.order == o) = t.line.queue.find? (fun e => e.order == o) := by
    intro o early
    have narrow := stands (fun e => e.order == o) (fun d this => .inl (by
      have place : d.order = o := by simpa using this
      rwa [place]))
    rw [← List.head?_filter, narrow, List.head?_filter]
  refine ⟨others', stands _ (fun d this => .inr (.inl (by simpa using this))), fun o e found => ?_, fun o e found companion => ?_⟩
  · have place : e.order = o := by simpa using List.find?_some found
    rw [old o (place ▸ ordered e (List.mem_of_find?_eq_some found)), found]
  · have place : e.order = o := by simpa using List.find?_some found
    have narrow := stands (fun e => e.companion.isSome) (fun d this => .inr (.inr (Option.isSome_iff_ne_none.mp this)))
    have there : e ∈ u.line.queue.filter (fun e => e.companion.isSome) :=
      List.mem_filter.mpr ⟨List.mem_of_find?_eq_some found, Option.isSome_iff_ne_none.mpr companion⟩
    rw [narrow] at there
    rw [← old o (place ▸ ordered e (List.mem_filter.mp there).1), found]

/-- The host's own message leaves the queue with a LINE_OUTCOME of its verdict, the last event of the tail. -/
theorem messageEffect_ofHost (t : State) (n : Nat) (m : Message) (o : Nat) (e : QueueEntry) (hears : t.hears)
    (law : t.orderLaw) (mine : n = t.number) (sent : t.line.sent = some (.queued o m))
    (queued : t.line.queue.find? (fun e => e.order == o) = some e) (host : e.originator = .host)
    (stays : m.mayMove = false) :
    (t.messageEffect n m).line.queue.filter (fun d => d.originator == .host)
        = t.line.queue.filter (fun d => d.originator == .host && d.order != o)
      ∧ (t.hasHost = true → ∃ earlier, (t.messageEffect n m).host.events = addEvent
          { kind := .lineOutcome, subject := e.message.subject, cause := some (t.judge n m).2
            stamp := t.tables.frameCount.setWidth 16 } earlier) := by
  obtain ⟨others', stands, found, -⟩ := judge_queue t n m law stays
  have found := found o e queued
  have own : t.isOwn n m = true := by simp [State.isOwn, mine, sent, Sent.message]
  have verdict : ((t.tailCounts.refreshAge n).judge n m).2 = (t.judge n m).2 :=
    judge_verdict_aged t _ n m stays (heardTables t n hears) (by simp [State.tailCounts])
  have kept : ((t.tailCounts.refreshAge n).judge n m).1.hasHost = t.hasHost
      ∧ ((t.tailCounts.refreshAge n).judge n m).1.tables.frameCount = t.tables.frameCount :=
    ⟨hasHost_of _ _ (by simp [State.tailCounts]) (by simp [State.tailCounts]),
      (judge_frameCount _ n m stays).trans (by simp [State.tailCounts])⟩
  rw [t.messageEffect_hears n m hears]
  have effect : t.tailCounts.takeEffect n m
      = ((t.tailCounts.refreshAge n).judge n m).1.concludeOwn t.tailCounts.tables (.queued o m) (t.judge n m).2 := by
    have own' : t.tailCounts.isOwn n m = true := (tailCounts_isOwn t n m).trans own
    have sent' : t.tailCounts.line.sent = some (.queued o m) := by rw [← sent]; simp [State.tailCounts]
    simp only [State.takeEffect, own', sent', State.moveByMessage_stays _ _ _ _ _ stays, verdict]
  rw [effect]
  generalize ((t.tailCounts.refreshAge n).judge n m).1 = u at others' stands found kept
  have concluded : ∃ v, u.concludeOwn t.tailCounts.tables (.queued o m) (t.judge n m).2
        = raise .lineOutcome e.message.subject (some (t.judge n m).2) v
      ∧ v.line.queue = u.line.queue.filter (fun d => d.order != o) ∧ v.line.waiting = u.line.waiting
      ∧ v.hasHost = u.hasHost ∧ v.tables = u.tables := by
    refine ⟨(u.placeBinding t.tailCounts.tables e).removeEntry o, ?_, ?_⟩
    · simp only [State.concludeOwn, found, State.tell, host, Departure.cause]
    · unfold State.placeBinding
      split
      · split <;> exact ⟨rfl, rfl, rfl, rfl⟩
      · exact ⟨rfl, rfl, rfl, rfl⟩
  obtain ⟨v, concluded, queue, waiting, hasHost, tables⟩ := concluded
  rw [concluded]
  have raised : (raise .lineOutcome e.message.subject (some (t.judge n m).2) v).line = v.line := by simp
  have closed := closeFrame_hostQueue (raise .lineOutcome e.message.subject (some (t.judge n m).2) v)
  rw [raised, queue, waiting] at closed
  refine ⟨?_, fun hosted => ⟨v.host.events, ?_⟩⟩
  · rw [closed others', filter_swap, stands, filter_swap, List.filter_filter]
  · rw [State.closeFrame_frame _ |>.2.2.2.2.2.2.2.2.2.2.2.2.1, raise_host]
    have hosted' : v.hasHost = true := hasHost.trans (kept.1.trans hosted)
    simp only [State.eventRaised, hosted', if_true, tables, kept.2]

end Sys2Proof.Machine
end

section
/-! PROOFS. What a tail decides about the own message (R14, R16 to R18, R34). -/

namespace Sys2Proof.Machine

/-! ## The end of the frame: waiting messages move in (R18) -/

/-- What waiting messages do to the queue they move into. -/
theorem foldl_enter (l : List QueueEntry) (s : State) :
    (l.foldl (fun acc e => acc.enter e) s).line.queue.length = s.line.queue.length + l.length
      ∧ (l.foldl (fun acc e => acc.enter e) s).line.waiting = s.line.waiting
      ∧ (∀ e, e ∈ s.line.queue → e ∈ (l.foldl (fun acc e => acc.enter e) s).line.queue)
      ∧ ∀ e, e ∈ l → ∃ o, { e with order := o } ∈ (l.foldl (fun acc e => acc.enter e) s).line.queue := by
  have longer : ∀ (e : QueueEntry) (q : List QueueEntry), (placeEntry e q).length = q.length + 1 := by
    intro e q
    induction q with
    | nil => rfl
    | cons f rest ih =>
      unfold placeEntry
      split <;> simp [ih]
  induction l generalizing s with
  | nil => exact ⟨rfl, rfl, fun _ inQueue => inQueue, fun _ none => absurd none List.not_mem_nil⟩
  | cons a rest ih =>
    obtain ⟨length, waiting, stays, joins⟩ := ih (s.enter a)
    refine ⟨?_, waiting, fun e inQueue => stays e (stays_enter s a e inQueue), fun e inList => ?_⟩
    · rw [List.foldl_cons, length, State.enter, longer, List.length_cons]
      omega
    · obtain rfl | later := List.mem_cons.mp inList
      · refine ⟨s.line.nextOrder, stays _ ?_⟩
        exact (mem_placeEntry _ _ _).mpr (.inl rfl)
      · exact joins e later

/-- The line interface of a state at the end of the frame. -/
theorem closeFrame_queue (s : State) :
    let room := 8 - s.line.queue.length
    s.closeFrame.line.phase = .over ∧ s.closeFrame.line.waiting = s.line.waiting.drop room
      ∧ s.closeFrame.line.queue.length = s.line.queue.length + min room s.line.waiting.length
      ∧ (∀ e, e ∈ s.line.queue → e ∈ s.closeFrame.line.queue)
      ∧ ∀ e, e ∈ s.line.waiting.take room → ∃ o, { e with order := o } ∈ s.closeFrame.line.queue := by
  intro room
  obtain ⟨length, waiting, stays, joins⟩ :=
    foldl_enter (s.line.waiting.take room) { s with line.waiting := s.line.waiting.drop room }
  exact ⟨rfl, waiting, length.trans (by rw [List.length_take]), stays, joins⟩

theorem closeFrame_noWaiting (s : State) (none_waits : s.line.waiting = []) :
    s.closeFrame.line.queue = s.line.queue ∧ s.closeFrame.line.waiting = [] := by
  simp [State.closeFrame, State.moveWaiting, none_waits]

/-! ## A tail with a veto, or a field that says nothing -/

/-- The counts of a tail (R17, R34). -/
def State.tailCounted (s : State) (vetoed : Bool) : State :=
  ({ s with line.selfVeto := s.line.selfVetoAtTail }).listenAtTail vetoed

theorem tail_vetoed (s : State) (message : Option (Nat × Message)) (veto : Bool) (read : s.line.phase ≠ .unread)
    (onLine : s.member.station.onLine = true) (vetoed : veto = true ∨ s.line.vetoing ≠ .none) :
    s.tail message veto = (s.tailCounted true).ownVetoed.closeFrame := by
  have marks : (veto || s.vetoes) = true := by simpa [State.vetoes] using vetoed
  simp [State.tail, read, onLine, marks, State.tailCounted]

theorem tailEnd_vetoed (s : State) (veto : Bool) (under : s.line.phase ≠ .over) (read : s.line.phase ≠ .unread)
    (onLine : s.member.station.onLine = true) (vetoed : veto = true ∨ s.line.vetoing ≠ .none) :
    s.tailEnd veto = (s.tailCounted true).ownVetoed.closeFrame := by
  unfold State.tailEnd
  split
  · exact absurd ‹_› under
  · exact tail_vetoed s _ veto read onLine vetoed
  · exact tail_vetoed s _ veto read onLine vetoed

theorem tailEnd_unjudged (s : State) (under : s.line.phase ≠ .over) (read : s.line.phase ≠ .unread)
    (onLine : s.member.station.onLine = true) (silent : s.line.vetoing = .none)
    (nothing : s.line.field = .failed ∨ s.line.field = .empty) :
    s.tailEnd false = (s.tailCounted false).closeFrame := by
  have tail_none : s.tailEnd false = s.tail none false := by
    unfold State.tailEnd
    split
    · exact absurd ‹_› under
    · obtain failed | empty := nothing
      · simp_all
      · simp_all
    · rfl
  have quiet : s.vetoes = false := by simp [State.vetoes, silent]
  rw [tail_none]
  obtain failed | empty := nothing
  · simp [State.tail, read, onLine, quiet, failed, State.tailCounted]
  · simp [State.tail, read, onLine, quiet, empty, State.tailCounted]

theorem ownVetoed_noneQueued (s : State) (nothing : s.line.sent = none ∨ ∃ m, s.line.sent = some (.presence m)) :
    s.ownVetoed = s := by
  obtain none | ⟨m, presence⟩ := nothing
  · simp [State.ownVetoed, none]
  · simp [State.ownVetoed, presence]

theorem tailCounted_line (s : State) (vetoed : Bool) :
    (s.tailCounted vetoed).line = { s.line with selfVeto := s.line.selfVetoAtTail } := by
  simp [State.tailCounted]

/-- What a tail counts, by the station and the field (R17, R34). -/
theorem tailCounted_facts (s : State) (vetoed : Bool) :
    let damaged := s.member.station = .listening ∧ s.line.field = .failed
    let u := s.tailCounted vetoed
    (damaged → u.member.undamaged = 0)
      ∧ (s.member.station = .listening → s.line.field ≠ .failed → u.member.undamaged = min 12800 (s.member.undamaged + 1))
      ∧ (s.member.station ≠ .listening → u.member.undamaged = s.member.undamaged)
      ∧ (damaged → vetoed = false → u.tables = s.tables.restartCompleteness)
      ∧ (¬(damaged ∧ vetoed = false) → u.tables = s.tables)
      ∧ u.member.pointer = s.member.pointer ∧ u.member.station = s.member.station := by
  intro damaged u
  show _ ∧ _
  simp only [u, damaged, State.tailCounted, State.listenAtTail]
  by_cases listening : s.member.station = .listening <;> by_cases failed : s.line.field = .failed <;> cases vetoed <;>
    simp [listening, failed]

/-! ## The own message is vetoed (R16) -/

section
variable {s : State} {o : Nat} {m : Message} {e : QueueEntry}

/-- The entry of the vetoed message counts its veto. -/
def QueueEntry.vetoedOnce (e : QueueEntry) : QueueEntry := { e with vetoes := e.vetoes + 1 }

theorem ownVetoed_join (sent : s.line.sent = some (.queued o m))
    (queued : s.line.queue.find? (fun e => e.order == o) = some e) (kind : e.message.kindCode = 1) :
    s.ownVetoed = (s.onEntry o QueueEntry.vetoedOnce).joinVetoed e.vetoedOnce := by
  unfold State.ownVetoed
  rw [sent]
  simp only [queued]
  obtain ⟨message⟩ := e
  cases message <;> first | rfl | cases kind

theorem ownVetoed_part (sent : s.line.sent = some (.queued o m))
    (queued : s.line.queue.find? (fun e => e.order == o) = some e) (kind : e.message.kindCode = 11) :
    s.ownVetoed = if 32 ≤ e.vetoes + 1 then (s.onEntry o QueueEntry.vetoedOnce).abandon e.vetoedOnce
      else (s.onEntry o QueueEntry.vetoedOnce).onEntry o (fun e => e.holdFor 64) := by
  unfold State.ownVetoed
  rw [sent]
  simp only [queued]
  obtain ⟨message⟩ := e
  cases message <;> first | rfl | cases kind

theorem ownVetoed_plain (sent : s.line.sent = some (.queued o m))
    (queued : s.line.queue.find? (fun e => e.order == o) = some e) (not_join : e.message.kindCode ≠ 1)
    (not_part : e.message.kindCode ≠ 11) :
    s.ownVetoed = if 32 ≤ e.vetoes + 1 then (s.onEntry o QueueEntry.vetoedOnce).abandon e.vetoedOnce
      else s.onEntry o QueueEntry.vetoedOnce := by
  unfold State.ownVetoed
  rw [sent]
  simp only [queued]
  obtain ⟨message⟩ := e
  cases message
  case join => exact absurd rfl not_join
  case notePart => exact absurd rfl not_part
  all_goals rfl

end

/-- One change of an entry after another, both by its order of entry. -/
theorem onEntry_onEntry (s : State) (o : Nat) (f g : QueueEntry → QueueEntry) (keeps : ∀ e, (f e).order = e.order) :
    ((s.onEntry o f).onEntry o g).line.queue = s.line.queue.map (fun d => if d.order = o then g (f d) else d) := by
  simp only [State.onEntry, List.map_map]
  refine List.map_congr_left (fun d _ => ?_)
  by_cases here : d.order = o <;> simp [here, keeps]

theorem removeEntry_onEntry (s : State) (o : Nat) (f : QueueEntry → QueueEntry) (keeps : ∀ e, (f e).order = e.order) :
    ((s.onEntry o f).removeEntry o).line.queue = s.line.queue.filter (fun d => d.order != o) := by
  simp only [State.onEntry, State.removeEntry, List.filter_map]
  refine (List.map_congr_left (fun d inRest => ?_)).trans (List.map_id _) |>.trans ?_
  · have other : (d.order == o) = false := by
      have := (List.mem_filter.mp inRest).2
      by_cases here : d.order = o <;> simp_all
    simp [beq_eq_false_iff_ne.mp other]
  · refine List.filter_congr (fun d _ => ?_)
    by_cases here : d.order = o <;> simp [here, keeps]

/-! ## What stands at such a tail -/

/-- The blocks that a tail without effect leaves alone. -/
def State.standsAt (t u : State) : Prop :=
  u.tables = t.tables ∧ u.member.station = t.member.station ∧ u.mixer = t.mixer ∧ u.call = t.call ∧ u.note = t.note
    ∧ u.host = t.host ∧ u.startUp = t.startUp ∧ State.sameAudio t u

theorem State.standsAt_closeFrame {t u : State} (stands : t.standsAt u) : t.standsAt u.closeFrame := by
  simpa [State.standsAt, State.sameAudio] using stands

theorem State.standsAt_trans {s t u : State} (first : s.standsAt t) (second : t.standsAt u) : s.standsAt u := by
  simp only [State.standsAt, State.sameAudio] at *
  simp [first, second]

theorem tailCounted_stands (t : State) (part : t.member.station.takesPart = true) :
    t.standsAt (t.tailCounted true) ∧ (t.tailCounted true).member = t.member := by
  have attentive : t.member.station ≠ .listening := by
    rintro listening
    rw [listening] at part
    cases part
  simp [State.standsAt, State.sameAudio, State.tailCounted, State.listenAtTail, attentive]

theorem abandon_stays (s : State) (e : QueueEntry) (stays : e.message ≠ .leave) :
    s.abandon e.vetoedOnce = (s.removeEntry e.order).tell e.vetoedOnce .abandoned := by
  unfold State.abandon
  exact if_neg (fun both => stays both.1)

theorem goTo_silenced_count (s : State) (cause : Cause) : (s.goTo .silenced cause).member.silenceCount = 1024 := by
  unfold State.goTo
  simp [State.enterStation, StationState.drives, StationState.dropsTables, State.zonesAtStation]

/-- An abandoned LEAVE returns the station to MEMBER with its queue (R43). -/
theorem goTo_member_queue (s : State) (cause : Cause) (leaving : s.member.station = .leaving) :
    (s.goTo .member cause).line.queue = s.line.queue ∧ (s.goTo .member cause).line.waiting = s.line.waiting := by
  unfold State.goTo
  simp [leaving, State.enterStation, StationState.takesPart, StationState.dropsTables, StationState.drives,
    State.zonesAtStation]

/-- What a vetoed message becomes (R16), over the state the counts of the tail leave. -/
theorem ownVetoed_cases (t : State) (o : Nat) (m : Message) (e : QueueEntry) (sent : t.line.sent = some (.queued o m))
    (queued : t.line.queue.find? (fun e => e.order == o) = some e) (none_waits : t.line.waiting = [])
    (part : t.member.station.takesPart = true) :
    let revised (f : QueueEntry → QueueEntry) := t.line.queue.map (fun d => if d.order = o then f d else d)
    let rest := t.line.queue.filter (fun d => d.order != o)
    let n := (Config.joinBackoff t.serial t.member.backoff).toNat
    let u := t.ownVetoed
    (e.message.kindCode ≠ 1 → e.message.kindCode ≠ 11 → e.vetoes < 31 →
        u.line.queue = revised (fun d => { d with vetoes := d.vetoes + 1 }) ∧ t.standsAt u ∧ u.line.waiting = [])
    ∧ (e.message.kindCode = 1 → e.vetoes < 7 →
        u.line.queue = revised (fun d => { d with vetoes := d.vetoes + 1, hold := n, ready := n == 0 })
          ∧ u.member.backoff = t.member.backoff + 1 ∧ t.standsAt u ∧ u.line.waiting = [])
    ∧ (e.message.kindCode = 1 → 7 ≤ e.vetoes →
        u.member.station = .silenced ∧ u.member.cause = some .joinFailed ∧ u.member.silenceCount = 1024
          ∧ u.line.queue = [] ∧ u.line.waiting = [] ∧ u.tables = t.tables.cleared ∧ State.sameAudio t u)
    ∧ (e.message.kindCode = 11 → e.vetoes < 31 →
        u.line.queue = revised (fun d => { d with vetoes := d.vetoes + 1, hold := 64, ready := false })
          ∧ t.standsAt u ∧ u.line.waiting = [])
    ∧ (e.message.kindCode = 11 → 31 ≤ e.vetoes → e.originator = .noteUnit →
        ∀ k, t.note.outbound.state = .sending k →
          u.line.queue = rest ∧ u.note.outbound.state = .failed ∧ u.note.outbound.lastFailure = some .vetoed
            ∧ u.host = t.eventRaised .noteUndelivered [t.note.outbound.target] (some .vetoed)
            ∧ u.tables = t.tables ∧ u.member.station = t.member.station ∧ State.sameAudio t u ∧ u.line.waiting = [])
    ∧ (e.message.kindCode ≠ 1 → e.message.kindCode ≠ 11 → e.message ≠ .leave → 31 ≤ e.vetoes →
        e.originator = .host →
          u.line.queue = rest ∧ u.host = t.eventRaised .lineOutcome e.message.subject (some .abandoned)
            ∧ u.tables = t.tables ∧ u.member.station = t.member.station ∧ u.note = t.note ∧ u.mixer = t.mixer
            ∧ u.call = t.call ∧ State.sameAudio t u ∧ u.line.waiting = [])
    ∧ (e.message = .leave → 31 ≤ e.vetoes → e.originator = .host → t.member.station = .leaving →
          u.line.queue = rest ∧ u.member.station = .member ∧ u.member.cause = some .abandoned
            ∧ u.tables = t.tables ∧ State.sameAudio t u ∧ u.line.waiting = []) := by
  intro revised rest n u
  have order : e.order = o := by simpa using List.find?_some queued
  have counts : ∀ d : QueueEntry, d.vetoedOnce.order = d.order := fun _ => rfl
  have removed := removeEntry_onEntry t o QueueEntry.vetoedOnce counts
  have changed : ∀ f, t.standsAt ((t.onEntry o QueueEntry.vetoedOnce).onEntry o f) := fun f =>
    ⟨rfl, rfl, rfl, rfl, rfl, rfl, rfl, rfl, rfl, rfl, rfl, rfl, rfl⟩
  refine ⟨fun not_join not_part few => ?_, fun join few => ?_, fun join many => ?_, fun part few => ?_,
    fun kind many unit k sending => ?_, fun not_join not_part not_leave many host => ?_, fun leave many host leaving => ?_⟩
  · have becomes : u = t.onEntry o QueueEntry.vetoedOnce :=
      (ownVetoed_plain sent queued not_join not_part).trans (if_neg (by omega))
    rw [becomes]
    exact ⟨rfl, ⟨rfl, rfl, rfl, rfl, rfl, rfl, rfl, rfl, rfl, rfl, rfl, rfl, rfl⟩, none_waits⟩
  · have becomes : u = ({ t.onEntry o QueueEntry.vetoedOnce with member.backoff := t.member.backoff + 1 }).onEntry e.order
        (fun e => e.holdFor n) :=
      (ownVetoed_join sent queued join).trans (if_neg (Nat.not_le.mpr (Nat.succ_lt_succ few)))
    rw [becomes, order]
    exact ⟨onEntry_onEntry t o _ _ counts, rfl, ⟨rfl, rfl, rfl, rfl, rfl, rfl, rfl, rfl, rfl, rfl, rfl, rfl, rfl⟩, none_waits⟩
  · have becomes : u = (t.onEntry o QueueEntry.vetoedOnce).goTo .silenced .joinFailed :=
      (ownVetoed_join sent queued join).trans (if_pos (Nat.succ_le_succ many))
    rw [becomes]
    obtain ⟨station, cause⟩ := goTo_station (t.onEntry o QueueEntry.vetoedOnce) .silenced .joinFailed
    obtain ⟨queue, waiting⟩ := goTo_queue_off (t.onEntry o QueueEntry.vetoedOnce) .silenced .joinFailed rfl (.inl part)
    exact ⟨station, cause, goTo_silenced_count _ _, queue, waiting, goTo_tables _ _ _, by simp [State.sameAudio, State.onEntry]⟩
  · have becomes : u = (t.onEntry o QueueEntry.vetoedOnce).onEntry o (fun e => e.holdFor 64) :=
      (ownVetoed_part sent queued part).trans (if_neg (by omega))
    rw [becomes]
    exact ⟨onEntry_onEntry t o _ _ counts, changed _, none_waits⟩
  · have stays : e.message ≠ .leave := fun leave => by rw [leave] at kind; cases kind
    have becomes : u = ((t.onEntry o QueueEntry.vetoedOnce).removeEntry o).failNote .vetoed := by
      refine (ownVetoed_part sent queued kind).trans ((if_pos (by omega)).trans ?_)
      rw [abandon_stays _ _ stays, ← order]
      show State.tell _ _ _ = _
      simp only [State.tell, QueueEntry.vetoedOnce, unit, State.noteUnitTold, State.removeEntry, State.onEntry, sending]
    rw [becomes]
    unfold State.failNote
    refine ⟨Eq.trans (by simp) removed, by simp, by simp, ?_, by simp [State.onEntry, State.removeEntry],
      by simp [State.onEntry, State.removeEntry], by simp [State.sameAudio, State.onEntry, State.removeEntry],
      by simpa [State.onEntry, State.removeEntry] using none_waits⟩
    rw [raise_host]
    rfl
  · have becomes : u = raise .lineOutcome e.message.subject (some .abandoned)
        ((t.onEntry o QueueEntry.vetoedOnce).removeEntry o) := by
      refine (ownVetoed_plain sent queued not_join not_part).trans ((if_pos (by omega)).trans ?_)
      rw [abandon_stays _ _ not_leave, ← order]
      show State.tell _ _ _ = _
      simp only [State.tell, QueueEntry.vetoedOnce, host, Departure.cause]
    rw [becomes]
    refine ⟨Eq.trans (by simp) removed, ?_, by simp [State.onEntry, State.removeEntry],
      by simp [State.onEntry, State.removeEntry], by simp [State.onEntry, State.removeEntry],
      by simp [State.onEntry, State.removeEntry], by simp [State.onEntry, State.removeEntry],
      by simp [State.sameAudio, State.onEntry, State.removeEntry], by simpa [State.onEntry, State.removeEntry] using none_waits⟩
    rw [raise_host]
    rfl
  · have told : ((t.onEntry o QueueEntry.vetoedOnce).removeEntry o).tell e.vetoedOnce .abandoned
        = raise .lineOutcome e.message.subject (some .abandoned) ((t.onEntry o QueueEntry.vetoedOnce).removeEntry o) := by
      simp only [State.tell, QueueEntry.vetoedOnce, host, Departure.cause]
    have away : (((t.onEntry o QueueEntry.vetoedOnce).removeEntry o).tell e.vetoedOnce .abandoned).member.station = .leaving := by
      rw [told]
      simpa [State.onEntry, State.removeEntry] using leaving
    have becomes : u = (((t.onEntry o QueueEntry.vetoedOnce).removeEntry o).tell e.vetoedOnce .abandoned).goTo .member .abandoned := by
      refine (ownVetoed_plain sent queued (by rw [leave]; decide) (by rw [leave]; decide)).trans ((if_pos (by omega)).trans ?_)
      unfold State.abandon
      have counted_order : e.vetoedOnce.order = o := order
      rw [counted_order]
      exact if_pos ⟨leave, away⟩
    obtain ⟨queue, waiting⟩ := goTo_member_queue _ .abandoned away
    obtain ⟨station, cause⟩ := goTo_station (((t.onEntry o QueueEntry.vetoedOnce).removeEntry o).tell e.vetoedOnce .abandoned)
      .member .abandoned
    rw [becomes]
    refine ⟨queue.trans ?_, station, cause, (goTo_tables _ _ _).trans ?_, ?_, waiting.trans ?_⟩
    · rw [told]
      exact Eq.trans (by simp) removed
    · rw [told]
      simp [StationState.dropsTables, State.onEntry, State.removeEntry]
    · rw [told]
      simp [State.sameAudio, State.onEntry, State.removeEntry]
    · rw [told]
      simpa [State.onEntry, State.removeEntry] using none_waits

/-! ## The tail as the statement reads it -/

theorem tailEnd_passed (t : State) (n : Nat) (m : Message) (under : t.line.phase ≠ .over)
    (passed : t.line.field = .passed n m) : t.tailEnd false = t.messageEffect n m := by
  unfold State.tailEnd State.messageEffect
  rw [passed]
  cases phase : t.line.phase
  · exact absurd phase under
  all_goals rfl

/-- A tail in which the station drove no queued message, and a field without effect. -/
theorem tailEnd_noEffect (t : State) (veto : Bool) (under : t.line.phase ≠ .over) (read : t.line.phase ≠ .unread)
    (onLine : t.member.station.onLine = true)
    (nothing : t.line.sent = none ∨ ∃ m, t.line.sent = some (.presence m))
    (idle : veto = true ∨ t.line.vetoing ≠ .none ∨ t.line.field = .failed ∨ t.line.field = .empty) :
    ∃ vetoed : Bool, (vetoed = false ↔ veto = false ∧ t.line.vetoing = .none)
      ∧ t.tailEnd veto = (t.tailCounted vetoed).closeFrame := by
  by_cases marked : veto = true ∨ t.line.vetoing ≠ .none
  · refine ⟨true, by simpa using Classical.or_iff_not_imp_left.mp marked, ?_⟩
    rw [tailEnd_vetoed t veto under read onLine marked, ownVetoed_noneQueued]
    rwa [tailCounted_line]
  · obtain ⟨calm, silent⟩ := not_or.mp marked
    have calm : veto = false := by simpa using calm
    have silent : t.line.vetoing = .none := Classical.not_not.mp silent
    subst calm
    refine ⟨false, by simp [silent], ?_⟩
    exact tailEnd_unjudged t under read onLine silent (by simpa [silent] using idle)

/-- Settles O19: the frame that is over, the message that passed, the veto, and what becomes of the own message. -/
theorem theTailDecides : Obligations.TheTailDecides := by
  intro s released t room standing
  have acts := fun veto => exec_outside (.tailEnd veto) s (fun t => t.tailEnd veto) rfl released
  have commands := fun (n : Fin 16) (m : Message) => act_released s (fun t => t.messageEffect n.val m) released
  have settled : s.settle = t := rfl
  rw [settled] at acts commands
  clear_value t
  refine ⟨fun ended veto => ?ended, fun n m under passed => ?passed, fun marked => ?marked,
    fun n m o e hears law mine sent queued host not_join not_leave => ?host, fun veto under read onLine nothing idle => ?idle,
    fun e o m under read part sent queued none_waits => ?vetoed⟩
  case ended =>
    have stands : t.tailEnd veto = t := by simp [State.tailEnd, ended]
    rw [acts, stands]
  case passed =>
    rw [acts, tailEnd_passed t n.val m under passed, State.messageCommand, commands]
  case marked =>
    have same : ∀ message, t.tail message false = t.tail message true := by
      intro message
      have vetoes : t.vetoes = true := by simp [State.vetoes, marked]
      simp only [State.tail, vetoes, Bool.or_true]
    rw [acts, acts]
    unfold State.tailEnd
    split
    · rfl
    · rw [same]
    · rw [same]
  case host =>
    refine ⟨t.messageEffect n.val m, by rw [State.messageCommand, commands], ?_⟩
    exact messageEffect_ofHost t n.val m o e hears law mine sent queued host (mayMove_of_kind m not_join not_leave)
  case idle =>
    intro damaged restarts
    obtain ⟨vetoed, calm, ends⟩ := tailEnd_noEffect t veto under read onLine nothing idle
    obtain ⟨hit, whole, elsewhere, restarted, untouched, pointer, station⟩ := tailCounted_facts t vetoed
    obtain ⟨phase, waiting, length, stays, joins⟩ := closeFrame_queue (t.tailCounted vetoed)
    have line := tailCounted_line t vetoed
    refine ⟨(t.tailCounted vetoed).closeFrame, by rw [acts, ends], phase, by simp [line, LineInterface.selfVetoAtTail],
      fun d => by simpa using hit d, fun l f => by simpa using whole l f, fun l => by simpa using elsewhere l,
      fun r => (State.closeFrame_frame _).2.2.1.trans (restarted r.1 (calm.mpr r.2)), fun r => by simpa using untouched (fun both => r ⟨both.1, calm.mp both.2⟩),
      by simp [line], by simp [line], by simpa using pointer, by simpa [line] using waiting, by simpa [line] using length,
      by simpa [line] using stays, fun e taken => joins e (by simpa [line] using taken), by simpa using station,
      by simp [State.tailCounted], by simp [State.tailCounted], by simp [State.tailCounted], by simp [State.tailCounted],
      by simp [State.tailCounted], by simp [State.tailCounted, State.sameAudio]⟩
  case vetoed =>
    intro revised rest n becomes
    have onLine : t.member.station.onLine = true := by
      cases station : t.member.station <;> rw [station] at part <;> first | rfl | cases part
    have ends := tailEnd_vetoed t true under read onLine (.inl rfl)
    obtain ⟨stood, member⟩ := tailCounted_stands t part
    have line := tailCounted_line t true
    obtain ⟨plain, joins, silenced, parts, note, host, leave⟩ := ownVetoed_cases (t.tailCounted true) o m e (by rw [line, sent])
      (by rw [line, queued]) (by rw [line, none_waits]) (by rw [member, part])
    have queue : (t.tailCounted true).line.queue = t.line.queue := by rw [line]
    have kept : (t.tailCounted true).tables = t.tables ∧ (t.tailCounted true).note = t.note
        ∧ (t.tailCounted true).mixer = t.mixer ∧ (t.tailCounted true).call = t.call
        ∧ (t.tailCounted true).serial = t.serial := by
      obtain ⟨tables, -, mixer, call, note, -, startUp, -⟩ := stood
      exact ⟨tables, note, mixer, call, by rw [State.serial, State.serial, startUp]⟩
    obtain ⟨tables, noted, mixer, call, serial⟩ := kept
    have raised : ∀ k subject cause, (t.tailCounted true).eventRaised k subject cause = t.eventRaised k subject cause :=
      eventRaised_same stood.2.2.2.2.2.1 stood.2.1 (by rw [stood.2.2.2.2.2.2.1]) (by rw [tables])
    have audio : ∀ x : State, State.sameAudio (t.tailCounted true) x → State.sameAudio t x.closeFrame := by
      intro x same
      simpa [State.sameAudio, State.tailCounted] using same
    have stands : ∀ x : State, (t.tailCounted true).standsAt x → standing x.closeFrame := fun x same =>
      State.standsAt_closeFrame (State.standsAt_trans stood same)
    rw [queue, serial, member] at joins
    rw [queue] at plain parts
    rw [member, noted, queue, tables] at note
    rw [queue, tables, member, noted, mixer, call] at host
    rw [member, queue, tables] at leave
    rw [tables] at silenced
    simp only [raised] at note host
    have ends : exec (.tailEnd true) s = .next (t.tailCounted true).ownVetoed.closeFrame.keepUpStart := by rw [acts, ends]
    generalize (t.tailCounted true).ownVetoed = u at plain joins silenced parts note host leave ends
    refine ⟨fun not_join not_part few => ?_, fun join few => ?_, fun join many => ?_, fun part few => ?_,
      fun kind many unit k sending => ?_, fun not_join not_part not_leave many host' => ?_, fun left many host' leaving => ?_⟩
    · obtain ⟨queue, stood, waiting⟩ := plain not_join not_part few
      exact ⟨_, ends, (closeFrame_noWaiting u waiting).1.trans queue, stands u stood⟩
    · obtain ⟨queue, backoff, stood, waiting⟩ := joins join few
      exact ⟨Nat.le_of_lt_succ (Config.joinBackoff t.serial t.member.backoff).isLt, _, ends,
        (closeFrame_noWaiting u waiting).1.trans queue, by simpa using backoff, stands u stood⟩
    · obtain ⟨station, cause, count, queue, waiting, cleared, same⟩ := silenced join many
      exact ⟨_, ends, by simpa using station, by simpa using cause, by simpa using count,
        (closeFrame_noWaiting u waiting).1.trans queue, (closeFrame_noWaiting u waiting).2, by simpa using cleared, audio u same⟩
    · obtain ⟨queue, stood, waiting⟩ := parts part few
      exact ⟨_, ends, (closeFrame_noWaiting u waiting).1.trans queue, stands u stood⟩
    · obtain ⟨queue, failed, failure, events, same_tables, station, same, waiting⟩ := note kind many unit k sending
      exact ⟨_, ends, (closeFrame_noWaiting u waiting).1.trans queue, by simpa using failed, by simpa using failure,
        by simpa using events, by simpa using same_tables, by simpa using station, audio u same⟩
    · obtain ⟨queue, events, same_tables, station, same_note, same_mixer, same_call, same, waiting⟩ :=
        host not_join not_part not_leave many host'
      exact ⟨_, ends, (closeFrame_noWaiting u waiting).1.trans queue, by simpa using events, by simpa using same_tables,
        by simpa using station, by simpa using same_note, by simpa using same_mixer, by simpa using same_call, audio u same⟩
    · obtain ⟨queue, station, cause, same_tables, same, waiting⟩ := leave left many host' leaving
      exact ⟨_, ends, (closeFrame_noWaiting u waiting).1.trans queue, by simpa using station, by simpa using cause,
        by simpa using same_tables, audio u same⟩

end Sys2Proof.Machine
end

section
/-! PROOFS. A JOIN takes effect (R37 to R39, R182). -/

namespace Sys2Proof.Machine

/-! ## Its own message has left before a station moves (R14, R15) -/

/-- What stands of a state once the message has been judged and its own message has left the queue. -/
structure State.concludedAs (t judged v : State) : Prop where
  tables : v.tables = judged.tables
  station : v.member.station = t.member.station
  record : v.startUp.record = t.startUp.record
  mixer : v.mixer = judged.mixer
  audio : State.sameAudio t v

/-- A message takes effect: judged, its own message concluded, then the moves of the station. -/
theorem messageEffect_concluded (t : State) (n : Nat) (m : Message) (hears : t.hears) :
    let judged := (t.tailCounts.refreshAge n).judge n m
    ∃ v, t.messageEffect n m = (v.moveByMessage (t.isOwn n m) n m judged.2).closeFrame ∧ t.concludedAs judged.1 v
      ∧ (t.isOwn n m = true → ∀ sent, t.line.sent = some sent → v = judged.1.concludeOwn t.tailCounts.tables sent judged.2)
      ∧ (t.isOwn n m = false → v = judged.1) := by
  intro judged
  have sent_kept : t.tailCounts.line.sent = t.line.sent := by simp [State.tailCounts]
  refine ⟨match t.isOwn n m, t.line.sent with
    | true, some sent => judged.1.concludeOwn t.tailCounts.tables sent judged.2
    | _, _ => judged.1, ?_, ?_, fun own sent here => ?_, fun foreign => ?_⟩
  · rw [t.messageEffect_hears n m hears]
    unfold State.takeEffect
    simp only [tailCounts_isOwn, sent_kept] <;> rfl
  · split <;> exact ⟨by simp, by simp [judged, State.tailCounts], by simp [judged, State.tailCounts], by simp,
      by simp [State.sameAudio, judged, State.tailCounts]⟩
  · rw [own, here]
  · rw [foreign]

/-! ## The verdict of a JOIN (R37) -/

section
variable (roles : Byte) (zones privateZones : ZoneSet) (serial : BitVec 32)

/-- The fields of a JOIN are in range (R10, Table 1-5). -/
def joinInRange : Prop := roles.toNat ≤ 15 ∧ privateZones &&& ~~~zones = 0

theorem join_inRange_iff :
    (Message.join roles zones privateZones serial).inRange = true ↔ joinInRange roles zones privateZones := by
  simp [Message.inRange, joinInRange, privateWithin]

/-- The verdict of a JOIN and the tables after it, over the tables with the sender's age at 0. -/
theorem judge_join (s : State) (n : Nat) :
    let judged := s.judge n (.join roles zones privateZones serial)
    let taken := joinInRange roles zones privateZones ∧ (s.tables.station n).present = false ∧ zones &&& s.tables.zonesPresent = 0
    (taken → judged.2 = .taken ∧ judged.1.tables = s.tables.setStation n (joinedEntry roles zones privateZones serial))
      ∧ (¬taken → judged.2 ≠ .taken ∧ judged.1.tables = s.tables)
      ∧ (¬joinInRange roles zones privateZones → judged.2 = .badField)
      ∧ (joinInRange roles zones privateZones → (s.tables.station n).present = true → judged.2 = .numberTaken)
      ∧ (joinInRange roles zones privateZones → ¬taken → (s.tables.station n).present = false → judged.2 = .zoneTaken) := by
  intro judged taken
  by_cases range : joinInRange roles zones privateZones
  case neg =>
    have bad : judged = (s, .badField) := by
      have out := Bool.eq_false_iff.mpr (mt (join_inRange_iff roles zones privateZones serial).mp range)
      exact if_pos out
    have not_taken : ¬taken := fun both => range both.1
    rw [bad]
    exact ⟨fun t => absurd t not_taken, fun _ => ⟨fun no => (by cases no), rfl⟩, fun _ => rfl, fun r => absurd r range,
      fun r => absurd r range⟩
  case pos =>
    have judges : judged = s.judgeJoin n roles zones privateZones serial := by
      have inside := (join_inRange_iff roles zones privateZones serial).mpr range
      exact if_neg (by rw [inside]; decide)
    have other : ∀ verdict, joinVerdict s.tables n zones = verdict → verdict ≠ .taken → judged = (s, verdict) := by
      intro verdict found differs
      rw [judges, State.judgeJoin, found]
      cases verdict <;> first | rfl | exact absurd rfl differs
    by_cases present : (s.tables.station n).present = true
    · have refused := other .numberTaken (if_pos present) (fun no => by cases no)
      rw [refused]
      exact ⟨fun both => (by rw [both.2.1] at present; cases present), fun _ => ⟨fun no => (by cases no), rfl⟩,
        fun r => absurd range r, fun _ _ => rfl, fun _ _ absent => by rw [absent] at present; cases present⟩
    · by_cases zone : zones &&& s.tables.zonesPresent = 0
      · have is_taken : taken := ⟨range, by simpa using present, zone⟩
        have verdict : joinVerdict s.tables n zones = .taken := (if_neg present).trans (if_neg (Classical.not_not.mpr zone))
        rw [judges, State.judgeJoin, verdict]
        exact ⟨fun _ => ⟨rfl, (raise_frame _ _ _ _).2.2.2.1⟩, fun no => absurd is_taken no, fun r => absurd range r,
          fun _ there => absurd there present, fun _ no => absurd is_taken no⟩
      · have refused := other .zoneTaken ((if_neg present).trans (if_pos zone)) (fun no => by cases no)
        rw [refused]
        exact ⟨fun both => absurd both.2.2 zone, fun _ => ⟨fun no => (by cases no), rfl⟩, fun r => absurd range r,
          fun _ there => absurd there present, fun _ _ _ => rfl⟩

/-- A JOIN of which the station knows nothing else reaches neither the line interface nor the mixer. -/
theorem judge_join_keeps (s : State) (n : Nat) :
    (s.judge n (.join roles zones privateZones serial)).1.line = s.line
      ∧ (s.judge n (.join roles zones privateZones serial)).1.mixer = s.mixer := by
  unfold State.judge
  dsimp only
  split
  · exact ⟨rfl, rfl⟩
  · simp

/-- The verdict of a JOIN at a station that hears it, over its tables with the sender's age at 0 (R25, R37). -/
theorem heard_join (t : State) (n : Nat) (hears : t.hears) :
    let judged := (t.tailCounts.refreshAge n).judge n (.join roles zones privateZones serial)
    let taken := joinInRange roles zones privateZones ∧ (t.tables.station n).present = false ∧ zones &&& t.tables.zonesPresent = 0
    (taken → judged.2 = .taken
        ∧ judged.1.tables = (aged t.tables n).setStation n (joinedEntry roles zones privateZones serial))
      ∧ (¬taken → judged.2 ≠ .taken ∧ judged.1.tables = aged t.tables n)
      ∧ (¬joinInRange roles zones privateZones → judged.2 = .badField)
      ∧ (joinInRange roles zones privateZones → (t.tables.station n).present = true → judged.2 = .numberTaken)
      ∧ (joinInRange roles zones privateZones → ¬taken → (t.tables.station n).present = false → judged.2 = .zoneTaken)
      ∧ judged.1.line = t.tailCounts.line ∧ judged.1.mixer = t.mixer := by
  intro judged taken
  obtain ⟨takes, refuses, bad, number, zone⟩ := judge_join roles zones privateZones serial (t.tailCounts.refreshAge n) n
  obtain ⟨line, mixer⟩ := judge_join_keeps roles zones privateZones serial (t.tailCounts.refreshAge n) n
  have tables : (t.tailCounts.refreshAge n).tables = aged t.tables n := heardTables t n hears
  rw [tables, (aged_station t.tables n n).1, aged_zones] at takes refuses zone
  rw [tables, (aged_station t.tables n n).1] at number
  exact ⟨takes, refuses, bad, number, zone, line.trans (by simp), mixer.trans (by simp [State.tailCounts])⟩

end

/-! ## The autonomous offers queued at the entry into MEMBER (R182) -/

/-- The entries of the autonomous offers of a record, in the order in which they are handed to the line interface. -/
def offerEntries (r : StartUpRecord) : List QueueEntry :=
  (List.range 4).flatMap (fun i => (r.offers.filter (fun o => o.index == i)).flatMap (fun o =>
    newEntry (.offer (BitVec.ofNat 8 o.index) (BitVec.ofNat 8 (kindCode o.kind)) (BitVec.ofNat 8 o.channels)
        (BitVec.ofNat 8 o.cls)) .startUp false (some o.binding)
      :: if o.carry then [newEntry (.claim (BitVec.ofNat 8 o.index) 0) .startUp true none] else []))

theorem queueOffers_eq (s : State) (r : StartUpRecord) (record : s.startUp.record = some r) :
    s.queueOffers = (offerEntries r).foldl State.send s := by
  unfold State.queueOffers offerEntries
  rw [record]
  simp only [List.foldl_flatMap]
  congr 1
  funext acc i
  congr 1
  funext acc o
  unfold State.queueOffer
  cases o.carry <;> rfl

theorem offerEntries_messages (r : StartUpRecord) :
    (offerEntries r).map (fun d => (d.message, d.auto, d.companion)) = offerMessages r := by
  unfold offerEntries offerMessages
  simp only [List.map_flatMap]
  refine flatMap_congr_mem (fun i _ => flatMap_congr_mem (fun o here => ?_))
  have index : o.index = i := by simpa using (List.mem_filter.mp here).2
  cases o.carry <;> simp [newEntry, index]

theorem offerEntries_startUp (r : StartUpRecord) :
    ∀ d, d ∈ offerEntries r → d.originator = .startUp ∧ d.message.cls = 2 := by
  intro d inEntries
  unfold offerEntries at inEntries
  obtain ⟨i, -, inIndex⟩ := List.mem_flatMap.mp inEntries
  obtain ⟨o, -, inOffer⟩ := List.mem_flatMap.mp inIndex
  obtain rfl | claim := List.mem_cons.mp inOffer
  · exact ⟨rfl, rfl⟩
  · split at claim
    · rw [List.mem_singleton.mp claim]
      exact ⟨rfl, rfl⟩
    · cases claim

/-- At most four offers queue at most eight messages. -/
theorem offerEntries_length (r : StartUpRecord) (few : r.offers.length ≤ 4) : (offerEntries r).length ≤ 8 := by
  have at_most : ∀ l : List AutonomousOffer, (l.flatMap (fun o =>
      newEntry (.offer (BitVec.ofNat 8 o.index) (BitVec.ofNat 8 (kindCode o.kind)) (BitVec.ofNat 8 o.channels)
          (BitVec.ofNat 8 o.cls)) .startUp false (some o.binding)
        :: if o.carry then [newEntry (.claim (BitVec.ofNat 8 o.index) 0) .startUp true none] else [])).length
      ≤ 2 * l.length := by
    intro l
    induction l with
    | nil => simp
    | cons o rest ih =>
      rw [List.flatMap_cons, List.length_append, List.length_cons, List.length_cons]
      have carried : (if o.carry then [newEntry (.claim (BitVec.ofNat 8 o.index) 0) .startUp true none] else []).length ≤ 1 := by
        split <;> simp
      omega
  have disjoint : ∀ l : List AutonomousOffer, (l.filter (fun o => o.index == 0)).length + (l.filter (fun o => o.index == 1)).length
      + (l.filter (fun o => o.index == 2)).length + (l.filter (fun o => o.index == 3)).length ≤ l.length := by
    intro l
    induction l with
    | nil => simp
    | cons o rest ih =>
      have counts : ∀ k, ((o :: rest).filter (fun o => o.index == k)).length
          = (rest.filter (fun o => o.index == k)).length + if o.index = k then 1 else 0 := fun k => by
        rw [List.filter_cons]
        by_cases here : o.index = k
        · rw [if_pos (by rw [here]; exact beq_self_eq_true k), if_pos here, List.length_cons]
        · rw [if_neg (by rw [beq_iff_eq]; exact here), if_neg here, Nat.add_zero]
      rw [counts, counts, counts, counts, List.length_cons]
      repeat' split
      all_goals omega
  have p0 := at_most (r.offers.filter (fun o => o.index == 0))
  have p1 := at_most (r.offers.filter (fun o => o.index == 1))
  have p2 := at_most (r.offers.filter (fun o => o.index == 2))
  have p3 := at_most (r.offers.filter (fun o => o.index == 3))
  have all := disjoint r.offers
  simp only [offerEntries, List.range, List.range.loop, List.flatMap_cons, List.flatMap_nil, List.length_append, List.length_nil]
  omega

/-- A message of the highest class there goes to the end of the queue (R18). -/
theorem placeEntry_last (e : QueueEntry) (l : List QueueEntry) (low : ∀ d, d ∈ l → d.message.cls ≤ e.message.cls) :
    placeEntry e l = l ++ [e] := by
  induction l with
  | nil => rfl
  | cons f rest ih =>
    unfold placeEntry
    rw [if_neg (Nat.not_lt.mpr (low f List.mem_cons_self)), ih (fun d inRest => low d (List.mem_cons_of_mem f inRest))]
    rfl

/-- Messages of one class handed to a queue with room for them stand there in order (R18). -/
theorem foldl_send_queue (c : Nat) (l : List QueueEntry) (s : State) (cls : ∀ d, d ∈ s.line.queue ++ l → d.message.cls = c)
    (room : s.line.queue.length + l.length ≤ 8) :
    (l.foldl State.send s).line.queue.map (fun d => (d.message, d.auto, d.companion, d.originator))
        = (s.line.queue ++ l).map (fun d => (d.message, d.auto, d.companion, d.originator))
      ∧ (l.foldl State.send s).line.waiting = s.line.waiting := by
  induction l generalizing s with
  | nil => simp
  | cons e rest ih =>
    have not_full : s.queueFull = false := by
      simp only [List.length_cons] at room
      simp only [State.queueFull, decide_eq_false_iff_not]
      omega
    have sent : s.send e = s.enter e := by simp [State.send, not_full]
    have class_e : e.message.cls = c := cls e (by simp)
    have queue : (s.send e).line.queue = s.line.queue ++ [{ e with order := s.line.nextOrder }] := by
      rw [sent]
      refine placeEntry_last _ _ (fun d inQueue => ?_)
      rw [cls d (by simp [inQueue])]
      exact Nat.le_of_eq class_e.symm
    have waiting : (s.send e).line.waiting = s.line.waiting := by
      rw [sent]
      rfl
    obtain ⟨placed, waits⟩ := ih (s.send e) (fun d there => by
        rw [queue] at there
        simp only [List.append_assoc, List.mem_append, List.mem_singleton] at there
        obtain inQueue | rfl | inRest := there
        · exact cls d (by simp [inQueue])
        · exact class_e
        · exact cls d (by simp [inRest]))
      (by rw [queue]; simp only [List.length_append, List.length_cons, List.length_nil] at room ⊢; omega)
    exact ⟨by rw [List.foldl_cons, placed, queue]; simp, waits.trans waiting⟩

/-- The entry into MEMBER from JOINING with an empty queue leaves the autonomous offers there (R182). -/
theorem goTo_member_offers (v : State) (r : StartUpRecord) (cause : Cause) (joining : v.member.station = .joining)
    (record : v.startUp.record = some r) (few : r.offers.length ≤ 4) (empty : v.line.queue = []) (none_waits : v.line.waiting = []) :
    (v.goTo .member cause).line.queue.map (fun d => (d.message, d.auto, d.companion)) = offerMessages r
      ∧ (∀ d, d ∈ (v.goTo .member cause).line.queue → d.originator = .startUp) ∧ (v.goTo .member cause).line.waiting = [] := by
  have entered : ∃ w : State, w.line.queue = [] ∧ w.line.waiting = [] ∧ w.startUp.record = some r
      ∧ (v.goTo .member cause).line = w.queueOffers.line := by
    refine ⟨(raise .stationChanged [stationCode .member] (some cause)
      { v with member.station := .member, member.cause := some cause }).enterStation .member, ?_, ?_, ?_, ?_⟩
    · simpa using empty
    · simpa using none_waits
    · simpa using record
    · unfold State.goTo
      simp [joining, StationState.takesPart, StationState.dropsTables, StationState.drives, State.zonesAtStation]
  obtain ⟨w, queue, waiting, kept, line⟩ := entered
  obtain ⟨placed, waits⟩ := foldl_send_queue 2 (offerEntries r) w
    (fun d there => (offerEntries_startUp r d (by simpa [queue] using there)).2)
    (by simpa [queue] using offerEntries_length r few)
  rw [line, queueOffers_eq w r kept]
  rw [queue, List.nil_append] at placed
  refine ⟨?_, fun d inQueue => ?_, waits.trans waiting⟩
  · rw [← offerEntries_messages]
    have projected := congrArg (List.map (fun x : Message × Bool × Option Binding × Originator => (x.1, x.2.1, x.2.2.1))) placed
    simpa [List.map_map, Function.comp_def] using projected
  · have there : (d.message, d.auto, d.companion, d.originator)
        ∈ (offerEntries r).map (fun d => (d.message, d.auto, d.companion, d.originator)) := by
      rw [← placed]
      exact List.mem_map_of_mem inQueue
    obtain ⟨e, inEntries, same⟩ := List.mem_map.mp there
    have originators : e.originator = d.originator :=
      congrArg (fun x : Message × Bool × Option Binding × Originator => x.2.2.2) same
    rw [← originators]
    exact (offerEntries_startUp r e inEntries).1

/-! ## The station that hears a JOIN -/

/-- The zones of a station that goes from a state on the line to another one on the line. -/
theorem zonesTaken_goTo {t v : State} (mixer : v.mixer = t.mixer) (station : v.member.station = t.member.station)
    (record : v.startUp.record = t.startUp.record) (onLine : t.member.station ≠ .offline) (new : StationState)
    (online : new ≠ .offline) (cause : Cause) : t.zonesTaken (v.goTo new cause).closeFrame true := by
  have taken := goTo_zones v new cause (by rw [station]; exact onLine) online
  intro z d four inside defined
  have same : v.zone z = t.zone z := by rw [State.zone, State.zone, mixer]
  obtain ⟨routes, q, tested, positioned, aimed, -⟩ :=
    taken z d four (by rw [mixer]; exact inside) (by rw [definitions_of t v station record]; exact defined)
  rw [same] at tested positioned aimed
  have closed : (v.goTo new cause).closeFrame.zone z = (v.goTo new cause).zone z := by
    rw [State.zone, State.zone, (State.closeFrame_frame _).2.2.2.2.2.2.2.1]
  have member : (v.goTo new cause).closeFrame.member = (v.goTo new cause).member := (State.closeFrame_frame _).2.2.2.1
  have tables : (v.goTo new cause).closeFrame.tables = (v.goTo new cause).tables := (State.closeFrame_frame _).2.2.1
  exact ⟨routes, q, routesTested_of (by rw [member]) (by rw [tables]) tested,
    positionTaken_of (by rw [member]) (by rw [tables]) (by rw [tables]) positioned, by rw [closed]; exact aimed,
    fun _ untested => by cases untested⟩

/-- The own queued message of the membership unit has left an otherwise empty queue. -/
theorem concludeOwn_membership (s : State) (before : LineTables) (e : QueueEntry) (m : Message) (verdict : Cause)
    (alone : s.line.queue = [e]) (unit : e.originator = .membership) :
    (s.concludeOwn before (.queued e.order m) verdict).line.queue = []
      ∧ (s.concludeOwn before (.queued e.order m) verdict).line.waiting = s.line.waiting := by
  have found : s.line.queue.find? (fun d => d.order == e.order) = some e := by simp [alone]
  have placed : (s.placeBinding before e).line.queue = [e] ∧ (s.placeBinding before e).line.waiting = s.line.waiting := by
    rw [← alone]
    unfold State.placeBinding
    split
    · split <;> exact ⟨rfl, rfl⟩
    · exact ⟨rfl, rfl⟩
  simp only [State.concludeOwn, found, State.tell, unit, State.removeEntry, placed]
  simp

theorem setStation_read (t : LineTables) (n : Nat) (e : RosterEntry) (sized : n < t.roster.length) :
    (t.setStation n e).station n = e ∧ (∀ m, m ≠ n → (t.setStation n e).station m = t.station m)
      ∧ (t.setStation n e).directory = t.directory ∧ (t.setStation n e).slots = t.slots ∧ (t.setStation n e).calls = t.calls :=
  ⟨setStation_eq t n e sized, fun _ other => setStation_ne t n _ e other, rfl, rfl, rfl⟩

theorem foreignSerial_iff (s : State) (serial : BitVec 32) :
    s.foreignSerial serial = true ↔ ∃ r, s.startUp.record = some r ∧ r.serial ≠ serial := by
  unfold State.foreignSerial
  cases s.startUp.record <;> simp

/-- How a station moves that hears a JOIN (R38, R39). -/
theorem moveByMessage_join (v : State) (n : Nat) (roles : Byte) (zones privateZones : ZoneSet) (serial : BitVec 32) (verdict : Cause) :
    let m := Message.join roles zones privateZones serial
    ∃ c : State, (c.line = { v.line with presenceCounter := 0 } ∧ c.tables = v.tables ∧ c.member = v.member ∧ c.mixer = v.mixer
        ∧ c.startUp = v.startUp)
      ∧ (verdict = .taken → v.moveByMessage true n m verdict = c.goTo .member .joined)
      ∧ (verdict ≠ .taken → v.moveByMessage true n m verdict = c.goTo .detached verdict)
      ∧ (n = v.number → v.member.station.onLine = true → v.foreignSerial serial = true →
          v.moveByMessage false n m verdict = v.goTo .detached .numberTaken)
      ∧ (¬(n = v.number ∧ v.foreignSerial serial = true) → v.moveByMessage false n m verdict = v) := by
  intro m
  refine ⟨{ v with line.presenceCounter := 0 }, ⟨rfl, rfl, rfl, rfl, rfl⟩, fun taken => if_pos taken, fun refused => if_neg refused,
    fun own onLine foreign => if_pos ⟨own, onLine, foreign⟩, fun known => if_neg (fun all => known ⟨all.1, all.2.2⟩)⟩

/-- Settles O20: the verdict, then the moves of the station by whose JOIN it is. -/
theorem joinIsJudged : Obligations.JoinIsJudged := by
  intro sender roles zones privateZones serial s released t m inRange taken joined foreign hears sizes
  have acts := exec_message sender m (.join sender roles zones privateZones serial) s rfl released
  have settled : s.settle = t := rfl
  rw [settled] at acts
  clear_value t
  obtain ⟨v, effect, concluded, ownEnds, -⟩ := messageEffect_concluded t sender.val m hears
  obtain ⟨takes, refuses, bad, number, zone, line, mixer⟩ := heard_join roles zones privateZones serial t sender.val hears
  have inside : sender.val < t.tables.roster.length := by rw [sizes.1]; exact sender.isLt
  have agedInside : sender.val < (aged t.tables sender.val).roster.length := by simpa [LineTables.onStation] using inside
  have agedStation : (aged t.tables sender.val).station sender.val = { t.tables.station sender.val with age := 0 } :=
    onStation_eq t.tables sender.val _ inside
  have agedOthers : ∀ n, n ≠ sender.val → (aged t.tables sender.val).station n = t.tables.station n := fun n other =>
    onStation_ne t.tables sender.val n _ other
  obtain ⟨tables, station, record, mixer_v, audio⟩ := concluded
  have mixer_t := mixer_v.trans mixer
  clear mixer
  generalize (t.tailCounts.refreshAge sender.val).judge sender.val m = judged at *
  have number_v : v.number = t.number := by rw [State.number, State.number, record]
  have onLine : v.member.station.onLine = true := by rw [station]; exact hears.1
  have onLine_t : t.member.station ≠ .offline := fun off => by
    have on := hears.1
    rw [off] at on
    cases on
  obtain ⟨c, ⟨line_c, tables_c, member_c, mixer_c, startUp_c⟩, joins, refused, leaves, stays⟩ := moveByMessage_join v sender.val roles zones privateZones serial judged.2
  have foreign_v : v.foreignSerial serial = true ↔ ∃ r, t.startUp.record = some r ∧ r.serial ≠ serial := by
    rw [foreignSerial_iff, record]
  have directory : v.tables.directory = t.tables.directory ∧ v.tables.slots = t.tables.slots ∧ v.tables.calls = t.tables.calls
      ∧ ∀ n, n ≠ sender.val → v.tables.station n = t.tables.station n := by
    rw [tables]
    by_cases isTaken : taken
    · rw [(takes isTaken).2]
      exact ⟨rfl, rfl, rfl, fun n other => (setStation_ne _ _ _ _ other).trans (agedOthers n other)⟩
    · rw [(refuses isTaken).2]
      exact ⟨rfl, rfl, rfl, agedOthers⟩
  obtain ⟨directory, slots, calls, others_v⟩ := directory
  refine ⟨_, acts, fun others known => ?_, fun own isTaken => ?_, fun own => ?_, fun own notTaken => ?_, fun others isForeign => ?_, ?_⟩
  · rw [effect, others, stays (fun both => known ⟨both.1.trans number_v, foreign_v.mp both.2⟩)]
    refine ⟨by simpa using station, ?_, ?_, ?_, fun isTaken => ?_, fun notTaken => ?_, fun n other => ?_⟩
    · rw [(State.closeFrame_frame v).2.2.1, directory]
    · rw [(State.closeFrame_frame v).2.2.1, slots]
    · rw [(State.closeFrame_frame v).2.2.1, calls]
    · rw [(State.closeFrame_frame v).2.2.1, tables, (takes isTaken).2]
      exact (setStation_read _ _ _ agedInside).1
    · rw [(State.closeFrame_frame v).2.2.1, tables, (refuses notTaken).2, agedStation]
    · rw [(State.closeFrame_frame v).2.2.1, others_v n other]
  · have tables_u : (c.goTo .member .joined).closeFrame.tables = v.tables := by
      simp [goTo_tables, StationState.dropsTables, tables_c]
    have moved := zonesTaken_goTo (t := t) (v := c) (mixer_c.trans mixer_t) (by rw [member_c, station]) (by rw [startUp_c, record])
      onLine_t .member (fun h => by cases h) .joined
    rw [effect, own, joins (takes isTaken).1]
    refine ⟨by simp, by simp, ?_, by rw [tables_u, directory], by rw [tables_u, slots], by rw [tables_u, calls], ?_,
      fun r e joining kept few alone none_waits unit sent => ?_⟩
    · rw [tables_u, tables, (takes isTaken).2]
      exact (setStation_read _ _ _ agedInside).1
    · exact moved
    · obtain ⟨empty, waits⟩ := concludeOwn_membership judged.1 t.tailCounts.tables e m judged.2 (by rw [line]; simpa [State.tailCounts] using alone) unit
      rw [← ownEnds own _ sent] at empty waits
      obtain ⟨offers, units, waiting⟩ := goTo_member_offers c r .joined (by rw [member_c, station, joining])
        (by rw [startUp_c, record, kept]) few (by rw [line_c]; exact empty)
        (by rw [line_c]; exact waits.trans (by rw [line]; simpa [State.tailCounts] using none_waits))
      rw [(closeFrame_noWaiting _ waiting).1]
      exact ⟨offers, units⟩
  · rw [effect, own]
    have counted : ∀ (new : StationState) (cause : Cause),
        (c.goTo new cause).closeFrame.line.presenceCounter = 0 := fun new cause => by
      rw [(State.closeFrame_frame _).2.2.2.2.2.2.2.2.2.2.2.2.2.2.2.2.2.2.2.2.2.1, goTo_counter, line_c]
    by_cases isTaken : judged.2 = .taken
    · rw [joins isTaken]
      exact counted _ _
    · rw [refused isTaken]
      exact counted _ _
  · rw [effect, own, refused (refuses notTaken).1]
    refine ⟨by simp, fun out => ?_, fun range there => ?_, fun range absent => ?_⟩
    · rw [← bad out]
      simp
    · rw [← number range there]
      simp
    · rw [← zone range notTaken absent]
      simp
  · rw [effect, others, leaves (isForeign.1.trans number_v.symm) onLine (foreign_v.mpr isForeign.2)]
    exact ⟨by simp, by simp⟩
  · rw [effect]
    simpa [State.sameAudio] using audio

end Sys2Proof.Machine
end

section
/-! PROOFS. A PRESENCE takes effect (R28 to R32). -/

namespace Sys2Proof.Machine

/-! ## What a descriptor does to the tables (R31, R32) -/

section
variable (T : LineTables) (n : Nat)

/-- The stream part of a STREAM descriptor; the call marks touch neither directory nor slots. -/
theorem applyDescriptor_stream (i st k c l f : Byte) (kind : StreamKind) (named : (kindOf k.toNat).getD .programme = kind) :
    let impossible := impossibleDescriptor st.toNat kind c.toNat l.toNat f
    let after := T.applyDescriptor n (.stream i st k c l f)
    let applied := T.applyStream (n * 4 + i.toNat) st.toNat { kind := kind, channels := c.toNat, cls := l.toNat } f.toNat
    (st = 0 ∨ impossible = false → after.directory = applied.directory ∧ after.slots = applied.slots)
      ∧ (st ≠ 0 → impossible = true → after.directory = T.directory ∧ after.slots = T.slots) := by
  intro impossible after applied
  subst named
  have marks := fun U : LineTables => markCalls_facts U n i.toNat
  refine ⟨fun possible => ?_, fun some_state ignored => ?_⟩
  · have does : after = applied.markCalls n i.toNat :=
      congrArg (fun U : LineTables => U.markCalls n i.toNat) (if_neg (by
        rintro ⟨some_state, ignored⟩
        obtain none | possible := possible
        · exact some_state none
        · exact absurd (ignored.symm.trans possible) (by decide)))
    rw [does]
    exact ⟨(marks applied).1, (marks applied).2.1⟩
  · have does : after = T.markCalls n i.toNat :=
      congrArg (fun U : LineTables => U.markCalls n i.toNat) (if_pos ⟨some_state, ignored⟩)
    rw [does]
    exact ⟨(marks T).1, (marks T).2.1⟩

/-- A CALL descriptor writes one record, and an ACTIVE one HOLDs the other (R32, R150). -/
theorem applyDescriptor_call (j st dl ul rf mic : Byte) (z : ZoneSet) (record : j.toNat < 2) (calls : T.calls.length = 2) :
    let after := T.applyDescriptor n (.call j st dl ul rf mic z)
    after.directory = T.directory ∧ after.slots = T.slots
      ∧ after.call j.toNat = describedCall n st dl ul rf mic z
      ∧ (st = 2 → (T.call (1 - j.toNat)).state = .active →
          after.call (1 - j.toNat) = { T.call (1 - j.toNat) with state := .held }) := by
  intro after
  have does : ∃ f, after = LineTables.onStation (if (describedCall n st dl ul rf mic z).state = .active
      then T.activate j.toNat (describedCall n st dl ul rf mic z) else T.setCall j.toNat (describedCall n st dl ul rf mic z)) n f :=
    ⟨_, rfl⟩
  obtain ⟨f, does⟩ := does
  rw [does]
  obtain ⟨directory, slots, -, -, own, other⟩ := activate_facts T j.toNat (describedCall n st dl ul rf mic z) record calls
  simp only [onStation_keeps, onStation_call]
  by_cases active : (describedCall n st dl ul rf mic z).state = .active
  · rw [if_pos active]
    refine ⟨directory, slots, own.trans ?_, fun _ => other⟩
    rw [← active]
  · rw [if_neg active]
    refine ⟨rfl, rfl, setCall_eq _ _ _ (by rw [calls]; exact record), fun two => absurd ?_ active⟩
    subst two
    rfl

end

/-! ## A PRESENCE at a station that hears it -/

theorem judge_presence_applied (s : State) (n : Nat) (roles : Byte) (zones privateZones : ZoneSet) (owned : SlotSet)
    (d : Descriptor) (inRange : (Message.presence roles zones privateZones owned d).inRange = true) :
    s.judge n (.presence roles zones privateZones owned d) = s.judgePresence n roles zones privateZones owned d :=
  if_neg (by rw [inRange]; decide)

/-- A refused PRESENCE changes no table (R10, R30). -/
theorem judge_presence_refused (s : State) (n : Nat) (roles : Byte) (zones privateZones : ZoneSet) (owned : SlotSet)
    (d : Descriptor) (refused : ¬(Message.presence roles zones privateZones owned d).inRange = true
      ∨ (¬(s.tables.station n).present = true ∧ s.member.station ≠ .listening)) :
    (s.judge n (.presence roles zones privateZones owned d)).1.tables = s.tables := by
  by_cases inRange : (Message.presence roles zones privateZones owned d).inRange = true
  · obtain out | ⟨absent, elsewhere⟩ := refused
    · exact absurd inRange out
    · rw [judge_presence_applied s n roles zones privateZones owned d inRange, State.judgePresence, if_pos ⟨Bool.eq_false_iff.mpr absent, elsewhere⟩]
  · have judges : (s.judge n (.presence roles zones privateZones owned d)) = (s, .badField) :=
      if_pos (Bool.eq_false_iff.mpr inRange)
    rw [judges]

/-- Where a PRESENCE that is applied changes one stream and no call record, every zone follows (R100, R101, R107, R110). -/
theorem judgePresence_zones (s : State) (n : Nat) (roles : Byte) (zones privateZones : ZoneSet) (owned : SlotSet) (d : Descriptor)
    (x : Nat) (exists64 : x < 64) (heeded : (s.tables.station n).present = true ∨ s.member.station = .listening)
    (changes : (s.tables.entry x).code ≠ ((s.judgePresence n roles zones privateZones owned d).1.tables.entry x).code)
    (others : ∀ y, y ≠ x → (s.judgePresence n roles zones privateZones owned d).1.tables.entry y = s.tables.entry y)
    (calls : (s.judgePresence n roles zones privateZones owned d).1.tables.calls = s.tables.calls) :
    s.zonesNoticed (s.judgePresence n roles zones privateZones owned d).1 x .presence := by
  obtain ⟨directory, -, calls_u, frames, -⟩ := judgePresence_tables s n roles zones privateZones owned d heeded
  have entry : ∀ y, (s.judgePresence n roles zones privateZones owned d).1.tables.entry y
      = (((s.tables.onStation n (fun e => e.declare roles zones privateZones)).applyDescriptor n d).strip s.tables).entry y := by
    intro y
    rw [LineTables.entry, LineTables.entry, directory]
  have frame : (((s.tables.onStation n (fun e => e.declare roles zones privateZones)).applyDescriptor n d).strip s.tables).frameCount
      = s.tables.frameCount := (applyDescriptor_roster _ n d).1
  rw [entry] at changes
  simp only [entry] at others
  rw [calls_u] at calls
  clear directory calls_u frames entry
  rw [State.judgePresence, if_neg (by
    rintro ⟨absent, elsewhere⟩
    obtain there | listening := heeded
    · rw [there] at absent
      cases absent
    · exact elsewhere listening)]
  have added : sameForZones s (if (s.tables.station n).present = true then s else raise .stationAdded [n] none s)
      ∧ (if (s.tables.station n).present = true then s else raise .stationAdded [n] none s).tables = s.tables := by
    split
    · exact ⟨⟨rfl, rfl, rfl, rfl, rfl, grew_refl s⟩, rfl⟩
    · exact ⟨⟨by simp, by simp, by simp, by simp, definitions_of _ _ (by simp) (by simp), grew_raise _ _ _ s⟩, by simp⟩
  dsimp only
  generalize (if (s.tables.station n).present = true then s else raise .stationAdded [n] none s) = a at added
  obtain ⟨same, tables⟩ := added
  have noticed := changeTables_zones a _ _ .presence (fun _ => .presence) x exists64 rfl
    (by rw [tables]; exact calls) (by rw [tables]; exact frame) (by rw [tables]; exact changes) (fun y other => by rw [tables]; exact others y other)
  refine zonesNoticed_between noticed.1 same ?_
  exact ⟨by simp, by simp, by simp, by simp, definitions_of _ _ (by simp) (by simp), grew_of_host (by simp) (by simp) (hasHost_of _ _ (by simp) (by simp))⟩

theorem declare_station (T : LineTables) (n : Nat) (roles : Byte) (zones privateZones : ZoneSet) (sized : n < T.roster.length) :
    let U := (aged T n).onStation n (fun e => e.declare roles zones privateZones)
    U.station n = RosterEntry.declare { T.station n with age := 0 } roles zones privateZones
      ∧ ∀ m, m ≠ n → U.station m = T.station m := by
  have agedSized : n < (aged T n).roster.length := by simpa [LineTables.onStation] using sized
  refine ⟨?_, fun m other => ?_⟩
  · rw [onStation_eq _ _ _ agedSized, onStation_eq _ _ _ sized]
  · rw [onStation_ne _ _ _ _ other, onStation_ne _ _ _ _ other]

theorem tailCounts_pointer (t : State) : t.tailCounts.member.pointer = t.member.pointer := by
  unfold State.tailCounts State.listenAtTail
  (repeat' split) <;> rfl

/-- The own PRESENCE sets the presence-due counter to 0 and moves the pointer on (R28, R29). -/
theorem messageEffect_ownPresence (t : State) (n : Nat) (roles : Byte) (zones privateZones : ZoneSet) (owned : SlotSet)
    (d : Descriptor) (hears : t.hears) (mine : n = t.number)
    (sent : t.line.sent = some (.presence (.presence roles zones privateZones owned d))) :
    let u := t.messageEffect n (.presence roles zones privateZones owned d)
    u.line.presenceCounter = 0 ∧ u.line.presenceDue = false ∧ u.member.pointer = pointerAfter t.member.pointer d := by
  obtain ⟨v, effect, -, own, -⟩ := messageEffect_concluded t n (.presence roles zones privateZones owned d) hears
  have isOwn : t.isOwn n (.presence roles zones privateZones owned d) = true := by simp [State.isOwn, mine, sent, Sent.message]
  have pointer : ((t.tailCounts.refreshAge n).judge n (.presence roles zones privateZones owned d)).1.member.pointer
      = t.member.pointer := by
    rw [(State.judge_frame _ _ _).2.2.1]
    exact tailCounts_pointer t
  have concluded := own isOwn _ sent
  rw [effect, State.moveByMessage_stays _ _ _ _ _ rfl, concluded]
  generalize (t.tailCounts.refreshAge n).judge n (.presence roles zones privateZones owned d) = judged at pointer
  refine ⟨by simp [State.concludeOwn], by simp [State.concludeOwn], ?_⟩
  rw [← pointer]
  simp [State.concludeOwn]

theorem streamIndex_inRange {roles : Byte} {zones privateZones : ZoneSet} {owned : SlotSet} {i st k c l f : Byte}
    (inRange : (Message.presence roles zones privateZones owned (.stream i st k c l f)).inRange = true) : i.toNat ≤ 3 := by
  simp only [Message.inRange, descriptorInRange, Bool.and_eq_true, decide_eq_true_eq] at inRange
  exact inRange.2.1.1

theorem callIndex_inRange {roles : Byte} {zones privateZones : ZoneSet} {owned : SlotSet} {j st dl ul rf mic : Byte} {z : ZoneSet}
    (inRange : (Message.presence roles zones privateZones owned (.call j st dl ul rf mic z)).inRange = true) : j.toNat < 2 := by
  simp only [Message.inRange, descriptorInRange, Bool.and_eq_true, decide_eq_true_eq] at inRange
  obtain ⟨-, ⟨⟨⟨⟨⟨low, -⟩, -⟩, -⟩, -⟩, -⟩⟩ := inRange
  omega

/-- The run of a CARRIED stream that could be lies in the slots (R31). -/
theorem carriedRun_fits {kind : StreamKind} {channels cls : Nat} {f : Byte}
    (possible : impossibleDescriptor 2 kind channels cls f = false) : f.toNat + channels - 1 ≤ 39 := by
  simp only [impossibleDescriptor, Bool.or_eq_false_iff, Bool.and_eq_false_iff, decide_eq_false_iff_not] at possible
  obtain ⟨-, two | ⟨⟨-, fits⟩, -⟩⟩ := possible
  · exact absurd two (by decide)
  · omega

/-- Where no stream went to NONE, no call record loses a stream (R150). -/
theorem call_ofPresence {T A U : LineTables} (directory : A.directory = T.directory) (calls : U.calls = (A.strip T).calls) (j : Nat) :
    U.call j = A.call j := by
  have entry : ∀ x, A.entry x = T.entry x := fun x => by rw [LineTables.entry, LineTables.entry, directory]
  rw [strip_id A T (fun x => by rw [wentNone, entry]; cases T.entry x <;> rfl)] at calls
  rw [LineTables.call, LineTables.call, calls]

/-- Settles O21: the counters of the sender, then the tables by whether the PRESENCE is applied and by its descriptor. -/
theorem presenceIsApplied : Obligations.PresenceIsApplied := by
  intro sender roles zones privateZones owned d s released t m inRange present hears sizes
  have acts := exec_message sender m (.presence sender roles zones privateZones owned d) s rfl released
  have settled : s.settle = t := rfl
  rw [settled] at acts
  clear_value t
  obtain ⟨tables_u, -, station_u, -, audio⟩ := t.messageEffect_stays sender.val m hears rfl
  have heard : (t.tailCounts.refreshAge sender.val).tables = aged t.tables sender.val := heardTables t sender.val hears
  have station_a : (t.tailCounts.refreshAge sender.val).member.station = t.member.station := by simp [State.tailCounts]
  have present_a : ((aged t.tables sender.val).station sender.val).present = (t.tables.station sender.val).present :=
    (aged_station t.tables sender.val sender.val).1
  have inside : sender.val < t.tables.roster.length := by rw [sizes.1]; exact sender.isLt
  have frames : (t.messageEffect sender.val m).tables.frameCount = t.tables.frameCount := by
    rw [tables_u, judge_frameCount _ _ m rfl, heard]
    rfl
  have before := hearing_same t sender.val hears
  have after := effect_same t sender.val m hears rfl
  have refuses := judge_presence_refused (t.tailCounts.refreshAge sender.val) sender.val roles zones privateZones owned d
  rw [heard, station_a, present_a] at refuses
  refine ⟨_, acts, station_u, frames, audio, fun others => ?others, fun mine sent => ?own, fun x exists64 changes rest calls => ?zones,
    fun refused => by rw [tables_u]; exact refuses refused, fun range heeded => ?applied⟩
  case others =>
    rw [messageEffect_foreign t sender.val m hears rfl others]
    exact ⟨by simp [State.tailCounts], by simp [State.tailCounts], by simpa using tailCounts_pointer t⟩
  case own =>
    obtain ⟨counter, due, pointer⟩ := messageEffect_ownPresence t sender.val roles zones privateZones owned d hears mine sent
    refine ⟨counter, due, fun i st k c l f stream => ⟨fun j call => ?_, fun j own low => ?_, fun j own last => ?_⟩,
      fun j st dl ul rf mic z call => ⟨fun first => ?_, fun second => ?_⟩⟩
    all_goals rw [pointer]
    · rw [stream, call]
      rfl
    · rw [stream, own]
      exact if_pos low
    · rw [stream, own]
      exact if_neg (by omega)
    · rw [call]
      have zero : j = 0 := BitVec.eq_of_toNat_eq first
      cases t.member.pointer <;> exact if_pos zero
    · rw [call]
      have one : ¬j = 0 := fun zero => by rw [zero] at second; cases second
      cases t.member.pointer <;> exact if_neg one
  case zones =>
    have heeded : inRange ∧ (present ∨ t.member.station = .listening) := by
      refine Classical.byContradiction fun refused => ?_
      refine changes ?_
      rw [tables_u, refuses (by
        by_cases range : inRange
        · exact .inr (not_or.mp (fun heard => refused ⟨range, heard⟩))
        · exact .inl range)]
      rfl
    have judges := judge_presence_applied (t.tailCounts.refreshAge sender.val) sender.val roles zones privateZones owned d heeded.1
    rw [tables_u, judges] at changes rest calls
    rw [judges] at after
    refine zonesNoticed_between (judgePresence_zones (t.tailCounts.refreshAge sender.val) sender.val roles zones privateZones owned
      d x exists64 ?_ ?_ ?_ ?_) before.1 after
    · rw [heard, station_a, present_a]
      exact heeded.2
    · rw [heard]
      exact changes
    · rw [heard]
      exact rest
    · rw [heard]
      exact calls
  case applied =>
    have judges := judge_presence_applied (t.tailCounts.refreshAge sender.val) sender.val roles zones privateZones owned d range
    obtain ⟨directory, slots, calls, -, declared⟩ := judgePresence_tables (t.tailCounts.refreshAge sender.val) sender.val roles zones
      privateZones owned d (by rw [heard, station_a, present_a]; exact heeded)
    have roster := fun m => (applyDescriptor_roster
      ((aged t.tables sender.val).onStation sender.val (fun e => e.declare roles zones privateZones)) sender.val d).2 m
    obtain ⟨own, others⟩ := declare_station t.tables sender.val roles zones privateZones inside
    rw [← judges, ← tables_u, heard] at directory slots calls
    rw [← judges, ← tables_u, heard] at declared
    have entry : ∀ x, (t.messageEffect sender.val m).tables.entry x = ((aged t.tables sender.val).onStation sender.val
        (fun e => e.declare roles zones privateZones) |>.applyDescriptor sender.val d).entry x := fun x => by
      rw [LineTables.entry, directory]
      rfl
    have stations : ∀ n, SameDeclared (LineTables.station _ n) ((t.messageEffect sender.val m).tables.station n) := fun n =>
      SameDeclared.tr (roster n) (declared n)
    have size_directory : ∀ i : Byte, i.toNat ≤ 3 → sender.val * 4 + i.toNat < t.tables.directory.length := fun i low => by
      rw [sizes.2.1]
      have := sender.isLt
      omega
    refine ⟨?_, ?_, ?_, ?_, ?_, fun n other => ?_, fun i k c l f stream => ?_, fun i k c l f kind stream named possible => ?_,
      fun i k c l f kind stream named possible => ?_, fun i k c l f kind st stream live named ignored => ?_,
      fun j st dl ul rf mic z call live => ?_, fun j dl ul rf mic z call => ?_⟩
    · rw [(stations sender.val).1, own]
      rfl
    · rw [(stations sender.val).2.1, own]
      rfl
    · rw [(stations sender.val).2.2.1, own]
      rfl
    · rw [(stations sender.val).2.2.2.1, own]
      rfl
    · rw [(stations sender.val).2.2.2.2, own]
      rfl
    · rw [(stations n).1, (stations n).2.2.2.2, others n other]
      exact ⟨rfl, rfl⟩
    · subst stream
      have low : i.toNat ≤ 3 := streamIndex_inRange range
      obtain ⟨applied, -⟩ := applyDescriptor_stream ((aged t.tables sender.val).onStation sender.val
        (fun e => e.declare roles zones privateZones)) sender.val i 0 k c l f _ rfl
      rw [entry, LineTables.entry, (applied (.inl rfl)).1]
      exact (applyStream_facts _ _ _ _ _).2.2.2.1 (size_directory i low) rfl
    · subst stream
      have low : i.toNat ≤ 3 := streamIndex_inRange range
      obtain ⟨applied, -⟩ := applyDescriptor_stream ((aged t.tables sender.val).onStation sender.val
        (fun e => e.declare roles zones privateZones)) sender.val i 1 k c l f kind (kindOf_getD _ _ named)
      rw [entry, LineTables.entry, (applied (.inr possible)).1]
      exact (applyStream_facts _ _ _ _ _).2.2.2.2.1 (size_directory i low) rfl
    · subst stream
      have low : i.toNat ≤ 3 := streamIndex_inRange range
      obtain ⟨applied, -⟩ := applyDescriptor_stream ((aged t.tables sender.val).onStation sender.val
        (fun e => e.declare roles zones privateZones)) sender.val i 2 k c l f kind (kindOf_getD _ _ named)
      obtain ⟨carried, owns⟩ := (applyStream_facts ((aged t.tables sender.val).onStation sender.val
        (fun e => e.declare roles zones privateZones)) (sender.val * 4 + i.toNat) 2
        { kind := kind, channels := c.toNat, cls := l.toNat } f.toNat).2.2.2.2.2 (size_directory i low) rfl
      refine ⟨?_, fun j channel => ?_⟩
      · rw [entry, LineTables.entry, (applied (.inr possible)).1]
        exact carried
      · have last := carriedRun_fits possible
        rw [slots]
        refine (congrArg (fun l => List.getD l (f.toNat + j) Slot.free) (applied (.inr possible)).2).trans (owns j channel ?_)
        show _ < t.tables.slots.length
        rw [sizes.2.2.1]
        omega
    · subst stream
      obtain ⟨-, kept⟩ := applyDescriptor_stream ((aged t.tables sender.val).onStation sender.val
        (fun e => e.declare roles zones privateZones)) sender.val i st k c l f kind (kindOf_getD _ _ named)
      obtain ⟨same_directory, same_slots⟩ := kept live ignored
      exact ⟨directory.trans same_directory, slots.trans same_slots⟩
    · subst call
      obtain ⟨same_directory, same_slots, record, other⟩ := applyDescriptor_call ((aged t.tables sender.val).onStation sender.val
        (fun e => e.declare roles zones privateZones)) sender.val j st dl ul rf mic z (callIndex_inRange range) sizes.2.2.2
      have records := call_ofPresence same_directory calls
      refine ⟨(records j.toNat).trans (record.trans (if_neg live)), directory.trans same_directory, slots.trans same_slots,
        fun active held => (records (1 - j.toNat)).trans (other active held)⟩
    · subst call
      obtain ⟨same_directory, -, record, -⟩ := applyDescriptor_call ((aged t.tables sender.val).onStation sender.val
        (fun e => e.declare roles zones privateZones)) sender.val j 0 dl ul rf mic z (callIndex_inRange range) sizes.2.2.2
      exact (call_ofPresence same_directory calls j.toNat).trans (record.trans (if_pos rfl))

end Sys2Proof.Machine
end

section
/-! PROOFS. A LEAVE takes effect (R26, R27, R43). -/

namespace Sys2Proof.Machine

/-- A LEAVE from an absent sender changes nothing; a present one is removed (R43). -/
theorem judge_leave (s : State) (n : Nat) :
    ((s.tables.station n).present = false → s.judge n .leave = (s, .notPresent))
      ∧ ((s.tables.station n).present = true → s.judge n .leave = (s.removeStation n .left, .taken)) := by
  have judges : s.judge n .leave = s.judgeLeave n := rfl
  rw [judges, State.judgeLeave]
  refine ⟨fun absent => if_neg (by rw [absent]; decide), fun there => if_pos there⟩

/-- The call records after the removal of a station (R26). -/
theorem removed_call (T : LineTables) (n : Nat) (sized : n < T.roster.length) (j : Nat) :
    ((T.call j).owner = some n → ((T.removeStation n).strip T).call j = .none)
      ∧ ((T.call j).owner ≠ some n → (T.call j).mic = some n →
          (((T.removeStation n).strip T).call j).state = (T.call j).state ∧ (((T.removeStation n).strip T).call j).uplink = none
          ∧ (((T.removeStation n).strip T).call j).reference = none ∧ (((T.removeStation n).strip T).call j).mic = none) := by
  obtain ⟨-, -, -, -, -, calls⟩ := removed_facts T n sized
  rw [strip_call, calls]
  refine ⟨fun owned => ?_, fun foreign mic => ?_⟩
  · rw [callAfterRemoval, if_pos owned]
    rfl
  · rw [callAfterRemoval, if_neg foreign, if_pos mic]
    exact ⟨rfl, rfl, rfl, rfl⟩

/-- What a LEAVE of a present sender leaves of the tables, over the tables with the sender's age at 0 (R25, R26). -/
theorem removed_aged (t : State) (n : Nat) (sized : n < t.tables.roster.length) :
    let after := ((aged t.tables n).removeStation n).strip (aged t.tables n)
    after.station n = .absent ∧ (∀ m, m ≠ n → after.station m = t.tables.station m)
      ∧ (∀ i, i < 4 → after.entry (n * 4 + i) = .none) ∧ (∀ x, x / 4 ≠ n → after.entry x = t.tables.entry x)
      ∧ (∀ i x, t.tables.slots.getD i .free = .owned x → x / 4 = n → after.slots.getD i .free = .held 64)
      ∧ (∀ i, (∀ x, t.tables.slots.getD i .free = .owned x → x / 4 ≠ n) →
          after.slots.getD i .free = t.tables.slots.getD i .free) := by
  intro after
  have agedSized : n < (aged t.tables n).roster.length := by simpa [LineTables.onStation] using sized
  obtain ⟨-, gone, others, entries, slots, -⟩ := removed_facts (aged t.tables n) n agedSized
  refine ⟨gone, fun m other => (others m other).trans (onStation_ne _ _ _ _ other), fun i low => ?_, fun x foreign => ?_,
    fun i x owned own => ?_, fun i foreign => ?_⟩
  · exact (entries _).trans (if_pos (by omega))
  · exact (entries x).trans (if_neg foreign)
  · refine (slots i).trans ?_
    show (match t.tables.slots.getD i .free with | .owned x => _ | e => e) = _
    rw [owned]
    exact if_pos own
  · refine (slots i).trans ?_
    show (match t.tables.slots.getD i .free with | .owned x => _ | e => e) = _
    cases slot : t.tables.slots.getD i .free with
    | owned x => exact if_neg (foreign x slot)
    | free => rfl
    | held => rfl

/-- Settles O22: the removal of a present sender, and the moves of the station whose number it is. -/
theorem leaveRemovesTheSender : Obligations.LeaveRemovesTheSender := by
  intro sender s released t hears sizes
  have acts := exec_message sender .leave (.leave sender) s rfl released
  have settled : s.settle = t := rfl
  rw [settled] at acts
  clear_value t
  obtain ⟨v, effect, ⟨tables, station, record, -, audio⟩, -⟩ := messageEffect_concluded t sender.val .leave hears
  have inside : sender.val < t.tables.roster.length := by rw [sizes.1]; exact sender.isLt
  have heard : (t.tailCounts.refreshAge sender.val).tables = aged t.tables sender.val := heardTables t sender.val hears
  have present := (aged_station t.tables sender.val sender.val).1
  obtain ⟨absent, leaves⟩ := judge_leave (t.tailCounts.refreshAge sender.val) sender.val
  rw [heard, present] at absent leaves
  have removed := removeStation_tables (t.tailCounts.refreshAge sender.val) sender.val .left
  rw [heard] at removed
  have number : v.number = t.number := by rw [State.number, State.number, record]
  obtain ⟨own, others⟩ := moveByMessage_leave v sender.val ((t.tailCounts.refreshAge sender.val).judge sender.val .leave).2
  refine ⟨_, acts, ?_, fun mine => ?_, fun notMine foreign => ⟨?_, fun gone => ?_, fun there => ?_⟩, fun notMine self there => ?_⟩
  · rw [effect]
    simpa [State.sameAudio] using audio
  · rw [effect, mine, own]
    refine ⟨by simp, by simp, ?_⟩
    rw [(State.closeFrame_frame _).2.2.1, goTo_tables, tables]
    obtain there | there := Bool.eq_false_or_eq_true (t.tables.station sender.val).present
    · rw [leaves there, removed]
      rfl
    · rw [absent there, heard]
      rfl
  · rw [effect, notMine, others, if_neg (fun both => foreign (both.1.trans number))]
    simpa using station
  · rw [effect, notMine, others, if_neg (fun both => foreign (both.1.trans number)), (State.closeFrame_frame v).2.2.1, tables,
      absent gone, heard]
  · have after : (t.messageEffect sender.val .leave).tables
        = ((aged t.tables sender.val).removeStation sender.val).strip (aged t.tables sender.val) := by
      rw [effect, notMine, others, if_neg (fun both => foreign (both.1.trans number)), (State.closeFrame_frame v).2.2.1, tables,
        leaves there, removed]
    have agedSized : sender.val < (aged t.tables sender.val).roster.length := by simpa [LineTables.onStation] using inside
    obtain ⟨gone, rest, entries, foreignEntries, ownSlots, foreignSlots⟩ := removed_aged t sender.val inside
    rw [after]
    exact ⟨gone, rest, entries, foreignEntries, ownSlots, foreignSlots, fun j => (removed_call _ _ agedSized j).1,
      fun j => (removed_call _ _ agedSized j).2⟩
  · obtain ⟨ofMember, ofLeaving⟩ := ownRemoved_facts v
    rw [effect, notMine, others, leaves there, if_pos ⟨self.trans number.symm, rfl⟩]
    refine ⟨fun member => ?_, fun leaving => ?_⟩
    · simpa using ofMember (station.trans member)
    · simpa using ofLeaving (station.trans leaving)

end Sys2Proof.Machine
end

section
/-! PROOFS. An OFFER takes effect (R48, R49, R58). -/

namespace Sys2Proof.Machine

/-! ## Stream messages at a station that hears them (R48) -/

/-- A message whose fields are out of range changes no table but for the age of its sender (R10, R25). -/
theorem messageEffect_badField (t : State) (n : Nat) (m : Message) (hears : t.hears) (stays : m.mayMove = false)
    (judges : ∀ s : State, s.judge n m = (s, .badField)) :
    (t.judge n m).2 = .badField ∧ (t.messageEffect n m).tables = aged t.tables n := by
  have heard : (t.tailCounts.refreshAge n).tables = aged t.tables n := heardTables t n hears
  rw [(t.messageEffect_stays n m hears stays).1, judges, judges, heard]
  exact ⟨rfl, rfl⟩

/-- A stream message with its fields in range: NOT_PRESENT, or the verdict over the tables with the sender's age at 0 (R48). -/
theorem messageEffect_stream (t : State) (n : Nat) (m : Message) (kind : Cause) (verdict : LineTables → LineTables × Cause)
    (hears : t.hears) (stays : m.mayMove = false) (judges : ∀ s : State, s.judge n m = s.judgeStream n kind verdict) :
    ((t.tables.station n).present = true → (t.judge n m).2 = (verdict t.tables).2
        ∧ (t.messageEffect n m).tables = (verdict (aged t.tables n)).1.strip (aged t.tables n))
      ∧ ((t.tables.station n).present = false → (t.judge n m).2 = .notPresent
        ∧ (t.messageEffect n m).tables = aged t.tables n) := by
  have heard : (t.tailCounts.refreshAge n).tables = aged t.tables n := heardTables t n hears
  have present := (aged_station t.tables n n).1
  obtain ⟨tables, -⟩ := judgeStream_tables (t.tailCounts.refreshAge n) n kind verdict
  obtain ⟨-, outcome⟩ := judgeStream_tables t n kind verdict
  rw [(t.messageEffect_stays n m hears stays).1, judges, judges, tables, outcome, heard, present]
  refine ⟨fun there => ?_, fun absent => ?_⟩
  · rw [if_pos there, if_pos there]
    exact ⟨rfl, rfl⟩
  · simp [absent]

/-! ## The bindings of the own streams (R58) -/

theorem emptyBindings_at (s : State) (i : Nat) (stands : s.tables.entry (s.ownStream i) ≠ .none) :
    s.emptyBindings.line.bindings.getD i none = s.line.bindings.getD i none := by
  simp only [State.emptyBindings, List.getD_eq_getElem?_getD, List.getElem?_map, List.getElem?_zipIdx]
  cases s.line.bindings[i]? with
  | none => rfl
  | some b => simp [stands]

/-- What changes the tables leaves the bindings to the streams that went to NONE (R58). -/
theorem changeTables_bindings (s : State) (changed : LineTables) (cause : Cause) (callCause : Nat → Cause) :
    (s.changeTables changed cause callCause).line.bindings
      = ({ s with tables := changed.strip s.tables } : State).emptyBindings.line.bindings := by
  unfold State.changeTables
  dsimp only
  generalize ({ s with tables := changed.strip s.tables } : State).emptyBindings = a
  have folded : ∀ (l : List StreamNotice) (u : State),
      (l.foldl (fun acc n => ((acc.noticeHost n).zonesAtNotice a n).lookAtUplink) u).line.bindings = u.line.bindings := by
    intro l
    induction l with
    | nil => exact fun _ => rfl
    | cons n rest ih =>
      intro u
      rw [List.foldl_cons, ih]
      simp
  split
  · exact folded _ a
  · simp [folded]

/-- A stream message takes no binding of an own stream that stands after it (R58). -/
theorem judgeStream_bindings (s : State) (n : Nat) (kind : Cause) (verdict : LineTables → LineTables × Cause) (i : Nat)
    (stands : (s.judgeStream n kind verdict).1.tables.entry (s.number * 4 + i) ≠ .none) :
    (s.judgeStream n kind verdict).1.line.bindings.getD i none = s.line.bindings.getD i none := by
  unfold State.judgeStream at *
  split at stands
  · rw [if_pos ‹_›]
    rw [State.changeTables_tables] at stands
    rw [changeTables_bindings]
    exact emptyBindings_at _ i stands
  · rw [if_neg ‹_›]

theorem concludeOwn_unqueued (s : State) (before : LineTables) (o : Nat) (m : Message) (verdict : Cause)
    (gone : s.line.queue.find? (fun e => e.order == o) = none) : s.concludeOwn before (.queued o m) verdict = s := by
  simp only [State.concludeOwn, gone]

/-- Only the companion of the own message takes a binding (R58). -/
theorem concludeOwn_bindings (s : State) (before : LineTables) (o : Nat) (m : Message) (verdict : Cause) (e : QueueEntry)
    (queued : s.line.queue.find? (fun e => e.order == o) = some e) :
    (s.concludeOwn before (.queued o m) verdict).line.bindings = (s.placeBinding before e).line.bindings := by
  simp [State.concludeOwn, queued, State.removeEntry]

theorem placeBinding_placed (s : State) (before : LineTables) (e : QueueEntry) (i k c l : Byte) (b : Binding)
    (offers : e.message = .offer i k c l) (companion : e.companion = some b)
    (rises : (before.entry (s.ownStream i.toNat)).code = 0 ∧ (s.tables.entry (s.ownStream i.toNat)).code = 1) :
    (s.placeBinding before e).line.bindings = s.line.bindings.set i.toNat (some b) := by
  simp only [State.placeBinding, offers, companion]
  rw [if_pos rises]

theorem placeBinding_kept (s : State) (before : LineTables) (e : QueueEntry)
    (idle : ∀ i k c l b, e.message = .offer i k c l → e.companion = some b →
      ¬((before.entry (s.ownStream i.toNat)).code = 0 ∧ (s.tables.entry (s.ownStream i.toNat)).code = 1)) :
    s.placeBinding before e = s := by
  unfold State.placeBinding
  split
  · exact if_neg (idle _ _ _ _ _ ‹_› ‹_›)
  · rfl

/-! ## The verdict of an OFFER (R49) -/

section
variable (index kind channels cls : Byte)

/-- The parameters that an OFFER names. -/
def offeredBy : StreamParameters :=
  { kind := (kindOf kind.toNat).getD .programme, channels := channels.toNat, cls := cls.toNat }

theorem judge_offer (n : Nat) (inRange : (Message.offer index kind channels cls).inRange = true) (s : State) :
    s.judge n (.offer index kind channels cls)
      = s.judgeStream n .offer (fun t => t.offer (n * 4 + index.toNat) (offeredBy kind channels cls)) :=
  if_neg (by rw [inRange]; decide)

theorem judge_offer_badField (n : Nat) (out : (Message.offer index kind channels cls).inRange = false) (s : State) :
    s.judge n (.offer index kind channels cls) = (s, .badField) :=
  if_pos out

theorem offerIndex_inRange (inRange : (Message.offer index kind channels cls).inRange = true) : index.toNat ≤ 3 := by
  simp only [Message.inRange, Bool.and_eq_true, decide_eq_true_eq] at inRange
  exact inRange.1.1.1

end

/-- R49, by what the directory holds of the stream. -/
theorem offer_verdict (T : LineTables) (x : Nat) (p : StreamParameters) :
    let voice := p.kind = .voiceDownlink ∨ p.kind = .voiceUplink
    (voice → p.cls ≠ 0 ∨ p.channels ≠ 1 → T.offer x p = (T, .badClass))
      ∧ ((voice → p.cls = 0 ∧ p.channels = 1) → T.entry x = .none → T.offer x p = (T.setEntry x (.offered p), .taken))
      ∧ ((voice → p.cls = 0 ∧ p.channels = 1) → ∀ q f, T.entry x = .offered q ∨ T.entry x = .carried q f →
          T.offer x p = (T, if q = p then .taken else .inUse)) := by
  intro voice
  have allowed : (voice → p.cls = 0 ∧ p.channels = 1) → ¬(voice ∧ (p.cls ≠ 0 ∨ p.channels ≠ 1)) := by
    rintro good ⟨spoken, bad⟩
    obtain ⟨cls, channels⟩ := good spoken
    exact bad.elim (· cls) (· channels)
  unfold LineTables.offer
  refine ⟨fun spoken bad => if_pos ⟨spoken, bad⟩, fun good none => (if_neg (allowed good)).trans ?_,
    fun good q f known => (if_neg (allowed good)).trans ?_⟩
  · rw [none]
    rfl
  · obtain offered | carried := known
    · rw [offered]
      exact (apply_ite (Prod.mk T) (q = p) _ _).symm
    · rw [carried]
      exact (apply_ite (Prod.mk T) (q = p) _ _).symm

/-- An OFFER that is not TAKEN, and one of a stream that stands, changes nothing (R49). -/
theorem offer_unchanged (T : LineTables) (x : Nat) (p : StreamParameters)
    (idle : (T.offer x p).2 ≠ .taken ∨ T.entry x ≠ .none) : (T.offer x p).1 = T := by
  unfold LineTables.offer at *
  split at idle
  · rw [if_pos ‹_›]
  · rw [if_neg ‹_›]
    cases entry : T.entry x with
    | none => simp [entry, StreamEntry.parameters] at idle
    | offered q => simp only [StreamEntry.parameters]; split <;> rfl
    | carried q f => simp only [StreamEntry.parameters]; split <;> rfl

/-! ## The binding of the own OFFER (R58) -/

section
variable (t : State) (n : Nat) (index kind channels cls : Byte)

/-- The own OFFER in the queue that this tail concludes, with its companion. -/
def State.concludesOffer (b : Binding) : Prop :=
  ∃ o e, t.line.sent = some (.queued o (.offer index kind channels cls))
    ∧ t.line.queue.find? (fun e => e.order == o) = some e ∧ e.message = .offer index kind channels cls ∧ e.companion = some b

variable (hears : t.hears)
include hears

/-- The bindings at the verdict of an OFFER, and the entries of the own streams then. -/
theorem judged_offer (i : Nat) :
    let judged := ((t.tailCounts.refreshAge n).judge n (.offer index kind channels cls)).1
    judged.number = t.number ∧ judged.tables = (t.messageEffect n (.offer index kind channels cls)).tables
      ∧ (judged.tables.entry (t.number * 4 + i) ≠ .none → judged.line.bindings.getD i none = t.line.bindings.getD i none) := by
  intro judged
  have number : (t.tailCounts.refreshAge n).number = t.number := by simp [State.number, State.tailCounts]
  have bindings : (t.tailCounts.refreshAge n).line.bindings = t.line.bindings := by simp [State.tailCounts]
  refine ⟨?_, (t.messageEffect_stays n _ hears rfl).1.symm, fun stands => ?_⟩
  · rw [← number, State.number, State.number, (State.judge_frame _ _ _).2.2.2.2.2.2.2.2.1]
  · obtain inRange | out := Bool.eq_false_or_eq_true (Message.offer index kind channels cls).inRange
    · have judges : judged = ((t.tailCounts.refreshAge n).judgeStream n .offer
          (fun t => t.offer (n * 4 + index.toNat) (offeredBy kind channels cls))).1 :=
        congrArg Prod.fst (judge_offer index kind channels cls n inRange _)
      rw [judges, ← number] at stands
      rw [judges, ← bindings]
      exact judgeStream_bindings _ n .offer _ i stands
    · have judges : judged = t.tailCounts.refreshAge n :=
        congrArg Prod.fst (judge_offer_badField index kind channels cls n out _)
      rw [judges, bindings]

/-- A stream that the own OFFER brings from NONE takes the companion (R58). -/
theorem messageEffect_companion {p : StreamParameters} (inRange : (Message.offer index kind channels cls).inRange = true) (law : t.orderLaw) (sized : t.line.bindings.length = 4) (mine : n = t.number) (b : Binding)
    (concludes : t.concludesOffer index kind channels cls b) (none : t.tables.entry (n * 4 + index.toNat) = .none)
    (offered : (t.messageEffect n (.offer index kind channels cls)).tables.entry (n * 4 + index.toNat) = .offered p) :
    (t.messageEffect n (.offer index kind channels cls)).line.bindings.getD index.toNat Option.none = some b := by
  obtain ⟨o, e, sent, queued, offers, companion⟩ := concludes
  have isOwn : t.isOwn n (.offer index kind channels cls) = true := by simp [State.isOwn, mine, sent, Sent.message]
  obtain ⟨v, effect, -, own, -⟩ := messageEffect_concluded t n (.offer index kind channels cls) hears
  obtain ⟨number, tables, -⟩ := judged_offer t n index kind channels cls hears 0
  obtain ⟨-, -, found, -⟩ := judge_queue t n (.offer index kind channels cls) law rfl
  have found := found o e queued
  have concluded := own isOwn _ sent
  have length : BindingsSized ((t.tailCounts.refreshAge n).judge n (.offer index kind channels cls)).1.line.bindings :=
    State.judge_bindingsSized _ _ _ (by rw [show (t.tailCounts.refreshAge n).line.bindings = t.line.bindings by simp [State.tailCounts]]; exact sized)
  have line : (t.messageEffect n (.offer index kind channels cls)).line.bindings = v.line.bindings := by
    rw [effect, State.moveByMessage_stays _ _ _ _ _ rfl]
    simp
  rw [← tables] at offered
  have low := offerIndex_inRange index kind channels cls inRange
  rw [line, concluded]
  generalize ((t.tailCounts.refreshAge n).judge n (.offer index kind channels cls)) = judged at *
  have counted : t.tailCounts.tables = t.tables := State.tailCounts_tables t hears.2.2.1
  rw [concludeOwn_bindings _ _ _ _ _ e found, placeBinding_placed judged.1 _ e index kind channels cls b offers companion]
  · exact getD_set_eq _ _ _ _ (by rw [show judged.1.line.bindings.length = 4 from length]; omega)
  · rw [State.ownStream, number, ← mine, counted, none, offered]
    exact ⟨rfl, rfl⟩

/-- Every other binding stands while its stream stands (R58). -/
theorem messageEffect_keepsBinding (law : t.orderLaw) (i : Nat)
    (stands : (t.messageEffect n (.offer index kind channels cls)).tables.entry (t.number * 4 + i) ≠ .none)
    (elsewhere : i = index.toNat → ∀ b, ¬(n = t.number ∧ t.concludesOffer index kind channels cls b
      ∧ t.tables.entry (n * 4 + index.toNat) = .none
      ∧ (t.messageEffect n (.offer index kind channels cls)).tables.entry (n * 4 + index.toNat) ≠ .none))
    (drives : ∀ o q, t.line.sent = some (.queued o q) → q = .offer index kind channels cls →
      ∀ e, t.line.queue.find? (fun e => e.order == o) = some e → e.message = q) :
    (t.messageEffect n (.offer index kind channels cls)).line.bindings.getD i none = t.line.bindings.getD i none := by
  obtain ⟨v, effect, -, own, others⟩ := messageEffect_concluded t n (.offer index kind channels cls) hears
  obtain ⟨number, tables, kept⟩ := judged_offer t n index kind channels cls hears i
  obtain ⟨-, -, -, found⟩ := judge_queue t n (.offer index kind channels cls) law rfl
  have counted : t.tailCounts.tables = t.tables := State.tailCounts_tables t hears.2.2.1
  have line : (t.messageEffect n (.offer index kind channels cls)).line.bindings = v.line.bindings := by
    rw [effect, State.moveByMessage_stays _ _ _ _ _ rfl]
    simp
  rw [← tables] at stands elsewhere
  rw [line]
  generalize ((t.tailCounts.refreshAge n).judge n (.offer index kind channels cls)) = judged at *
  have kept := kept stands
  cases isOwn : t.isOwn n (.offer index kind channels cls) with
  | false => rw [others isOwn, kept]
  | true =>
    simp only [State.isOwn, Bool.and_eq_true, beq_iff_eq] at isOwn
    obtain ⟨mine, drove⟩ := isOwn
    cases sent : t.line.sent with
    | none => rw [sent] at drove; cases drove
    | some message =>
      have concluded := own (by simpa [State.isOwn, mine, sent] using drove) message sent
      rw [concluded]
      rw [sent] at drove
      have is_offer : message.message = .offer index kind channels cls := by simpa using drove
      cases message with
      | presence q =>
        rw [show q = .offer index kind channels cls from is_offer]
        exact kept
      | queued o q =>
        have is_offer : q = .offer index kind channels cls := is_offer
        cases queued : judged.1.line.queue.find? (fun e => e.order == o) with
        | none => rw [concludeOwn_unqueued _ _ _ _ _ queued, kept]
        | some e =>
          rw [concludeOwn_bindings _ _ _ _ _ e queued, ← kept]
          by_cases places : ∃ i k c l b, e.message = .offer i k c l ∧ e.companion = some b
              ∧ (t.tailCounts.tables.entry (judged.1.ownStream i.toNat)).code = 0
              ∧ (judged.1.tables.entry (judged.1.ownStream i.toNat)).code = 1
          · obtain ⟨place, k, c, l, b, offers, companion, low, high⟩ := places
            have there := found o e queued (by rw [companion]; exact Option.some_ne_none b)
            have same := (drives o q sent is_offer e there).trans is_offer
            obtain ⟨rfl, -, -, -⟩ := Message.offer.inj (offers.symm.trans same)
            rw [placeBinding_placed _ _ e place k c l b offers companion ⟨low, high⟩]
            refine getD_set_ne _ _ _ _ _ (fun here => elsewhere here b ⟨mine, ⟨o, e, ?_, there, same, companion⟩, ?_, fun none => ?_⟩)
            · rw [sent, is_offer]
            · rw [State.ownStream, number, ← mine, counted] at low
              cases entry : t.tables.entry (n * 4 + place.toNat) <;> rw [entry] at low <;> first | rfl | cases low
            · rw [State.ownStream, number, ← mine, none] at high
              cases high
          · rw [placeBinding_kept]
            intro place k c l b offers companion rises
            exact places ⟨place, k, c, l, b, offers, companion, rises.1, rises.2⟩

end

/-- R49 does not see the age of the sender (R25). -/
theorem offer_aged (T : LineTables) (n x : Nat) (p : StreamParameters) :
    ((aged T n).offer x p).2 = (T.offer x p).2 := by
  unfold LineTables.offer
  rw [show (aged T n).entry x = T.entry x from rfl]
  split
  · rfl
  · cases (T.entry x).parameters with
    | none => rfl
    | some q => dsimp only; split <;> rfl

section
variable (t : State) (n : Nat) (index kind channels cls : Byte)

/-- The tables after an OFFER are those with the sender's age at 0, and the stream where it came from NONE (R49). -/
theorem messageEffect_offer (hears : t.hears) (station : n < 16) (directory : t.tables.directory.length = 64) :
    let x := n * 4 + index.toNat
    let m := Message.offer index kind channels cls
    let u := t.messageEffect n m
    (u.tables = aged t.tables n ∨ ∃ p, u.tables = ((aged t.tables n).offer x p).1)
      ∧ ((t.judge n m).2 ≠ .taken ∨ t.tables.entry x ≠ .none → u.tables = aged t.tables n)
      ∧ ((t.judge n m).2 = .taken → t.tables.entry x = .none → m.inRange = true ∧ (t.tables.station n).present = true
          ∧ u.tables.entry x = .offered (offeredBy kind channels cls)) := by
  intro x m u
  obtain inRange | out := Bool.eq_false_or_eq_true m.inRange
  · obtain ⟨judged, refused⟩ := messageEffect_stream t n m .offer _ hears rfl (judge_offer index kind channels cls n inRange)
    obtain there | absent := Bool.eq_false_or_eq_true (t.tables.station n).present
    · obtain ⟨verdict, tables⟩ := judged there
      have tables : u.tables = ((aged t.tables n).offer x (offeredBy kind channels cls)).1 :=
        tables.trans (offer_state (aged t.tables n) x (offeredBy kind channels cls)).2.2.2.2
      rw [verdict]
      refine ⟨.inr ⟨_, tables⟩, fun idle => tables.trans (offer_unchanged _ _ _ ?_), fun taken none => ⟨inRange, there, ?_⟩⟩
      · rwa [offer_aged]
      · obtain ⟨bad, rises, -⟩ := offer_verdict (aged t.tables n) x (offeredBy kind channels cls)
        have allowed : ((offeredBy kind channels cls).kind = .voiceDownlink ∨ (offeredBy kind channels cls).kind = .voiceUplink) →
            (offeredBy kind channels cls).cls = 0 ∧ (offeredBy kind channels cls).channels = 1 := by
          intro voice
          refine Classical.byContradiction fun wrong => ?_
          have refused := bad voice (Classical.not_and_iff_not_or_not.mp wrong)
          have taken : ((aged t.tables n).offer x (offeredBy kind channels cls)).2 = .taken := (offer_aged _ _ _ _).trans taken
          rw [refused] at taken
          cases taken
        rw [tables, rises allowed none]
        have low := offerIndex_inRange index kind channels cls inRange
        refine setEntry_eq _ _ _ ?_
        show x < t.tables.directory.length
        rw [directory]
        omega
    · obtain ⟨verdict, tables⟩ := refused absent
      exact ⟨.inl tables, fun _ => tables, fun taken => by rw [verdict] at taken; cases taken⟩
  · obtain ⟨verdict, tables⟩ := messageEffect_badField t n m hears rfl (judge_offer_badField index kind channels cls n out)
    exact ⟨.inl tables, fun _ => tables, fun taken => by rw [verdict] at taken; cases taken⟩

end

/-- Settles O23: out of range, from an absent sender, and judged by what the directory holds. -/
theorem offerIsJudged : Obligations.OfferIsJudged := by
  intro sender index kind channels cls s released t x verdict hears sizes
  have acts := exec_message sender (.offer index kind channels cls) (.offer sender index kind channels cls) s rfl released
  have settled : s.settle = t := rfl
  rw [settled] at acts
  clear_value t
  obtain ⟨-, -, station, -, audio⟩ := t.messageEffect_stays sender.val (.offer index kind channels cls) hears rfl
  have inside : sender.val < t.tables.roster.length := by rw [sizes.1]; exact sender.isLt
  obtain ⟨shape, idle, rises⟩ := messageEffect_offer t sender.val index kind channels cls hears sender.isLt sizes.2.1
  have kept : (t.messageEffect sender.val (.offer index kind channels cls)).tables.slots = t.tables.slots
      ∧ (t.messageEffect sender.val (.offer index kind channels cls)).tables.calls = t.tables.calls
      ∧ (t.messageEffect sender.val (.offer index kind channels cls)).tables.roster = (aged t.tables sender.val).roster
      ∧ ∀ y, y ≠ x → (t.messageEffect sender.val (.offer index kind channels cls)).tables.entry y = t.tables.entry y := by
    obtain same | ⟨p, offered⟩ := shape
    · rw [same]
      exact ⟨rfl, rfl, rfl, fun _ _ => rfl⟩
    · obtain ⟨slots, calls, roster, others, -⟩ := offer_state (aged t.tables sender.val) x p
      rw [offered]
      exact ⟨slots, calls, roster, others⟩
  obtain ⟨slots, calls, roster, others⟩ := kept
  have stations : ∀ n, (t.messageEffect sender.val (.offer index kind channels cls)).tables.station n
      = (aged t.tables sender.val).station n := fun n => by rw [LineTables.station, LineTables.station, roster]
  have unchanged : verdict ≠ .taken ∨ t.tables.entry x ≠ .none →
      (t.messageEffect sender.val (.offer index kind channels cls)).tables.entry x = t.tables.entry x := fun why => by
    rw [idle why]
    rfl
  refine ⟨_, acts, station, audio, slots, calls, fun n other => (stations n).trans (onStation_ne _ _ _ _ other),
    (stations _).trans (onStation_eq _ _ _ inside), others, fun taken none => ?zones, fun sized law => ?bindings, fun out => ?out,
    fun inRange absent => ?absent, fun inRange there k named => ?judged⟩
  case zones =>
    obtain ⟨inRange, there, offered⟩ := rises taken none
    have low := offerIndex_inRange index kind channels cls inRange
    refine streamMessage_zones t sender.val (.offer index kind channels cls) .offer _ x hears rfl ?_
      (judge_offer index kind channels cls sender.val inRange) ?_ ?_ (fun T y other => (offer_state T x _).2.2.2.1 y other)
      (fun T => ?_) calls
    · have := sender.isLt
      omega
    · exact (aged_station t.tables sender.val sender.val).1.trans there
    · have tables := ((messageEffect_stream t sender.val _ .offer _ hears rfl
        (judge_offer index kind channels cls sender.val inRange)).1 there).2
      rw [tables, strip_entry] at offered
      rw [none, offered]
      exact Nat.zero_ne_one
    · unfold LineTables.offer
      (repeat' split) <;> rfl
  case bindings =>
    intro placed
    refine ⟨fun b ⟨mine, taken, empty, concludes⟩ => ?_, fun i own stands elsewhere drives => ?_⟩
    · obtain ⟨inRange, -, offered⟩ := rises taken empty
      exact messageEffect_companion t sender.val index kind channels cls hears inRange law sized mine b concludes empty offered
    · refine messageEffect_keepsBinding t sender.val index kind channels cls hears law i stands (fun here b changed => ?_) drives
      obtain ⟨mine, concludes, empty, changed⟩ := changed
      refine elsewhere here b ⟨mine, ?_, empty, concludes⟩
      refine Classical.byContradiction fun refused => ?_
      exact changed ((unchanged (.inl refused)).trans empty)
  case out =>
    obtain ⟨verdict, tables⟩ := messageEffect_badField t sender.val _ hears rfl
      (judge_offer_badField index kind channels cls sender.val out)
    exact ⟨verdict, by rw [tables]; rfl⟩
  case absent =>
    obtain ⟨verdict, tables⟩ := (messageEffect_stream t sender.val _ .offer _ hears rfl
      (judge_offer index kind channels cls sender.val inRange)).2 absent
    exact ⟨verdict, by rw [tables]; rfl⟩
  case judged =>
    intro p voice
    have named : offeredBy kind channels cls = p := by
      rw [offeredBy, kindOf_getD _ _ named]
    have judged := (messageEffect_stream t sender.val _ .offer _ hears rfl
      (judge_offer index kind channels cls sender.val inRange)).1 there
    rw [named] at judged rises
    have outcome : verdict = (t.tables.offer x p).2 := judged.1
    obtain ⟨bad, fresh, known⟩ := offer_verdict t.tables x p
    have counts : (voice → cls = 0 ∧ channels = 1) → ((p.kind = .voiceDownlink ∨ p.kind = .voiceUplink) → p.cls = 0 ∧ p.channels = 1) := by
      rintro good spoken
      obtain ⟨rfl, rfl⟩ := good spoken
      exact ⟨rfl, rfl⟩
    refine ⟨fun spoken wrong => ?_, fun good => ?_⟩
    · have refused : verdict = .badClass := by
        rw [outcome, bad spoken (wrong.imp (mt (BitVec.eq_of_toNat_eq (y := 0))) (mt (BitVec.eq_of_toNat_eq (y := 1))))]
      exact ⟨refused, unchanged (.inl (by rw [refused]; decide))⟩
    have allowed := counts good
    refine ⟨fun none => ?_, fun q f stands => ?_⟩
    · have taken : verdict = .taken := by
        rw [outcome, fresh allowed none]
      exact ⟨taken, (rises taken none).2.2⟩
    · have outcome : verdict = if q = p then .taken else .inUse := by
        rw [outcome, known allowed q f stands]
      refine ⟨unchanged (.inr ?_), fun same => by rw [outcome, if_pos same], fun differs => by rw [outcome, if_neg differs]⟩
      obtain offered | carried := stands
      · rw [offered]
        exact fun no => by cases no
      · rw [carried]
        exact fun no => by cases no

end Sys2Proof.Machine
end

section
/-! PROOFS. A CLAIM takes effect (R48, R50). -/

namespace Sys2Proof.Machine

/-! ## The verdict of a CLAIM (R50) -/

/-- R50's order, by what the directory and the slots hold. -/
theorem claim_verdict (T : LineTables) (x f : Nat) :
    (T.entry x = .none → T.claim x f = (T, .notOffered))
      ∧ (∀ q g, T.entry x = .carried q g → T.claim x f = (T, .alreadyCarried))
      ∧ ∀ p, T.entry x = .offered p →
          (39 < f + p.channels - 1 → T.claim x f = (T, .outOfRange))
          ∧ (f + p.channels - 1 ≤ 39 → T.runFree f p.channels = false → T.claim x f = (T, .slotBusy))
          ∧ (f + p.channels - 1 ≤ 39 → T.runFree f p.channels = true → 38 ≤ f + p.channels - 1 → p.cls ≠ 0 →
              T.claim x f = (T, .callSlot))
          ∧ (f + p.channels - 1 ≤ 39 → T.runFree f p.channels = true → f + p.channels - 1 < 38 ∨ p.cls = 0 →
              T.claim x f = (T.carryStream x p f, .taken)) := by
  unfold LineTables.claim
  refine ⟨fun none => by rw [none], fun q g carried => by rw [carried], fun p offered => ?_⟩
  rw [offered]
  refine ⟨fun beyond => if_pos beyond, fun within busy => (if_neg (Nat.not_lt.mpr within)).trans (if_pos busy),
    fun within free call cls => ?_, fun within free allowed => ?_⟩
  · exact (if_neg (Nat.not_lt.mpr within)).trans ((if_neg (by rw [free]; decide)).trans (if_pos ⟨call, cls⟩))
  · refine (if_neg (Nat.not_lt.mpr within)).trans ((if_neg (by rw [free]; decide)).trans (if_neg ?_))
    rintro ⟨call, cls⟩
    exact allowed.elim (Nat.not_lt.mpr call) cls

theorem claim_aged (T : LineTables) (n x f : Nat) : ((aged T n).claim x f).2 = (T.claim x f).2 := by
  unfold LineTables.claim
  rw [show (aged T n).entry x = T.entry x from rfl]
  cases T.entry x with
  | none => rfl
  | carried => rfl
  | offered p =>
    simp only [show (aged T n).runFree f p.channels = T.runFree f p.channels from rfl]
    (repeat' split) <;> rfl

theorem claim_others (T : LineTables) (x f : Nat) :
    (∀ y, y ≠ x → (T.claim x f).1.entry y = T.entry y) ∧ (T.claim x f).1.frameCount = T.frameCount := by
  unfold LineTables.claim
  (repeat' split) <;> first | exact ⟨fun _ _ => rfl, rfl⟩ | exact ⟨(carryStream_facts _ _ _ _).2.2.1, rfl⟩

section
variable (index first : Byte)

theorem judge_claim (n : Nat) (inRange : index.toNat ≤ 3 ∧ first.toNat ≤ 39) (s : State) :
    s.judge n (.claim index first) = s.judgeStream n .claim (fun t => t.claim (n * 4 + index.toNat) first.toNat) :=
  if_neg (by simp [Message.inRange, inRange])

theorem judge_claim_badField (n : Nat) (out : ¬(index.toNat ≤ 3 ∧ first.toNat ≤ 39)) (s : State) :
    s.judge n (.claim index first) = (s, .badField) :=
  if_pos (by simpa [Message.inRange] using out)

end

/-- Settles O24: out of range, from an absent sender, and R50's checks in their order. -/
theorem claimIsJudgedInOrder : Obligations.ClaimIsJudgedInOrder := by
  intro sender index first s released t x f verdict inRange present runFree hears sizes
  have acts := exec_message sender (.claim index first) (.claim sender index first) s rfl released
  have settled : s.settle = t := rfl
  rw [settled] at acts
  clear_value t
  obtain ⟨-, -, station, -, audio⟩ := t.messageEffect_stays sender.val (.claim index first) hears rfl
  have inside : sender.val < t.tables.roster.length := by rw [sizes.1]; exact sender.isLt
  have badField := fun out => messageEffect_badField t sender.val (.claim index first) hears rfl
    (judge_claim_badField index first sender.val out)
  have judged := fun inside => messageEffect_stream t sender.val (.claim index first) .claim _ hears rfl
    (judge_claim index first sender.val inside)
  obtain ⟨calls_c, roster_c, strip_c, same_c⟩ := claim_keeps (aged t.tables sender.val) x f
  have taken : inRange → present → verdict = (t.tables.claim x f).2
      ∧ (t.messageEffect sender.val (.claim index first)).tables = ((aged t.tables sender.val).claim x f).1 :=
    fun range there => ⟨((judged range).1 there).1, ((judged range).1 there).2.trans strip_c⟩
  have shape : (t.messageEffect sender.val (.claim index first)).tables = ((aged t.tables sender.val).claim x f).1
        ∨ (t.messageEffect sender.val (.claim index first)).tables = aged t.tables sender.val := by
    by_cases range : inRange
    · by_cases there : present
      · exact .inl (taken range there).2
      · exact .inr ((judged range).2 (Bool.eq_false_iff.mpr there)).2
    · exact .inr (badField range).2
  have kept : (t.messageEffect sender.val (.claim index first)).tables.calls = t.tables.calls
      ∧ (t.messageEffect sender.val (.claim index first)).tables.roster = (aged t.tables sender.val).roster := by
    obtain claimed | same := shape
    · rw [claimed]
      exact ⟨calls_c, roster_c⟩
    · rw [same]
      exact ⟨rfl, rfl⟩
  obtain ⟨calls, roster⟩ := kept
  have stations : ∀ n, (t.messageEffect sender.val (.claim index first)).tables.station n = (aged t.tables sender.val).station n :=
    fun n => by rw [LineTables.station, LineTables.station, roster]
  have refused : verdict ≠ .taken → (t.messageEffect sender.val (.claim index first)).tables = aged t.tables sender.val := by
    intro not_taken
    by_cases heeded : inRange ∧ present
    · obtain ⟨outcome, tables⟩ := taken heeded.1 heeded.2
      rw [tables, same_c (by rw [claim_aged, ← outcome]; exact not_taken)]
    · obtain claimed | same := shape
      · by_cases range : inRange
        · exact ((judged range).2 (Bool.eq_false_iff.mpr (fun there => heeded ⟨range, there⟩))).2
        · exact (badField range).2
      · exact same
  obtain ⟨unoffered, already, offers⟩ := claim_verdict t.tables x f
  refine ⟨_, acts, station, audio, calls, fun n other => (stations n).trans (onStation_ne _ _ _ _ other),
    (stations _).trans (onStation_eq _ _ _ inside), fun not_taken => by rw [refused not_taken]; exact ⟨rfl, rfl⟩,
    fun out => (badField out).1, fun range absent => ((judged range).2 (Bool.eq_false_iff.mpr absent)).1,
    fun range there none => ?_, fun range there q g carried => ?_, fun range there p offered => ?_⟩
  · rw [(taken range there).1, unoffered none]
  · rw [(taken range there).1, already q g carried]
  · obtain ⟨beyond, busy, callSlot, claims⟩ := offers p offered
    have free_iff := runFree_iff t.tables f p.channels
    rw [(taken range there).1]
    refine ⟨fun high => by rw [beyond high], fun within taken_run => ?_, fun within free call cls => ?_, fun within free allowed => ?_⟩
    · rw [busy within (Bool.eq_false_iff.mpr (mt free_iff.mp taken_run))]
    · rw [callSlot within (free_iff.mpr free) call cls]
    · obtain ⟨-, -, claims_aged⟩ := claim_verdict (aged t.tables sender.val) x f
      have carried := (claims_aged p offered).2.2.2 within (free_iff.mpr free) allowed
      have tables := (taken range there).2
      rw [carried] at tables
      have size : x < t.tables.directory.length := by
        have := sender.isLt
        rw [sizes.2.1]
        show sender.val * 4 + index.toNat < 64
        have := range.1
        omega
      obtain ⟨-, -, others, entry, slots⟩ := carryStream_facts (aged t.tables sender.val) x p f
      refine ⟨by rw [claims within (free_iff.mpr free) allowed], ?_, ?_, fun i channel low => ?_, fun i outside => ?_, ?_⟩
      · rw [tables]
        exact entry size
      · rw [tables]
        exact others
      · rw [tables, slots]
        exact if_pos ⟨Nat.le_add_right f i, Nat.add_lt_add_left channel f, by show f + i < t.tables.slots.length; rw [sizes.2.2.1]; omega⟩
      · rw [tables, slots]
        exact if_neg (by omega)
      · refine streamMessage_zones t sender.val (.claim index first) .claim _ x hears rfl (by rw [← sizes.2.1]; exact size)
          (judge_claim index first sender.val range) ((aged_station t.tables sender.val sender.val).1.trans there) ?_
          (fun T => (claim_others T x f).1) (fun T => (claim_others T x f).2) calls
        show _ ≠ (((aged t.tables sender.val).claim x f).1.entry x).code
        rw [carried, offered, entry size]
        exact Nat.ne_of_lt Nat.one_lt_two

end Sys2Proof.Machine
end

section
/-! PROOFS. RELEASE and WITHDRAW take effect (R48, R51, R52, R156). -/

namespace Sys2Proof.Machine

/-! ## RELEASE (R51) -/

theorem release_verdict (T : LineTables) (x : Nat) :
    (∀ p f, T.entry x = .carried p f → T.release x = (T.offerStream x p, .taken))
      ∧ ((∀ p f, T.entry x ≠ .carried p f) → T.release x = (T, .notCarried)) := by
  unfold LineTables.release
  refine ⟨fun p f carried => by rw [carried], fun others => ?_⟩
  cases entry : T.entry x with
  | none => rfl
  | offered => rfl
  | carried p f => exact absurd entry (others p f)

theorem release_others (T : LineTables) (x : Nat) :
    (∀ y, y ≠ x → (T.release x).1.entry y = T.entry y) ∧ (T.release x).1.frameCount = T.frameCount
      ∧ (T.release x).1.calls = T.calls ∧ (T.release x).1.strip T = (T.release x).1 := by
  cases entry : T.entry x
  case carried p f =>
    rw [(release_verdict T x).1 p f entry]
    obtain ⟨calls, -, others, here, -⟩ := offerStream_facts T x p
    refine ⟨others, rfl, calls, strip_rise T _ x others (fun _ => ?_)⟩
    by_cases inside : x < T.directory.length
    · rw [here inside]
      exact fun no => by cases no
    · have beyond : T.entry x = .none := by simp [LineTables.entry, List.getD_eq_getElem?_getD, Nat.not_lt.mp inside]
      rw [beyond] at entry
      cases entry
  all_goals
    rw [(release_verdict T x).2 (by rw [entry]; exact fun _ _ no => by cases no)]
    exact ⟨fun _ _ => rfl, rfl, rfl, strip_same T⟩

/-- Only a CARRIED stream is read from the line (R21). -/
theorem readStreams_carried (s : State) (reads : List SlotRead) (l : LineSample) (read : l ∈ s.readStreams reads) :
    ∃ p f, s.tables.entry l.stream = .carried p f := by
  unfold State.readStreams at read
  split at read
  · obtain ⟨x, -, sample⟩ := List.mem_filterMap.mp read
    cases entry : s.tables.entry x with
    | none => simp [entry] at sample
    | offered => simp [entry] at sample
    | carried p f =>
      simp only [entry] at sample
      split at sample
      · cases sample
      · cases sample
        exact ⟨p, f, entry⟩
  · cases read

section
variable (index : Byte)

theorem judge_release (n : Nat) (low : index.toNat ≤ 3) (s : State) :
    s.judge n (.release index) = s.judgeStream n .release (fun t => t.release (n * 4 + index.toNat)) :=
  if_neg (by simp [Message.inRange, low])

theorem judge_release_badField (n : Nat) (out : ¬index.toNat ≤ 3) (s : State) : s.judge n (.release index) = (s, .badField) :=
  if_pos (by simpa [Message.inRange] using out)

theorem judge_withdraw (n : Nat) (low : index.toNat ≤ 3) (s : State) :
    s.judge n (.withdraw index) = s.judgeStream n .withdraw (fun t => t.withdraw (n * 4 + index.toNat)) :=
  if_neg (by simp [Message.inRange, low])

theorem judge_withdraw_badField (n : Nat) (out : ¬index.toNat ≤ 3) (s : State) : s.judge n (.withdraw index) = (s, .badField) :=
  if_pos (by simpa [Message.inRange] using out)

end

/-- A stream message that is not judged changes no table but for the age of its sender (R10, R25, R48). -/
theorem messageEffect_unjudged (t : State) (n : Nat) (m : Message) (index : Byte) (kind : Cause)
    (verdict : LineTables → LineTables × Cause) (hears : t.hears) (stays : m.mayMove = false)
    (judges : index.toNat ≤ 3 → ∀ s : State, s.judge n m = s.judgeStream n kind verdict)
    (badField : ¬index.toNat ≤ 3 → ∀ s : State, s.judge n m = (s, .badField))
    (unheeded : 3 < index.toNat ∨ (t.tables.station n).present = false) :
    (t.judge n m).2 = (if index.toNat ≤ 3 then .notPresent else .badField)
      ∧ (t.messageEffect n m).tables = aged t.tables n := by
  by_cases low : index.toNat ≤ 3
  · rw [if_pos low]
    exact (messageEffect_stream t n m kind verdict hears stays (judges low)).2 (unheeded.resolve_left (Nat.not_lt.mpr low))
  · rw [if_neg low]
    exact messageEffect_badField t n m hears stays (badField low)

theorem streamId_inside (t : State) (sizes : t.tableSizes) (sender : Fin 16) (index : Byte) (low : index.toNat ≤ 3) :
    sender.val * 4 + index.toNat < t.tables.directory.length := by
  have := sender.isLt
  rw [sizes.2.1]
  omega

/-- Settles O25: the RELEASE of a CARRIED stream, of any other, and one that is not judged. -/
theorem releaseHoldsTheSlots : Obligations.ReleaseHoldsTheSlots := by
  intro sender index s released t x verdict hears sizes
  have acts := exec_message sender (.release index) (.release sender index) s rfl released
  have settled : s.settle = t := rfl
  rw [settled] at acts
  clear_value t
  obtain ⟨-, -, station, -, audio⟩ := t.messageEffect_stays sender.val (.release index) hears rfl
  refine ⟨fun low there => ?_, fun unheeded => ?_⟩
  · obtain ⟨outcome, tables⟩ := (messageEffect_stream t sender.val (.release index) .release _ hears rfl
      (judge_release index sender.val low)).1 there
    obtain ⟨others, -, calls, stripped⟩ := release_others (aged t.tables sender.val) x
    have tables := tables.trans stripped
    have size := streamId_inside t sizes sender index low
    refine ⟨_, acts, station, audio, by rw [tables]; exact calls, by rw [tables]; exact others, fun p f carried => ?_, fun uncarried => ?_⟩
    · have releases := (release_verdict (aged t.tables sender.val) x).1 p f carried
      rw [releases] at tables
      obtain ⟨-, -, -, entry, slots⟩ := offerStream_facts (aged t.tables sender.val) x p
      have offered : (t.messageEffect sender.val (.release index)).tables.entry x = .offered p := by
        rw [tables]
        exact entry size
      refine ⟨outcome.trans (by rw [(release_verdict t.tables x).1 p f carried]), offered, fun i owned => ?_, fun i other => ?_,
        fun reads l read from_x => ?_, ?_⟩
      · have held : (t.messageEffect sender.val (.release index)).tables.slots.getD i .free = .held 64 := by
          rw [tables, slots]
          exact if_pos owned
        exact ⟨held, drivenInto_unowned _ (fun y owned => by rw [held] at owned; cases owned)⟩
      · rw [tables, slots]
        exact if_neg other
      · obtain ⟨q, g, still⟩ := readStreams_carried _ reads l read
        rw [from_x, offered] at still
        cases still
      · refine streamMessage_zones t sender.val (.release index) .release _ x hears rfl (by rw [← sizes.2.1]; exact size)
          (judge_release index sender.val low) ((aged_station t.tables sender.val sender.val).1.trans there) ?_
          (fun T => (release_others T x).1) (fun T => (release_others T x).2.1) (by rw [tables]; rfl)
        show _ ≠ (((aged t.tables sender.val).release x).1.entry x).code
        rw [releases, carried, entry size]
        exact Nat.ne_of_gt Nat.one_lt_two
    · rw [(release_verdict (aged t.tables sender.val) x).2 uncarried] at tables
      exact ⟨outcome.trans (by rw [(release_verdict t.tables x).2 uncarried]), by rw [tables]; rfl, by rw [tables]; rfl⟩
  · obtain ⟨outcome, tables⟩ := messageEffect_unjudged t sender.val (.release index) index .release _ hears rfl
      (judge_release index sender.val) (judge_release_badField index sender.val) unheeded
    exact ⟨_, acts, outcome, tables, station, audio⟩

/-! ## WITHDRAW (R52, R156) -/

theorem withdraw_verdict (T : LineTables) (x : Nat) :
    (T.entry x = .none → T.withdraw x = (T, .notOffered))
      ∧ (T.entry x ≠ .none → T.withdraw x = (T.endStream x, .taken)) := by
  unfold LineTables.withdraw
  refine ⟨fun none => by rw [none], fun stands => ?_⟩
  cases entry : T.entry x with
  | none => exact absurd entry stands
  | offered => rfl
  | carried => rfl

theorem withdraw_others (T : LineTables) (x : Nat) :
    (∀ y, y ≠ x → (T.withdraw x).1.entry y = T.entry y) ∧ (T.withdraw x).1.frameCount = T.frameCount := by
  by_cases none : T.entry x = .none
  · rw [(withdraw_verdict T x).1 none]
    exact ⟨fun _ _ => rfl, rfl⟩
  · rw [(withdraw_verdict T x).2 none]
    exact ⟨(endStream_facts T x).2.2.1, rfl⟩

/-- A record that names a stream which ended loses that field (R156). -/
theorem ended_call (T : LineTables) (x : Nat) (size : x < T.directory.length) (stands : T.entry x ≠ .none) (j : Nat) :
    let c := ((T.endStream x).strip T).call j
    c.state = (T.call j).state ∧ ((T.call j).downlink = some x → c.downlink = none)
      ∧ ((T.call j).uplink = some x → c.uplink = none) ∧ ((T.call j).reference = some x → c.reference = none) := by
  intro c
  obtain ⟨calls, -, -, entry, -⟩ := endStream_facts T x
  have gone : wentNone T (T.endStream x) x = true := by
    rw [wentNone, entry size]
    simpa using stands
  have same : (T.endStream x).call j = T.call j := by rw [LineTables.call, LineTables.call, calls]
  have lost : withoutGone (wentNone T (T.endStream x)) (some x) = none := by
    rw [withoutGone, if_pos gone]
  have record : c = _ := strip_call (T.endStream x) T j
  rw [record, same]
  refine ⟨rfl, fun named => ?_, fun named => ?_, fun named => ?_⟩
  all_goals
    rw [← lost, ← named]

/-- Settles O26: the WITHDRAW of a stream that stands, of one in NONE, and one that is not judged. -/
theorem withdrawEndsTheStream : Obligations.WithdrawEndsTheStream := by
  intro sender index s released t x verdict hears sizes
  have acts := exec_message sender (.withdraw index) (.withdraw sender index) s rfl released
  have settled : s.settle = t := rfl
  rw [settled] at acts
  clear_value t
  obtain ⟨-, -, station, -, audio⟩ := t.messageEffect_stays sender.val (.withdraw index) hears rfl
  refine ⟨fun low there => ?_, fun unheeded => ?_⟩
  · obtain ⟨outcome, tables⟩ := (messageEffect_stream t sender.val (.withdraw index) .withdraw _ hears rfl
      (judge_withdraw index sender.val low)).1 there
    have size := streamId_inside t sizes sender index low
    refine ⟨_, acts, station, audio, by rw [tables]; exact (withdraw_others (aged t.tables sender.val) x).1, fun stands => ?_,
      fun none => ?_⟩
    · have ends := (withdraw_verdict (aged t.tables sender.val) x).2 stands
      rw [ends] at tables
      obtain ⟨-, -, -, entry, slots⟩ := endStream_facts (aged t.tables sender.val) x
      refine ⟨outcome.trans (by rw [(withdraw_verdict t.tables x).2 stands]), ?_, fun i owned => ?_, fun i other => ?_,
        fun j => ?_, fun calls => ?_⟩
      · rw [tables, strip_entry]
        exact entry size
      · rw [tables, (strip_keeps _ _).2.2.1, slots]
        exact if_pos owned
      · rw [tables, (strip_keeps _ _).2.2.1, slots]
        exact if_neg other
      · rw [tables]
        exact ended_call (aged t.tables sender.val) x size stands j
      · refine streamMessage_zones t sender.val (.withdraw index) .withdraw _ x hears rfl (by rw [← sizes.2.1]; exact size)
          (judge_withdraw index sender.val low) ((aged_station t.tables sender.val sender.val).1.trans there) ?_
          (fun T => (withdraw_others T x).1) (fun T => (withdraw_others T x).2) calls
        show _ ≠ (((aged t.tables sender.val).withdraw x).1.entry x).code
        rw [ends, entry size]
        cases entry : t.tables.entry x with
        | none => exact absurd entry stands
        | offered => exact Nat.one_ne_zero
        | carried => exact Nat.succ_ne_zero 1
    · rw [(withdraw_verdict (aged t.tables sender.val) x).1 none, strip_same] at tables
      exact ⟨outcome.trans (by rw [(withdraw_verdict t.tables x).1 none]), by rw [tables]; rfl, by rw [tables]; rfl,
        by rw [tables]; rfl⟩
  · obtain ⟨outcome, tables⟩ := messageEffect_unjudged t sender.val (.withdraw index) index .withdraw _ hears rfl
      (judge_withdraw index sender.val) (judge_withdraw_badField index sender.val) unheeded
    exact ⟨_, acts, outcome, tables, station, audio⟩

end Sys2Proof.Machine
end

section
/-! PROOFS. ROUTE and ROUTE_ANSWER take effect (R102 to R106). -/

namespace Sys2Proof.Machine

/-! ## ROUTE (R105) -/

theorem routeCode_same {s u : State} (mixer : u.mixer = s.mixer) (directory : u.tables.directory = s.tables.directory)
    (z x a : Nat) : u.routeCode z x a = s.routeCode z x a := by
  have entry : u.tables.entry x = s.tables.entry x := by rw [LineTables.entry, LineTables.entry, directory]
  unfold State.routeCode
  rw [entry, zone_congr s u mixer]

/-- What a routing action takes reads the zones, the directory and the station alone, and speaks of the mixer alone. -/
theorem routeTaken_same {s a v u : State} {z x action level : Nat} (taken : a.routeTaken v z x action level)
    (mixer : a.mixer = s.mixer) (directory : a.tables.directory = s.tables.directory)
    (station : a.member.station = s.member.station) (definitions : a.definitions = s.definitions) (after : u.mixer = v.mixer) :
    s.routeTaken u z x action level := by
  have entry : a.tables.entry x = s.tables.entry x := by rw [LineTables.entry, LineTables.entry, directory]
  unfold State.routeTaken at *
  simp only [zone_congr s a mixer, entry, station, definitions, mixer] at taken
  simp only [zone_congr v u after, after]
  exact taken

/-- The verdict on a ROUTE at the owner of the zone, and what it does (R102, R103, R105). -/
theorem judgeRouteMessage_owner (s : State) (n : Nat) (zone stream level : Byte) (a z : Nat) (action : a ≤ 2)
    (drives : s.member.station.drives = true) (owned : s.ownZone zone.toNat = some z) (inside : z < s.mixer.zones.length) :
    let code := if zone.toNat ≤ 15 ∧ stream.toNat ≤ 63 ∧ level.toNat ≤ 63 then s.routeCode z stream.toNat a else 4
    let u := s.judgeRouteMessage n zone stream (BitVec.ofNat 8 a) level
    HasOut u .zoneMixer (.routeAnswer (BitVec.ofNat 8 n) zone stream (BitVec.ofNat 8 code))
      ∧ (code ≠ 0 → u.mixer = s.mixer)
      ∧ (code = 0 → ∃ v, s.routeTaken v z stream.toNat a level.toNat ∧ u.mixer = v.mixer) := by
  intro code u
  have number : (BitVec.ofNat 8 a).toNat = a := by simp; omega
  have answers : ∀ (v : State) (verdict : RouteVerdict),
      HasOut (v.answerRoute n zone stream verdict) .zoneMixer
        (.routeAnswer (BitVec.ofNat 8 n) zone stream (BitVec.ofNat 8 verdict.code)) := fun v verdict =>
    send_has v _ (fun no => by cases no)
  have range_iff : (Message.route zone stream (BitVec.ofNat 8 a) level).inRange = true
      ↔ zone.toNat ≤ 15 ∧ stream.toNat ≤ 63 ∧ level.toNat ≤ 63 := by
    simp only [Message.inRange, Bool.and_eq_true, decide_eq_true_eq, number, and_assoc]
    exact ⟨fun ⟨z, x, _, l⟩ => ⟨z, x, l⟩, fun ⟨z, x, l⟩ => ⟨z, x, action, l⟩⟩
  by_cases range : zone.toNat ≤ 15 ∧ stream.toNat ≤ 63 ∧ level.toNat ≤ 63
  · have judges : u = (s.judgeRoute z stream.toNat a level.toNat).1.answerRoute n zone stream
        (s.judgeRoute z stream.toNat a level.toNat).2 := by
      simp only [u, State.judgeRouteMessage, drives, owned, range_iff.mpr range, number, if_true]
    obtain ⟨d, defined⟩ := findIdx_get _ _ _ owned
    obtain ⟨verdict, -, refused, -⟩ := judgeRoute_facts s z stream.toNat a level.toNat action inside d defined
    have code_eq : code = (s.judgeRoute z stream.toNat a level.toNat).2.code := (if_pos range).trans verdict.symm
    rw [judges, code_eq]
    refine ⟨answers _ _, fun bad => (send_mixer _ _).trans (refused (by rw [← verdict]; exact bad)), fun good => ?_⟩
    refine ⟨(s.judgeRoute z stream.toNat a level.toNat).1, judgeRoute_taken s z stream.toNat a level.toNat inside action ?_, send_mixer _ _⟩
    cases verdict_eq : (s.judgeRoute z stream.toNat a level.toNat).2 <;> rw [verdict_eq] at good <;> first | rfl | cases good
  · have judges : u = s.answerRoute n zone stream .badField := by
      simp only [u, State.judgeRouteMessage, drives, owned, if_true, if_neg (mt range_iff.mp range)]
    have code_eq : code = RouteVerdict.badField.code := if_neg range
    rw [judges, code_eq]
    exact ⟨answers s _, fun _ => send_mixer s _, fun no => by cases no⟩

theorem judgeRouteMessage_elsewhere (s : State) (n : Nat) (zone stream action level : Byte)
    (elsewhere : s.member.station.drives = false ∨ s.ownZone zone.toNat = none) :
    s.judgeRouteMessage n zone stream action level = s := by
  unfold State.judgeRouteMessage
  split
  · rw [elsewhere.resolve_left (by rw [‹s.member.station.drives = true›]; decide)]
  · rfl

/-- The three routing commands are the message ROUTE with its action (Table 1-5). -/
theorem exec_routing {sender : Fin 16} {zone stream level : Byte} {c : Instr} {a : Nat}
    (command : (c, a) ∈ [(Instr.add sender zone stream level, 0), (.setLevel sender zone stream level, 1),
      (.remove sender zone stream level, 2)]) :
    a ≤ 2 ∧ ∀ s, exec c s = s.messageCommand sender (.route zone stream (BitVec.ofNat 8 a) level) := by
  simp only [List.mem_cons, Prod.mk.injEq, List.not_mem_nil, or_false] at command
  obtain ⟨rfl, rfl⟩ | ⟨rfl, rfl⟩ | ⟨rfl, rfl⟩ := command
  all_goals exact ⟨by decide, fun _ => rfl⟩

/-- Settles O27: at any other station the mixer stands, and the owner answers what it judged. -/
theorem routesAreJudgedByTheOwner : Obligations.RoutesAreJudgedByTheOwner := by
  intro sender zone stream level c a s command released t x inRange hears idle
  obtain ⟨action, does⟩ := exec_routing command
  have acts := exec_message sender (.route zone stream (BitVec.ofNat 8 a) level) c s (does s) released
  have settled : s.settle = t := rfl
  rw [settled] at acts
  clear_value t
  obtain ⟨tables, -, station, -, audio⟩ := t.messageEffect_stays sender.val (.route zone stream (BitVec.ofNat 8 a) level) hears rfl
  have effect := messageEffect_foreign t sender.val (.route zone stream (BitVec.ofNat 8 a) level) hears rfl (drove_foreign t _ _ idle)
  obtain ⟨⟨mixer_a, station_a, directory_a, -, definitions_a, -⟩, tables_a⟩ := hearing_same t sender.val hears
  have note_a : (t.tailCounts.refreshAge sender.val).note = t.note := by simp [State.tailCounts]
  have judges : ((t.tailCounts.refreshAge sender.val).judge sender.val (.route zone stream (BitVec.ofNat 8 a) level)).1
      = (t.tailCounts.refreshAge sender.val).judgeRouteMessage sender.val zone stream (BitVec.ofNat 8 a) level := rfl
  rw [judges] at effect tables
  generalize t.tailCounts.refreshAge sender.val = w at *
  have tables_u : (t.messageEffect sender.val (.route zone stream (BitVec.ofNat 8 a) level)).tables = w.tables :=
    tables.trans (by simp)
  have mixer_u : (t.messageEffect sender.val (.route zone stream (BitVec.ofNat 8 a) level)).mixer
      = (w.judgeRouteMessage sender.val zone stream (BitVec.ofNat 8 a) level).mixer := by
    rw [effect]
    simp
  have owns : w.ownZone zone.toNat = t.ownZone zone.toNat := by rw [State.ownZone, State.ownZone, definitions_a]
  refine ⟨_, acts, station, audio, ?_, ?_, ?_, ?_, fun elsewhere => ?_, fun z drives owned inside => ?_⟩
  · rw [effect]
    simpa using note_a
  · rw [tables_u, tables_a]
    rfl
  · rw [tables_u, tables_a]
    rfl
  · rw [tables_u, tables_a]
    rfl
  · rw [mixer_u, judgeRouteMessage_elsewhere w _ _ _ _ _ (by rw [station_a, owns]; exact elsewhere), mixer_a]
  · obtain ⟨answer, refused, taken⟩ := judgeRouteMessage_owner w sender.val zone stream level a z action (by rw [station_a]; exact drives)
      (by rw [owns]; exact owned) (by rw [mixer_a]; exact inside)
    rw [routeCode_same mixer_a directory_a] at answer refused taken
    refine ⟨by rw [effect]; exact closeFrame_keeps_has _ _ _ answer, fun bad => by rw [mixer_u, refused bad, mixer_a], fun good => ?_⟩
    obtain ⟨v, routes, mixer_v⟩ := taken good
    exact routeTaken_same routes mixer_a directory_a station_a definitions_a (mixer_u.trans mixer_v)

/-! ## ROUTE_ANSWER (R106) -/

/-- A message that the own queue holds for the zone mixer leaves nothing else behind (R15). -/
theorem concludeOwn_ofMixer (s : State) (before : LineTables) (o : Nat) (m : Message) (verdict : Cause)
    (unit : ∀ e, s.line.queue.find? (fun e => e.order == o) = some e → e.originator = .zoneMixer) :
    let u := s.concludeOwn before (.queued o m) verdict
    u.host = s.host ∧ u.call = s.call ∧ u.note = s.note := by
  intro u
  cases queued : s.line.queue.find? (fun e => e.order == o) with
  | none =>
    have same : u = s := concludeOwn_unqueued s before o m verdict queued
    rw [same]
    exact ⟨rfl, rfl, rfl⟩
  | some e =>
    simp only [u, State.concludeOwn, queued, State.tell, unit e queued, State.removeEntry, State.placeBinding]
    split
    · split <;> exact ⟨rfl, rfl, rfl⟩
    · exact ⟨rfl, rfl, rfl⟩

theorem takeRouteAnswer_host (s : State) (requester zone stream verdict : Byte) :
    let heeded := requester.toNat = s.number ∧ (Message.routeAnswer requester zone stream verdict).inRange = true
    let u := s.takeRouteAnswer requester zone stream verdict
    (heeded → u.host = s.eventRaised .routeAnswer [zone.toNat, stream.toNat] (some (routeVerdictCause verdict.toNat)))
      ∧ (¬heeded → u.host = s.host) := by
  intro heeded u
  simp only [u, State.takeRouteAnswer]
  refine ⟨fun both => ?_, fun other => ?_⟩
  · rw [if_pos ⟨both.2, both.1⟩, raise_host]
  · rw [if_neg (fun both => other ⟨both.2, both.1⟩)]

/-- Settles O28: the station named raises the event at its host, and nothing else happens there. -/
theorem aRouteAnswerTellsItsRequester : Obligations.ARouteAnswerTellsItsRequester := by
  intro sender requester zone stream verdict s released t inRange event hears ofMixer
  have acts := exec_message sender (.routeAnswer requester zone stream verdict) (.routeAnswer sender requester zone stream verdict) s
    rfl released
  have settled : s.settle = t := rfl
  rw [settled] at acts
  clear_value t
  obtain ⟨tables, mixer, station, -, audio⟩ := t.messageEffect_stays sender.val (.routeAnswer requester zone stream verdict) hears rfl
  obtain ⟨v, effect, -, own, others⟩ := messageEffect_concluded t sender.val (.routeAnswer requester zone stream verdict) hears
  have heard : (t.tailCounts.refreshAge sender.val).tables = aged t.tables sender.val := heardTables t sender.val hears
  have kept : (t.tailCounts.refreshAge sender.val).line.queue = t.line.queue
      ∧ (t.tailCounts.refreshAge sender.val).number = t.number ∧ (t.tailCounts.refreshAge sender.val).host = t.host
      ∧ (t.tailCounts.refreshAge sender.val).call = t.call ∧ (t.tailCounts.refreshAge sender.val).note = t.note
      ∧ (t.tailCounts.refreshAge sender.val).mixer = t.mixer := by
    simp [State.tailCounts, State.number]
  have raised : ∀ k subject cause, (t.tailCounts.refreshAge sender.val).eventRaised k subject cause
      = t.eventRaised k subject cause :=
    eventRaised_same kept.2.2.1 (by simp [State.tailCounts]) (by simp [State.tailCounts]) (by rw [heard]; rfl)
  have judges : ((t.tailCounts.refreshAge sender.val).judge sender.val (.routeAnswer requester zone stream verdict)).1
      = (t.tailCounts.refreshAge sender.val).takeRouteAnswer requester zone stream verdict := rfl
  obtain ⟨heeds, ignores⟩ := takeRouteAnswer_host (t.tailCounts.refreshAge sender.val) requester zone stream verdict
  rw [judges] at tables mixer own others
  generalize t.tailCounts.refreshAge sender.val = w at *
  obtain ⟨queue, number, host, call, note, mixer_w⟩ := kept
  have concluded : v.host = (w.takeRouteAnswer requester zone stream verdict).host
      ∧ v.call = (w.takeRouteAnswer requester zone stream verdict).call
      ∧ v.note = (w.takeRouteAnswer requester zone stream verdict).note := by
    cases isOwn : t.isOwn sender.val (.routeAnswer requester zone stream verdict) with
    | false => rw [others isOwn]; exact ⟨rfl, rfl, rfl⟩
    | true =>
      have drove := isOwn
      simp only [State.isOwn, Bool.and_eq_true] at drove
      cases sent : t.line.sent with
      | none => rw [sent] at drove; cases drove.2
      | some message =>
        rw [own isOwn message sent]
        cases message with
        | queued o q =>
          exact concludeOwn_ofMixer _ _ o q _ (fun e found => ofMixer o q e sent (by simpa [queue] using found))
        | presence q =>
          rw [sent] at drove
          rw [show q = .routeAnswer requester zone stream verdict by simpa [Sent.message] using drove.2]
          exact ⟨rfl, rfl, rfl⟩
  obtain ⟨host_v, call_v, note_v⟩ := concluded
  have moves := State.moveByMessage_stays v (t.isOwn sender.val (.routeAnswer requester zone stream verdict)) sender.val
    (.routeAnswer requester zone stream verdict)
    (w.judge sender.val (.routeAnswer requester zone stream verdict)).2 rfl
  rw [moves] at effect
  have host_u : (t.messageEffect sender.val (.routeAnswer requester zone stream verdict)).host
      = (w.takeRouteAnswer requester zone stream verdict).host := by
    rw [effect, ← host_v]
    simp
  have range_iff : (Message.routeAnswer requester zone stream verdict).inRange = true ↔ inRange := by
    simp only [Message.inRange, Bool.and_eq_true, decide_eq_true_eq, and_assoc, inRange]
  refine ⟨_, acts, ?_, station, audio, ?_, ?_, ?_, fun ⟨mine, range, hosted⟩ => ?_, fun idle => ?_⟩
  · rw [tables, (State.takeRouteAnswer_frame _ _ _ _ _).2.2.2.1, heard]
  · rw [mixer, ← mixer_w]
    simp
  · rw [effect, ← call, ← show (w.takeRouteAnswer requester zone stream verdict).call = w.call by simp, ← call_v]
    simp
  · rw [effect, ← note, ← show (w.takeRouteAnswer requester zone stream verdict).note = w.note by simp, ← note_v]
    simp
  · rw [host_u, heeds ⟨mine.trans number.symm, range_iff.mpr range⟩, raised, State.eventRaised, if_pos hosted]
    have low : verdict.toNat ≤ 4 := range.2.2.2
    have cause : [Cause.taken, .noStream, .privateStream, .zoneFull, .badField][verdict.toNat]?
        = some (routeVerdictCause verdict.toNat) := by
      match verdict.toNat, low with
      | 0, _ | 1, _ | 2, _ | 3, _ | 4, _ => rfl
    simp only [event, cause]
  · by_cases heeded : requester.toNat = w.number ∧ (Message.routeAnswer requester zone stream verdict).inRange = true
    · have unhosted : t.hasHost = false :=
        (idle.resolve_left (fun other => other (heeded.1.trans number))).resolve_left (fun out => out (range_iff.mp heeded.2))
      rw [host_u, heeds heeded, raised, State.eventRaised, if_neg (by rw [unhosted]; decide)]
    · rw [host_u, ignores heeded, host]

end Sys2Proof.Machine
end

section
/-! PROOFS. Call actions take effect (R150 to R155). -/

namespace Sys2Proof.Machine

/-! ## The checks that every action shares (R151) -/

theorem judgeCall_checks (T : LineTables) (n j a : Nat) (f : CallFields) :
    ((T.station n).present = false → T.judgeCall n j a f = (T, .notPresent))
      ∧ ((T.station n).present = true → (T.call j).state ≠ .none → (T.call j).owner ≠ some n → T.judgeCall n j a f = (T, .notOwner))
      ∧ ((T.station n).present = true → (T.call j).state = .none ∨ (T.call j).owner = some n →
          actionAllowed a (T.call j).state = false → T.judgeCall n j a f = (T, .callState)) := by
  unfold LineTables.judgeCall
  refine ⟨fun absent => if_pos absent, fun there live foreign => ?_, fun there own barred => ?_⟩
  · exact (if_neg (by rw [there]; decide)).trans (if_pos ⟨live, foreign⟩)
  · refine (if_neg (by rw [there]; decide)).trans ((if_neg ?_).trans (if_pos barred))
    rintro ⟨live, foreign⟩
    exact own.elim live foreign

theorem judge_call_badField (n : Nat) (id a : Byte) (f : CallFields) (out : ¬(Message.call id a f).inRange = true) (s : State) :
    s.judge n (.call id a f) = (s, .badField) :=
  if_pos (Bool.eq_false_iff.mpr out)

/-- The states from which an action may be taken (Table 9-3). -/
theorem actionAllowed_iff (a : Nat) (state : CallState) :
    (actionAllowed 0 state = true ↔ state = .none) ∧ (actionAllowed 1 state = true ↔ state = .ringing ∨ state = .active)
      ∧ (actionAllowed 2 state = true ↔ state = .active) ∧ (actionAllowed 3 state = true ↔ state = .held)
      ∧ (4 ≤ a → (actionAllowed a state = true ↔ state ≠ .none)) := by
  refine ⟨by simp [actionAllowed], by simp [actionAllowed], by simp [actionAllowed], by simp [actionAllowed], fun last => ?_⟩
  obtain ⟨k, rfl⟩ := Nat.exists_eq_add_of_le' last
  simp [actionAllowed]

/-- Settles O29: what every action leaves alone, and the shared checks in their order. -/
theorem callActionsAreCheckedInOrder : Obligations.CallActionsAreCheckedInOrder := by
  intro sender id f c a s command released t record verdict inRange present allowed hears sizes
  have acts := exec_message sender (.call id a f) c s (mem_call sender id f c a s command) released
  have settled : s.settle = t := rfl
  rw [settled] at acts
  clear_value t
  obtain ⟨-, -, station, -, audio⟩ := t.messageEffect_stays sender.val (.call id a f) hears rfl
  have badField := fun out => messageEffect_badField t sender.val (.call id a f) hears rfl (judge_call_badField sender.val id a f out)
  have judged := fun range => callEffect t sender.val id a f hears range
  obtain ⟨directory, slots, roster, refused⟩ := judgeCall_keeps (aged t.tables sender.val) sender.val id.toNat a.toNat f
  have kept : (t.messageEffect sender.val (.call id a f)).tables.directory = t.tables.directory
      ∧ (t.messageEffect sender.val (.call id a f)).tables.slots = t.tables.slots
      ∧ (t.messageEffect sender.val (.call id a f)).tables.roster = (aged t.tables sender.val).roster
      ∧ (verdict ≠ .taken → (t.messageEffect sender.val (.call id a f)).tables.calls = t.tables.calls) := by
    by_cases range : inRange
    · obtain ⟨outcome, tables⟩ := judged range
      rw [tables]
      refine ⟨directory, slots, roster, fun not_taken => ?_⟩
      rw [refused (by rw [(aged_same t.tables sender.val).verdict, ← outcome]; exact not_taken)]
      rfl
    · rw [(badField range).2]
      exact ⟨rfl, rfl, rfl, fun _ => rfl⟩
  obtain ⟨directory_u, slots_u, roster_u, calls_u⟩ := kept
  obtain ⟨absent, notOwner, callState⟩ := judgeCall_checks t.tables sender.val id.toNat a.toNat f
  have allows : actionAllowed a.toNat record.state = true → allowed := by
    obtain ⟨ring, answer, hold, resume, others⟩ := actionAllowed_iff a.toNat record.state
    simp only [List.mem_cons, Prod.mk.injEq, List.not_mem_nil, or_false] at command
    obtain ⟨-, rfl⟩ | ⟨-, rfl⟩ | ⟨-, rfl⟩ | ⟨-, rfl⟩ | ⟨-, rfl⟩ | ⟨-, rfl⟩ := command
    · exact ring.mp
    · exact answer.mp
    · exact hold.mp
    · exact resume.mp
    · exact (others (Nat.le_refl 4)).mp
    · exact (others (Nat.le_succ 4)).mp
  refine ⟨_, acts, station, audio, directory_u, slots_u, fun n other => ?_, calls_u, fun changed => ?_, fun out => (badField out).1,
    fun range absentee => ?_, fun range there live foreign => ?_, fun range there own barred => ?_⟩
  · rw [LineTables.station, roster_u]
    exact onStation_ne _ _ _ _ other
  · by_cases range : inRange
    · exact callMessage_zones t sender.val id a f hears range changed
    · exact absurd (by rw [(badField range).2]; rfl) changed
  · rw [show verdict = _ from (judged range).1, absent (Bool.eq_false_iff.mpr absentee)]
  · rw [show verdict = _ from (judged range).1, notOwner there live foreign]
  · rw [show verdict = _ from (judged range).1, callState there own (Bool.eq_false_iff.mpr (mt allows barred))]

/-! ## RING (R152) -/

/-- A field names a stream of a kind that is OFFERED or CARRIED, and of which `of` holds. -/
def LineTables.names (T : LineTables) (field : Option Nat) (of : Nat → Prop) (kind : StreamKind) : Prop :=
  ∃ x p, field = some x ∧ of x ∧ (T.entry x).parameters = some p ∧ p.kind = kind

theorem live_iff (T : LineTables) (x : Nat) (kind : StreamKind) :
    T.live x kind = true ↔ ∃ p, (T.entry x).parameters = some p ∧ p.kind = kind := by
  unfold LineTables.live
  cases (T.entry x).parameters <;> simp

/-- Whether RING finds its downlink (R152). -/
def LineTables.ringsWith (T : LineTables) (n : Nat) (f : CallFields) : Bool :=
  match presentByte f.downlink with
  | some x => decide (x / 4 = n) && T.live x .voiceDownlink
  | none => false

theorem ringsWith_iff (T : LineTables) (n : Nat) (f : CallFields) :
    T.ringsWith n f = true ↔ T.names (presentByte f.downlink) (fun x => x / 4 = n) .voiceDownlink := by
  unfold LineTables.ringsWith LineTables.names
  cases presentByte f.downlink with
  | none => simp
  | some x => simp [live_iff]

theorem ring_eq (T : LineTables) (n j : Nat) (f : CallFields) :
    T.ring n j f =
      if T.ringsWith n f = false then (T, .badDownlink)
      else if f.zones = 0 ∨ f.zones &&& ~~~T.zonesPresent ≠ 0 then (T, .noZones)
      else if f.zones &&& T.privateZonesPresent ≠ 0 then (T, .privateZone)
      else (T.setCall j { state := .ringing, owner := some n, downlink := presentByte f.downlink, uplink := none
                          reference := none, mic := none, zones := f.zones }, .taken) := rfl

theorem ring_verdict (T : LineTables) (n j : Nat) (f : CallFields) :
    let downlink := T.names (presentByte f.downlink) (fun x => x / 4 = n) .voiceDownlink
    let outside := f.zones &&& ~~~T.zonesPresent ≠ 0
    (¬downlink → T.ring n j f = (T, .badDownlink))
      ∧ (downlink → f.zones = 0 ∨ outside → T.ring n j f = (T, .noZones))
      ∧ (downlink → f.zones ≠ 0 → ¬outside → f.zones &&& T.privateZonesPresent ≠ 0 → T.ring n j f = (T, .privateZone))
      ∧ (downlink → f.zones ≠ 0 → ¬outside → f.zones &&& T.privateZonesPresent = 0 →
          T.ring n j f = (T.setCall j { state := .ringing, owner := some n, downlink := presentByte f.downlink, uplink := none
                                        reference := none, mic := none, zones := f.zones }, .taken)) := by
  intro downlink outside
  have good_iff : ¬T.ringsWith n f = false ↔ downlink := by
    rw [Bool.not_eq_false]
    exact ringsWith_iff T n f
  rw [ring_eq]
  refine ⟨fun bad => if_pos (Classical.not_not.mp (mt good_iff.mp bad)), fun good zones => ?_, fun good some_zone inside secluded => ?_,
    fun good some_zone inside common => ?_⟩
  · exact (if_neg (good_iff.mpr good)).trans (if_pos zones)
  · exact (if_neg (good_iff.mpr good)).trans ((if_neg (not_or.mpr ⟨some_zone, inside⟩)).trans (if_pos secluded))
  · exact (if_neg (good_iff.mpr good)).trans ((if_neg (not_or.mpr ⟨some_zone, inside⟩)).trans (if_neg (Classical.not_not.mpr common)))

/-! ## ANSWER (R153) -/

section
variable (T : LineTables) (j : Nat) (f : CallFields)

/-- Whether ANSWER finds the record's downlink, the mic station, the uplink and the reference (R153). -/
def LineTables.answersDownlink : Bool :=
  match (T.call j).downlink with
  | some x => (T.entry x).code != 0
  | none => false

def LineTables.answersMic : Bool :=
  match presentByte f.mic with
  | some m => (T.station m).present && (T.station m).roles.mics
  | none => false

def LineTables.answersUplink : Bool :=
  match presentByte f.uplink, presentByte f.mic with
  | some u, some m => decide (u / 4 = m) && T.live u .voiceUplink
  | _, _ => false

def LineTables.answersReference : Bool :=
  match presentByte f.reference with
  | some r => T.live r .reference
  | none => true

theorem answer_eq :
    T.answer j f =
      if T.answersDownlink j = false then (T, .badDownlink)
      else if T.answersMic f = false then (T, .noMic)
      else if T.answersUplink f = false then (T, .badUplink)
      else if T.answersReference f = false then (T, .badReference)
      else (T.activate j { T.call j with uplink := presentByte f.uplink, reference := presentByte f.reference,
                                         mic := presentByte f.mic }, .taken) := rfl

theorem answersDownlink_iff : T.answersDownlink j = true ↔ ∃ x, (T.call j).downlink = some x ∧ T.entry x ≠ .none := by
  unfold LineTables.answersDownlink
  cases (T.call j).downlink with
  | none => simp
  | some x => cases entry : T.entry x <;> simp [entry, StreamEntry.code]

theorem answersMic_iff :
    T.answersMic f = true ↔ ∃ m, presentByte f.mic = some m ∧ (T.station m).present = true ∧ (T.station m).roles.mics = true := by
  unfold LineTables.answersMic
  cases presentByte f.mic <;> simp

theorem answersUplink_iff :
    T.answersUplink f = true ↔ T.names (presentByte f.uplink) (fun x => presentByte f.mic = some (x / 4)) .voiceUplink := by
  unfold LineTables.answersUplink LineTables.names
  cases presentByte f.uplink with
  | none => simp
  | some u =>
    cases presentByte f.mic with
    | none => simp
    | some m => simp [live_iff, @eq_comm _ m]

theorem answersReference_iff :
    T.answersReference f = true
      ↔ presentByte f.reference = none ∨ T.names (presentByte f.reference) (fun _ => True) .reference := by
  unfold LineTables.answersReference LineTables.names
  cases presentByte f.reference <;> simp [live_iff]

theorem answer_verdict :
    let downlink := ∃ x, (T.call j).downlink = some x ∧ T.entry x ≠ .none
    let mic := ∃ m, presentByte f.mic = some m ∧ (T.station m).present = true ∧ (T.station m).roles.mics = true
    let uplink := T.names (presentByte f.uplink) (fun x => presentByte f.mic = some (x / 4)) .voiceUplink
    let reference := presentByte f.reference = none ∨ T.names (presentByte f.reference) (fun _ => True) .reference
    (¬downlink → T.answer j f = (T, .badDownlink)) ∧ (downlink → ¬mic → T.answer j f = (T, .noMic))
      ∧ (downlink → mic → ¬uplink → T.answer j f = (T, .badUplink))
      ∧ (downlink → mic → uplink → ¬reference → T.answer j f = (T, .badReference))
      ∧ (downlink → mic → uplink → reference →
          T.answer j f = (T.activate j { T.call j with uplink := presentByte f.uplink, reference := presentByte f.reference,
                                                       mic := presentByte f.mic }, .taken)) := by
  intro downlink mic uplink reference
  simp only [downlink, mic, uplink, reference, ← answersDownlink_iff, ← answersMic_iff, ← answersUplink_iff, ← answersReference_iff,
    answer_eq, Bool.not_eq_true]
  refine ⟨fun bad => if_pos bad, fun d bad => ?_, fun d m bad => ?_, fun d m u bad => ?_, fun d m u r => ?_⟩
  · simp [d, bad]
  · simp [d, m, bad]
  · simp [d, m, u, bad]
  · simp [d, m, u, r]

end

/-! ## Calls at a station that hears them -/

/-- A CALL from a present sender who may take the action (R151). -/
theorem callEffect_open (t : State) (n : Nat) (id a : Byte) (f : CallFields) (hears : t.hears)
    (range : (Message.call id a f).inRange = true) (there : (t.tables.station n).present = true)
    (own : (t.tables.call id.toNat).state = .none ∨ (t.tables.call id.toNat).owner = some n)
    (allowed : actionAllowed a.toNat (t.tables.call id.toNat).state = true) (verdict : LineTables → LineTables × Cause)
    (judges : ∀ T : LineTables, (T.station n).present = true → ((T.call id.toNat).state = .none ∨ (T.call id.toNat).owner = some n) →
      actionAllowed a.toNat (T.call id.toNat).state = true → T.judgeCall n id.toNat a.toNat f = verdict T) :
    (t.judge n (.call id a f)).2 = (verdict t.tables).2
      ∧ (t.messageEffect n (.call id a f)).tables = (verdict (aged t.tables n)).1 := by
  obtain ⟨outcome, tables⟩ := callEffect t n id a f hears range
  exact ⟨outcome.trans (congrArg Prod.snd (judges t.tables there own allowed)),
    tables.trans (congrArg Prod.fst (judges (aged t.tables n) ((aged_station t.tables n n).1.trans there) own allowed))⟩

theorem names_aged (T : LineTables) (n : Nat) (field : Option Nat) (of : Nat → Prop) (kind : StreamKind) :
    (aged T n).names field of kind = T.names field of kind := rfl

theorem ring_others (T : LineTables) (n j : Nat) (f : CallFields) (i : Nat) (other : i ≠ j) :
    (T.ring n j f).1.call i = T.call i := by
  rw [ring_eq]
  split
  · rfl
  · split
    · rfl
    · split
      · rfl
      · exact setCall_ne T j i _ other

/-- A record beside the activated one that is not ACTIVE stands (R150). -/
theorem activate_other (T : LineTables) (j : Nat) (c : CallRecord) (low : j < 2) (idle : (T.call (1 - j)).state ≠ .active) :
    (T.activate j c).call (1 - j) = T.call (1 - j) := by
  have other : 1 - j ≠ j := by omega
  have stands : T.activate j c = T.setCall j { c with state := .active } :=
    congrArg (fun U : LineTables => U.setCall j { c with state := .active }) (if_neg idle)
  rw [stands, setCall_ne _ _ _ _ other]

/-- Settles O30: RING and ANSWER by what they check, over tables that differ in an age alone. -/
theorem ringAndAnswerFollowTheirChecks : Obligations.RingAndAnswerFollowTheirChecks := by
  intro sender id f s released t j record present is outside hears sizes
  have settled : s.settle = t := rfl
  have acts := fun (c : Instr) (a : Byte) does => exec_message sender (.call id a f) c s does released
  rw [settled] at acts
  clear_value t
  have zones := fun (a : Byte) range => callMessage_zones t sender.val id a f hears range
  refine ⟨fun range there free => ?ring, fun range there own live => ?answer⟩
  case ring =>
    intro verdict downlink
    obtain ⟨outcome, tables⟩ := callEffect_open t sender.val id 0 f hears range there (.inl free)
      ((actionAllowed_iff 0 _).1.mpr free) (fun T => T.ring sender.val id.toNat f)
      (fun T there own allowed => judgeCall_open T sender.val id.toNat 0 f there own allowed)
    obtain ⟨badDownlink, noZones, privateZone, rings⟩ := ring_verdict t.tables sender.val id.toNat f
    obtain ⟨-, -, -, rings_aged⟩ := ring_verdict (aged t.tables sender.val) sender.val id.toNat f
    rw [aged_zones, aged_privateZones] at rings_aged
    refine ⟨_, acts _ 0 rfl, fun i other => ?_, zones 0 range, fun bad => ?_, fun good wrong => ?_,
      fun good some_zone inside secluded => ?_, fun good some_zone inside common => ⟨?_, ?_⟩⟩
    · rw [tables]
      exact ring_others _ _ _ f i other
    · rw [show verdict = _ from outcome, badDownlink bad]
    · rw [show verdict = _ from outcome, noZones good wrong]
    · rw [show verdict = _ from outcome, privateZone good some_zone inside secluded]
    · rw [show verdict = _ from outcome, rings good some_zone inside common]
    · rw [tables, rings_aged good some_zone inside common]
      refine setCall_eq _ _ _ ?_
      show id.toNat < t.tables.calls.length
      rw [sizes.2.2.2]
      exact call_id_cases id 0 f range
  case answer =>
    intro verdict downlink mic uplink reference
    obtain ⟨outcome, tables⟩ := callEffect_open t sender.val id 1 f hears range there (.inr own)
      ((actionAllowed_iff 0 _).2.1.mpr live) (fun T => T.answer id.toNat f)
      (fun T there own allowed => judgeCall_open T sender.val id.toNat 1 f there own allowed)
    obtain ⟨badDownlink, noMic, badUplink, badReference, answers⟩ := answer_verdict t.tables id.toNat f
    have low := call_id_cases id 1 f range
    refine ⟨_, acts _ 1 rfl, zones 1 range, fun bad => ?_, fun d bad => ?_, fun d m bad => ?_, fun d m u bad => ?_,
      fun d m u r => ⟨?_, ?_⟩⟩
    · rw [show verdict = _ from outcome, badDownlink bad]
    · rw [show verdict = _ from outcome, noMic d bad]
    · rw [show verdict = _ from outcome, badUplink d m bad]
    · rw [show verdict = _ from outcome, badReference d m u bad]
    · rw [show verdict = _ from outcome, answers d m u r]
    · have active : ((aged t.tables sender.val).answer id.toNat f).1
          = (aged t.tables sender.val).activate id.toNat { record with
              uplink := presentByte f.uplink, reference := presentByte f.reference, mic := presentByte f.mic } := by
        refine congrArg Prod.fst ((answer_verdict (aged t.tables sender.val) id.toNat f).2.2.2.2 d ?_ u r)
        obtain ⟨station, named, present, mics⟩ := m
        obtain ⟨same_present, same_roles⟩ := aged_station t.tables sender.val station
        exact ⟨station, named, same_present.trans present, by rw [same_roles]; exact mics⟩
      rw [tables, active]
      obtain ⟨-, -, -, -, own, held⟩ := activate_facts (aged t.tables sender.val) id.toNat { record with
        uplink := presentByte f.uplink, reference := presentByte f.reference, mic := presentByte f.mic } low sizes.2.2.2
      exact ⟨own, held, fun idle => activate_other _ _ _ low idle⟩

/-! ## HOLD, RESUME, ZONES and END (R154, R155) -/

/-- The records after a change of one of them. -/
theorem setCall_read (T : LineTables) (j : Nat) (c : CallRecord) (low : j < 2) (calls : T.calls.length = 2) :
    (T.setCall j c).call j = c ∧ (T.setCall j c).call (1 - j) = T.call (1 - j) :=
  ⟨setCall_eq _ _ _ (by rw [calls]; exact low), setCall_ne _ _ _ _ (by omega)⟩

theorem callZones_verdict (T : LineTables) (j : Nat) (f : CallFields) :
    let outside := f.zones &&& ~~~T.zonesPresent ≠ 0
    let secluded := f.zones &&& T.privateZonesPresent ≠ 0
    let ringing := (T.call j).state = .ringing
    (outside ∨ (ringing ∧ (f.zones = 0 ∨ secluded)) → (T.callZones j f).1 = T)
      ∧ (¬(outside ∨ (ringing ∧ (f.zones = 0 ∨ secluded))) → (T.callZones j f).1 = T.setCall j { T.call j with zones := f.zones }) := by
  intro outside secluded ringing
  unfold LineTables.callZones
  refine ⟨fun refused => ?_, fun open_zones => ?_⟩
  · dsimp only
    split
    next => rfl
    next none =>
      split
      next => rfl
      next wrong =>
        obtain out | ⟨rings, zero | closed⟩ := refused
        · exact absurd (.inl out) none
        · exact absurd (.inr ⟨rings, zero⟩) none
        · exact absurd ⟨rings, closed⟩ wrong
  · obtain ⟨inside, free⟩ := not_or.mp open_zones
    refine congrArg Prod.fst ((if_neg ?_).trans (if_neg ?_))
    · rintro (out | ⟨rings, zero⟩)
      · exact inside out
      · exact free ⟨rings, .inl zero⟩
    · rintro ⟨rings, closed⟩
      exact free ⟨rings, .inr closed⟩

/-- Settles O31: the four actions of the owner of a record, over its tables with an age at 0. -/
theorem holdResumeZonesAndEnd : Obligations.HoldResumeZonesAndEnd := by
  intro sender id f s released t j record other outside secluded zones hears sizes there own ranges
  have settled : s.settle = t := rfl
  have acts := fun (c : Instr) (a : Byte) does => exec_message sender (.call id a f) c s does released
  rw [settled] at acts
  clear_value t
  have low : j < 2 := call_id_cases id 0 f (ranges 0 (Nat.zero_le 5))
  have follows := fun (a : Byte) range => callMessage_zones t sender.val id a f hears range
  refine ⟨fun active => ?_, fun held => ?_, fun live => ?_, fun live => ?_⟩
  · have range := ranges 2 (by decide)
    obtain ⟨-, tables⟩ := callEffect_open t sender.val id 2 f hears range there (.inr own) ((actionAllowed_iff 0 _).2.2.1.mpr active)
      (fun T => (T.setCall id.toNat { T.call id.toNat with state := .held }, .taken))
      (fun T there own allowed => judgeCall_open T sender.val id.toNat 2 f there own allowed)
    obtain ⟨here, beside⟩ := setCall_read (aged t.tables sender.val) j { record with state := .held } low sizes.2.2.2
    exact ⟨_, acts _ 2 rfl, by rw [tables]; exact here, by rw [tables]; exact beside, follows 2 range⟩
  · have range := ranges 3 (by decide)
    obtain ⟨-, tables⟩ := callEffect_open t sender.val id 3 f hears range there (.inr own) ((actionAllowed_iff 0 _).2.2.2.1.mpr held)
      (fun T => (T.activate id.toNat (T.call id.toNat), .taken))
      (fun T there own allowed => judgeCall_open T sender.val id.toNat 3 f there own allowed)
    obtain ⟨-, -, -, -, here, beside⟩ := activate_facts (aged t.tables sender.val) j record low sizes.2.2.2
    exact ⟨_, acts _ 3 rfl, by rw [tables]; exact here, follows 3 range, fun active => by rw [tables]; exact beside active,
      fun idle => by rw [tables]; exact activate_other _ j _ low idle⟩
  · have range := ranges 4 (by decide)
    obtain ⟨-, tables⟩ := callEffect_open t sender.val id 4 f hears range there (.inr own)
      (((actionAllowed_iff 4 _).2.2.2.2 (Nat.le_refl 4)).mpr live) (fun T => T.callZones id.toNat f)
      (fun T there own allowed => judgeCall_open T sender.val id.toNat 4 f there own allowed)
    obtain ⟨refused, takes⟩ := callZones_verdict (aged t.tables sender.val) j f
    obtain ⟨here, beside⟩ := setCall_read (aged t.tables sender.val) j { record with zones := f.zones } low sizes.2.2.2
    rw [aged_zones, aged_privateZones] at refused takes
    have stands : outside ∨ (record.state = .ringing ∧ (f.zones = 0 ∨ secluded)) →
        (t.messageEffect sender.val (.call id 4 f)).tables = aged t.tables sender.val := fun why => tables.trans (refused why)
    have changes : ¬(outside ∨ (record.state = .ringing ∧ (f.zones = 0 ∨ secluded))) →
        (t.messageEffect sender.val (.call id 4 f)).tables = (aged t.tables sender.val).setCall j { record with zones := f.zones } :=
      fun why => tables.trans (takes why)
    refine ⟨_, acts _ 4 rfl, ?_, follows 4 range, fun out => ?_, fun rings wrong => ?_, fun inside rings some_zone common => ?_,
      fun inside quiet => ?_⟩
    · by_cases why : outside ∨ (record.state = .ringing ∧ (f.zones = 0 ∨ secluded))
      · rw [stands why]
        rfl
      · rw [changes why]
        exact beside
    · rw [stands (.inl out)]
      rfl
    · rw [stands (.inr ⟨rings, wrong⟩)]
      rfl
    · rw [changes (not_or.mpr ⟨inside, fun both => both.2.elim some_zone common⟩)]
      exact here
    · rw [changes (not_or.mpr ⟨inside, fun both => quiet both.1⟩)]
      exact here
  · have range := ranges 5 (by decide)
    obtain ⟨-, tables⟩ := callEffect_open t sender.val id 5 f hears range there (.inr own)
      (((actionAllowed_iff 5 _).2.2.2.2 (Nat.le_succ 4)).mpr live) (fun T => (T.setCall id.toNat .none, .taken))
      (fun T there own allowed => judgeCall_open T sender.val id.toNat 5 f there own allowed)
    obtain ⟨here, beside⟩ := setCall_read (aged t.tables sender.val) j .none low sizes.2.2.2
    exact ⟨_, acts _ 5 rfl, by rw [tables]; exact here, by rw [tables]; exact beside, follows 5 range⟩

end Sys2Proof.Machine
end

section
/-! PROOFS. A NOTE_PART takes effect (R168 to R170). -/

namespace Sys2Proof.Machine

/-! ## The data of a part (R170) -/

theorem dataBytes_length (data : BitVec 128) : (dataBytes data).length = 16 := by
  simp [dataBytes]

/-- What the box held of a note, before a part (R170). -/
def NoteBox.held (box : NoteBox) : List Byte :=
  match box with
  | .filling _ _ _ _ bytes => bytes
  | _ => []

/-- The bytes of the box after a part: the first part begins the data, any other follows what the box held (R170). -/
def NoteBox.written (box : NoteBox) (i n : Nat) (data : BitVec 128) : List Byte :=
  noteData (if i = 0 then [] else box.held) i n data

theorem takePart_eq (s : State) (sender i n : Nat) (data : BitVec 128) :
    s.takePart sender i n data
      = if i = (n - 1) / 16 then
          raise .noteArrived [sender, n - 1] none { s with note.box := .full sender n 0 (s.note.box.written i n data) }
        else { s with note.box := .filling sender n (i + 1) 0 (s.note.box.written i n data) } := by
  have old : (match s.note.box with | .filling _ _ _ _ d => if i = 0 then [] else d | _ => [])
      = if i = 0 then [] else s.note.box.held := by
    cases s.note.box <;> simp [NoteBox.held]
  rw [NoteBox.written, ← old]
  rfl

theorem written_first (box : NoteBox) (n : Nat) (data : BitVec 128) : box.written 0 n data = (dataBytes data).take n := rfl

theorem written_later (box : NoteBox) (i n : Nat) (data : BitVec 128) (later : i ≠ 0) :
    box.written i n data = (box.held.take (16 * i) ++ dataBytes data).take n := by
  rw [NoteBox.written, if_neg later, noteData]

/-- The first of several parts is written whole (R170). -/
theorem written_firstOfMany (box : NoteBox) (n : Nat) (data : BitVec 128) (more : 0 < (n - 1) / 16) :
    box.written 0 n data = dataBytes data := by
  rw [written_first, List.take_of_length_le]
  rw [dataBytes_length]
  omega

/-! ## A NOTE_PART at its target (R168, R169) -/

theorem judgeNotePart_eq (s : State) (sender : Nat) (target index : Byte) (total : BitVec 16) (data : BitVec 128) :
    let mine := s.member.station.takesPart = true ∧ target.toNat = s.number
    let accepted := s.acceptsPart sender index.toNat total.toNat
    (mine ∧ accepted → s.judgeNotePart sender target index total data = s.takePart sender index.toNat total.toNat data)
      ∧ (¬(mine ∧ accepted) → s.judgeNotePart sender target index total data = s) := by
  intro mine accepted
  have accepts := accepts_iff_acceptsPart s sender index.toNat total.toNat
  refine ⟨fun ⟨⟨part, here⟩, takes⟩ => if_pos ⟨part, here, accepts.mpr takes⟩,
    fun other => if_neg (fun ⟨part, here, takes⟩ => other ⟨⟨part, here⟩, accepts.mp takes⟩)⟩

/-- Settles O32: the part that the box accepts is written, the last one fills the box, and any other part leaves it. -/
theorem aNotePartFillsTheBox : Obligations.ANotePartFillsTheBox := by
  intro sender target index total data s released t i n mine inForm old accepted hears
  have acts := exec_message sender (.notePart target index total data) (.notePart sender target index total data) s rfl released
  have settled : s.settle = t := rfl
  rw [settled] at acts
  clear_value t
  obtain ⟨tables, mixer, station, -, audio⟩ := t.messageEffect_stays sender.val (.notePart target index total data) hears rfl
  obtain ⟨v, effect, -, own, others⟩ := messageEffect_concluded t sender.val (.notePart target index total data) hears
  have heard : (t.tailCounts.refreshAge sender.val).tables = aged t.tables sender.val := heardTables t sender.val hears
  have kept : (t.tailCounts.refreshAge sender.val).number = t.number ∧ (t.tailCounts.refreshAge sender.val).note = t.note
      ∧ (t.tailCounts.refreshAge sender.val).mixer = t.mixer
      ∧ (t.tailCounts.refreshAge sender.val).member.station = t.member.station := by
    simp [State.tailCounts, State.number]
  have raised : ∀ k subject cause, (t.tailCounts.refreshAge sender.val).eventRaised k subject cause
      = t.eventRaised k subject cause :=
    eventRaised_same (by simp [State.tailCounts]) kept.2.2.2 (by simp [State.tailCounts]) (by rw [heard]; rfl)
  have judges : ((t.tailCounts.refreshAge sender.val).judge sender.val (.notePart target index total data)).1
      = (t.tailCounts.refreshAge sender.val).judgeNotePart sender.val target index total data := rfl
  obtain ⟨takes, leaves⟩ := judgeNotePart_eq (t.tailCounts.refreshAge sender.val) sender.val target index total data
  rw [judges] at tables mixer own others
  rw [State.moveByMessage_stays v _ _ _ _ rfl] at effect
  have alone := messageEffect_foreign t sender.val (.notePart target index total data) hears rfl
  rw [judges] at alone
  generalize t.tailCounts.refreshAge sender.val = w at *
  obtain ⟨number, note, mixer_w, station_w⟩ := kept
  have box : (t.messageEffect sender.val (.notePart target index total data)).note.box
      = (w.judgeNotePart sender.val target index total data).note.box := by
    have concluded : v.note.box = (w.judgeNotePart sender.val target index total data).note.box := by
      cases isOwn : t.isOwn sender.val (.notePart target index total data) with
      | false => rw [others isOwn]
      | true =>
        cases sent : t.line.sent with
        | none =>
          simp only [State.isOwn, sent, Bool.and_false] at isOwn
          cases isOwn
        | some message => rw [own isOwn message sent]; simp
    rw [effect, ← concluded]
    simp
  have heeds : (w.member.station.takesPart = true ∧ target.toNat = w.number) ∧ w.acceptsPart sender.val i n ↔ mine ∧ accepted := by
    have accepts : w.acceptsPart sender.val i n ↔ accepted := by
      rw [State.acceptsPart, note]
      exact ⟨fun ⟨least, most, last, takes⟩ => ⟨⟨least, most, last⟩, takes⟩, fun ⟨⟨least, most, last⟩, takes⟩ => ⟨least, most, last, takes⟩⟩
    rw [station_w, number, accepts]
  have held : w.note.box.held = old := by rw [note]; rfl
  rw [heeds] at takes leaves
  refine ⟨_, acts, ?_, station, audio, ?_, fun other => by rw [box, leaves other, note], fun heeded first => ?_, fun heeded last => ?_⟩
  · rw [tables, (State.judgeNotePart_frame _ _ _ _ _ _).2.2.2.1, heard]
  · rw [mixer, ← mixer_w]
    simp
  · refine ⟨w.note.box.written i n data, ?_, fun zero => ?_, fun later => ?_⟩
    · rw [box, takes heeded, takePart_eq, if_neg (Nat.ne_of_lt first)]
    · rw [zero] at first ⊢
      exact written_firstOfMany _ n data first
    · rw [written_later _ _ _ _ later, held]
  · have arrives : w.judgeNotePart sender.val target index total data
        = raise .noteArrived [sender.val, n - 1] none { w with note.box := .full sender.val n 0 (w.note.box.written i n data) } := by
      rw [takes heeded, takePart_eq, if_pos last]
    refine ⟨w.note.box.written i n data, ?_, fun zero => ?_, fun later => ?_, fun silent hosted => ?_⟩
    · rw [box, arrives]
      simp
    · rw [zero]
      exact written_first _ n data
    · rw [written_later _ _ _ _ later, held]
    · have told := raise_host .noteArrived [sender.val, n - 1] none
        { w with note.box := .full sender.val n 0 (w.note.box.written i n data) }
      have same := raised .noteArrived [sender.val, n - 1] none
      rw [State.eventRaised, State.eventRaised, if_pos hosted] at same
      rw [alone (drove_foreign t _ _ silent), arrives, (State.closeFrame_frame _).2.2.2.2.2.2.2.2.2.2.2.2.1, told]
      exact congrArg HostPort.events same

end Sys2Proof.Machine
end

section
/-! PROOFS. What falls due on the line side: the moves of the station, holds and counters (R17, R18, R28, R36, R41, R47). -/

namespace Sys2Proof.Machine

/-! ## SELF_VETO, SILENCE_ENDED and LISTEN_END (R17, R36, R41) -/

theorem selfVetoDue_yes (s : State) (part : s.member.station.takesPart = true) (due : 32 ≤ s.line.selfVeto) :
    s.selfVetoDue = s.goTo .silenced .selfVeto := by
  simp [State.selfVetoDue, part, due]

theorem listenEnds_iff (s : State) :
    s.listenEnds = true ↔ s.member.station = .listening ∧ s.member.undamaged = 12800 ∧ s.line.phase = .over
      ∧ ∀ e, e ∈ s.tables.roster → e.present = true → e.completeness = .complete := by
  simp only [State.listenEnds, Bool.and_eq_true, beq_iff_eq, allComplete_iff]
  exact ⟨fun ⟨⟨⟨station, count⟩, complete⟩, phase⟩ => ⟨station, count, phase, complete⟩,
    fun ⟨station, count, phase, complete⟩ => ⟨⟨⟨station, count⟩, complete⟩, phase⟩⟩

theorem listenEnd_idle (s : State) (early : s.listenEnds = false) : s.listenEnd = s := by
  unfold State.listenEnd
  cases s.startUp.record with
  | none => rfl
  | some r => simp [early]

/-- Where listening ends the station finds its number or a zone taken, or hands its JOIN on (R36). -/
theorem listenEnd_due (s : State) (r : StartUpRecord) (due : s.listenEnds = true) (record : s.startUp.record = some r) :
    ((s.tables.station r.station).present = true → s.listenEnd = s.goTo .detached .numberTaken)
      ∧ ((s.tables.station r.station).present = false → zoneSetOf r.zones &&& s.tables.zonesPresent ≠ 0 →
          s.listenEnd = s.goTo .detached .zoneTaken)
      ∧ ((s.tables.station r.station).present = false → zoneSetOf r.zones &&& s.tables.zonesPresent = 0 →
          s.listenEnd = (s.send (newEntry (joinMessage r) .membership false none)).goTo .joining .ready) := by
  unfold State.listenEnd
  rw [record]
  simp only [due, if_true]
  refine ⟨fun there => if_pos there, fun absent zone => ?_, fun absent zone => ?_⟩
  · exact (if_neg (by rw [absent]; decide)).trans (if_pos zone)
  · exact (if_neg (by rw [absent]; decide)).trans (if_neg (Classical.not_not.mpr zone))

/-- Settles O33: the three moves, each due or not. -/
theorem stationMovesFallDue : Obligations.StationMovesFallDue := by
  intro s released
  have vetoed := exec_due .selfVeto s State.selfVetoDue rfl released
  have silence := exec_due .silenceEnded s State.silenceEnded rfl released
  have listened := exec_due .listenEnd s State.listenEnd rfl released
  refine ⟨fun idle => by rw [vetoed, selfVetoDue_no s idle], fun part due => ?_, fun idle => ?_, fun silenced ended => ?_, fun early => ?_,
    fun r due record => ?_⟩
  · have awake : s.member.station ≠ .silenced := fun silenced => by rw [silenced] at part; cases part
    have online : s.member.station ≠ .offline := fun offline => by rw [offline] at part; cases part
    obtain ⟨station, cause⟩ := goTo_station s .silenced .selfVeto
    obtain ⟨count, veto⟩ := (goTo_enter s .silenced .selfVeto awake).1 rfl
    obtain ⟨queue, waiting⟩ := goTo_queue_off s .silenced .selfVeto rfl (.inl part)
    have moved := goTo_zones s .silenced .selfVeto online (fun no => by cases no)
    refine ⟨s.goTo .silenced .selfVeto, ?_, station, cause, count, veto, queue, waiting, goTo_tables s _ _, moved, goTo_audio s _ _⟩
    rw [vetoed, selfVetoDue_yes s part due, off_keepUp _ (by rw [station]; rfl)]
  · have stands : s.silenceEnded = s := if_neg (fun both => idle.elim (· both.1) (· both.2))
    rw [silence, stands]
  · have moves : s.silenceEnded = s.goTo .listening .silenceEnded := if_pos ⟨silenced, ended⟩
    have awake : s.member.station ≠ .listening := fun listening => by rw [listening] at silenced; cases silenced
    have online : s.member.station ≠ .offline := fun offline => by rw [offline] at silenced; cases silenced
    obtain ⟨station, cause⟩ := goTo_station s .listening .silenceEnded
    obtain ⟨undamaged, backoff⟩ := (goTo_enter s .listening .silenceEnded awake).2 rfl
    exact ⟨s.goTo .listening .silenceEnded, by rw [silence, moves], station, cause, undamaged, backoff, goTo_tables s _ _,
      goTo_zones s _ _ online (fun no => by cases no), goTo_audio s _ _⟩
  · rw [listened, listenEnd_idle s (Bool.eq_false_iff.mpr (mt (listenEnds_iff s).mp early))]
  · obtain ⟨number, zone, joins⟩ := listenEnd_due s r ((listenEnds_iff s).mpr due) record
    refine ⟨s.listenEnd, listened, ?_, fun there => ?_, fun absent taken => ?_, fun absent free => ?_⟩
    · unfold State.listenEnd
      rw [record]
      dsimp only
      repeat' split
      all_goals simp [State.sameAudio]
    · rw [number there]
      exact goTo_station s _ _
    · rw [zone absent taken]
      exact goTo_station s _ _
    · rw [joins absent free]
      have listening : (s.send (newEntry (joinMessage r) .membership false none)).member.station = .listening := by
        simpa using due.1
      obtain ⟨queue, waiting⟩ := goTo_joining_keeps (s.send (newEntry (joinMessage r) .membership false none)) .ready listening
      obtain ⟨station, cause⟩ := goTo_station (s.send (newEntry (joinMessage r) .membership false none)) .joining .ready
      refine ⟨station, cause, ?_, ?_⟩
      · rw [goTo_tables]
        simp [StationState.dropsTables]
      · rw [queue, waiting]
        exact send_has s (newEntry (joinMessage r) .membership false none) (fun no => by cases no)

/-! ## Holds and counters (R18, R28, R47) -/

theorem map_ready_idle (l : List QueueEntry) (idle : l.any (fun e => !e.ready && e.hold == 0) = false) :
    l.map (fun e => if e.hold = 0 then { e with ready := true } else e) = l := by
  refine (List.map_congr_left (fun e inQueue => ?_)).trans (List.map_id l)
  have stands := (List.any_eq_false.mp idle) e inQueue
  by_cases zero : e.hold = 0
  · have ready : e.ready = true := by simpa [zero] using stands
    rw [if_pos zero, ← ready]
    rfl
  · rw [if_neg zero]
    rfl

theorem readyEntries_eq (s : State) :
    s.readyEntries = { s with line := { s.line with
      queue := s.line.queue.map (fun (e : QueueEntry) => if e.hold = 0 then { e with ready := true } else e) } } := by
  unfold State.readyEntries
  split
  · rfl
  · rw [map_ready_idle _ (Bool.eq_false_iff.mpr ‹_›)]

/-- Settles O34: each row by its own count. -/
theorem holdsAndCountersRunOut : Obligations.HoldsAndCountersRunOut := by
  intro s released
  have drives := drives_iff s.member.station
  refine ⟨fun i => ?_, ?_, fun part due => ?_, fun idle => ?_⟩
  · have acts := exec_due (.holdExpiry i) s (fun t => t.freeSlot i.val) rfl released
    refine ⟨fun ended => ?_, fun holds => ?_⟩
    · rw [acts]
      exact congrArg (fun u : State => Host.Outcome.next u.keepUpStart) (if_pos ended)
    · rw [acts]
      exact congrArg (fun u : State => Host.Outcome.next u.keepUpStart) (if_neg holds)
  · rw [exec_due .queueHoldExpiry s State.readyEntries rfl released, readyEntries_eq]
  · rw [exec_due .presenceDue s State.presenceFallsDue rfl released]
    have falls : s.presenceFallsDue = { s with line := { s.line with presenceDue := true } } :=
      if_pos (by simp [drives.mpr part, due])
    rw [falls]
  · rw [exec_due .presenceDue s State.presenceFallsDue rfl released]
    have stands : s.presenceFallsDue = s := by
      refine if_neg (fun both => ?_)
      obtain ⟨part, due⟩ := Bool.and_eq_true_iff.mp both
      exact idle.elim (· (drives.mp part)) (Nat.not_lt.mpr (of_decide_eq_true due))
    rw [stands]

end Sys2Proof.Machine
end

section
/-! PROOFS. What falls due on the line side: an aged station, the note box, the retry counts (R25 to R27, R160, R171, R182). -/

namespace Sys2Proof.Machine

/-! ## A station whose age has run out (R25 to R27) -/

theorem agedOut_cases (s : State) (n : Nat) :
    (¬((s.tables.station n).present = true ∧ 8192 ≤ (s.tables.station n).age) → s.agedOut n = s)
      ∧ ((s.tables.station n).present = true → 8192 ≤ (s.tables.station n).age →
          s.agedOut n = if n = s.number then (s.removeStation n .agedOut).ownRemoved else s.removeStation n .agedOut) := by
  unfold State.agedOut
  refine ⟨fun young => if_neg (by simpa using young), fun there old => if_pos (by simp [there, old])⟩

/-- A station outside MEMBER and LEAVING does not move when its number is removed (R27). -/
theorem ownRemoved_stays (s : State) (member : s.member.station ≠ .member) (leaving : s.member.station ≠ .leaving) :
    s.ownRemoved = s := by
  unfold State.ownRemoved
  split <;> simp_all

theorem ownRemoved_clears (s : State) (part : s.member.station = .member ∨ s.member.station = .leaving) :
    s.ownRemoved.tables = s.tables.cleared := by
  unfold State.ownRemoved
  obtain member | leaving := part
  · simp [member, goTo_tables, StationState.dropsTables]
  · simp [leaving, goTo_tables, StationState.dropsTables]

/-- The removal of one station: its entry, its streams, their slots and its call records, and nothing else (R26). -/
theorem removed_rows (T : LineTables) (n : Nat) (sized : n < T.roster.length) :
    let after := (T.removeStation n).strip T
    after.station n = .absent ∧ (∀ m, m ≠ n → after.station m = T.station m)
      ∧ (∀ x, after.entry x = if x / 4 = n then .none else T.entry x)
      ∧ (∀ i x, T.slots.getD i .free = .owned x → x / 4 = n → after.slots.getD i .free = .held 64)
      ∧ (∀ i, (∀ x, T.slots.getD i .free = .owned x → x / 4 ≠ n) → after.slots.getD i .free = T.slots.getD i .free) := by
  intro after
  obtain ⟨-, gone, others, entries, slots, -⟩ := removed_facts T n sized
  refine ⟨gone, others, entries, fun i x owned own => ?_, fun i foreign => ?_⟩
  · refine (slots i).trans ?_
    rw [owned]
    exact if_pos own
  · refine (slots i).trans ?_
    cases slot : T.slots.getD i .free with
    | owned x => exact if_neg (foreign x slot)
    | free => rfl
    | held => rfl

/-- Settles O35: the removal at an age of 8,192, and the moves of the station whose number it is. -/
theorem anAgedStationIsRemoved : Obligations.AnAgedStationIsRemoved := by
  intro n s released sizes due
  have acts := exec_due (.agedOut n) s (fun t => t.agedOut n.val) rfl released
  obtain ⟨young, old⟩ := agedOut_cases s n.val
  refine ⟨fun early => by rw [acts]; exact congrArg (fun u : State => Host.Outcome.next u.keepUpStart) (young early),
    fun late => ⟨_, acts, ?_⟩⟩
  have ages := old late.1 late.2
  have inside : n.val < s.tables.roster.length := by rw [sizes.1]; exact n.isLt
  have tables := removeStation_tables s n.val .agedOut
  have member : (s.removeStation n.val .agedOut).member = s.member := by simp
  refine ⟨?_, fun foreign => ?_, fun self mine => ?_, fun self leaving => ?_⟩
  · rw [ages]
    repeat' split
    all_goals simp [State.sameAudio]
  · have removes : s.agedOut n.val = s.removeStation n.val .agedOut := by
      rw [ages]
      split
      next self =>
        obtain ⟨notMember, notLeaving⟩ := foreign.resolve_left (Classical.not_not.mpr self)
        exact ownRemoved_stays _ (by rw [member]; exact notMember) (by rw [member]; exact notLeaving)
      next => rfl
    obtain ⟨gone, others, entries, own, rest⟩ := removed_rows s.tables n.val inside
    rw [removes, tables]
    exact ⟨congrArg Membership.station member, gone, others, entries, own, rest, fun j => (removed_call _ _ inside j).1,
      fun j => (removed_call _ _ inside j).2⟩
  · obtain ⟨station, cause⟩ := (ownRemoved_facts (s.removeStation n.val .agedOut)).1 (by rw [member]; exact mine)
    have cleared := ownRemoved_clears (s.removeStation n.val .agedOut) (.inl (by rw [member]; exact mine))
    rw [ages, if_pos self]
    exact ⟨station, cause, by rw [cleared, tables]; rfl⟩
  · obtain ⟨station, cause⟩ := (ownRemoved_facts (s.removeStation n.val .agedOut)).2 (by rw [member]; exact leaving)
    have cleared := ownRemoved_clears (s.removeStation n.val .agedOut) (.inr (by rw [member]; exact leaving))
    rw [ages, if_pos self]
    exact ⟨station, cause, by rw [cleared, tables]; rfl⟩

/-! ## The call unit and the start-up unit look again (R160, R182) -/

theorem send_enters (s : State) (e : QueueEntry) (room : s.line.queue.length < 8) : s.send e = s.enter e := by
  unfold State.send
  exact if_neg (by simpa [State.queueFull] using room)

/-- The look at the own uplink hands a CLAIM of the demanded one on where it is OFFERED and none is under way (R159). -/
theorem claimUplink_claims (s : State) (x : Nat) (p : StreamParameters) (idle : s.call.retry = 0)
    (demanded : s.demandedUplink = some x) (offered : s.tables.entry x = .offered p) (own : x / 4 = s.number)
    (fresh : s.hasOutgoing .callUnit Message.isClaim = false) :
    s.claimUplink = s.send (newEntry (.claim (BitVec.ofNat 8 (x % 4)) 0) .callUnit true none) := by
  unfold State.claimUplink
  rw [demanded]
  exact if_pos ⟨by rw [offered]; rfl, own, idle, fresh⟩

/-- The four looks at an own uplink that is no longer demanded leave a queued CLAIM where it is (R159). -/
theorem releases_keep_claim (s : State) (m : Message) (claims : m.isClaim = true)
    (queued : ∃ e, e ∈ s.line.queue ∧ e.originator = .callUnit ∧ e.auto = true ∧ e.message = m)
    (waiting : ∀ w ∈ s.line.waiting, w.originator = .callUnit → w.message.isClaim = false) (n : Nat) :
    let u := forEach n (fun i acc => acc.releaseUplink i) s
    (∃ e, e ∈ u.line.queue ∧ e.originator = .callUnit ∧ e.auto = true ∧ e.message = m)
      ∧ u.call.retryArmed = s.call.retryArmed
      ∧ ∀ w ∈ u.line.waiting, w.originator = .callUnit → w.message.isClaim = false := by
  intro u
  show (∃ e, e ∈ (forEach n _ s).line.queue ∧ _) ∧ (forEach n _ s).call.retryArmed = _ ∧ ∀ w ∈ (forEach n _ s).line.waiting, _
  induction n with
  | zero => exact ⟨queued, rfl, waiting⟩
  | succ k ih =>
    obtain ⟨stands, armed, still⟩ := ih
    rw [forEach, List.range_succ, List.foldl_append]
    obtain ⟨keeps, rest⟩ := claim_is_armed (forEach k (fun i acc => acc.releaseUplink i) s) still k
    exact ⟨send_claim_stays _ k .callUnit m claims stands, keeps.trans armed, rest⟩

theorem no_waiting_claim (s : State) (fresh : s.hasOutgoing .callUnit Message.isClaim = false) (w : QueueEntry)
    (waits : w ∈ s.line.waiting) (unit : w.originator = .callUnit) : w.message.isClaim = false := by
  have stands := (List.any_eq_false.mp fresh) w (List.mem_append_right _ waits)
  simpa [unit] using stands

/-- The look at the own uplinks with room in the queue: the CLAIM stands queued after it, and the retry is not armed by it
(R159, R160). -/
theorem lookAtUplink_claims (s : State) (x : Nat) (p : StreamParameters) (drives : s.member.station.drives = true)
    (idle : s.call.retry = 0) (demanded : s.demandedUplink = some x) (offered : s.tables.entry x = .offered p)
    (own : x / 4 = s.number) (fresh : s.hasOutgoing .callUnit Message.isClaim = false) (room : s.line.queue.length < 8) :
    (∃ e, e ∈ s.lookAtUplink.line.queue ∧ e.originator = .callUnit ∧ e.auto = true
        ∧ e.message = .claim (BitVec.ofNat 8 (x % 4)) 0)
      ∧ s.lookAtUplink.call.retryArmed = s.call.retryArmed := by
  have looks : s.lookAtUplink = forEach 4 (fun i acc => acc.releaseUplink i) s.claimUplink := if_pos drives
  have claims := claimUplink_claims s x p idle demanded offered own fresh
  rw [send_enters s _ room] at claims
  rw [looks, claims]
  obtain ⟨queued, armed, -⟩ := releases_keep_claim
    (s.enter (newEntry (.claim (BitVec.ofNat 8 (x % 4)) 0) .callUnit true none)) (.claim (BitVec.ofNat 8 (x % 4)) 0) rfl
    ⟨_, (mem_placeEntry _ _ _).mpr (.inl rfl), rfl, rfl, rfl⟩ (no_waiting_claim s fresh) 4
  exact ⟨queued, armed⟩

/-- What is handed on stands queued or waiting as it is, but for its moment of entry (R18). -/
theorem send_hands_on (s : State) (e : QueueEntry) (unit : e.originator ≠ .callUnit) :
    ∃ d, d ∈ (s.send e).line.queue ++ (s.send e).line.waiting ∧ d.originator = e.originator ∧ d.auto = e.auto
      ∧ d.message = e.message := by
  unfold State.send
  split
  · dsimp only
    exact ⟨e, by simp, rfl, rfl, rfl⟩
  · exact ⟨_, List.mem_append_left _ ((mem_placeEntry _ _ _).mpr (.inl rfl)), rfl, rfl, rfl⟩

theorem carryRetry_cases (s : State) (i : Nat) :
    let c := s.startUp.carryRetry.getD i { count := 0, armed := false }
    let spent := { s with startUp.carryRetry := s.startUp.carryRetry.set i { count := 0, armed := false } }
    (c.armed = false ∨ c.count ≠ 0 → s.carryRetry i = s)
      ∧ (c.armed = true → c.count = 0 →
          s.carryRetry i = if s.member.station = .member ∧ (s.tables.entry (s.number * 4 + i)).isOffered = true then
            spent.send (newEntry (.claim (BitVec.ofNat 8 i) 0) .startUp true none) else spent) := by
  intro c spent
  refine ⟨fun idle => if_neg fun both => ?_, fun armed ended => if_pos ?_⟩
  · obtain ⟨armed, ended⟩ := Bool.and_eq_true_iff.mp both
    exact idle.elim (fun off => Bool.noConfusion (off.symm.trans armed)) (· (eq_of_beq ended))
  · exact Bool.and_eq_true_iff.mpr ⟨armed, beq_iff_eq.mpr ended⟩

/-- What a carry retry that has run out leaves, in and outside MEMBER with the stream OFFERED (R182). -/
theorem carryRetry_due (s : State) (i : Nat)
    (armed : (s.startUp.carryRetry.getD i { count := 0, armed := false }).armed = true)
    (ended : (s.startUp.carryRetry.getD i { count := 0, armed := false }).count = 0) :
    (s.carryRetry i).startUp.carryRetry = s.startUp.carryRetry.set i { count := 0, armed := false }
      ∧ (s.carryRetry i).tables = s.tables
      ∧ (s.member.station ≠ .member ∨ (s.tables.entry (s.number * 4 + i)).isOffered = false → (s.carryRetry i).line = s.line)
      ∧ (∀ p, s.member.station = .member → s.tables.entry (s.number * 4 + i) = .offered p →
          ∃ e, e ∈ (s.carryRetry i).line.queue ++ (s.carryRetry i).line.waiting ∧ e.originator = .startUp ∧ e.auto = true
            ∧ e.message = .claim (BitVec.ofNat 8 i) 0) := by
  have acts := (carryRetry_cases s i).2 armed ended
  refine ⟨?_, ?_, fun other => ?_, fun p member offered => ?_⟩
  · rw [acts]
    repeat' split
    all_goals simp
  · rw [acts]
    repeat' split
    all_goals simp
  · rw [acts, if_neg fun both => other.elim (· both.1) fun off => Bool.noConfusion (off.symm.trans both.2)]
  · rw [acts, if_pos ⟨member, by rw [offered]; rfl⟩]
    exact send_hands_on _ (newEntry (.claim (BitVec.ofNat 8 i) 0) .startUp true none) (fun no => by cases no)

/-- Settles O36: the two counts of the note box, the call unit's retry and the four of the start-up unit. -/
theorem noteCountsAndRetriesRunOut : Obligations.NoteCountsAndRetriesRunOut := by
  intro s released freed raised
  have stall := exec_due .noteStall s State.noteStall rfl released
  have expiry := exec_due .noteExpiry s State.noteExpiry rfl released
  have retry := exec_due .uplinkRetry s State.uplinkRetry rfl released
  refine ⟨fun sender total next count data box => ⟨fun due => ?_, fun early => ?_, ?_⟩,
    fun sender total count data box => ⟨fun due => ?_, fun early => ?_, ?_⟩, fun idle => ?_,
    fun x p armed ended drives demanded offered own fresh room => ?_, fun i => ⟨fun idle => ?_, fun armed ended => ?_⟩⟩
  · rw [stall, State.noteStall, box]
    dsimp only
    rw [if_pos due, raise_eq]
    rfl
  · rw [stall, State.noteStall, box]
    dsimp only
    rw [if_neg (Nat.not_le.mpr early)]
  · rw [expiry, State.noteExpiry, box]
  · rw [expiry, State.noteExpiry, box]
    dsimp only
    rw [if_pos due, raise_eq]
    rfl
  · rw [expiry, State.noteExpiry, box]
    dsimp only
    rw [if_neg (Nat.not_le.mpr early)]
  · rw [stall, State.noteStall, box]
  · have stands : s.uplinkRetry = s := by
      refine if_neg fun both => ?_
      obtain ⟨armed, ended⟩ := Bool.and_eq_true_iff.mp both
      exact idle.elim (fun off => Bool.noConfusion (off.symm.trans armed)) (· (eq_of_beq ended))
    rw [retry, stands]
  · have looks : s.uplinkRetry = ({ s with call.retryArmed := false }).lookAtUplink := if_pos (by simp [armed, ended])
    obtain ⟨⟨e, queued, claim⟩, disarmed⟩ :=
      lookAtUplink_claims { s with call.retryArmed := false } x p drives ended demanded offered own fresh room
    refine ⟨_, retry, ?_, ?_, e, ?_, claim⟩
    · rw [looks, disarmed]
    · rw [looks]
      simp
    · rw [looks]
      exact List.mem_append_left _ queued
  · rw [exec_due (.carryRetry i) s (fun t => t.carryRetry i.val) rfl released]
    exact congrArg (fun u : State => Host.Outcome.next u.keepUpStart) ((carryRetry_cases s i.val).1 idle)
  · exact ⟨_, exec_due (.carryRetry i) s (fun t => t.carryRetry i.val) rfl released, carryRetry_due s i.val armed ended⟩

end Sys2Proof.Machine
end

section
/-! PROOFS. The requests that read, and what refuses a request before its own rules (R176 to R178). -/

namespace Sys2Proof.Machine

set_option maxRecDepth 20000

/-! ## Answers of the exchange -/

/-- The state `t` a request of `s` meets, and what the request does to it. -/
def MeetsRequest (s t : State) : Prop :=
  ∀ (c : Instr) (code : Nat) (f : State → Answer), exec c s = s.hostCommand code f →
    exec c s = .next (t.exchange code f).keepUpStart

theorem meets_settled (s : State) (released : s.released) : MeetsRequest s s.settle :=
  fun c code f form => exec_host c s code f form released

section
variable {s t : State} {c : Instr} {code : Nat} {f : State → Answer}

theorem MeetsRequest.refused (meets : MeetsRequest s t) (form : exec c s = s.hostCommand code f) (takes : t.takesRequests)
    (st : Status) (refusal : st ≠ .ok) (refuses : f t.shiftOut = t.shiftOut.refuse st) :
    exec c s = .next (t.answered code st []).keepUpStart := by
  rw [meets c code f form, exchange_refused t code f takes st refusal refuses]

theorem MeetsRequest.told (meets : MeetsRequest s t) (form : exec c s = s.hostCommand code f) (takes : t.takesRequests)
    {l : List Byte} (tells : f t.shiftOut = t.shiftOut.tellHost l) :
    exec c s = .next (t.answered code .ok l).keepUpStart := by
  rw [meets c code f form, exchange_told t code f takes l tells]

theorem tellHost_responds (t : State) (code : Nat) (l : List Byte) :
    (t.shiftOut.tellHost l).1.respond code (t.shiftOut.tellHost l).2.1 (t.shiftOut.tellHost l).2.2 = t.answered code .ok l :=
  rfl

/-- A request that OFFLINE answers too (R178). -/
theorem MeetsRequest.told_awake (meets : MeetsRequest s t) (form : exec c s = s.hostCommand code f)
    (awake : t.member.station ≠ .dormant) (offline : answeredOffline code = true) {l : List Byte}
    (tells : f t.shiftOut = t.shiftOut.tellHost l) : exec c s = .next (t.answered code .ok l).keepUpStart := by
  rw [meets c code f form, exchange_any t code f awake offline, tells, tellHost_responds]

end

/-! ## What comes before a request's own rules -/

theorem wakeRequest_offline (t : State) (flag : Byte) (offline : t.member.station = .offline) :
    t.shiftOut.wakeRequest flag = t.answered 6 .wrongState [] := by
  have station : t.shiftOut.member.station = .offline := offline
  unfold State.wakeRequest
  rw [station]
  rfl

theorem exec_wake (flag : Byte) (s : State) (released : s.released) :
    exec (.wake flag) s = .next (s.settle.shiftOut.wakeRequest flag).keepUpStart :=
  congrArg Host.Outcome.next (act_released s _ released)

theorem not_answeredOffline {code : Nat} (info : code ≠ 1) (status : code ≠ 2) (events : code ≠ 40) :
    answeredOffline code = false := by
  simp [answeredOffline, info, status, events]

theorem wake_of_code (c : Instr) (isWake : requestCode c = some 6) : ∃ flag, c = .wake flag := by
  unfold requestCode at isWake
  cases c with
  | wake flag => exact ⟨flag, rfl⟩
  | _ => simp at isWake

/-- Settles O46: DORMANT, OFFLINE and the ranges, each before the request's own rules. -/
theorem requestsAreRefusedByState : Obligations.RequestsAreRefusedByState := by
  intro c code s released names formed t
  have meets : MeetsRequest s t := meets_settled s released
  have wakes : ∀ flag, exec (.wake flag) s = .next (t.shiftOut.wakeRequest flag).keepUpStart :=
    fun flag => exec_wake flag s released
  clear_value t
  refine ⟨fun dormant notWake => ?_, fun offline info status events => ?_, fun takes outside => ?_⟩
  · obtain ⟨f, form⟩ := request_form c code s names formed notWake
    rw [meets c code f form, exchange_asleep t code f dormant]
  · by_cases isWake : code = 6
    · subst isWake
      obtain ⟨flag, rfl⟩ := wake_of_code c names
      rw [wakes flag, wakeRequest_offline t flag offline]
    · obtain ⟨f, form⟩ := request_form c code s names formed isWake
      rw [meets c code f form, exchange_offline t code f offline (not_answeredOffline info status events)]
  · obtain ⟨f, form, refuses⟩ := range_refused c code s names formed outside
    exact meets.refused form takes .badParameter (fun no => by cases no) (refuses _)

/-! ## The requests that read -/

theorem readZone_own (t : State) (zone : Byte) (z : Nat) (d : ZoneDefinition) (own : t.ownZone zone.toNat = some z)
    (defined : t.definitions[z]? = some d) : t.readZone zone = t.tellHost (t.zoneResults z d) := by
  simp only [State.readZone, own, defined]

theorem readZone_foreign (t : State) (zone : Byte) (foreign : t.ownZone zone.toNat = none) :
    t.readZone zone = t.refuse .noZone := by
  simp only [State.readZone, foreign]

/-! What these requests return does not go by the host port. -/

theorem blendResults_shiftOut (t : State) : t.shiftOut.blendResults = t.blendResults := by
  have nominal : t.shiftOut.nominalDelay = t.nominalDelay := rfl
  have effective : t.shiftOut.effectiveDelay = t.effectiveDelay := rfl
  have length : t.shiftOut.blendLength = t.blendLength := rfl
  have blend : t.shiftOut.blend = t.blend := rfl
  have ports : t.shiftOut.ports = t.ports := rfl
  unfold State.blendResults
  rw [nominal, effective, length, blend, ports]

theorem cancellerResults_shiftOut (t : State) : t.shiftOut.cancellerResults = t.cancellerResults := by
  have call : t.shiftOut.call = t.call := rfl
  have usable : t.shiftOut.referenceUsable = t.referenceUsable := rfl
  have demanded : t.shiftOut.demandedUplink = t.demandedUplink := rfl
  have tables : t.shiftOut.tables = t.tables := rfl
  have outgoing : ∀ o p, t.shiftOut.hasOutgoing o p = t.hasOutgoing o p := fun _ _ => rfl
  have length : t.shiftOut.historyLength = t.historyLength := rfl
  unfold State.cancellerResults
  rw [call, usable, demanded, tables, outgoing, length]

theorem noteResults_shiftOut (t : State) : t.shiftOut.noteResults = t.noteResults := by
  have note : t.shiftOut.note = t.note := rfl
  have part : t.shiftOut.partEntry = t.partEntry := rfl
  unfold State.noteResults
  rw [note, part]

theorem cadenceResults_shiftOut (t : State) (c : Nat) : t.shiftOut.cadenceResults c = t.cadenceResults c := by
  have channel : ∀ k, t.shiftOut.channel k = t.channel k := fun _ => rfl
  have followers : t.shiftOut.followersOf c = t.followersOf c := rfl
  unfold State.cadenceResults
  rw [channel, followers]

theorem readCadence_tells (t : State) (channel : Byte) (low : channel.toNat ≤ 7) :
    checked (decide (channel.toNat ≤ 7)) (fun u => u.tellHost (u.cadenceResults channel.toNat)) t.shiftOut
      = t.shiftOut.tellHost (t.cadenceResults channel.toNat) := by
  rw [checked_true _ _ _ (decide_eq_true low), cadenceResults_shiftOut]

/-- Settles O45: each reading request answers OK with its items. -/
theorem readingRequestsChangeNothing : Obligations.ReadingRequestsChangeNothing := by
  intro s released t
  have meets : MeetsRequest s t := meets_settled s released
  clear_value t
  refine ⟨fun selection awake low => ?_, fun awake => ?_, fun takes => ⟨fun first count low some few => ?_, ?_,
    fun zone z d own defined => ?_, fun zone foreign => ?_, fun first count low some few => ?_, fun channel low => ?_, ?_, ?_, ?_, ?_⟩⟩
  · exact meets.told_awake rfl awake rfl (checked_true _ _ _ (decide_eq_true low))
  · exact meets.told_awake rfl awake rfl rfl
  · exact meets.told rfl takes (checked_true _ _ _ (by simp [low, some, few]))
  · exact meets.told rfl takes rfl
  · exact meets.told rfl takes (readZone_own t.shiftOut zone z d own defined)
  · exact meets.refused rfl takes .noZone (fun no => by cases no) (readZone_foreign t.shiftOut zone foreign)
  · exact meets.told rfl takes (checked_true _ _ _ (by simp [clipInRange, low, some, few]))
  · exact meets.told rfl takes (readCadence_tells t channel low)
  · exact meets.told rfl takes (by rw [blendResults_shiftOut])
  · exact meets.told rfl takes rfl
  · exact meets.told rfl takes (by rw [cancellerResults_shiftOut])
  · exact meets.told rfl takes (by rw [noteResults_shiftOut])

end Sys2Proof.Machine
end

section
/-! PROOFS. Read Events and the transfers by their bytes (R176, R177, R180). -/

namespace Sys2Proof.Machine

set_option maxRecDepth 20000

/-! ## How a transfer's bytes are judged (R176) -/

/-- The parameter length that a transfer's header states. -/
def statedLength (bytes : List Byte) : Nat := (bytes.getD 1 0).toNat * 256 + (bytes.getD 2 0).toNat

/-- The transfer holds as many bytes as its header states, and its check is right. -/
def WholeTransfer (bytes : List Byte) : Prop :=
  5 + statedLength bytes ≤ bytes.length
    ∧ (bytes.drop (3 + statedLength bytes)).take 2 = inBytes 2 (crcBytes (bytes.take (3 + statedLength bytes))).toNat

theorem judgeTransfer_whole (bytes : List Byte) (code : (bytes.headD 0).toNat ≠ 0) (whole : WholeTransfer bytes) :
    judgeTransfer bytes = if lengthMatches (bytes.headD 0).toNat ((bytes.drop 3).take (statedLength bytes)) then none
      else some .badRequest := by
  obtain ⟨long, check⟩ := whole
  have some : bytes.isEmpty = false := by
    cases bytes with
    | nil => simp at long
    | cons => rfl
  exact (if_neg (by simp [some])).trans ((if_neg code).trans ((if_neg (Nat.not_lt.mpr long)).trans (if_neg (Classical.not_not.mpr check))))

theorem judgeTransfer_broken (bytes : List Byte) (code : (bytes.headD 0).toNat ≠ 0) (broken : ¬WholeTransfer bytes) :
    judgeTransfer bytes = some .badCheck := by
  unfold judgeTransfer
  dsimp only
  split
  · rfl
  · split
    next => rfl
    next short =>
      split
      next => rfl
      next check => exact absurd ⟨Nat.not_lt.mp short, Classical.not_not.mp check⟩ broken

theorem badTransfer_refused (bytes : List Byte) (s : State) (status : Status) (judged : judgeTransfer bytes = some status) :
    exec (.badTransfer bytes) s = .next (s.act (fun t => t.refuseTransfer bytes status)) := by
  show execBadTransfer bytes s = _
  unfold execBadTransfer
  rw [judged]

/-- A request taken by its bytes does what its own command does (R177). -/
theorem takeRequest_requestOf (code : Nat) (p : List Byte) (i : Instr) (s : State) (spelt : requestOf code p = some i) :
    takeRequest i s = exec i s := by
  unfold requestOf at spelt
  split at spelt
  all_goals first
    | (cases spelt; rfl)
    | cases spelt

theorem badTransfer_taken (bytes : List Byte) (i : Instr) (s : State) (judged : judgeTransfer bytes = none)
    (spelt : transferRequest bytes = some i) : exec (.badTransfer bytes) s = exec i s := by
  show execBadTransfer bytes s = _
  unfold execBadTransfer
  rw [judged, spelt]
  exact takeRequest_requestOf _ _ i s spelt

theorem numberOf_header (bytes : List Byte) (long : 3 ≤ bytes.length) :
    numberOf ((bytes.drop 1).take 2) = statedLength bytes := by
  obtain _ | ⟨a, _ | ⟨b, _ | ⟨c, rest⟩⟩⟩ := bytes
  · simp at long
  · simp at long
  · simp at long
  · simp [numberOf, statedLength]

/-! ## Read Events (R180) -/

theorem readEvents_responds (t : State) :
    t.shiftOut.readEvents.1.respond 40 t.shiftOut.readEvents.2.1 t.shiftOut.readEvents.2.2
      = ({ t with host := { t.host with events := t.host.events.drop 4 } }).answered 40 .ok
          (listed (t.host.events.take 4) eventBytes) := rfl

theorem refuseTransfer_answers (t : State) (bytes : List Byte) (status : Status) (refusal : status ≠ .ok) :
    t.refuseTransfer bytes status = t.answered (bytes.headD 0).toNat status [] := by
  cases status with
  | ok => exact absurd rfl refusal
  | _ => rfl

/-- Settles O55: Read Events, the transfer for reading, and a transfer by how its bytes are judged. -/
theorem eventsAndTransfers : Obligations.EventsAndTransfers := by
  intro s released t out
  have meets : MeetsRequest s t := meets_settled s released
  have acts : ∀ f : State → State, s.act f = (f t).keepUpStart := fun f => act_released s f released
  clear_value t
  have reads : exec .transferForReading s = .next ({ t with host := out } : State).keepUpStart :=
    congrArg Host.Outcome.next (acts State.shiftOut)
  have refuses : ∀ (bytes : List Byte) (status : Status), judgeTransfer bytes = some status → status ≠ .ok →
      exec (.badTransfer bytes) s = .next (t.answered (bytes.headD 0).toNat status []).keepUpStart :=
    fun bytes status judged refusal => by
      rw [badTransfer_refused bytes s status judged, acts, refuseTransfer_answers t bytes status refusal]
  refine ⟨fun awake => ?_, reads, fun bytes => ⟨fun broken => ?_, fun code whole long => ?_, fun code whole fits i spelt => ?_,
    fun some zero => ?_⟩⟩
  · rw [meets .readEvents 40 State.readEvents rfl, exchange_any t 40 State.readEvents awake rfl, readEvents_responds]
  · refine refuses bytes .badCheck ?_ (fun no => by cases no)
    obtain rfl | ⟨code, broken⟩ := broken
    · rfl
    · exact judgeTransfer_broken bytes code broken
  · refine refuses bytes .badRequest ?_ (fun no => by cases no)
    rw [judgeTransfer_whole bytes code whole]
    exact if_neg (by rw [statedLength, long]; decide)
  · refine badTransfer_taken bytes i s ((judgeTransfer_whole bytes code whole).trans (if_pos fits)) ?_
    have long : 5 + statedLength bytes ≤ bytes.length := whole.1
    rw [transferRequest, numberOf_header bytes (by omega)]
    exact spelt
  · have judged : judgeTransfer bytes = none := by
      cases bytes with
      | nil => exact absurd rfl some
      | cons => exact if_pos zero
    have spells : transferRequest bytes = none := by
      rw [transferRequest, zero]
      rfl
    show execBadTransfer bytes s = _
    unfold execBadTransfer
    rw [judged, spells]
    exact reads

end Sys2Proof.Machine
end

section
/-! PROOFS. The requests that queue a message (R57, R61 to R63, R157). -/

namespace Sys2Proof.Machine

set_option maxRecDepth 20000

/-- An OFFER whose companion binding Table 3-5 does not allow to its kind (R57). -/
def BadBinding (t : State) (m : Message) (companion : Option Binding) : Prop :=
  ∃ index kind channels cls b, m = .offer index kind channels cls ∧ companion = some b
    ∧ ∀ k, kindOf kind.toNat = some k → bindingAllowed t.definitions b k = false

/-- An AUTO CLAIM of an own stream that finds no run (R62). -/
def NoRoom (t : State) (m : Message) (auto : Bool) : Prop :=
  auto = true ∧ ∃ index p, m = .claim index 0
    ∧ t.tables.entry (t.number * 4 + index.toNat) = .offered p ∧ t.tables.chooseRun p.channels p.cls = none

/-- What a request in MEMBER comes to that queues a message, behind the checks of its own. -/
def JudgedForQueue (t u : State) (m : Message) (auto : Bool) (companion : Option Binding) (a : Answer) : Prop :=
  (BadBinding t m companion → a = u.refuse .badBinding) ∧ (NoRoom t m auto → a = u.refuse .noRoom)
    ∧ (¬BadBinding t m companion → ¬NoRoom t m auto → a = u.queueHost m auto companion)

theorem kindOf_low (kind : Nat) (low : kind ≤ 4) : ∃ k, kindOf kind = some k := by
  match kind, low with
  | 0, _ | 1, _ | 2, _ | 3, _ | 4, _ => exact ⟨_, rfl⟩

/-- An offer goes by its binding alone (R57, R61). -/
theorem offerOwn_judged (t : State) (index kind channels cls : Byte) (b : Binding) (low : kind.toNat ≤ 4) :
    JudgedForQueue t t.shiftOut (.offer index kind channels cls) false (some b)
      (t.shiftOut.offerOwn index kind channels cls b) := by
  obtain ⟨k, names⟩ := kindOf_low kind.toNat low
  have judged : t.shiftOut.offerOwn index kind channels cls b = if bindingAllowed t.definitions b k then
      t.shiftOut.queueHost (.offer index kind channels cls) false (some b) else t.shiftOut.refuse .badBinding := by
    unfold State.offerOwn
    rw [names]
    rfl
  rw [judged]
  refine ⟨fun ⟨_, _, _, _, _, offers, companion, forbidden⟩ => if_neg ?_, fun room => absurd room.1 (by decide),
    fun allowed _ => if_pos ?_⟩
  · cases offers
    cases companion
    rw [forbidden k names]
    decide
  · refine Classical.byContradiction fun forbids => ?_
    refine allowed ⟨index, kind, channels, cls, b, rfl, rfl, fun l same => ?_⟩
    rw [names] at same
    cases same
    exact Bool.eq_false_iff.mpr forbids

theorem autoHasNoRoom_iff (t : State) (index : Byte) :
    t.autoHasNoRoom index.toNat = true ↔ NoRoom t (.claim index 0) true := by
  unfold State.autoHasNoRoom
  constructor
  · intro full
    split at full
    · exact ⟨rfl, index, _, rfl, ‹_›, Option.isNone_iff_eq_none.mp full⟩
    · cases full
  · rintro ⟨-, _, p, claims, offered, none⟩
    cases claims
    rw [State.ownStream, offered]
    exact Option.isNone_iff_eq_none.mpr none

theorem no_binding_of_claim (t : State) (index first : Byte) (companion : Option Binding) :
    ¬BadBinding t (.claim index first) companion :=
  fun ⟨_, _, _, _, _, offers, _⟩ => by cases offers

/-- An AUTO CLAIM goes by the room for its stream (R62). -/
theorem carryAuto_judged (t : State) (index : Byte) :
    JudgedForQueue t t.shiftOut (.claim index 0) true none (t.shiftOut.carryOwn index 255) := by
  have full : t.shiftOut.autoHasNoRoom index.toNat = t.autoHasNoRoom index.toNat := rfl
  have judged : t.shiftOut.carryOwn index 255 = if t.autoHasNoRoom index.toNat then t.shiftOut.refuse .noRoom
      else t.shiftOut.queueHost (.claim index 0) true none := by
    rw [State.carryOwn, if_pos rfl, full]
  rw [judged]
  exact ⟨fun bad => absurd bad (no_binding_of_claim t index 0 none), fun room => if_pos ((autoHasNoRoom_iff t index).mpr room),
    fun _ room => if_neg (mt (autoHasNoRoom_iff t index).mp room)⟩

/-- A message that is no OFFER and no AUTO CLAIM is checked no further. -/
theorem queued_judged (t : State) (m : Message) (noOffer : ∀ index kind channels cls, m ≠ .offer index kind channels cls) :
    JudgedForQueue t t.shiftOut m false none (t.shiftOut.queueHost m false none) :=
  ⟨fun ⟨index, kind, channels, cls, _, offers, _⟩ => absurd offers (noOffer index kind channels cls),
    fun room => absurd room.1 (by decide), fun _ _ => rfl⟩

/-- A request that queues a message is judged as MEMBER says, and by its own checks in MEMBER (R61). -/
def QueuesMessage (c : Instr) (code : Nat) (t : State) (m : Message) (auto : Bool) (companion : Option Binding) : Prop :=
  ∃ f g : State → Answer, (∀ s, exec c s = s.hostCommand code f) ∧ f t.shiftOut = t.shiftOut.asMember g
    ∧ JudgedForQueue t t.shiftOut m auto companion (g t.shiftOut)

theorem callRequest_queues (c : Instr) (code : Nat) (t : State) (inRange : Bool) (id action : Byte) (fields : State → CallFields)
    (form : ∀ s, exec c s = s.hostCommand code (callRequest inRange id action fields)) (fits : inRange = true) :
    QueuesMessage c code t (.call id action (fields t.shiftOut)) false none :=
  ⟨_, fun u => u.queueHost (.call id action (fields u)) false none, form, checked_true _ _ _ fits,
    queued_judged t _ (fun _ _ _ _ no => by cases no)⟩

theorem message_request_queues (c : Instr) (code : Nat) (t : State) (m : Message) (auto : Bool) (companion : Option Binding)
    (names : requestCode c = some code) (fits : requestInRange c) (spells : t.requestMessage c = some (m, auto, companion)) :
    QueuesMessage c code t m auto companion := by
  unfold State.requestMessage at spells
  split at spells
  case h_1 index kind channels cls binding number =>
    obtain ⟨low, kinds, some, few, cls, b, names'⟩ := fits
    rw [names'] at spells
    cases spells
    cases names
    refine ⟨_, fun u => u.offerOwn index kind channels _ b, fun s => rfl, ?_, offerOwn_judged t _ _ _ _ b kinds⟩
    rw [checked_true _ _ _ (by simp [offerInRange, low, kinds, some, few, cls, names']), names']
    rfl
  case h_2 index first =>
    obtain ⟨low, first'⟩ := fits
    cases names
    refine ⟨_, fun u => u.carryOwn index first, fun s => rfl, checked_true _ _ _ (by simpa [low] using first'), ?_⟩
    split at spells
    next auto' =>
      cases spells
      rw [auto']
      exact carryAuto_judged t index
    next auto' =>
      cases spells
      have queues : t.shiftOut.carryOwn index first = t.shiftOut.queueHost (.claim index first) false none := if_neg auto'
      show JudgedForQueue t t.shiftOut (.claim index first) false none (t.shiftOut.carryOwn index first)
      rw [queues]
      exact queued_judged t _ (fun _ _ _ _ no => by cases no)
  case h_3 index =>
    cases spells
    cases names
    exact ⟨_, _, fun s => rfl, checked_true _ _ _ (decide_eq_true fits), queued_judged t _ (fun _ _ _ _ no => by cases no)⟩
  case h_4 index =>
    cases spells
    cases names
    exact ⟨_, _, fun s => rfl, checked_true _ _ _ (decide_eq_true fits), queued_judged t _ (fun _ _ _ _ no => by cases no)⟩
  case h_5 id index zones =>
    cases spells
    cases names
    exact callRequest_queues (.callRing id index zones) 29 t (callInRange id && decide (index.toNat ≤ 3)) id 0
      (fun u => { noCallFields with downlink := BitVec.ofNat 8 (u.ownStream index.toNat), zones := zones })
      (fun s => rfl) (by simpa [callInRange] using And.intro fits.1 fits.2)
  case h_6 id mic index reference =>
    cases spells
    cases names
    obtain ⟨low, mics, streams, references⟩ := fits
    exact callRequest_queues (.callAnswer id mic index reference) 30 t
      (callInRange id && decide (mic.toNat ≤ 15) && decide (index.toNat ≤ 3) && streamOrNone reference) id 1
      (fun _ => { noCallFields with uplink := BitVec.ofNat 8 (mic.toNat * 4 + index.toNat), reference := reference, mic := mic })
      (fun s => rfl) (by simpa [callInRange, streamOrNone, low, mics, streams] using references)
  case h_7 id =>
    cases spells
    cases names
    exact callRequest_queues (.callHold id) 31 t (callInRange id) id 2 (fun _ => noCallFields) (fun s => rfl)
      (decide_eq_true fits)
  case h_8 id =>
    cases spells
    cases names
    exact callRequest_queues (.callResume id) 32 t (callInRange id) id 3 (fun _ => noCallFields) (fun s => rfl)
      (decide_eq_true fits)
  case h_9 id zones =>
    cases spells
    cases names
    exact callRequest_queues (.callZones id zones) 33 t (callInRange id) id 4 (fun _ => { noCallFields with zones := zones }) (fun s => rfl)
      (decide_eq_true fits)
  case h_10 id =>
    cases spells
    cases names
    exact callRequest_queues (.callEnd id) 34 t (callInRange id) id 5 (fun _ => noCallFields) (fun s => rfl)
      (decide_eq_true fits)
  case h_11 => cases spells

theorem queueHost_full (t : State) (m : Message) (auto : Bool) (companion : Option Binding) (full : 8 ≤ t.line.queue.length) :
    t.shiftOut.queueHost m auto companion = t.shiftOut.refuse .queueFull :=
  if_pos (by simpa [State.queueFull, State.shiftOut] using full)

theorem queueHost_responds (t : State) (code : Nat) (m : Message) (auto : Bool) (companion : Option Binding)
    (room : t.line.queue.length < 8) :
    (t.shiftOut.queueHost m auto companion).1.respond code (t.shiftOut.queueHost m auto companion).2.1
        (t.shiftOut.queueHost m auto companion).2.2 = (t.hostQueued m auto companion).answered code .ok [] := by
  have queues : t.shiftOut.queueHost m auto companion = (t.shiftOut.enter (newEntry m .host auto companion), .ok, []) :=
    if_neg (by simpa [State.queueFull, State.shiftOut] using room)
  rw [queues]
  rfl

/-- What `asMember` refuses outside MEMBER (R61). -/
theorem asMember_refuses (t : State) (g : State → Answer) :
    (t.member.station = .leaving → t.shiftOut.asMember g = t.shiftOut.refuse .wrongState)
      ∧ (t.member.station ≠ .leaving → t.member.station ≠ .member → t.shiftOut.asMember g = t.shiftOut.refuse .notMember)
      ∧ (t.member.station = .member → t.shiftOut.asMember g = g t.shiftOut) := by
  have station : t.shiftOut.member.station = t.member.station := rfl
  rw [asMember_eq, station]
  refine ⟨fun leaving => ?_, fun notLeaving notMember => ?_, fun member => if_pos member⟩
  · rw [if_neg (by rw [leaving]; decide), if_pos leaving]
  · rw [if_neg notMember, if_neg notLeaving]

/-- Settles O47: MEMBER, the request's own checks, the room in the queue. -/
theorem messageRequestsQueueInMember : Obligations.MessageRequestsQueueInMember := by
  intro c code m auto companion s released names fits t spells takes
  have meets : MeetsRequest s t := meets_settled s released
  clear_value t
  obtain ⟨f, g, form, asks, bad, room, queues⟩ := message_request_queues c code t m auto companion names fits spells
  obtain ⟨leaving, outside, member⟩ := asMember_refuses t g
  refine ⟨fun left => ?_, fun notLeaving notMember => ?_, fun inLine => ?_⟩
  · exact meets.refused (form s) takes .wrongState (fun no => by cases no) (asks.trans (leaving left))
  · exact meets.refused (form s) takes .notMember (fun no => by cases no) (asks.trans (outside notLeaving notMember))
  · have dealt := asks.trans (member inLine)
    refine ⟨fun forbidden => ?_, fun full => ?_, fun allowed carries full => ?_, fun allowed carries place => ?_⟩
    · exact meets.refused (form s) takes .badBinding (fun no => by cases no) (dealt.trans (bad forbidden))
    · exact meets.refused (form s) takes .noRoom (fun no => by cases no) (dealt.trans (room full))
    · exact meets.refused (form s) takes .queueFull (fun no => by cases no)
        ((dealt.trans (queues allowed carries)).trans (queueHost_full t m auto companion full))
    · rw [meets c code f (form s), exchange_on t code f takes, dealt, queues allowed carries,
        queueHost_responds t code m auto companion place]

end Sys2Proof.Machine
end

section
/-! PROOFS. Leave Line, Rejoin, Stay Awake and Wake (R43, R44, R179, R185). -/

namespace Sys2Proof.Machine

set_option maxRecDepth 20000

/-! ## What a change of station state leaves -/

/-- The zones after a change of state, seen from a state before that differs from the mover's where no zone looks, and from one
after that differs likewise. -/
theorem zonesTaken_moved {t v u : State} {new : StationState} {cause : Cause} (mixer : v.mixer = t.mixer)
    (station : v.member.station = t.member.station) (record : v.startUp.record = t.startUp.record)
    (onLine : t.member.station ≠ .offline) (online : new ≠ .offline) (member' : u.member = (v.goTo new cause).member)
    (tables' : u.tables = (v.goTo new cause).tables) (mixer' : u.mixer = (v.goTo new cause).mixer) : t.zonesTaken u true := by
  have taken := goTo_zones v new cause (by rw [station]; exact onLine) online
  intro z d four inside defined
  have same : v.zone z = t.zone z := by rw [State.zone, State.zone, mixer]
  obtain ⟨routes, q, tested, positioned, aimed, -⟩ :=
    taken z d four (by rw [mixer]; exact inside) (by rw [definitions_of t v station record]; exact defined)
  rw [same] at tested positioned aimed
  have zone : u.zone z = (v.goTo new cause).zone z := by rw [State.zone, State.zone, mixer']
  exact ⟨routes, q, routesTested_of (by rw [member']) (by rw [tables']) tested,
    positionTaken_of (by rw [member']) (by rw [tables']) (by rw [tables']) positioned, by rw [zone]; exact aimed,
    fun _ untested => by cases untested⟩

/-- A station that takes no part on the line keeps its notes at a change of state. -/
theorem goTo_note_off (s : State) (new : StationState) (cause : Cause) (off : s.member.station.takesPart = false) :
    (s.goTo new cause).note = s.note := by
  have notJoining : ¬(s.member.station = .joining ∧ new = .member) := fun both => by
    rw [both.1] at off
    cases off
  unfold State.goTo
  dsimp only
  rw [if_neg notJoining, off, Bool.false_and, if_neg Bool.false_ne_true]
  repeat' split
  all_goals simp

/-! ## Leave Line and Rejoin (R43, R44) -/

theorem leaveLine_cases (t : State) :
    (8 ≤ t.line.queue.length → t.shiftOut.leaveLine = t.shiftOut.refuse .queueFull)
      ∧ (t.line.queue.length < 8 → t.shiftOut.leaveLine
          = ((t.shiftOut.enter (newEntry .leave .host false none)).goTo .leaving .leaveRequested, .ok, [])) :=
  ⟨fun full => if_pos (by simpa [State.queueFull, State.shiftOut] using full),
    fun room => if_neg (by simpa [State.queueFull, State.shiftOut] using room)⟩

/-- A LEAVE queued and the move to LEAVING (R43). -/
theorem leaveLine_moves (t : State) (member : t.member.station = .member) :
    let u := ((t.shiftOut.enter (newEntry .leave .host false none)).goTo .leaving .leaveRequested).respond 3 .ok []
    u.member.station = .leaving ∧ u.member.cause = some .leaveRequested ∧ u.tables = t.tables
      ∧ (∃ e, e ∈ u.line.queue ∧ e.originator = .host ∧ e.message = .leave)
      ∧ u.host.response = some { code := 3, status := .ok, results := [] } ∧ t.zonesTaken u true ∧ State.sameAudio t u := by
  obtain ⟨v, entered⟩ : ∃ v, v = t.shiftOut.enter (newEntry .leave .host false none) := ⟨_, rfl⟩
  have queued : ∃ e, e ∈ v.line.queue ∧ e.originator = .host ∧ e.message = .leave :=
    ⟨_, by rw [entered]; exact (mem_placeEntry _ _ _).mpr (.inl rfl), rfl, rfl⟩
  have station : v.member.station = t.member.station := by rw [entered]; rfl
  have record : v.startUp.record = t.startUp.record := by rw [entered]; rfl
  have mixer : v.mixer = t.mixer := by rw [entered]; rfl
  have tables : v.tables = t.tables := by rw [entered]; rfl
  have audio : State.sameAudio t v := by rw [entered]; exact ⟨rfl, rfl, rfl, rfl, rfl, rfl⟩
  rw [← entered]
  clear entered
  intro u
  have line : u.line = (v.goTo .leaving .leaveRequested).line := (State.respond_frame _ _ _ _).2.2.1
  have tables' : u.tables = (v.goTo .leaving .leaveRequested).tables := (State.respond_frame _ _ _ _).2.2.2.1
  have member' : u.member = (v.goTo .leaving .leaveRequested).member := (State.respond_frame _ _ _ _).2.2.2.2.1
  have mixer' : u.mixer = (v.goTo .leaving .leaveRequested).mixer := (State.respond_frame _ _ _ _).2.2.2.2.2.2.2.2.1
  obtain ⟨state, cause⟩ := goTo_station v .leaving .leaveRequested
  obtain ⟨e, waits, host, leaves⟩ := queued
  refine ⟨by rw [member', state], by rw [member', cause], ?_, ⟨e, ?_, host, leaves⟩, rfl,
    zonesTaken_moved mixer station record (by rw [member]; decide) (fun no => by cases no) member' tables' mixer', ?_⟩
  · rw [tables', goTo_tables, ← tables]
    rfl
  · rw [line]
    exact stays_goTo_leaving v _ (station.trans member) e waits
  · exact sameAudio_trans t _ u audio (sameAudio_trans v _ u (goTo_audio v .leaving .leaveRequested) (by simp [u, State.sameAudio]))

theorem rejoin_cases (t : State) :
    (t.member.station = .detached ∨ t.member.station = .silenced →
        t.shiftOut.rejoin = (t.shiftOut.goTo .listening .rejoin, .ok, []))
      ∧ (t.member.station ≠ .detached → t.member.station ≠ .silenced → t.shiftOut.rejoin = t.shiftOut.refuse .wrongState) := by
  have station : t.shiftOut.member.station = t.member.station := rfl
  unfold State.rejoin
  rw [station]
  refine ⟨fun off => ?_, fun notDetached notSilenced => ?_⟩
  · obtain detached | silenced := off
    · rw [detached]
    · rw [silenced]
  · split
    · exact absurd ‹_› notDetached
    · exact absurd ‹_› notSilenced
    · rfl

/-- The move to LISTENING of a station that rejoins (R44). -/
theorem rejoin_moves (t : State) (off : t.member.station = .detached ∨ t.member.station = .silenced) :
    let u := (t.shiftOut.goTo .listening .rejoin).respond 4 .ok []
    u.member.station = .listening ∧ u.member.cause = some .rejoin ∧ u.member.undamaged = 0
      ∧ u.tables = t.tables.cleared ∧ u.host.response = some { code := 4, status := .ok, results := [] }
      ∧ t.zonesTaken u true ∧ State.sameAudio t u := by
  have station : t.shiftOut.member.station = t.member.station := rfl
  have record : t.shiftOut.startUp.record = t.startUp.record := rfl
  have mixer : t.shiftOut.mixer = t.mixer := rfl
  have tables : t.shiftOut.tables = t.tables := rfl
  have audio : State.sameAudio t t.shiftOut := ⟨rfl, rfl, rfl, rfl, rfl, rfl⟩
  generalize t.shiftOut = v at *
  intro u
  have awake : v.member.station ≠ .listening := fun listening => by
    rw [← station, listening] at off
    exact off.elim (fun no => by cases no) (fun no => by cases no)
  have onLine : t.member.station ≠ .offline := fun offline => by
    rw [offline] at off
    exact off.elim (fun no => by cases no) (fun no => by cases no)
  have tables' : u.tables = (v.goTo .listening .rejoin).tables := (State.respond_frame _ _ _ _).2.2.2.1
  have member' : u.member = (v.goTo .listening .rejoin).member := (State.respond_frame _ _ _ _).2.2.2.2.1
  have mixer' : u.mixer = (v.goTo .listening .rejoin).mixer := (State.respond_frame _ _ _ _).2.2.2.2.2.2.2.2.1
  obtain ⟨state, cause⟩ := goTo_station v .listening .rejoin
  obtain ⟨undamaged, -⟩ := (goTo_enter v .listening .rejoin awake).2 rfl
  refine ⟨by rw [member', state], by rw [member', cause], by rw [member', undamaged], ?_, rfl,
    zonesTaken_moved mixer station record onLine (fun no => by cases no) member' tables' mixer', ?_⟩
  · rw [tables', goTo_tables, ← tables]
    rfl
  · exact sameAudio_trans t v u audio (sameAudio_trans v _ u (goTo_audio v .listening .rejoin) (by simp [u, State.sameAudio]))

/-! ## Stay Awake and Wake (R179, R185) -/

theorem stayAwake_responds (t : State) (on : Bool) :
    checked (flagInRange (if on then 1 else 0)) (fun u => ({ u with host.stayAwake := (if on then 1 else 0 : Byte) == 1 }, .ok, []))
        t.shiftOut
      = ({ t.shiftOut with host.stayAwake := on }, .ok, []) := by
  cases on <;> rfl

theorem wakeRequest_dormant (t : State) (flag : Byte) (dormant : t.member.station = .dormant) :
    (1 < flag.toNat → t.shiftOut.wakeRequest flag = t.answered 6 .badParameter [])
      ∧ (flag.toNat ≤ 1 → t.shiftOut.wakeRequest flag = (t.shiftOut.wake .wakeRequest (flag == 1)).respond 6 .ok []) := by
  have station : t.shiftOut.member.station = .dormant := dormant
  unfold State.wakeRequest
  rw [station]
  exact ⟨fun beyond => if_neg (by simpa [flagInRange] using beyond), fun fits => if_pos (by simpa [flagInRange] using fits)⟩

theorem wakeRequest_awake (t : State) (flag : Byte) (takes : t.takesRequests) :
    t.shiftOut.wakeRequest flag = t.answered 6 (if flag.toNat ≤ 1 then .wrongState else .badParameter) [] := by
  have station : t.shiftOut.member.station = t.member.station := rfl
  have flags : (if flagInRange flag then Status.wrongState else .badParameter)
      = if flag.toNat ≤ 1 then .wrongState else .badParameter := by simp [flagInRange]
  unfold State.wakeRequest
  rw [station]
  split
  · exact absurd ‹_› takes.1
  · exact absurd ‹_› takes.2
  · rw [flags]
    repeat' split
    all_goals rfl

theorem wake_notes (t : State) (cause : Cause) (stayAwake : Bool) {r : StartUpRecord} (record : t.startUp.record = some r) :
    (t.wake cause stayAwake).note = State.reset.note ∧ (t.wake cause stayAwake).member.undamaged = 0 := by
  obtain ⟨z, woken, note, station⟩ : ∃ z : State, t.wake cause stayAwake = (z.setUp r).goTo .listening .startUp
      ∧ z.note = State.reset.note ∧ z.member.station = .offline :=
    ⟨{ t.keepingReset cause with host.stayAwake := stayAwake, host.shifted := t.host.shifted }, by rw [State.wake, record],
      rfl, rfl⟩
  have off : (z.setUp r).member.station = .offline := by simp [station]
  rw [woken]
  refine ⟨?_, ((goTo_enter (z.setUp r) .listening .startUp (by rw [off]; decide)).2 rfl).1⟩
  rw [goTo_note_off _ _ _ (by rw [off]; rfl)]
  simp [note]

/-- Settles O48: the four requests, each by the state of the station. -/
theorem stationRequestsMoveTheStation : Obligations.StationRequestsMoveTheStation := by
  intro s released t
  have meets : MeetsRequest s t := meets_settled s released
  have wakes : ∀ flag, exec (.wake flag) s = .next (t.shiftOut.wakeRequest flag).keepUpStart :=
    fun flag => exec_wake flag s released
  clear_value t
  obtain ⟨leaving, outside, inLine⟩ := asMember_refuses t State.leaveLine
  obtain ⟨full, room⟩ := leaveLine_cases t
  obtain ⟨rejoins, stays⟩ := rejoin_cases t
  refine ⟨fun member eight => ?_, fun member place => ?_, fun left => ?_, fun takes notLeaving notMember => ?_, fun off => ?_,
    fun takes notDetached notSilenced => ?_, fun on takes => ?_,
    fun flag dormant => ⟨fun beyond => ?_, fun r fits record => ?_⟩, fun flag takes => ?_⟩
  · exact meets.refused (c := .leaveLine) rfl ⟨by rw [member]; decide, by rw [member]; decide⟩ .queueFull (fun no => by cases no)
      ((inLine member).trans (full eight))
  · refine ⟨_, ?_, leaveLine_moves t member⟩
    rw [meets .leaveLine 3 (fun u => u.asMember State.leaveLine) rfl,
      exchange_on t 3 _ ⟨by rw [member]; decide, by rw [member]; decide⟩, inLine member, room place]
  · exact meets.refused (c := .leaveLine) rfl ⟨by rw [left]; decide, by rw [left]; decide⟩ .wrongState (fun no => by cases no)
      (leaving left)
  · exact meets.refused (c := .leaveLine) rfl takes .notMember (fun no => by cases no) (outside notLeaving notMember)
  · refine ⟨_, ?_, rejoin_moves t off⟩
    have takes : t.takesRequests := by obtain detached | silenced := off <;> simp [State.takesRequests, *]
    rw [meets .rejoin 4 State.rejoin rfl, exchange_on t 4 _ takes, rejoins off]
  · exact meets.refused (c := .rejoin) rfl takes .wrongState (fun no => by cases no) (stays notDetached notSilenced)
  · rw [meets (.stayAwake (if on then 1 else 0)) 5 _ rfl, exchange_on t 5 _ takes, stayAwake_responds]
    rfl
  · rw [wakes flag, (wakeRequest_dormant t flag dormant).1 beyond]
  · obtain ⟨station, -, -, -, awake, kept, -, -, -, -, -, queue, waiting, tables⟩ :=
      wake_facts t.shiftOut .wakeRequest (flag == 1) (r := r) record
    obtain ⟨note, undamaged⟩ := wake_notes t.shiftOut .wakeRequest (flag == 1) (r := r) record
    have wakes' := wakes flag
    rw [(wakeRequest_dormant t flag dormant).2 fits] at wakes'
    generalize t.shiftOut.wake .wakeRequest (flag == 1) = w at *
    refine ⟨_, wakes', ?_⟩
    simp only [State.respond_frame]
    exact ⟨station, undamaged, tables, awake, rfl, kept, note, queue, waiting⟩
  · rw [wakes flag, wakeRequest_awake t flag takes]

end Sys2Proof.Machine
end

section
/-! PROOFS. Note Send and Note Read (R172, R173). -/

namespace Sys2Proof.Machine

set_option maxRecDepth 20000

theorem takesNotes_iff (t : State) (target : Nat) :
    t.takesNotes target = true ↔ target ≠ t.number ∧ (t.tables.station target).present = true
      ∧ (t.tables.station target).roles.attended = true := by
  simp [State.takesNotes, and_assoc]

/-- A Note Send in MEMBER: no station to take it, a note under way, or the note taken (R173). -/
theorem noteRequest_cases (t : State) (target total : Nat) (data : List Byte) :
    (¬(target ≠ t.number ∧ (t.tables.station target).present = true ∧ (t.tables.station target).roles.attended = true) →
        t.shiftOut.noteRequest target total data = t.shiftOut.refuse .noStation)
      ∧ (t.takesNotes target = true → ∀ p, t.note.outbound.state = .sending p →
          t.shiftOut.noteRequest target total data = t.shiftOut.refuse .busy)
      ∧ (t.takesNotes target = true → (∀ p, t.note.outbound.state ≠ .sending p) →
          t.shiftOut.noteRequest target total data = (t.shiftOut.beginNote target total data, .ok, [])) := by
  have takes : t.shiftOut.takesNotes target = t.takesNotes target := rfl
  have outbound : t.shiftOut.note.outbound = t.note.outbound := rfl
  unfold State.noteRequest
  rw [takes, outbound]
  refine ⟨fun none => if_pos (Bool.eq_false_iff.mpr (mt (takesNotes_iff t target).mp none)), fun some p sending => ?_,
    fun some free => ?_⟩
  · rw [if_neg (by rw [some]; decide), sending]
    rfl
  · rw [if_neg (by rw [some]; decide)]
    refine if_neg ?_
    cases state : t.note.outbound.state with
    | sending p => exact absurd state (free p)
    | _ => exact Bool.false_ne_true

/-- The note that a Note Send begins, with its part 0 handed on (R173). -/
theorem beginNote_begins (v : State) (target : Byte) (total : BitVec 16) (data : List Byte) :
    let u := (v.beginNote target.toNat total.toNat data).respond 37 .ok []
    u.note = { v.note with outbound :=
        { state := .sending 0, target := target.toNat, total := total.toNat, data := data,
          lastFailure := v.note.outbound.lastFailure } }
      ∧ u.host.response = some { code := 37, status := .ok, results := [] }
      ∧ (∃ e d, e ∈ u.line.queue ++ u.line.waiting ∧ e.originator = .noteUnit ∧ e.message = .notePart target 0 total d
          ∧ ∀ i, i < 16 → d.extractLsb' (8 * (15 - i)) 8 = data.getD i 0)
      ∧ u.tables = v.tables ∧ u.member = v.member ∧ State.sameAudio v u ∧ u.mixer = v.mixer := by
  intro u
  have line : u.line = (v.beginNote target.toNat total.toNat data).line := (State.respond_frame _ _ _ _).2.2.1
  have note : u.note = (v.beginNote target.toNat total.toNat data).note :=
    (State.respond_frame _ _ _ _).2.2.2.2.2.2.2.2.2.2.2.2.1
  refine ⟨?_, rfl, ?_, by simp [u], by simp [u], by simp [u, State.sameAudio], by simp [u]⟩
  · rw [note]
    simp [State.beginNote, State.sendPart]
  · obtain ⟨e, out, unit, -, message⟩ := send_hands_on
      { v with note.outbound := { state := .sending 0, target := target.toNat, total := total.toNat, data := data,
                                  lastFailure := v.note.outbound.lastFailure } }
      (newEntry (.notePart (BitVec.ofNat 8 target.toNat) (BitVec.ofNat 8 0) (BitVec.ofNat 16 total.toNat)
        (partData data 0)) .noteUnit false none) (fun no => by cases no)
    refine ⟨e, partData data 0, by rw [line]; exact out, unit, ?_, partData_byte data⟩
    rw [message]
    simp [newEntry]

theorem noteRead_empty (t : State) (offset count : Nat)
    (empty : ∀ sender total expiry data, t.note.box ≠ .full sender total expiry data) :
    t.shiftOut.noteRead offset count = t.shiftOut.refuse .wrongState := by
  have box : t.shiftOut.note.box = t.note.box := rfl
  unfold State.noteRead
  rw [box]
  split
  · exact absurd ‹_› (empty _ _ _ _)
  · rfl

/-- A Note Read of a FULL box, by where its piece lies (R172). -/
theorem noteRead_full (t : State) (offset count sender total expiry : Nat) (data : List Byte)
    (full : t.note.box = .full sender total expiry data) :
    let answer := inBytes 1 sender ++ inBytes 2 total ++ listed (((data.take total).drop offset).take count) (fun b => [b])
    (total ≤ offset → t.shiftOut.noteRead offset count = t.shiftOut.refuse .badParameter)
      ∧ (offset < total → offset + count < total → t.shiftOut.noteRead offset count = t.shiftOut.tellHost answer)
      ∧ (offset < total → total ≤ offset + count →
          t.shiftOut.noteRead offset count = ({ t.shiftOut with note.box := .free }, .ok, answer)) := by
  intro answer
  have box : t.shiftOut.note.box = .full sender total expiry data := full
  unfold State.noteRead
  rw [box]
  dsimp only
  refine ⟨fun beyond => if_pos beyond, fun inside more => ?_, fun inside last => ?_⟩
  · rw [if_neg (Nat.not_le.mpr inside), if_neg (Nat.not_le.mpr more)]
    rfl
  · rw [if_neg (Nat.not_le.mpr inside), if_pos last]
    rfl

theorem badRequest_responds (t : State) (code : Nat) :
    t.shiftOut.respond code .badRequest [] = t.answered code .badRequest [] := rfl

theorem exec_noteSend_length (target : Byte) (total : BitVec 16) (data : List Byte) (s : State) (released : s.released)
    (length : data.length ≠ total.toNat) :
    exec (.noteSend target total data) s = .next (s.settle.answered 37 .badRequest []).keepUpStart := by
  show execNoteSend target total data s = _
  rw [execNoteSend, if_neg length, act_released s _ released, badRequest_responds]

/-- Settles O54: Note Send by its checks in their order, Note Read by the box and the place of the piece. -/
theorem noteRequestsSendAndRead : Obligations.NoteRequestsSendAndRead := by
  intro s released t
  have meets : MeetsRequest s t := meets_settled s released
  have lengths : ∀ target total data, List.length data ≠ BitVec.toNat total →
      exec (.noteSend target total data) s = .next (t.answered 37 .badRequest []).keepUpStart :=
    fun target total data => exec_noteSend_length target total data s released
  clear_value t
  refine ⟨fun target total data => ⟨lengths target total data, fun formed fits => ?_⟩, fun offset count fits takes => ?_⟩
  · obtain ⟨low, some, few⟩ := fits
    have form := noteSend_form target total data s formed
    obtain ⟨leaving, outside, member⟩ := asMember_refuses t (fun u => u.noteRequest target.toNat total.toNat data)
    obtain ⟨none, busy, free⟩ := noteRequest_cases t target.toNat total.toNat data
    have dealt : checked (decide (target.toNat ≤ 15) && decide (1 ≤ total.toNat ∧ total.toNat ≤ 256))
        (fun u => u.asMember (fun v => v.noteRequest target.toNat total.toNat data)) t.shiftOut
          = t.shiftOut.asMember (fun v => v.noteRequest target.toNat total.toNat data) :=
      checked_true _ _ _ (by simp [low, some, few])
    have inLine : t.member.station = .member → t.takesRequests :=
      fun station => ⟨by rw [station]; decide, by rw [station]; decide⟩
    refine ⟨fun left => ?_, fun takes notLeaving notMember => ?_, fun station absent => ?_, fun station notes p sending => ?_,
      fun station notes idle => ?_⟩
    · exact meets.refused form ⟨by rw [left]; decide, by rw [left]; decide⟩ .wrongState (fun no => by cases no)
        (dealt.trans (leaving left))
    · exact meets.refused form takes .notMember (fun no => by cases no) (dealt.trans (outside notLeaving notMember))
    · exact meets.refused form (inLine station) .noStation (fun no => by cases no)
        ((dealt.trans (member station)).trans (none absent))
    · exact meets.refused form (inLine station) .busy (fun no => by cases no)
        ((dealt.trans (member station)).trans (busy ((takesNotes_iff t _).mpr notes) p sending))
    · refine ⟨_, ?_, beginNote_begins t.shiftOut target total data⟩
      rw [meets _ 37 _ form, exchange_on t 37 _ (inLine station), dealt, member station,
        free ((takesNotes_iff t _).mpr notes) idle]
  · have dealt : checked (decide (1 ≤ count.toNat ∧ count.toNat ≤ 64)) (fun u => u.noteRead offset.toNat count.toNat) t.shiftOut
        = t.shiftOut.noteRead offset.toNat count.toNat := checked_true _ _ _ (decide_eq_true fits)
    refine ⟨fun empty => ?_, fun sender total' expiry data full => ?_⟩
    · exact meets.refused (c := .noteRead offset count) rfl takes .wrongState (fun no => by cases no)
        (dealt.trans (noteRead_empty t _ _ empty))
    · obtain ⟨beyond, inside, last⟩ := noteRead_full t offset.toNat count.toNat sender total' expiry data full
      refine ⟨fun outside => ?_, fun starts more => ?_, fun starts ends => ?_⟩
      · exact meets.refused (c := .noteRead offset count) rfl takes .badParameter (fun no => by cases no)
          (dealt.trans (beyond outside))
      · exact meets.told (c := .noteRead offset count) rfl takes (dealt.trans (inside starts more))
      · rw [meets (.noteRead offset count) 38 _ rfl, exchange_on t 38 _ takes, dealt, last starts ends]
        rfl

end Sys2Proof.Machine
end

section
/-! PROOFS. The Route request (R104). -/

namespace Sys2Proof.Machine

set_option maxRecDepth 20000

theorem inBytes_one (n : Nat) : inBytes 1 n = [BitVec.ofNat 8 n] := by simp [inBytes]

/-- The Route request by whose zone it names. -/
theorem routeRequest_cases (t : State) (zone stream action level : Byte) :
    (∀ z, t.ownZone zone.toNat = some z → t.shiftOut.routeRequest zone stream action level
        = ((t.shiftOut.judgeRoute z stream.toNat action.toNat level.toNat).1, .ok,
            [BitVec.ofNat 8 (t.shiftOut.judgeRoute z stream.toNat action.toNat level.toNat).2.code]))
      ∧ (t.ownZone zone.toNat = none → inSet t.tables.zonesPresent zone.toNat = true →
          t.shiftOut.routeRequest zone stream action level
            = t.shiftOut.asMember (fun u => u.queueHost (.route zone stream action level) false none))
      ∧ (t.ownZone zone.toNat = none → inSet t.tables.zonesPresent zone.toNat = false →
          t.shiftOut.routeRequest zone stream action level = t.shiftOut.refuse .noZone) := by
  have own : t.shiftOut.ownZone zone.toNat = t.ownZone zone.toNat := rfl
  have tables : t.shiftOut.tables = t.tables := rfl
  unfold State.routeRequest
  rw [own, tables]
  refine ⟨fun z owned => ?_, fun foreign there => ?_, fun foreign absent => ?_⟩
  · rw [owned]
    dsimp only
    rw [inBytes_one]
  · rw [foreign]
    exact if_pos there
  · rw [foreign]
    exact if_neg (by rw [absent]; decide)

/-- A Route judged by the owner, over a state `v` that the zones cannot tell from `t` (R102, R103, R107). -/
theorem ownRoute_judged {t v : State} (mixer : v.mixer = t.mixer) (directory : v.tables.directory = t.tables.directory)
    (station : v.member.station = t.member.station) (definitions : v.definitions = t.definitions) (z x a level : Nat)
    (action : a ≤ 2) (owned : ∃ d, t.definitions[z]? = some d) (inside : z < t.mixer.zones.length) :
    (v.judgeRoute z x a level).2.code = t.routeCode z x a
      ∧ (t.routeCode z x a ≠ 0 → (v.judgeRoute z x a level).1.mixer = t.mixer)
      ∧ (t.routeCode z x a = 0 → t.routeTaken (v.judgeRoute z x a level).1 z x a level) := by
  obtain ⟨d, defined⟩ := owned
  have inside' : z < v.mixer.zones.length := by rw [mixer]; exact inside
  obtain ⟨code, -, refused, -⟩ := judgeRoute_facts v z x a level action inside' d (by rw [definitions]; exact defined)
  rw [routeCode_same mixer directory] at code refused
  refine ⟨code, fun bad => (refused bad).trans mixer, fun good => ?_⟩
  have taken : (v.judgeRoute z x a level).2 = .taken := by
    rw [good] at code
    cases verdict : (v.judgeRoute z x a level).2 with
    | taken => rfl
    | _ =>
      rw [verdict] at code
      cases code
  exact routeTaken_same (judgeRoute_taken v z x a level inside' action taken) mixer directory station definitions rfl

/-- Settles O49: an own zone, another station's, and none. -/
theorem routeRequestsAreJudgedOrQueued : Obligations.RouteRequestsAreJudgedOrQueued := by
  intro zone stream action level s released t c x fits takes
  have meets : MeetsRequest s t := meets_settled s released
  clear_value t
  obtain ⟨zones, streams, actions, levels⟩ := fits
  obtain ⟨own, elsewhere, nowhere⟩ := routeRequest_cases t zone stream action level
  have dealt : checked (Message.route zone stream action level).inRange (fun u => u.routeRequest zone stream action level) t.shiftOut
      = t.shiftOut.routeRequest zone stream action level :=
    checked_true _ _ _ (by simp [Message.inRange, zones, streams, actions, levels])
  refine ⟨fun z owned inside => ?_, fun foreign there => ?_, fun foreign absent => ?_⟩
  · have defined := findIdx_get _ _ _ owned
    obtain ⟨code, refused, taken⟩ :=
      ownRoute_judged (v := t.shiftOut) (t := t) rfl rfl rfl rfl z x action.toNat level.toNat actions defined inside
    refine ⟨(t.shiftOut.judgeRoute z x action.toNat level.toNat).1.respond 13 .ok
      [BitVec.ofNat 8 (t.shiftOut.judgeRoute z x action.toNat level.toNat).2.code], ?_, ?_, ?_, ?_, ?_, fun bad => ?_, fun good => ?_⟩
    · rw [meets c 13 _ rfl, exchange_on t 13 _ takes, dealt, own z owned]
    · simp [State.sameLine, State.shiftOut]
    · simp [State.sameAudio, State.shiftOut]
    · simp [State.shiftOut]
    · rw [code]
      rfl
    · simpa using refused bad
    · exact routeTaken_same (taken good) rfl rfl rfl rfl (by simp)
  · obtain ⟨leaving, outside, member⟩ := asMember_refuses t (fun u => u.queueHost (.route zone stream action level) false none)
    have asks := dealt.trans (elsewhere foreign there)
    refine ⟨fun left => ?_, fun notLeaving notMember => ?_, fun inLine full => ?_, fun inLine place => ?_⟩
    · exact meets.refused (c := c) rfl takes .wrongState (fun no => by cases no) (asks.trans (leaving left))
    · exact meets.refused (c := c) rfl takes .notMember (fun no => by cases no) (asks.trans (outside notLeaving notMember))
    · exact meets.refused (c := c) rfl takes .queueFull (fun no => by cases no)
        ((asks.trans (member inLine)).trans (queueHost_full t _ _ _ full))
    · rw [meets c 13 _ rfl, exchange_on t 13 _ takes, asks, member inLine, queueHost_responds t 13 _ _ _ place]
  · exact meets.refused (c := c) rfl takes .noZone (fun no => by cases no) (dealt.trans (nowhere foreign absent))

end Sys2Proof.Machine
end

section
/-! PROOFS. The requests of clips and plays (R119 to R121, R124). -/

namespace Sys2Proof.Machine

set_option maxRecDepth 20000

/-! ## Answers without results -/

theorem MeetsRequest.plain_refused {s t : State} {c : Instr} {code : Nat} {f : State → State × Status} (meets : MeetsRequest s t)
    (form : exec c s = s.hostCommand code (fun u => plain (f u))) (takes : t.takesRequests) (st : Status) (refusal : st ≠ .ok)
    (refuses : f t.shiftOut = (t.shiftOut, st)) : exec c s = .next (t.answered code st []).keepUpStart :=
  meets.refused form takes st refusal (by rw [refuses]; rfl)

theorem MeetsRequest.plain_done {s t u : State} {c : Instr} {code : Nat} {f : State → State × Status} (meets : MeetsRequest s t)
    (form : exec c s = s.hostCommand code (fun u => plain (f u))) (takes : t.takesRequests)
    (does : f t.shiftOut = (u, .ok)) : exec c s = .next (u.respond code .ok []).keepUpStart := by
  rw [meets c code _ form, exchange_on t code _ takes, does]
  rfl

/-! ## Clip Load Begin (R119) -/

theorem clipInUse_iff (t : State) (i : Nat) : t.clipInUse i = true ↔ ∃ p, some p ∈ t.announce.plays ∧ p.clip = i := by
  unfold State.clipInUse
  rw [List.any_eq_true]
  constructor
  · rintro ⟨p, there, uses⟩
    cases p with
    | none => cases uses
    | some p => exact ⟨p, there, eq_of_beq uses⟩
  · rintro ⟨p, there, uses⟩
    exact ⟨some p, there, beq_iff_eq.mpr uses⟩

theorem overlaps_iff (t : State) (i offset length : Nat) :
    t.overlaps i offset length = true ↔ ∃ k, k < 32 ∧ k ≠ i ∧ (t.clip k).state.holdsWords = true
      ∧ offset < (t.clip k).offset + (t.clip k).length ∧ (t.clip k).offset < offset + length := by
  simp [State.overlaps, List.any_eq_true, and_assoc]

/-- Clip Load Begin, its checks in their order (R119). -/
theorem clipLoadBegin_cases (t : State) (i offset length : Nat) :
    let fits := (i ≤ 31 ∧ 1 ≤ length ∧ length ≤ 192000 ∧ offset % 8 = 0) ∧ offset + length ≤ t.store.spaceOf .clip
    (¬fits → t.clipLoadBegin i offset length = (t, .badParameter))
      ∧ (fits → (t.clip i).state = .locked → t.clipLoadBegin i offset length = (t, .locked))
      ∧ (fits → (t.clip i).state ≠ .locked → t.clipInUse i = true → t.clipLoadBegin i offset length = (t, .busy))
      ∧ (fits → (t.clip i).state ≠ .locked → t.clipInUse i = false → t.overlaps i offset length = true →
          t.clipLoadBegin i offset length = (t, .overlap))
      ∧ (fits → (t.clip i).state ≠ .locked → t.clipInUse i = false → t.overlaps i offset length = false →
          t.clipLoadBegin i offset length
            = ({ (t.dropBuffer i).onClip i (fun _ => { state := .loading, offset := offset, length := length, received := 0, written := 0 })
                with announce.loads := t.announce.loads.set i t.announce.nextLoad, announce.nextLoad := t.announce.nextLoad + 1 }, .ok)) := by
  intro fits
  have inside : fits → ¬(31 < i ∨ length = 0 ∨ 192000 < length ∨ offset % 8 ≠ 0 ∨ t.store.spaceOf .clip ≤ offset + length - 1) := by
    rintro ⟨⟨low, some, few, aligned⟩, room⟩
    omega
  unfold State.clipLoadBegin
  refine ⟨fun out => if_pos ?_, fun fit locked => ?_, fun fit free used => ?_, fun fit free idle covers => ?_,
    fun fit free idle apart => ?_⟩
  · refine Classical.byContradiction fun within => ?_
    exact out ⟨⟨by omega, by omega, by omega, by omega⟩, by omega⟩
  · rw [if_neg (inside fit), if_pos locked]
  · rw [if_neg (inside fit), if_neg free, if_pos used]
  · rw [if_neg (inside fit), if_neg free, if_neg (by rw [idle]; decide), if_pos covers]
  · rw [if_neg (inside fit), if_neg free, if_neg (by rw [idle]; decide), if_neg (by rw [apart]; decide)]

/-- The announce block in which a load of a clip has begun (R119). -/
def Announce.begun (a : Announce) (i : Nat) (c : Clip) : Announce :=
  { a with
    clips := a.clips.set i c
    buffer := if a.bufferClip = some i then [] else a.buffer
    bufferClip := if a.bufferClip = some i then none else a.bufferClip
    loads := a.loads.set i a.nextLoad
    nextLoad := a.nextLoad + 1 }

theorem announce_responds (t : State) (a : Announce) (code : Nat) :
    ({ t.shiftOut with announce := a } : State).respond code .ok [] = ({ t with announce := a } : State).answered code .ok [] := rfl

theorem loadBegun_eq (t : State) (i : Nat) (c : Clip) (inside : i < t.announce.clips.length) :
    ({ (t.dropBuffer i).onClip i (fun _ => c) with
        announce.loads := t.announce.loads.set i t.announce.nextLoad, announce.nextLoad := t.announce.nextLoad + 1 } : State)
      = { t with announce := t.announce.begun i c } := by
  have clips : (t.dropBuffer i).announce.clips = t.announce.clips := by
    unfold State.dropBuffer
    repeat' split
    all_goals rfl
  rw [onClip_set _ _ _ (by rw [clips]; exact inside), clips]
  unfold State.dropBuffer Announce.begun
  repeat' split
  all_goals rfl

/-! ## Clip Data (R120) -/

/-- The state in which the samples of a Clip Data have joined the load buffer and are counted (R120). -/
def State.samplesJoined (t : State) (i : Nat) (samples : List Sample) : State :=
  ({ t with announce.buffer := t.announce.buffer ++ samples, announce.bufferClip := some i }).onClip i
    (fun c => { c with received := c.received + samples.length })

/-- Clip Data, its checks in their order (R120). -/
theorem clipData_cases (t : State) (i : Nat) (samples : List Sample) :
    let k := t.clip i
    let fits := (i ≤ 31 ∧ 1 ≤ samples.length ∧ samples.length ≤ 64) ∧ (k.state = .loading → k.received + samples.length ≤ k.length)
    let busy := 4 ≤ (t.store.queue .loading).length ∨ (∃ j, t.announce.bufferClip = some j ∧ j ≠ i)
      ∨ 128 < t.announce.buffer.length + samples.length
    (¬fits → t.clipData i samples = (t, .badParameter))
      ∧ (fits → k.state ≠ .loading → t.clipData i samples = (t, .wrongState))
      ∧ (fits → k.state = .loading → busy → t.clipData i samples = (t, .busy))
      ∧ (fits → k.state = .loading → ¬busy → t.clipData i samples
          = ((t.samplesJoined i samples).feedLoader, .ok)) := by
  intro k fits busy
  have empty : samples.isEmpty = true ↔ samples.length = 0 := by rw [List.isEmpty_iff, List.length_eq_zero_iff]
  have inside : fits → ¬(31 < i ∨ samples.isEmpty = true ∨ 64 < samples.length
      ∨ (k.state = .loading ∧ k.length < k.received + samples.length)) := by
    rintro ⟨⟨low, some, few⟩, room⟩ (high | none | many | ⟨loading, short⟩)
    · omega
    · have := empty.mp none
      omega
    · omega
    · have := room loading
      omega
  have busy_iff : (4 ≤ (t.store.queue .loading).length ∨ (t.announce.bufferClip.isSome = true ∧ t.announce.bufferClip ≠ some i)
      ∨ 128 < t.announce.buffer.length + samples.length) ↔ busy := by
    have other : (t.announce.bufferClip.isSome = true ∧ t.announce.bufferClip ≠ some i)
        ↔ ∃ j, t.announce.bufferClip = some j ∧ j ≠ i := by
      cases t.announce.bufferClip <;> simp
    rw [other]
  unfold State.clipData
  refine ⟨fun out => if_pos ?_, fun fit idle => ?_, fun fit loading full => ?_, fun fit loading free => ?_⟩
  · refine Classical.byContradiction fun within => ?_
    rw [not_or, not_or, not_or, empty] at within
    obtain ⟨low, some, few, room⟩ := within
    refine out ⟨⟨by omega, by omega, by omega⟩, fun loading => ?_⟩
    exact Nat.not_lt.mp (not_and.mp room loading)
  · exact (if_neg (inside fit)).trans (if_pos idle)
  · exact (if_neg (inside fit)).trans ((if_neg (Classical.not_not.mpr loading)).trans (if_pos (busy_iff.mpr full)))
  · exact (if_neg (inside fit)).trans ((if_neg (Classical.not_not.mpr loading)).trans (if_neg (mt busy_iff.mp free)))

theorem samplesJoined_facts (t : State) (i : Nat) (samples : List Sample) (inside : i < t.announce.clips.length) :
    let v := t.samplesJoined i samples
    v.announce.clips = t.announce.clips.set i { t.clip i with received := (t.clip i).received + samples.length }
      ∧ v.announce.buffer = t.announce.buffer ++ samples ∧ v.announce.plays = t.announce.plays ∧ v.store = t.store
      ∧ State.sameLine t v :=
  ⟨modify_eq_set t.announce.clips i _ .none inside, rfl, rfl, rfl, rfl, rfl, rfl, rfl, rfl⟩

/-- What a taken Clip Data leaves (R120). -/
theorem clipData_feeds (t : State) (i : Nat) (samples : List Sample) (inside : i < t.announce.clips.length) :
    let u := (t.samplesJoined i samples).feedLoader.respond 16 .ok []
    u.announce.clips = t.announce.clips.set i { t.clip i with received := (t.clip i).received + samples.length }
      ∧ u.host.response = some { code := 16, status := .ok, results := [] }
      ∧ (∃ n, u.announce.buffer = (t.announce.buffer ++ samples).drop n) ∧ u.announce.plays = t.announce.plays
      ∧ u.store.memory = t.store.memory ∧ State.sameLine t u := by
  intro u
  obtain ⟨clips, buffer, plays, store, line, tables, member, note, startUp⟩ := samplesJoined_facts t i samples inside
  obtain ⟨clips', plays', ⟨n, buffer'⟩, memory', ⟨line', tables', member', note', startUp'⟩, -⟩ :=
    feedLoader_feeds (t.samplesJoined i samples)
  have announce : u.announce = (t.samplesJoined i samples).feedLoader.announce := (State.respond_frame _ _ _ _).2.2.2.2.2.2.2.2.2.1
  refine ⟨?_, rfl, ⟨n, ?_⟩, ?_, ?_, ?_, ?_, ?_, ?_, ?_⟩
  · rw [announce, clips', clips]
  · rw [announce, buffer', buffer]
  · rw [announce, plays', plays]
  · simpa only [u, State.respond_frame] using memory'.trans (by rw [store])
  · simpa only [u, State.respond_frame] using line'.trans line
  · simpa only [u, State.respond_frame] using tables'.trans tables
  · simpa only [u, State.respond_frame] using member'.trans member
  · simpa only [u, State.respond_frame] using note'.trans note
  · simpa only [u, State.respond_frame] using startUp'.trans startUp

/-! ## Clip Load End and Clip Lock (R121) -/

/-- Clip Load End, its checks in their order (R121). -/
theorem clipLoadEnd_cases (t : State) (i : Nat) :
    let k := t.clip i
    (k.state ≠ .loading → t.clipLoadEnd i = (t, .wrongState))
      ∧ (k.state = .loading → k.received < k.length → t.clipLoadEnd i = (t, .short))
      ∧ (k.state = .loading → k.length ≤ k.received → k.written ≠ k.length → t.clipLoadEnd i = (t, .busy))
      ∧ (k.state = .loading → k.length ≤ k.received → k.written = k.length →
          t.clipLoadEnd i = (t.onClip i (fun c => { c with state := .ready, received := 0, written := 0 }), .ok)) := by
  intro k
  unfold State.clipLoadEnd
  refine ⟨fun idle => if_pos idle, fun loading short => ?_, fun loading whole missing => ?_, fun loading whole written => ?_⟩
  · exact (if_neg (Classical.not_not.mpr loading)).trans (if_pos short)
  · exact (if_neg (Classical.not_not.mpr loading)).trans ((if_neg (Nat.not_lt.mpr whole)).trans (if_pos missing))
  · exact (if_neg (Classical.not_not.mpr loading)).trans ((if_neg (Nat.not_lt.mpr whole)).trans (if_neg (Classical.not_not.mpr written)))

/-- Settles O50: the four requests, each by its checks in their order. -/
theorem clipRequestsLoadClips : Obligations.ClipRequestsLoadClips := by
  intro s released t a takes sizes
  have meets : MeetsRequest s t := meets_settled s released
  clear_value t
  have clips : a.clips.length = 32 := sizes.2.2.2.2.2.2.1
  refine ⟨fun clip offset length => ?_, fun clip samples => ?_, fun clip low => ?_⟩
  · intro i c fits playing overlap
    obtain ⟨out, locked, busy, covered, begins⟩ := clipLoadBegin_cases t.shiftOut i offset.toNat length.toNat
    have used_iff : t.shiftOut.clipInUse i = true ↔ playing := clipInUse_iff t i
    have over_iff : t.shiftOut.overlaps i offset.toNat length.toNat = true ↔ overlap := overlaps_iff t i _ _
    have form : exec c s = s.hostCommand 15 (fun u => plain (u.clipLoadBegin i offset.toNat length.toNat)) := rfl
    refine ⟨fun no => ?_, fun fit lock => ?_, fun fit free plays => ?_, fun fit free idle meetsOther => ?_,
      fun fit free idle apart => ?_⟩
    · exact meets.plain_refused form takes .badParameter (fun no => by cases no) (out no)
    · exact meets.plain_refused form takes .locked (fun no => by cases no) (locked fit lock)
    · exact meets.plain_refused form takes .busy (fun no => by cases no) (busy fit free (used_iff.mpr plays))
    · exact meets.plain_refused form takes .overlap (fun no => by cases no)
        (covered fit free (Bool.eq_false_iff.mpr (mt used_iff.mp idle)) (over_iff.mpr meetsOther))
    · have begun := begins fit free (Bool.eq_false_iff.mpr (mt used_iff.mp idle)) (Bool.eq_false_iff.mpr (mt over_iff.mp apart))
      have inside : i < t.shiftOut.announce.clips.length := by
        have low : clip.toNat ≤ 31 := fit.1.1
        show clip.toNat < a.clips.length
        omega
      rw [loadBegun_eq t.shiftOut i _ inside] at begun
      have answers := meets.plain_done form takes begun
      rw [announce_responds] at answers
      refine ⟨a.begun i { state := .loading, offset := offset.toNat, length := length.toNat, received := 0, written := 0 },
        answers, rfl, fun own => ⟨if_pos own, if_pos own⟩, fun other => ⟨if_neg other, if_neg other⟩,
        rfl, rfl⟩
  · intro i k c fits busy
    obtain ⟨out, idle, full, feeds⟩ := clipData_cases t.shiftOut i samples
    have form : exec c s = s.hostCommand 16 (fun u => plain (u.clipData i samples)) := rfl
    refine ⟨fun no => ?_, fun fit waits => ?_, fun fit loading held => ?_, fun fit loading free => ?_⟩
    · exact meets.plain_refused form takes .badParameter (fun no => by cases no) (out no)
    · exact meets.plain_refused form takes .wrongState (fun no => by cases no) (idle fit waits)
    · exact meets.plain_refused form takes .busy (fun no => by cases no) (full fit loading held)
    · have inside : i < t.shiftOut.announce.clips.length := by
        have low : clip.toNat ≤ 31 := fit.1.1
        show clip.toNat < a.clips.length
        omega
      exact ⟨_, meets.plain_done form takes (feeds fit loading free), clipData_feeds t.shiftOut i samples inside⟩
  · intro i k
    have inside : i < t.shiftOut.announce.clips.length := by
      show clip.toNat < a.clips.length
      omega
    obtain ⟨idle, short, busy, ends⟩ := clipLoadEnd_cases t.shiftOut i
    have endForm : ∀ (f : State → Answer), checked (clipInRange clip) f t.shiftOut = f t.shiftOut :=
      fun f => checked_true _ _ _ (decide_eq_true low)
    have refused : ∀ st : Status, st ≠ .ok → t.shiftOut.clipLoadEnd i = (t.shiftOut, st) →
        exec (.clipLoadEnd clip) s = .next (t.answered 17 st []).keepUpStart := fun st refusal refuses =>
      meets.refused (c := .clipLoadEnd clip) rfl takes st refusal ((endForm _).trans (by rw [refuses]; rfl))
    refine ⟨fun waits => refused .wrongState (fun no => by cases no) (idle waits),
      fun loading less => refused .short (fun no => by cases no) (short loading less),
      fun loading whole missing => refused .busy (fun no => by cases no) (busy loading whole missing),
      fun loading whole written => ?_, fun ready => ?_, fun unready => ?_⟩
    · have done := ends loading whole written
      rw [onClip_set _ _ _ inside] at done
      rw [meets (.clipLoadEnd clip) 17 _ rfl, exchange_on t 17 _ takes, endForm, done]
      rfl
    · have locks : t.shiftOut.clipLock i = (t.shiftOut.onClip i (fun c => { c with state := .locked }), .ok) := if_pos ready
      rw [onClip_set _ _ _ inside] at locks
      rw [meets (.clipLock clip) 18 _ rfl, exchange_on t 18 _ takes, endForm, locks]
      rfl
    · have refuses : t.shiftOut.clipLock i = (t.shiftOut, .wrongState) := if_neg unready
      exact meets.refused (c := .clipLock clip) rfl takes .wrongState (fun no => by cases no)
        ((endForm _).trans (by rw [refuses]; rfl))

/-! ## Play (R124) -/

theorem playRequest_cases (t : State) (clip level repeats : Nat) :
    ((t.clip clip).state.playable = false → t.playRequest clip level repeats = t.refuse .wrongState)
      ∧ ((t.clip clip).state.playable = true → t.startPlay clip level repeats .host = none →
          t.playRequest clip level repeats = t.refuse .playsFull)
      ∧ (∀ place u, (t.clip clip).state.playable = true → t.startPlay clip level repeats .host = some (place, u) →
          t.playRequest clip level repeats = (u, .ok, [BitVec.ofNat 8 place])) := by
  unfold State.playRequest
  refine ⟨fun mute => if_pos mute, fun sounds full => ?_, fun place u sounds starts => ?_⟩
  · rw [if_neg (by rw [sounds]; decide), full]
  · rw [if_neg (by rw [sounds]; decide), starts]
    dsimp only
    rw [inBytes_one]

theorem startPlay_full (t : State) (clip level repeats : Nat) (who : Starter)
    (full : t.announce.plays.findIdx? (fun p => p.isNone) = none) : t.startPlay clip level repeats who = none := by
  unfold State.startPlay
  rw [full]
  split
  · rfl
  · rfl

/-- Settles O51: the clip, the place, and the play that begins there. -/
theorem playTakesTheLowestPlace : Obligations.PlayTakesTheLowestPlace := by
  intro clip level repeats s released t c fits takes sizes
  have meets : MeetsRequest s t := meets_settled s released
  clear_value t
  obtain ⟨low, levels, some⟩ := fits
  have places : t.announce.plays.length = 4 := sizes.2.2.2.2.2.2.2.1
  have dealt : checked (clipInRange clip && decide (level.toNat ≤ 63) && decide (1 ≤ repeats.toNat))
      (fun u => u.playRequest clip.toNat level.toNat repeats.toNat) t.shiftOut
        = t.shiftOut.playRequest clip.toNat level.toNat repeats.toNat :=
    checked_true _ _ _ (by simp [clipInRange, low, levels, some])
  obtain ⟨mute, full, starts⟩ := playRequest_cases t.shiftOut clip.toNat level.toNat repeats.toNat
  have playable : (t.shiftOut.clip clip.toNat).state.playable = true ↔ _ := playable_iff (t.clip clip.toNat).state
  refine ⟨fun notReady notLocked => ?_, fun sounds => ⟨fun taken => ?_, fun p inside free before => ?_⟩⟩
  · exact meets.refused (c := c) rfl takes .wrongState (fun no => by cases no)
      (dealt.trans (mute (Bool.eq_false_iff.mpr fun plays => (playable.mp plays).elim notReady notLocked)))
  · exact meets.refused (c := c) rfl takes .playsFull (fun no => by cases no)
      (dealt.trans (full (playable.mpr sounds) (startPlay_full _ _ _ _ _ ((findFree_none t.announce.plays places).mpr taken))))
  · have place : t.shiftOut.announce.plays.findIdx? (fun p => p.isNone) = Option.some p :=
      (findFree_some t.announce.plays p places).mpr ⟨inside, free, before⟩
    obtain ⟨u, begins, -, others, clips, channels, memory, line, -⟩ :=
      startPlay_facts t.shiftOut clip.toNat level.toNat repeats.toNat .host p (playable.mpr sounds) place
    obtain ⟨v, begins', begun, -⟩ :=
      startPlay_begun t.shiftOut clip.toNat level.toNat repeats.toNat .host p (playable.mpr sounds) place
    have same : v = u := congrArg Prod.snd (Option.some.inj (begins'.symm.trans begins))
    rw [same] at begun
    refine ⟨u.respond 20 .ok [BitVec.ofNat 8 p], ?_, ?_, fun q other => ?_, rfl, ?_, ?_, ?_, ?_⟩
    · rw [meets c 20 _ rfl, exchange_on t 20 _ takes, dealt, starts p u (playable.mpr sounds) begins]
    · simpa [State.playBegun] using begun
    · simpa using others q other
    · simpa using clips
    · simpa using channels
    · simpa using memory
    · simpa [State.sameLine] using line

end Sys2Proof.Machine
end

section
/-! PROOFS. Cadence Set, Cadence Start and Cadence Stop (R127, R128, R130, R131). -/

namespace Sys2Proof.Machine

set_option maxRecDepth 20000

/-! ## Cadence Set (R127) -/

/-- Cadence Set, its checks in their order (R127). -/
theorem cadenceSet_cases (t : State) (c : Nat) (setup : CadenceSetup) (low : c ≤ 7) (inside : c < t.announce.channels.length) :
    let turnedDown := ((t.channel c).role ≠ setupRole setup ∧ t.takesPart c)
      ∨ ((t.channel c).role = .leader ∧ setupRole setup ≠ .leader ∧ ∃ f, f < 8 ∧ (t.channel f).role = .follower c)
    (¬t.setupFits c setup → t.cadenceSet c setup = (t, .badParameter))
      ∧ (t.setupFits c setup → turnedDown → t.cadenceSet c setup = (t, .wrongState))
      ∧ (t.setupFits c setup → ¬turnedDown → t.cadenceSet c setup
          = ({ t with announce := { t.announce with channels := t.announce.channels.set c (setUpChannel (t.channel c) setup) } }, .ok)) := by
  intro turnedDown
  obtain ⟨wants, wantsNone⟩ := roleWanted_iff t c setup
  have follows : (t.followersOf c).isEmpty = false ↔ ∃ f, f < 8 ∧ (t.channel f).role = .follower c := by
    rw [List.isEmpty_eq_false_iff_exists_mem]
    exact exists_congr fun f => followers_mem t c f
  unfold State.cadenceSet
  rw [if_neg (Nat.not_lt.mpr low)]
  refine ⟨fun out => by rw [wantsNone out], fun fits down => ?_, fun fits up => ?_⟩
  · rw [wants fits]
    dsimp only
    obtain ⟨other, part⟩ | ⟨led, other, some⟩ := down
    · exact if_pos ⟨other, (takesPart_iff t c).mpr part⟩
    · rw [if_pos (⟨led, other, follows.mpr some⟩ : _ ∧ _ ∧ (t.followersOf c).isEmpty = false)]
      repeat' split
      all_goals rfl
  · rw [wants fits]
    dsimp only
    rw [if_neg fun part => up (.inl ⟨part.1, (takesPart_iff t c).mp part.2⟩),
      if_neg fun led => up (.inr ⟨led.1, led.2.1, follows.mp led.2.2⟩), onChannel_set t c _ inside]
    have kinds : setup = .off ∨ setupRole setup = .leader ∨ ∃ l, setupRole setup = .follower l := by
      cases setup with
      | off => exact .inl rfl
      | leader => exact .inr (.inl rfl)
      | follower l => exact .inr (.inr ⟨l.toNat, rfl⟩)
      | other => exact absurd fits id
    rw [setUp_role (t.channel c) setup kinds]

/-! ## Cadence Start (R128) -/

/-- A leader that starts: the staged values, no repetition done, the first period ahead (R128). -/
def CadenceChannel.startedLeader (k : CadenceChannel) : CadenceChannel :=
  { k with activePeriod := k.stagedPeriod, activeRepetitions := k.stagedRepetitions, done := 0, time := k.stagedPeriod, running := true }

/-- A follower whose leader starts: the staged values, its missed mark clear (R128). -/
def CadenceChannel.startedFollower (k : CadenceChannel) : CadenceChannel :=
  { k with activeDelay := k.stagedDelay, activeClip := k.stagedClip, missed := false }

/-- The state in which a cadence has started and no follower is triggered yet (R128). -/
def State.cadenceStarted (t : State) (c : Nat) : State :=
  ((t.loadStaged c).onChannel c (fun k => { k with done := 0, time := k.activePeriod, running := true }))
    |>.onFollowers c (fun k => { k with missed := false })

/-- The state in which the followers of a cadence that starts are triggered, before they fire (R128, R130). -/
def State.cadenceTriggered (t : State) (c : Nat) : State := (t.cadenceStarted c).onFollowers c CadenceChannel.triggered

/-- Cadence Start, its checks in their order (R128). -/
theorem cadenceStart_cases (t : State) (c : Nat) (low : c ≤ 7) :
    ((t.channel c).role ≠ .leader ∨ (t.channel c).running = true → t.cadenceStart c = (t, .wrongState))
      ∧ ((t.channel c).role = .leader → (t.channel c).running = false → t.cadenceStart c
          = (if (t.channel c).trigger then (t.cadenceTriggered c).fireFollowers c else t.cadenceStarted c, .ok)) := by
  unfold State.cadenceStart
  rw [if_neg (Nat.not_lt.mpr low)]
  refine ⟨fun no => if_pos no, fun leads stopped => ?_⟩
  rw [if_neg fun no => no.elim (· leads) (fun runs => Bool.noConfusion (stopped.symm.trans runs))]
  by_cases trigger : (t.channel c).trigger = true
  · rw [if_pos trigger, if_pos trigger]
    rfl
  · rw [if_neg trigger, if_neg trigger]
    rfl

theorem cadenceStarted_kept (t : State) (c : Nat) : CadKept t (t.cadenceStarted c) :=
  cadKept_trans (cadKept_trans (cadKept_trans (cadKept_onChannel t c _) (cadKept_onFollowers _ c _)) (cadKept_onChannel _ c _))
    (cadKept_onFollowers _ c _)

theorem onChannel_plays (t : State) (c : Nat) (f : CadenceChannel → CadenceChannel) :
    (t.onChannel c f).announce.plays = t.announce.plays := rfl

theorem onFollowers_plays (t : State) (c : Nat) (f : CadenceChannel → CadenceChannel) :
    (t.onFollowers c f).announce.plays = t.announce.plays := rfl

theorem cadenceStarted_plays (t : State) (c : Nat) : (t.cadenceStarted c).announce.plays = t.announce.plays := by
  rw [State.cadenceStarted, onFollowers_plays, onChannel_plays, State.loadStaged, onFollowers_plays, onChannel_plays]

theorem cadenceTriggered_plays (t : State) (c : Nat) : (t.cadenceTriggered c).announce.plays = t.announce.plays := by
  rw [State.cadenceTriggered, onFollowers_plays, cadenceStarted_plays]

theorem cadenceStarted_channel (t : State) (c j : Nat) (inside : c < t.announce.channels.length)
    (leads : (t.channel c).role = .leader) :
    (t.cadenceStarted c).channel j = if j = c then (t.channel c).startedLeader
      else if (t.channel j).role = .follower c then (t.channel j).startedFollower else t.channel j := by
  have loaded := fun j => loadStaged_channel t c j inside leads
  have length : c < (t.loadStaged c).announce.channels.length := by
    simpa [State.loadStaged, State.onChannel, State.onFollowers] using inside
  rw [State.cadenceStarted, channel_onFollowers]
  by_cases self : j = c
  · subst self
    rw [channel_onChannel _ _ _ length, loaded, if_pos rfl, if_neg (by rw [leads]; exact fun no => by cases no)]
    exact (if_pos rfl).symm
  · rw [channel_onChannel_ne _ _ _ _ self, loaded, if_neg self, if_neg self]
    by_cases follows : (t.channel j).role = .follower c
    · rw [if_pos follows, if_pos follows, if_pos follows]
      rfl
    · rw [if_neg follows, if_neg follows, if_neg follows]

theorem cadenceTriggered_channel (t : State) (c j : Nat) (inside : c < t.announce.channels.length)
    (leads : (t.channel c).role = .leader) :
    (t.cadenceTriggered c).channel j = if j = c then (t.channel c).startedLeader
      else if (t.channel j).role = .follower c then (t.channel j).startedFollower.triggered else t.channel j := by
  rw [State.cadenceTriggered, channel_onFollowers, cadenceStarted_channel t c j inside leads]
  by_cases self : j = c
  · rw [if_pos self, if_neg (by rw [CadenceChannel.startedLeader]; exact fun no => by rw [leads] at no; cases no)]
    exact (if_pos self).symm
  · by_cases follows : (t.channel j).role = .follower c
    · rw [if_neg self, if_neg self, if_pos follows, if_pos follows]
      exact if_pos follows
    · rw [if_neg self, if_neg self, if_neg follows, if_neg follows, if_neg follows]

theorem cadenceTriggered_role (t : State) (c j : Nat) (inside : c < t.announce.channels.length)
    (leads : (t.channel c).role = .leader) : ((t.cadenceTriggered c).channel j).role = (t.channel j).role := by
  rw [cadenceTriggered_channel t c j inside leads]
  split
  next self =>
    rw [self]
    rfl
  next =>
    split
    · rfl
    · rfl

/-- What the firings leave alone: every channel but the followers that count 0 (R130). -/
theorem fireFollowers_channels (w : State) (c : Nat) (channels : w.announce.channels.length = 8)
    (plays : w.announce.plays.length = 4) :
    CadKept w (w.fireFollowers c)
      ∧ (∀ j, (w.channel j).role ≠ .follower c → (w.fireFollowers c).channel j = w.channel j)
      ∧ (∀ j, j < 8 → (w.channel j).remaining ≠ 0 → (w.fireFollowers c).channel j = w.channel j) := by
  obtain ⟨kept, -, -, others, waiting, -⟩ := fires_list (w.followersOf c) w (followers_nodup w c)
    (fun j mem => by rw [channels]; exact ((followers_mem w c j).mp mem).1) plays
  refine ⟨kept, fun j foreign => others j (mt (fun mem => ((followers_mem w c j).mp mem).2) foreign), fun j low counts => ?_⟩
  by_cases mem : j ∈ w.followersOf c
  · exact waiting j mem (.inr counts)
  · exact others j mem

/-- The firings of followers of delay 0 speak of the announce block alone. -/
theorem zeroDelaysFire_same {s s' u u' : State} {leader : Nat} {missed : Nat → Bool} (fires : s'.zeroDelaysFire u' leader missed)
    (before : s'.announce = s.announce) (after : u'.announce = u.announce) : s.zeroDelaysFire u leader missed := by
  unfold State.zeroDelaysFire State.playBegun State.channel State.clip State.soundingBelow State.freeBelow State.channel State.clip
    at *
  rw [before, after] at fires
  exact fires

/-- A cadence that starts, seen from outside (R128). -/
theorem cadenceStart_starts (t : State) (c : Nat) (low : c ≤ 7) (channels : t.announce.channels.length = 8)
    (plays : t.announce.plays.length = 4) (leads : (t.channel c).role = .leader) :
    let k := t.channel c
    let u := if k.trigger then (t.cadenceTriggered c).fireFollowers c else t.cadenceStarted c
    u.channel c = k.startedLeader ∧ CadKept t u
      ∧ (k.trigger = false → u.announce.plays = t.announce.plays)
      ∧ (k.trigger = true → t.zeroDelaysFire u c (fun _ => false))
      ∧ ∀ f, f < 8 → f ≠ c →
          ((t.channel f).role ≠ .follower c → u.channel f = t.channel f)
          ∧ ((t.channel f).role = .follower c → k.trigger = false → u.channel f = (t.channel f).startedFollower)
          ∧ ((t.channel f).role = .follower c → k.trigger = true → (t.channel f).stagedDelay ≠ 0 →
              u.channel f = (t.channel f).startedFollower.triggered) := by
  intro k u
  have inside : c < t.announce.channels.length := by omega
  cases trigger : k.trigger with
  | false =>
    have started : u = t.cadenceStarted c := if_neg (by rw [trigger]; decide)
    have channel := fun j => cadenceStarted_channel t c j inside leads
    rw [started]
    refine ⟨(channel c).trans (if_pos rfl), cadenceStarted_kept t c, fun _ => cadenceStarted_plays t c, (fun no => by cases no), fun f _ other => ?_⟩
    exact ⟨fun foreign => (channel f).trans ((if_neg other).trans (if_neg foreign)),
      fun follows _ => (channel f).trans ((if_neg other).trans (if_pos follows)), (fun _ no => by cases no)⟩
  | true =>
    have fired : u = (t.cadenceTriggered c).fireFollowers c := if_pos trigger
    have channel := fun j => cadenceTriggered_channel t c j inside leads
    have role := fun j => cadenceTriggered_role t c j inside leads
    have kept : CadKept t (t.cadenceTriggered c) := cadKept_trans (cadenceStarted_kept t c) (cadKept_onFollowers _ c _)
    have length : (t.cadenceTriggered c).announce.channels.length = 8 := kept.2.2.2.2.2.2.2.2.2.trans channels
    have room : (t.cadenceTriggered c).announce.plays.length = 4 := by rw [cadenceTriggered_plays]; exact plays
    obtain ⟨keeps, others, waits⟩ := fireFollowers_channels (t.cadenceTriggered c) c length room
    rw [fired]
    refine ⟨?_, cadKept_trans kept keeps, (fun no => by cases no), fun _ => ?_, fun f low' other => ⟨fun foreign => ?_,
      (fun _ no => by cases no), fun follows _ delayed => ?_⟩⟩
    · rw [others c (by rw [role, leads]; exact fun no => by cases no)]
      exact (channel c).trans (if_pos rfl)
    · refine fireFollowers_zeroDelays t (t.cadenceTriggered c) c (fun _ => false) length room (cadenceTriggered_plays t c) kept.1
        (fun f => by rw [role]) (fun f follows => ?_)
      have other : f ≠ c := fun self => by rw [self, leads] at follows; cases follows
      exact (channel f).trans ((if_neg other).trans (if_pos follows))
    · rw [others f (by rw [role]; exact foreign)]
      exact (channel f).trans ((if_neg other).trans (if_neg foreign))
    · have triggered := (channel f).trans ((if_neg other).trans (if_pos follows))
      rw [waits f low' (by rw [triggered]; exact delayed), triggered]

/-! ## Cadence Stop (R131) -/

theorem cadenceStop_refused (t : State) (c : Nat) (low : c ≤ 7)
    (idle : (t.channel c).role ≠ .leader ∨ (t.channel c).running = false) : t.cadenceStop c = (t, .wrongState) := by
  unfold State.cadenceStop
  rw [if_neg (Nat.not_lt.mpr low)]
  exact if_neg fun runs => idle.elim (· runs.1) (fun stopped => Bool.noConfusion (stopped.symm.trans runs.2))

/-- Whether a play was started by a follower of a leader. -/
def State.followerPlay (t : State) (c : Nat) (p : Play) : Bool :=
  match p.starter with
  | .follower f => (t.followersOf c).contains f
  | .host => false

/-- The state in which a leader is stopped and its followers are idle, before their plays end (R131). -/
def State.cadenceIdle (t : State) (c : Nat) : State :=
  (t.onChannel c (fun k => { k with running := false })).onFollowers c (fun k => { k with counting := false, remaining := 0 })

theorem cadenceStop_runs (t : State) (c : Nat) (low : c ≤ 7) (leads : (t.channel c).role = .leader)
    (runs : (t.channel c).running = true) :
    t.cadenceStop c = ((t.cadenceIdle c).endPlays (t.followerPlay c) none, .ok) := by
  unfold State.cadenceStop
  rw [if_neg (Nat.not_lt.mpr low)]
  exact if_pos ⟨leads, runs⟩

theorem cadenceIdle_channel (t : State) (c j : Nat) (inside : c < t.announce.channels.length)
    (leads : (t.channel c).role = .leader) :
    (t.cadenceIdle c).channel j = if j = c then { t.channel c with running := false }
      else if (t.channel j).role = .follower c then { t.channel j with counting := false, remaining := 0 } else t.channel j := by
  rw [State.cadenceIdle, channel_onFollowers]
  by_cases self : j = c
  · subst self
    rw [channel_onChannel _ _ _ inside, if_neg (by rw [leads]; exact fun no => by cases no)]
    exact (if_pos rfl).symm
  · rw [channel_onChannel_ne _ _ _ _ self, if_neg self]

theorem follower_inside (t : State) (f c : Nat) (follows : (t.channel f).role = .follower c) : f < t.announce.channels.length := by
  refine Classical.byContradiction fun beyond => ?_
  have reset : t.channel f = .reset := getD_beyond _ _ (Nat.not_lt.mp beyond)
  rw [reset] at follows
  cases follows

/-- A cadence that stops, seen from outside (R131). -/
theorem cadenceStop_stops (t : State) (c : Nat) (channels : t.announce.channels.length = 8)
    (plays : t.announce.plays.length = 4) (low : c ≤ 7) (leads : (t.channel c).role = .leader) :
    ∃ n : Announce, (t.cadenceIdle c).endPlays (t.followerPlay c) none = { t with announce := n }
      ∧ n.channels.getD c .reset = { t.channel c with running := false }
      ∧ (∀ f, f < 8 → f ≠ c → n.channels.getD f .reset = (if (t.channel f).role = .follower c then
          { t.channel f with counting := false, remaining := 0 } else t.channel f))
      ∧ (∀ place p f, t.announce.plays.getD place none = some p → p.starter = .follower f →
          (t.channel f).role = .follower c → n.plays.getD place none = none)
      ∧ (∀ place, (∀ p f, t.announce.plays.getD place none = some p → p.starter = .follower f →
          (t.channel f).role ≠ .follower c) → n.plays.getD place none = t.announce.plays.getD place none)
      ∧ n.clips = t.announce.clips ∧ n.buffer = t.announce.buffer := by
  obtain ⟨clips, buffer, channels', places, whole⟩ := endPlays_facts (t.cadenceIdle c) (t.followerPlay c)
  have channel := fun j => cadenceIdle_channel t c j (by omega) leads
  refine ⟨((t.cadenceIdle c).endPlays (t.followerPlay c) none).announce, ?_, ?_, fun f _ other => ?_, fun place p f holds starter follows => ?_,
    fun place foreign => ?_, clips, buffer⟩
  · rw [whole]
    rfl
  · rw [channels']
    exact (channel c).trans (if_pos rfl)
  · rw [channels']
    exact (channel f).trans (if_neg other)
  · have ends : t.followerPlay c p = true := by
      rw [State.followerPlay, starter]
      exact List.contains_iff_mem.mpr ((followers_mem t c f).mpr ⟨channels ▸ follower_inside t f c follows, follows⟩)
    rw [places place plays]
    show (match t.announce.plays.getD place none with | none => none | some p => _) = none
    rw [holds]
    exact if_pos ends
  · rw [places place plays]
    show (match t.announce.plays.getD place none with | none => none | some p => _) = _
    cases holds : t.announce.plays.getD place none with
    | none => rfl
    | some p =>
      refine if_neg fun ends => ?_
      unfold State.followerPlay at ends
      split at ends
      · next f starter => exact foreign p f holds starter ((followers_mem t c f).mp (List.contains_iff_mem.mp ends)).2
      · cases ends

/-- Settles O52: the three requests, each by its checks in their order. -/
theorem cadenceRequestsSetStartAndStop : Obligations.CadenceRequestsSetStartAndStop := by
  intro channel s released t c k leads low takes sizes
  have meets : MeetsRequest s t := meets_settled s released
  clear_value t
  have channels : t.shiftOut.announce.channels.length = 8 := sizes.2.2.2.2.2.2.2.2.1
  have plays : t.shiftOut.announce.plays.length = 4 := sizes.2.2.2.2.2.2.2.1
  have inside : c < t.shiftOut.announce.channels.length := by omega
  have setForm : ∀ setup, exec (.cadenceSet channel setup) s = s.hostCommand 21 (fun u => plain (u.cadenceSet c setup)) := fun _ => rfl
  have startForm : exec (.cadenceStart channel) s = s.hostCommand 22 (fun u => plain (u.cadenceStart c)) := rfl
  have stopForm : exec (.cadenceStop channel) s = s.hostCommand 23 (fun u => plain (u.cadenceStop c)) := rfl
  obtain ⟨cannotStart, starts⟩ := cadenceStart_cases t.shiftOut c low
  refine ⟨fun setup => ?_, fun no => ?_, fun leader stopped => ?_, fun no => ?_, fun leader runs => ?_⟩
  · intro wanted turnedDown
    obtain ⟨out, down, sets⟩ := cadenceSet_cases t.shiftOut c setup low inside
    refine ⟨fun no => ?_, fun fits turned => ?_, fun fits up => ?_⟩
    · exact meets.plain_refused (setForm setup) takes .badParameter (fun no => by cases no) (out no)
    · exact meets.plain_refused (setForm setup) takes .wrongState (fun no => by cases no) (down fits turned)
    · have answers := meets.plain_done (setForm setup) takes (sets fits up)
      rw [announce_responds] at answers
      exact answers
  · exact meets.plain_refused startForm takes .wrongState (fun no => by cases no) (cannotStart no)
  · obtain ⟨own, ⟨clips, -, line, -⟩, still, fires, others⟩ := cadenceStart_starts t.shiftOut c low channels plays leader
    have answers := meets.plain_done startForm takes (starts leader stopped)
    refine ⟨_, answers, own, rfl, clips, ?_, still, fun trigger => zeroDelaysFire_same (fires trigger) rfl rfl, others⟩
    simpa [State.sameLine] using line
  · exact meets.plain_refused stopForm takes .wrongState (fun no => by cases no) (cadenceStop_refused t.shiftOut c low no)
  · obtain ⟨n, whole, own, others, ended, stay, clips, buffer⟩ := cadenceStop_stops t.shiftOut c channels plays low leader
    have answers := meets.plain_done stopForm takes (cadenceStop_runs t.shiftOut c low leader runs)
    rw [whole, announce_responds] at answers
    exact ⟨n, answers, own, others, ended, stay, clips, buffer⟩

end Sys2Proof.Machine
end

section
/-! PROOFS. Blend Enable, Blend Disable and Tuned (R137, R138). -/

namespace Sys2Proof.Machine

set_option maxRecDepth 20000

/-- A blend engine that goes on within a request: the answer is placed beside its event. -/
theorem blendGoes_responds (t : State) (held n : Blend) (p : Ports) (new : BlendState) (cause : Cause) (code : Nat) :
    (({ t.shiftOut with blend := held, ports := p } : State).blendGoes n new cause).respond code .ok []
      = (({ t with ports := p } : State).blendGoes n new cause).answered code .ok [] := by
  have same : ({ t.shiftOut with blend := held, ports := p } : State).hasHost = ({ t with ports := p } : State).hasHost := rfl
  unfold State.blendGoes State.eventRaised
  rw [same]
  cases ({ t with ports := p } : State).hasHost <;> rfl

theorem ok_responds (t : State) (code : Nat) : t.shiftOut.respond code .ok [] = t.answered code .ok [] := rfl

/-- The engine enabled out of IDLE: the ring cleared, a fresh main tap, no attempt made (R137). -/
def Blend.enabled (b : Blend) : Blend := { b.clearRing.renewMain with attempts := 0 }

/-- The engine tuned anew: silent, the ring cleared, the slow fall rate (R138). -/
def Blend.retuned (b : Blend) : Blend := { b.endTaps.clearRing with attempts := 0, fast := false }

theorem blendFits_iff (t : State) :
    t.blendFits = true ↔ 0 < t.store.rowsOf .blend * 128 ∧ t.nominalDelay + 2368 ≤ t.store.rowsOf .blend * 128 := by
  simp [State.blendFits, State.blendLength]

/-- Blend Enable by the state of the engine (R137). -/
theorem blendEnable_cases (t : State) :
    (t.blend.state = .idle → t.blendFits = false → t.blendEnable = (t, .wrongState))
      ∧ (t.blend.state = .idle → t.blendFits = true → t.blendEnable
          = (({ t with blend := t.blend.enabled, ports := { t.ports with balance := 0 } } : State).goBlend .filling .enabled, .ok))
      ∧ (t.blend.state = .lockout → t.blendEnable
          = (({ t with blend := { t.blend with attempts := 0 } } : State).goBlend .analogue .enabled, .ok))
      ∧ (t.blend.state ≠ .idle → t.blend.state ≠ .lockout → t.blendEnable = (t, .ok)) := by
  unfold State.blendEnable
  refine ⟨fun idle short => ?_, fun idle fits => ?_, fun locked => by rw [locked], fun runs free => ?_⟩
  · rw [idle]
    exact if_neg (by rw [short]; decide)
  · rw [idle]
    exact if_pos fits
  · split
    · exact absurd ‹_› runs
    · exact absurd ‹_› free
    · rfl

/-- Settles O53: the three requests, each by the state of the engine. -/
theorem blendRequestsEnableAndDisable : Obligations.BlendRequestsEnableAndDisable := by
  intro s released t b length cleared silent takes
  have meets : MeetsRequest s t := meets_settled s released
  clear_value t
  have enableForm : exec .blendEnable s = s.hostCommand 25 (fun u => plain u.blendEnable) := rfl
  have disableForm : exec .blendDisable s = s.hostCommand 26 (fun u => plain (u.blendDisable, .ok)) := rfl
  have tunedForm : exec .tuned s = s.hostCommand 27 (fun u => plain u.tuned) := rfl
  have fits_iff := blendFits_iff t
  have responds := blendGoes_responds t
  obtain ⟨short, enables, unlocks, stays⟩ := blendEnable_cases t.shiftOut
  refine ⟨fun idle out => ?_, fun idle some long => ⟨b.enabled, ⟨rfl, rfl, rfl, rfl⟩, rfl, ?_⟩, fun locked => ?_, fun runs free => ?_,
    fun idle => ?_, fun runs => ⟨b.endTaps, ⟨rfl, rfl, rfl, rfl, rfl, rfl, rfl, rfl⟩, rfl, ?_⟩, fun idle => ?_,
    fun runs => ⟨b.retuned, ⟨rfl, rfl, rfl, rfl, rfl, rfl, rfl, rfl⟩, ⟨rfl, rfl, rfl, rfl⟩, rfl, ?_⟩⟩
  · exact meets.plain_refused enableForm takes .wrongState (fun no => by cases no)
      (short idle (Bool.eq_false_iff.mpr fun fits => by
        obtain ⟨positive, long⟩ := fits_iff.mp fits
        exact out.elim (fun zero => absurd zero (Nat.pos_iff_ne_zero.mp positive)) (fun less => absurd long (Nat.not_le.mpr less))))
  · have answers := meets.plain_done enableForm takes (enables idle (fits_iff.mpr ⟨some, long⟩))
    rw [goBlend_eq, responds] at answers
    exact answers
  · have answers := meets.plain_done enableForm takes (unlocks locked)
    rw [goBlend_eq] at answers
    exact answers.trans (congrArg (fun u : State => Host.Outcome.next u.keepUpStart)
      (responds { t.blend with attempts := 0 } _ t.ports .analogue .enabled 25))
  · rw [meets.plain_done enableForm takes (stays runs free), ok_responds]
  · have stands : t.shiftOut.blendDisable = t.shiftOut := if_pos idle
    rw [meets.plain_done disableForm takes (congrArg (fun u => (u, Status.ok)) stands), ok_responds]
  · have disables : t.shiftOut.blendDisable = ({ t.shiftOut with blend := b.endTaps } : State).goBlend .idle .disabled := if_neg runs
    have answers := meets.plain_done disableForm takes (congrArg (fun u => (u, Status.ok)) disables)
    rw [goBlend_eq] at answers
    exact answers.trans (congrArg (fun u : State => Host.Outcome.next u.keepUpStart)
      (responds b.endTaps _ t.ports .idle .disabled 26))
  · exact meets.plain_refused tunedForm takes .wrongState (fun no => by cases no) (if_pos idle)
  · have tunes : t.shiftOut.tuned = (({ t.shiftOut with blend := b.retuned, ports := { t.ports with balance := 0 } } : State).goBlend
        .filling .tuned, .ok) := if_neg runs
    have answers := meets.plain_done tunedForm takes tunes
    rw [goBlend_eq, responds] at answers
    exact answers

end Sys2Proof.Machine
end

section
/-! PROOFS. A ramp ends (R69, R103, R108). -/

namespace Sys2Proof.Machine

set_option maxRecDepth 20000

/-- The gate's ramp by where the gate stands (R69). -/
theorem endGateRamp_cases (s : State) :
    (s.follower.gate = .closing → s.follower.gain = 0 → s.endGateRamp = { s with follower := { s.follower with gate := .shut } })
      ∧ (s.follower.gate = .opening → 480 ≤ s.follower.gain →
          s.endGateRamp = { s with follower := { s.follower with gate := .open } })
      ∧ (s.follower.gate = .open ∨ s.follower.gate = .shut ∨ (s.follower.gate = .closing ∧ s.follower.gain ≠ 0)
          ∨ (s.follower.gate = .opening ∧ s.follower.gain < 480) → s.endGateRamp = s) := by
  unfold State.endGateRamp
  refine ⟨fun closing zero => ?_, fun opening full => ?_, fun stands => ?_⟩
  · rw [closing]
    exact if_pos zero
  · rw [opening]
    exact if_pos full
  · obtain gate | gate | ⟨gate, more⟩ | ⟨gate, less⟩ := stands
    · rw [gate]
    · rw [gate]
    · rw [gate]
      exact if_neg more
    · rw [gate]
      exact if_neg (Nat.not_le.mpr less)

theorem endPositionRamp_cases (s : State) (z : Nat) :
    let p := (s.zone z).position
    (p.ramp.running = true → p.ramp.steps = 480 →
        s.endPositionRamp z = s.onZone z (fun v => { v with position.ramp.running := false }))
      ∧ (p.ramp.running = false ∨ p.ramp.steps ≠ 480 → s.endPositionRamp z = s) := by
  intro p
  refine ⟨fun running done => if_pos (Bool.and_eq_true_iff.mpr ⟨running, beq_iff_eq.mpr done⟩), fun early => if_neg fun both => ?_⟩
  obtain ⟨running, done⟩ := Bool.and_eq_true_iff.mp both
  exact early.elim (fun stopped => Bool.noConfusion (stopped.symm.trans running)) (· (eq_of_beq done))

/-- The ramp of the entry of a stream, by the entry (R103, R108). -/
theorem endEntryRamp_cases (s : State) (z x : Nat) (e : RouteEntry)
    (held : (s.zone z).routes.find? (fun e => e.stream == x) = some e) :
    (e.ramp.running = false ∨ e.ramp.steps ≠ 480 → s.endEntryRamp z x = s)
      ∧ (e.ramp.running = true → e.ramp.steps = 480 → e.state = .leaving →
          s.endEntryRamp z x = (s.onZone z (fun v => { v with routes := dropRoute x v.routes })).retarget z)
      ∧ (e.ramp.running = true → e.ramp.steps = 480 → e.state ≠ .leaving → s.endEntryRamp z x
          = s.onZone z (fun v => { v with routes := onRoute x (fun e => { e with ramp.running := false }) v.routes })) := by
  unfold State.endEntryRamp
  rw [held]
  dsimp only
  refine ⟨fun early => if_neg fun both => ?_, fun running done leaving => ?_, fun running done stays => ?_⟩
  · obtain ⟨running, done⟩ := Bool.and_eq_true_iff.mp both
    exact early.elim (fun stopped => Bool.noConfusion (stopped.symm.trans running)) (· (eq_of_beq done))
  · rw [if_pos (Bool.and_eq_true_iff.mpr ⟨running, beq_iff_eq.mpr done⟩), if_pos leaving]
  · rw [if_pos (Bool.and_eq_true_iff.mpr ⟨running, beq_iff_eq.mpr done⟩), if_neg stays]

/-- Settles O41: the gate, a call position, and an entry that leaves or stays. -/
theorem rampsEnd : Obligations.RampsEnd := by
  intro s released
  have gate := exec_due .gateRampEnd s State.endGateRamp rfl released
  obtain ⟨shuts, opens, stands⟩ := endGateRamp_cases s
  refine ⟨fun closing zero => by rw [gate, shuts closing zero], fun opening full => by rw [gate, opens opening full],
    fun early => by rw [gate, stands early], fun z inside => ⟨?_, fun x e held => ?_⟩⟩
  · rintro p rfl
    have acts := exec_due (.rampEnd z .callPosition) s (fun t => t.endPositionRamp z.val) rfl released
    obtain ⟨ends, waits⟩ := endPositionRamp_cases s z.val
    refine ⟨fun running done => ⟨_, acts, ?_⟩, fun early => ?_⟩
    · have zone := onZone_zone s z.val (fun v => { v with position.ramp.running := false }) inside
      rw [ends running done]
      exact ⟨by rw [zone], by rw [zone], fun y other => onZone_other s z.val y _ other, ⟨rfl, rfl, rfl, rfl, rfl⟩,
        rfl, rfl, rfl, rfl, rfl, rfl⟩
    · rw [acts, waits early]
  · have acts := exec_due (.rampEnd z (.entry x)) s (fun t => t.endEntryRamp z.val x.val) rfl released
    obtain ⟨waits, drops, stops⟩ := endEntryRamp_cases s z.val x.val e held
    refine ⟨fun early => by rw [acts, waits early], fun running done => ⟨_, acts, ?_⟩⟩
    refine ⟨fun y other => ?_, ?_, ?_, fun leaving d defined => ?_, fun stays => ?_⟩
    · by_cases leaving : e.state = .leaving
      · rw [drops running done leaving, retarget_other _ _ _ other, onZone_other s z.val y _ other]
      · rw [stops running done leaving, onZone_other s z.val y _ other]
    · simp [State.sameLine]
    · simp [State.sameAudio]
    · rw [drops running done leaving]
      exact retarget_onZone_aimed s z.val _ d defined inside
    · rw [stops running done stays, onZone_zone s z.val _ inside]
      rfl

end Sys2Proof.Machine
end

section
/-! PROOFS. The decoder port and the quality that it hands to the blend engine (R73, R76, R77, R140 to R147). -/

namespace Sys2Proof.Machine

set_option maxRecDepth 20000

/-! ## A sample arrives (R73, R77) -/

/-- An arriving sample: at a full buffer it is discarded, else it joins, and the buffer may resume reading (R73). -/
theorem arrive_facts (p : Ports) (x : DecoderSample) :
    (p.arrive x).arrivalGap = 0 ∧ (p.arrive x).nextLost = 64
      ∧ (64 ≤ p.buffer.length → (p.arrive x).buffer = p.buffer ∧ (p.arrive x).blockWorst = .lost ∧ (p.arrive x).reading = p.reading)
      ∧ (p.buffer.length < 64 → (p.arrive x).buffer = p.buffer ++ [x])
      ∧ (p.reading = false → p.buffer.length + 1 < 32 → (p.arrive x).reading = false)
      ∧ (p.reading = false → p.buffer.length < 64 → 32 ≤ p.buffer.length + 1 →
          (p.arrive x).reading = true ∧ (p.arrive x).slipGuard = 64 ∧ (p.arrive x).blockReads = 0 ∧ (p.arrive x).lastHanded = none)
      ∧ (p.reading = true → (p.arrive x).reading = true) := by
  have full : 64 ≤ p.buffer.length → p.arrive x = { p with arrivalGap := 0, nextLost := 64, blockWorst := .lost } := fun eight => if_pos eight
  have joins : p.buffer.length < 64 → p.arrive x = if p.reading = false ∧ 32 ≤ p.buffer.length + 1 then
      ({ p with arrivalGap := 0, nextLost := 64, buffer := p.buffer ++ [x], reading := true, slipGuard := 64,
                lastHanded := none } : Ports).restartBlock
      else { p with arrivalGap := 0, nextLost := 64, buffer := p.buffer ++ [x] } := fun room => if_neg (Nat.not_le.mpr room)
  obtain room | eight := Nat.lt_or_ge p.buffer.length 64
  · rw [joins room]
    by_cases resumes : p.reading = false ∧ 32 ≤ p.buffer.length + 1
    · rw [if_pos resumes]
      exact ⟨rfl, rfl, fun no => absurd no (Nat.not_le.mpr room), fun _ => rfl, fun _ less => absurd resumes.2 (Nat.not_le.mpr less),
        fun _ _ _ => ⟨rfl, rfl, rfl, rfl⟩, fun _ => rfl⟩
    · rw [if_neg resumes]
      exact ⟨rfl, rfl, fun no => absurd no (Nat.not_le.mpr room), fun _ => rfl, fun stopped _ => stopped,
        fun stopped _ more => absurd ⟨stopped, more⟩ resumes, fun reads => reads⟩
  · rw [full eight]
    exact ⟨rfl, rfl, fun _ => ⟨rfl, rfl, rfl⟩, fun no => absurd eight (Nat.not_le.mpr no), fun stopped _ => stopped,
      fun _ no => absurd eight (Nat.not_le.mpr no), fun reads => reads⟩

/-! ## A quality is handed to the blend engine (R140 to R147) -/

/-- What the handing of a quality leaves beside the state: the event and the runs, and the correlator on entry into ALIGNING and
out of it (R140, R142). -/
def QualityHanded (s u : State) (q : Quality) : Prop :=
  (u.blend.state ≠ s.blend.state →
      u.host = s.eventRaised .blendChanged [blendCode u.blend.state] (some (blendCauseAfter s.blend q)))
    ∧ (u.blend.state = s.blend.state → u.host = s.host
      ∧ u.blend.goodRun = (if q = .good then min 8 (s.blend.goodRun + 1) else 0)
      ∧ u.blend.poorRun = (if q = .poor then min 2 (s.blend.poorRun + 1) else 0))
    ∧ (u.blend.state = .aligning → s.blend.state ≠ .aligning →
        u.blend.correlator.phase = .priming ∧ u.blend.correlator.done = 0 ∧ u.blend.correlator.analogue = [])
    ∧ (s.blend.state = .aligning → u.blend.state ≠ .aligning → u.blend.correlator.phase = .notRunning)

/-- The engine with the runs counted and the alignment distrusted, before its state reacts (R140). -/
def Blend.counted (b : Blend) (q : Quality) : Blend := (b.countQuality q).distrust q

theorem counted_facts (b : Blend) (q : Quality) :
    (b.counted q).state = b.state ∧ (b.counted q).goodRun = (if q = .good then min 8 (b.goodRun + 1) else 0)
      ∧ (b.counted q).poorRun = (if q = .poor then min 2 (b.poorRun + 1) else 0) := by
  unfold Blend.counted Blend.distrust
  cases q with
  | lost =>
    rw [if_neg (by decide : Quality.lost ≠ .good), if_neg (by decide : Quality.lost ≠ .poor)]
    repeat' split
    all_goals exact ⟨rfl, rfl, rfl⟩
  | _ => exact ⟨rfl, rfl, rfl⟩

/-- The causes of the changes that a quality brings, by the state that it finds (Table 8-2). -/
theorem blendCause_of (b : Blend) (q : Quality) :
    (b.state = .analogue → blendCauseAfter b q = .goodRun) ∧ (b.state = .aligning → blendCauseAfter b q = .abandoned)
      ∧ (b.state = .toDigital ∨ b.state = .digital → blendCauseAfter b q = if q = .lost then .lost else .poor) := by
  unfold blendCauseAfter
  refine ⟨fun was => by rw [was], fun was => by rw [was], fun was => ?_⟩
  obtain was | was := was <;> rw [was] <;> cases q <;> rfl

section
variable {s : State} {q : Quality}

/-- A state that stands keeps the runs counted on and raises nothing. -/
theorem QualityHanded.stays (n : Blend) (state : n.state = s.blend.state) (good : n.goodRun = (s.blend.counted q).goodRun)
    (poor : n.poorRun = (s.blend.counted q).poorRun) : QualityHanded s { s with blend := n } q := by
  obtain ⟨-, goodRun, poorRun⟩ := counted_facts s.blend q
  exact ⟨fun moved => absurd state moved, fun _ => ⟨rfl, good.trans goodRun, poor.trans poorRun⟩,
    fun entered other => absurd (state.symm.trans entered) other, fun aligning left => absurd (state.trans aligning) left⟩

/-- A state that moves on raises BLEND_CHANGED with the cause of the quality. -/
theorem QualityHanded.goes (n : Blend) (new : BlendState) (cause : Cause) (other : new ≠ s.blend.state)
    (why : blendCauseAfter s.blend q = cause)
    (enters : new = .aligning → n.correlator.phase = .priming ∧ n.correlator.done = 0 ∧ n.correlator.analogue = [])
    (leaves : s.blend.state = .aligning → n.correlator.phase = .notRunning) :
    QualityHanded s (({ s with blend := n } : State).goBlend new cause) q := by
  rw [goBlend_eq, ← why]
  exact ⟨fun _ => rfl, fun same => absurd same other, fun entered _ => enters entered, fun aligning _ => leaves aligning⟩

end

/-- The reaction of each state to a quality (R141, R142, R145 to R147). -/
theorem handQuality_handed (s : State) (q : Quality) : QualityHanded s (s.handQuality q) q := by
  have counted : s.handQuality q = ({ s with blend := s.blend.counted q } : State).reactToQuality q := rfl
  obtain ⟨state, -, -⟩ := counted_facts s.blend q
  obtain ⟨goodRun, abandoned, fell⟩ := blendCause_of s.blend q
  have stands : QualityHanded s { s with blend := s.blend.counted q } q := .stays _ state rfl rfl
  have falls : ∀ (cause : Cause) (fast : Bool), s.blend.state ≠ .toAnalogue → s.blend.state ≠ .aligning →
      blendCauseAfter s.blend q = cause → QualityHanded s (({ s with blend := s.blend.counted q } : State).fallBack cause fast) q :=
    fun cause fast other outside why => .goes { s.blend.counted q with fast := fast } .toAnalogue cause (Ne.symm other) why
      (fun no => by cases no) (fun aligning => absurd aligning outside)
  have reacts : s.blend.state = (({ s with blend := s.blend.counted q } : State)).blend.state := state.symm
  rw [counted]
  unfold State.reactToQuality
  rw [← reacts]
  cases was : s.blend.state with
  | idle | filling | lockout => exact stands
  | analogue =>
    dsimp only
    split
    · split
      · exact .goes _ .toDigital .goodRun (by rw [was]; decide) (goodRun was) (fun no => by cases no)
          (fun aligning => by rw [was] at aligning; cases aligning)
      · exact .goes _ .aligning .goodRun (by rw [was]; decide) (goodRun was) (fun _ => ⟨rfl, rfl, rfl⟩)
          (fun aligning => by rw [was] at aligning; cases aligning)
    · exact stands
  | aligning =>
    dsimp only
    split
    · exact stands
    · exact .goes _ .analogue .abandoned (by rw [was]; decide) (abandoned was) (fun no => by cases no) (fun _ => rfl)
  | toDigital =>
    cases q with
    | good => exact stands
    | poor => exact falls .poor false (by rw [was]; decide) (by rw [was]; decide) (fell (.inl was))
    | lost => exact falls .lost true (by rw [was]; decide) (by rw [was]; decide) (fell (.inl was))
  | digital =>
    dsimp only
    split
    next lost => exact falls .lost true (by rw [was]; decide) (by rw [was]; decide) ((fell (.inr was)).trans (if_pos lost))
    next lost =>
      split
      · exact falls .poor false (by rw [was]; decide) (by rw [was]; decide) ((fell (.inr was)).trans (if_neg lost))
      · exact stands
  | toAnalogue =>
    dsimp only
    split
    · exact .stays { s.blend.counted q with fast := true } state rfl rfl
    · exact stands

/-- What a quality handed on says of the engine and leaves alone, over the ports as they are when it is handed. -/
theorem quality_handed_on (s : State) (p : Ports) (q : Quality) :
    let u := ({ s with ports := p } : State).handQuality q
    u.blend.state = blendAfterQuality s.blend q ∧ u.ports = p ∧ State.sameLine s u ∧ u.store = s.store ∧ u.mixer = s.mixer
      ∧ u.call = s.call ∧ u.announce = s.announce ∧ u.follower = s.follower
      ∧ (u.blend.state ≠ s.blend.state → u.blend.goodRun = 0 ∧ u.blend.poorRun = 0
          ∧ u.host = s.eventRaised .blendChanged [blendCode u.blend.state] (some (blendCauseAfter s.blend q)))
      ∧ (u.blend.state = s.blend.state → u.host = s.host
          ∧ u.blend.goodRun = (if q = .good then min 8 (s.blend.goodRun + 1) else 0)
          ∧ u.blend.poorRun = (if q = .poor then min 2 (s.blend.poorRun + 1) else 0))
      ∧ (u.blend.state = .aligning → s.blend.state ≠ .aligning →
          u.blend.correlator.phase = .priming ∧ u.blend.correlator.done = 0 ∧ u.blend.correlator.analogue = [])
      ∧ (s.blend.state = .aligning → u.blend.state ≠ .aligning → u.blend.correlator.phase = .notRunning)
      ∧ (q = .lost → s.blend.state ≠ .idle → s.blend.state ≠ .filling → u.blend.valid = false)
      ∧ (q = .lost → s.blend.state = .digital ∨ s.blend.state = .toDigital ∨ s.blend.state = .toAnalogue → u.blend.fast = true)
      ∧ (q = .poor → s.blend.state = .toDigital ∨ s.blend.state = .digital ∧ 1 ≤ s.blend.poorRun → u.blend.fast = false) := by
  obtain ⟨moved, stood, enters, leaves⟩ := handQuality_handed { s with ports := p } q
  obtain ⟨state, runs, distrusts, falls, slow⟩ := handQuality_facts { s with ports := p } q
  exact ⟨state, by simp, by simp [State.sameLine], by simp, by simp, by simp, by simp, by simp,
    fun other => ⟨(runs other).1, (runs other).2, moved other⟩, stood, enters, leaves, distrusts, falls, slow⟩

/-- Settles O38: an arriving sample, and the two rows that hand a quality on. -/
theorem decoderSamplesAndQuality : Obligations.DecoderSamplesAndQuality := by
  refine ⟨fun x q s released => ?_, fun s released => ?_⟩
  · intro t p
    have acts := exec_outside (.decoderArrival x q) s (fun t => t.decoderArrives x q) rfl released
    have settled : s.settle = t := rfl
    rw [settled] at acts
    clear_value t
    refine ⟨fun dormant => ?_, fun awake => ?_⟩
    · have stands : t.decoderArrives x q = t := if_pos dormant
      rw [acts, stands]
    · have arrives : t.decoderArrives x q = { t with ports := p.arrive { sample := x, quality := q } } := if_neg awake
      rw [acts, arrives]
      exact ⟨_, rfl, arrive_facts p { sample := x, quality := q }⟩
  · have block := exec_due .qualityBlock s State.qualityBlock rfl released
    have gap := exec_due .arrivalGap s State.arrivalGap rfl released
    have ends : 1024 ≤ s.ports.blockReads → s.qualityBlock
        = ({ s with ports := { s.ports.restartBlock with lastQuality := s.ports.blockWorst } } : State).handQuality s.ports.blockWorst :=
      fun late => if_pos late
    have lapses : s.ports.nextLost ≤ s.ports.arrivalGap → s.arrivalGap
        = ({ s with ports := { s.ports.restartBlock with nextLost := s.ports.nextLost + 1024 } } : State).handQuality .lost :=
      fun late => if_pos late
    refine ⟨fun early => ?_, fun early => ?_, fun c q which => ?_⟩
    · have stands : s.qualityBlock = s := if_neg (Nat.not_le.mpr early)
      rw [block, stands]
    · have stands : s.arrivalGap = s := if_neg (Nat.not_le.mpr early)
      rw [gap, stands]
    · obtain ⟨rfl, late, rfl⟩ | ⟨rfl, late, rfl⟩ := which
      · obtain ⟨state, ports, line, store, mixer, call, announce, follower, moved, stood, rest⟩ :=
          quality_handed_on s { s.ports.restartBlock with lastQuality := s.ports.blockWorst } s.ports.blockWorst
        rw [block, ends late]
        exact ⟨_, rfl, state, by rw [ports]; rfl, by rw [ports]; rfl, by rw [ports]; rfl, line, store, mixer, call, announce, follower,
          fun _ => by rw [ports], (fun no => by cases no), moved, stood, rest⟩
      · obtain ⟨state, ports, line, store, mixer, call, announce, follower, moved, stood, rest⟩ :=
          quality_handed_on s { s.ports.restartBlock with nextLost := s.ports.nextLost + 1024 } .lost
        rw [gap, lapses late]
        exact ⟨_, rfl, state, by rw [ports]; rfl, by rw [ports]; rfl, by rw [ports]; rfl, line, store, mixer, call, announce, follower,
          (fun no => by cases no), fun _ => by rw [ports], moved, stood, rest⟩

end Sys2Proof.Machine
end

section
/-! PROOFS. The samples of chapters 6 to 9 as the obligations spell them, and one local sample as a whole (R65). -/

namespace Sys2Proof.Machine

set_option maxRecDepth 20000

/-! ## Sums and ramps (R108, R109) -/

theorem foldl_terms (l : List (Sample × Gain)) (acc : Int) :
    l.foldl (fun acc t => acc + t.1.toInt * (t.2 : Int)) acc = acc + (l.map (fun t => t.1.toInt * (t.2 : Int))).sum := by
  induction l generalizing acc with
  | nil => simp
  | cons x l ih => rw [List.foldl_cons, ih, List.map_cons, List.sum_cons, Int.add_assoc]

theorem mixSamples_eq (l : List (Sample × Gain)) : mixSamples l = mixed (l.map (fun t => t.1.toInt * (t.2 : Int))).sum := by
  rw [mixSamples, foldl_terms, Int.zero_add]
  rfl

theorem advance_stepped (r : Ramp) : rampStepped r r.advance := by
  unfold Ramp.advance
  refine ⟨fun running more => ?_, fun stands => if_neg fun both => ?_⟩
  · have left : 480 - (r.steps + 1) = 479 - r.steps := by omega
    rw [if_pos (by simp [running, more]), left]
  · obtain ⟨running, more⟩ := Bool.and_eq_true_iff.mp both
    exact stands.elim (fun stopped => Bool.noConfusion (stopped.symm.trans running))
      (fun done => absurd (of_decide_eq_true more) (Nat.not_lt.mpr done))

/-! ## What plays in a zone (R109, R110) -/

theorem streamStereo_sides (s : State) (x : Nat) :
    (s.streamStereo x).left = s.sideSample x false ∧ (s.streamStereo x).right = s.sideSample x true := by
  have valid : ∀ channel, validSample (s.handed x channel) = s.lastHanded x channel := fun _ => rfl
  unfold State.streamStereo State.sideSample
  cases (s.tables.entry x).parameters with
  | none => exact ⟨rfl, rfl⟩
  | some p =>
    dsimp only
    by_cases mono : p.channels = 1
    · simp [mono, valid]
    · simp [mono, valid]

/-- One side of the sum of a zone (R109). -/
theorem zoneTerms_side (s : State) (v : Zone) (side : Stereo → Sample) (right : Bool)
    (sides : ∀ x, side (s.streamStereo x) = s.sideSample x right) (same : ∀ y : Sample, side { left := y, right := y } = y) :
    mixSamples ((s.zoneTerms v).map (fun t => (side t.1, t.2))) = mixed (s.zoneTotal v right) := by
  have entries : ((v.routes.filter (fun e => e.state != .waiting)).map (fun e => (s.streamStereo e.stream, e.ramp.current))).map
      (fun t => (side t.1).toInt * (t.2 : Int))
        = (v.routes.filter (fun e => e.state != .waiting)).map (fun e => (s.sideSample e.stream right).toInt * (e.ramp.current : Int)) := by
    rw [List.map_map]
    exact List.map_congr_left fun e _ => by rw [Function.comp, sides]
  have valid : ∀ x, validSample (s.handed x 0) = s.lastHanded x 0 := fun _ => rfl
  rw [mixSamples_eq, List.map_map]
  congr 1
  unfold State.zoneTerms State.zoneTotal
  generalize v.position.state = state
  generalize v.position.downlink = downlink
  cases state with
  | live =>
    cases downlink with
    | some x =>
      simp only [List.map_append, List.sum_append, Function.comp_def, entries, List.map_cons, List.map_nil, List.sum_cons, List.sum_nil,
        same, valid, Int.add_zero]
    | none => simp only [Function.comp_def, entries, Int.add_zero]
  | _ => simp only [Function.comp_def, entries, Int.add_zero]

/-- The sum of a zone (R109). -/
theorem zoneSum_eq (s : State) (v : Zone) :
    mixStereo (s.zoneTerms v) = { left := mixed (s.zoneTotal v false), right := mixed (s.zoneTotal v true) } := by
  unfold mixStereo
  rw [zoneTerms_side s v Stereo.left false (fun x => (streamStereo_sides s x).1) (fun _ => rfl),
    zoneTerms_side s v Stereo.right true (fun x => (streamStereo_sides s x).2) (fun _ => rfl)]

/-- What plays in a zone goes by the line side alone. -/
theorem zoneTotal_same (s t : State) (line : s.line = t.line) (tables : s.tables = t.tables) (v : Zone) (right : Bool) :
    s.zoneTotal v right = t.zoneTotal v right := by
  unfold State.zoneTotal State.sideSample State.lastHanded State.handed
  rw [line, tables]

/-! ## What a path or tap hears (R113, R115) -/

theorem readHeld_heard (held : List HeldGroup) (r : Ring) (q reader count : Nat) :
    readHeld held r q reader count = heardAt held r q reader count := by
  unfold readHeld heardAt
  cases held.find? (fun h => h.group == q / 8) with
  | none => by_cases clean : q / 8 ∈ r.clean <;> simp [Ring.hole, clean]
  | some h =>
    dsimp only
    cases left : h.left <;> cases right : h.right <;> simp

theorem push_facts (r : Ring) (size : Nat) (x : Stereo) :
    (r.push size x).write = (r.write + 1) % size ∧ (r.push size x).clean = r.clean
      ∧ ((r.write + 1) % 8 ≠ 0 → (r.push size x).current = r.current ++ [x]) := by
  unfold Ring.push
  dsimp only
  by_cases whole : (r.write + 1) % 8 = 0
  · rw [if_pos whole]
    exact ⟨rfl, rfl, fun no => absurd whole no⟩
  · rw [if_neg whole]
    exact ⟨rfl, rfl, fun _ => rfl⟩

/-- A ring that has been written to sounds as before at a position: it keeps its hole marks. -/
theorem heardAt_push (held : List HeldGroup) (r : Ring) (size : Nat) (x : Stereo) (q reader count : Nat) :
    heardAt held (r.push size x) q reader count = heardAt held r q reader count := by
  unfold heardAt
  rw [(push_facts r size x).2.1]

/-! ## One local sample as a whole (R65) -/

/-- What the announce unit leaves of the state that it meets. -/
theorem announceSample_blocks (a : State) :
    a.announceSample.mixer = a.mixer ∧ a.announceSample.blend = a.blend ∧ a.announceSample.call = a.call
      ∧ a.announceSample.localCount = a.localCount ∧ a.announceSample.announce.out = a.soundPlays.announce.out
      ∧ a.announceSample.announce.plays.map (Option.map Play.bare) = a.soundPlays.announce.plays.map (Option.map Play.bare)
      ∧ a.announceSample.announce.clips = a.announce.clips ∧ a.announceSample.announce.channels = a.announce.channels := by
  have kept := announceSample_clipKept a
  have turns := (announceSample_turned a).1
  simp only [State.clipKept, Prod.mk.injEq] at kept
  simp only [turned, Prod.mk.injEq] at turns
  exact ⟨kept.1, kept.2.1, kept.2.2.1, kept.2.2.2.2.1, kept.2.2.2.2.2.1, kept.2.2.2.2.2.2, turns.1, turns.2.1⟩

/-- The state in which the zones of a local sample are mixed and the output pairs have played. -/
def State.played (t : State) (i : InputSamples) : State := (t.gatedFor i).mixZones.playPairs

/-- The state that the blend engine meets at a local sample: the announce unit and the cadences have done their part. -/
def State.cadenced (t : State) (i : InputSamples) : State := (t.played i).announceSample.cadenceSample

theorem played_blocks (t : State) (i : InputSamples) :
    let a := t.played i
    a.announce = t.announce ∧ a.blend = (t.gatedFor i).blend ∧ a.call = t.call ∧ a.localCount = t.localCount
      ∧ a.ports.quiet = (t.ports.sample i).1.quiet ∧ a.mixer.zones = (t.gatedFor i).mixZones.mixer.zones
      ∧ a.line = t.line ∧ a.tables = t.tables ∧ a.member = t.member ∧ a.startUp = t.startUp
      ∧ a.mixer.round = (t.mixer.round + 1) % 8 ∧ a.store.refreshTick = t.store.refreshTick ∧ a.follower = t.follower.stepGate
      ∧ a.store.regions = t.store.regions := by
  obtain ⟨mixer, announce, call, count, line, tables, member, startUp, store, follower, ports⟩ := gatedFor_facts t i
  unfold State.played
  obtain ⟨stage, -⟩ := playPairs_stage (t.gatedFor i).mixZones
  obtain ⟨turns, -, round⟩ := playPairs_turned (t.gatedFor i).mixZones
  simp only [Prod.mk.injEq] at stage
  simp only [turnedBut, Prod.mk.injEq] at turns
  obtain ⟨zones, counts, clips, blend, calls, quiet⟩ := stage
  refine ⟨by rw [clips]; simp [announce], by rw [blend]; simp, by rw [calls]; simp [call], by rw [counts]; simp [count],
    by rw [quiet]; simp [ports], zones, by simp [line], by simp [tables], by simp [member], by simp [startUp], ?_, ?_,
    by simp [follower], by simp [store]⟩
  · rw [round]
    show ((t.gatedFor i).mixer.round + 1) % 8 = _
    rw [mixer]
  · rw [turns.2.2.2.2.2.2.1]
    simp [store]

/-- What the announce and cadence units leave of the state that they meet. -/
theorem announced_blocks (a : State) :
    let d := a.announceSample.cadenceSample
    d.mixer = a.mixer ∧ d.ports = a.ports ∧ d.blend = a.blend ∧ d.call = a.call ∧ d.localCount = a.localCount
      ∧ d.line = a.line ∧ d.tables = a.tables ∧ d.member = a.member ∧ d.startUp = a.startUp
      ∧ d.announce.clips = a.announce.clips ∧ d.announce.out = a.soundPlays.announce.out
      ∧ d.announce.plays.map (Option.map Play.bare) = a.soundPlays.announce.plays.map (Option.map Play.bare)
      ∧ (∀ c, d.channel c = (a.channel c).count) ∧ d.store.refreshTick = a.store.refreshTick
      ∧ d.store.regions = a.store.regions ∧ d.follower = a.follower := by
  obtain ⟨mixer, blend, call, count, out, plays, clips, channels⟩ := announceSample_blocks a
  have turns := (announceSample_turned a).1
  simp only [turned, Prod.mk.injEq] at turns
  have frame := State.announceSample_frame a
  have channel : ∀ c, a.announceSample.cadenceSample.channel c = (a.channel c).count := fun c => by
    rw [cadenceSample_channel, State.channel, State.channel, channels]
  generalize a.announceSample = v at *
  obtain ⟨-, -, line, tables, member, follower, ports, -, startUp, -, -, -, -, -, regions, -⟩ := frame
  exact ⟨mixer, ports, blend, call, count, line, tables, member, startUp, clips, out, plays, channel,
    turns.2.2.2.2.2.2.2.1, regions, follower⟩

theorem cadenced_blocks (t : State) (i : InputSamples) :
    let a := t.played i
    let d := t.cadenced i
    d.mixer = a.mixer ∧ d.ports = a.ports ∧ d.blend = (t.gatedFor i).blend ∧ d.call = t.call ∧ d.localCount = t.localCount
      ∧ d.line = t.line ∧ d.tables = t.tables ∧ d.member = t.member ∧ d.startUp = t.startUp
      ∧ d.announce.clips = t.announce.clips ∧ d.announce.out = a.soundPlays.announce.out
      ∧ d.announce.plays.map (Option.map Play.bare) = a.soundPlays.announce.plays.map (Option.map Play.bare)
      ∧ (∀ c, d.channel c = (t.channel c).count) ∧ d.store.refreshTick = t.store.refreshTick
      ∧ d.store.regions = t.store.regions ∧ d.follower = t.follower.stepGate := by
  obtain ⟨announce, blend, call, count, -, -, line, tables, member, startUp, -, tick, follower, regions⟩ := played_blocks t i
  unfold State.cadenced
  generalize t.played i = a at *
  obtain ⟨mixer, ports, blend', call', count', line', tables', member', startUp', clips, out, plays, channels, tick', regions',
    follower'⟩ := announced_blocks a
  have channel : ∀ c, a.channel c = t.channel c := fun c => by rw [State.channel, State.channel, announce]
  exact ⟨mixer, ports, blend'.trans blend, call'.trans call, count'.trans count, line'.trans line, tables'.trans tables,
    member'.trans member, startUp'.trans startUp, clips.trans (congrArg Announce.clips announce), out, plays,
    fun c => (channels c).trans (congrArg CadenceChannel.count (channel c)), tick'.trans tick, regions'.trans regions,
    follower'.trans follower⟩

/-- What the blend engine and the call unit leave of the state that they meet. -/
theorem worked_blocks (d : State) :
    let w := d.blendSample.callSample
    w.mixer = d.mixer ∧ w.ports = d.ports ∧ w.announce = d.announce ∧ w.blend = d.blendSample.blend
      ∧ d.blendSample.call = d.call ∧ w.follower = d.follower ∧ w.localCount = d.localCount
      ∧ w.store.refreshTick = d.store.refreshTick := by
  obtain ⟨mixer, announce, call, ports, count⟩ := blendSample_others d
  have tick : d.blendSample.store.refreshTick = d.store.refreshTick := by
    have turns := (blendSample_turned d).1
    simp only [turnedBeforeBlend, Prod.mk.injEq] at turns
    exact turns.2.2.2.2.2.1
  have follower : d.blendSample.follower = d.follower := by simp
  generalize d.blendSample = x at *
  obtain ⟨mixer', announce', blend', ports', count'⟩ := callSample_others x
  have tick' : x.callSample.store.refreshTick = x.store.refreshTick := by
    have turns := (callSample_turned x).1
    simp only [turnedBeforeCall, Prod.mk.injEq] at turns
    exact turns.2.2.2.2.2.1
  have follower' : x.callSample.follower = x.follower := by simp
  exact ⟨mixer'.trans mixer, ports'.trans ports, announce'.trans announce, blend', call, follower'.trans follower,
    count'.trans count, tick'.trans tick⟩

theorem localSample_whole (t : State) (i : InputSamples) (awake : t.member.station ≠ .dormant) :
    ∃ w : State, w = (t.cadenced i).blendSample.callSample
      ∧ t.localSample i = { w with store.refreshTick := w.store.refreshTick + 1, localCount := w.localCount + 1 } := by
  obtain ⟨a, b, d, x, played, announced, cadenced, worked, whole⟩ := localSample_stages t i awake
  refine ⟨x.callSample, ?_, whole⟩
  rw [worked, cadenced, announced, played]
  rfl

/-- A local sample, block by block: each block's part is done on the blocks of the others as they stood (R65). -/
theorem localSample_blocks (t : State) (i : InputSamples) (awake : t.member.station ≠ .dormant) :
    let u := t.localSample i
    let a := t.played i
    let d := t.cadenced i
    u.mixer = a.mixer ∧ u.ports = a.ports ∧ u.announce = d.announce ∧ u.blend = d.blendSample.blend
      ∧ u.call = d.blendSample.callSample.call ∧ d.blendSample.call = t.call ∧ u.follower = t.follower.stepGate
      ∧ u.localCount = t.localCount + 1 ∧ u.store.refreshTick = t.store.refreshTick + 1
      ∧ u.store.gaps = d.blendSample.callSample.store.gaps ∧ u.host = d.blendSample.callSample.host := by
  obtain ⟨mixer, ports, -, call, count, -, -, -, -, -, -, -, -, tick, -, follower⟩ := cadenced_blocks t i
  obtain ⟨w, worked, whole⟩ := localSample_whole t i awake
  generalize t.played i = a at *
  generalize t.cadenced i = d at *
  obtain ⟨mixer', ports', announce', blend', call', follower', count', tick'⟩ := worked_blocks d
  rw [← worked] at mixer' ports' announce' blend' follower' count' tick'
  have call'' : w.call = d.blendSample.callSample.call := by rw [worked]
  have gaps : w.store.gaps = d.blendSample.callSample.store.gaps := by rw [worked]
  have host : w.host = d.blendSample.callSample.host := by rw [worked]
  dsimp only
  rw [whole]
  exact ⟨mixer'.trans mixer, ports'.trans ports, announce', blend', call'', call'.trans call, follower'.trans follower,
    congrArg (· + 1) (count'.trans count), congrArg (· + 1) (tick'.trans tick), gaps,
    host⟩

end Sys2Proof.Machine
end

section
/-! PROOFS. One local sample moves the blocks (R65, R69, R73 to R76, R108, R109, R113, R129, R130). -/

namespace Sys2Proof.Machine

set_option maxRecDepth 20000

/-! ## The quality block and the slip balance (R74 to R76) -/

/-- What a read hands to the quality block: one sample more, and the worse of the marks (R76). -/
def CountsMark (p r : Ports) (q : Quality) : Prop :=
  r.blockReads = p.blockReads + 1 ∧ qualityCode r.blockWorst = max (qualityCode p.blockWorst) (qualityCode q)

theorem countRead_counts (p r : Ports) (q : Quality) (reads : r.blockReads = p.blockReads) (worst : r.blockWorst = p.blockWorst) :
    CountsMark p (r.countRead q) q := by
  refine ⟨congrArg (· + 1) reads, ?_⟩
  show qualityCode (worseQuality r.blockWorst q) = _
  rw [worst]
  cases p.blockWorst <;> cases q <;> rfl

/-- The mark that a local sample hands, by the read that it makes, and the slip balance where it slips (R74 to R76). -/
theorem sample_counts (p : Ports) (i : InputSamples) :
    (p.reading = false ∨ p.buffer = [] → CountsMark p (p.sample i).1 .lost)
      ∧ ∀ x rest, p.reading = true → p.buffer = x :: rest →
        (p.slipGuard < 64 ∨ 8 ≤ p.buffer.length ∧ p.buffer.length ≤ 56 → CountsMark p (p.sample i).1 x.quality)
        ∧ (p.buffer.length < 8 → 64 ≤ p.slipGuard →
            CountsMark p (p.sample i).1 ((p.lastHanded.map (fun y => y.quality)).getD .lost)
            ∧ (p.sample i).1.balance = max (-257) (min 257 (p.balance + 1)))
        ∧ (∀ y more, 56 < p.buffer.length → 64 ≤ p.slipGuard → rest = y :: more →
            CountsMark p (p.sample i).1 y.quality ∧ (p.sample i).1.balance = max (-257) (min 257 (p.balance - 1))) := by
  unfold Ports.sample Ports.read
  dsimp only
  refine ⟨fun missing => ?_, fun x rest reading buffer => ⟨fun calm => ?_, fun low guarded => ?_, fun y more high guarded long => ?_⟩⟩
  · cases reading : p.reading with
    | false => exact countRead_counts p _ .lost rfl rfl
    | true =>
      have empty : p.buffer = [] := missing.resolve_left (by rw [reading]; decide)
      rw [empty]
      exact countRead_counts p _ .lost rfl rfl
  · rw [buffer] at calm
    simp only [reading, buffer, if_true]
    rw [if_neg (by omega), if_neg (by omega)]
    exact countRead_counts p _ x.quality rfl rfl
  · rw [buffer] at low
    simp only [reading, buffer, if_true]
    rw [if_pos ⟨low, guarded⟩]
    cases p.lastHanded with
    | none => exact ⟨countRead_counts p _ .lost rfl rfl, rfl⟩
    | some y => exact ⟨countRead_counts p _ y.quality rfl rfl, rfl⟩
  · subst long
    rw [buffer] at high
    simp only [reading, buffer, if_true]
    rw [if_neg (by omega), if_pos ⟨high, guarded⟩]
    exact ⟨countRead_counts p _ y.quality rfl rfl, rfl⟩

theorem sample_reads (p : Ports) (i : InputSamples) :
    (p.sample i).1.blockReads = p.blockReads + 1 ∧ (p.sample i).1.outputs = p.outputs := by
  unfold Ports.sample Ports.read
  dsimp only
  cases p.reading with
  | false => exact ⟨rfl, rfl⟩
  | true =>
    simp only [if_true]
    cases p.buffer with
    | nil => exact ⟨rfl, rfl⟩
    | cons x rest =>
      dsimp only
      split
      · cases p.lastHanded <;> exact ⟨rfl, rfl⟩
      · split
        next high =>
          cases rest with
          | nil => exact absurd high.1 (by simp)
          | cons y more => exact ⟨rfl, rfl⟩
        next => exact ⟨rfl, rfl⟩

/-! ## The gate and the cadences (R69, R129, R130) -/

theorem stepGate_cases (f : Follower) :
    (f.gate = .closing → f.stepGate = { f with gain := f.gain - 10 })
      ∧ (f.gate = .opening → f.stepGate = { f with gain := min 480 (f.gain + 1) })
      ∧ (f.gate = .open ∨ f.gate = .shut → f.stepGate = f) := by
  unfold Follower.stepGate
  refine ⟨fun gate => by rw [gate], fun gate => by rw [gate], fun gate => ?_⟩
  obtain gate | gate := gate <;> rw [gate]

theorem count_cases (k : CadenceChannel) :
    (k.role = .leader → k.running = true → k.count = { k with time := k.time - 1 })
      ∧ (∀ l, k.role = .follower l → k.counting = true → k.count = { k with remaining := k.remaining - 1 }) := by
  unfold CadenceChannel.count
  refine ⟨fun leads runs => ?_, fun l follows counts => ?_⟩
  · rw [leads]
    exact if_pos runs
  · rw [follows]
    exact if_pos counts

/-! ## The zones (R108, R109) -/

/-- A zone after a local sample: its ramps stepped, its sum formed. -/
def Zone.sampled (t : State) (v : Zone) : Zone := { v.stepRamps with sum := mixStereo (t.zoneTerms v.stepRamps) }

theorem played_zone (t : State) (i : InputSamples) (z : Nat) (inside : z < t.mixer.zones.length) :
    (t.played i).zone z = (t.zone z).sampled t := by
  obtain ⟨-, -, -, -, -, zones, -⟩ := played_blocks t i
  obtain ⟨mixer, -, -, -, line, tables, -⟩ := gatedFor_facts t i
  have terms : ∀ v, (t.gatedFor i).zoneTerms v = t.zoneTerms v := fun v => by
    unfold State.zoneTerms State.streamStereo State.handed
    rw [line, tables]
  have mixes : (t.gatedFor i).mixZones.mixer.zones = t.mixer.zones.map (fun v => v.sampled t) := by
    show (t.gatedFor i).mixer.zones.map _ = _
    rw [mixer]
    exact List.map_congr_left fun v _ => congrArg (fun x => { v.stepRamps with sum := mixStereo x }) (terms v.stepRamps)
  unfold State.zone
  rw [zones, mixes, List.getD_eq_getElem?_getD, List.getElem?_map, List.getD_eq_getElem?_getD, List.getElem?_eq_getElem inside]
  rfl

theorem mixed_zero : mixed 0 = 0 := by decide

/-- What a local sample makes of a zone (R108, R109, R110). -/
theorem sampled_facts (t : State) (v : Zone) :
    let n := v.sampled t
    n.routes.length = v.routes.length
      ∧ (∀ (k : Nat) (e : RouteEntry), v.routes[k]? = some e → ∃ r, n.routes[k]? = some { e with ramp := r } ∧ rampStepped e.ramp r)
      ∧ (∃ r, n.position = { v.position with ramp := r } ∧ rampStepped v.position.ramp r)
      ∧ n.sum = { left := mixed (t.zoneTotal n false), right := mixed (t.zoneTotal n true) }
      ∧ ((∀ e, e ∈ v.routes → e.state = .waiting) → v.position.state ≠ .live → n.sum = .zero) := by
  intro n
  have sum : n.sum = { left := mixed (t.zoneTotal n false), right := mixed (t.zoneTotal n true) } := zoneSum_eq t v.stepRamps
  have routes : n.routes = v.routes.map (fun e => { e with ramp := e.ramp.advance }) := rfl
  refine ⟨by rw [routes, List.length_map], fun k e there => ⟨e.ramp.advance, ?_, advance_stepped e.ramp⟩,
    ⟨v.position.ramp.advance, rfl, advance_stepped _⟩, sum, fun waiting silent => ?_⟩
  · rw [routes, List.getElem?_map, there]
    rfl
  · have none : n.routes.filter (fun e => e.state != .waiting) = [] := by
      rw [List.filter_eq_nil_iff, routes]
      intro e there
      obtain ⟨f, inList, rfl⟩ := List.mem_map.mp there
      simp [waiting f inList]
    have nothing : ∀ right, t.zoneTotal n right = 0 := fun right => by
      unfold State.zoneTotal
      rw [none]
      have off : n.position.state ≠ .live := silent
      split
      · exact absurd ‹_› off
      · rfl
    rw [sum, nothing, nothing, mixed_zero]
    rfl

/-! ## The output pairs (R71, R113) -/

/-- In a list of pairs without a double, a pair is found by its number. -/
theorem find_pair (l : List OutputPair) (o : OutputPair) (there : o ∈ l) (distinct : l.Pairwise (fun a b => a.pair ≠ b.pair)) :
    l.find? (fun p => p.pair == o.pair) = some o := by
  induction l with
  | nil => cases there
  | cons p l ih =>
    obtain ⟨apart, rest⟩ := List.pairwise_cons.mp distinct
    obtain rfl | later := List.mem_cons.mp there
    · exact List.find?_cons_of_pos (by simp)
    · rw [List.find?_cons_of_neg (by simpa using apart o later)]
      exact ih later rest

/-- The place of the zone, with its pair, that a pair's number finds among the definitions. -/
theorem findSome_pair (q : Nat) : ∀ (l : List ZoneDefinition) (n z : Nat) (d : ZoneDefinition) (o : OutputPair), l[z]? = some d →
    o ∈ d.pairs → o.pair = q → (l.flatMap (fun e => e.pairs)).Pairwise (fun a b => a.pair ≠ b.pair) →
    (l.zipIdx n).findSome? (fun d => (d.1.pairs.find? (fun o => o.pair == q)).map (fun o => (d.2, o))) = some (n + z, o)
  | [], _, _, _, _, there, _, _, _ => by simp at there
  | e :: l, n, 0, d, o, there, holds, number, distinct => by
    cases there
    rw [List.flatMap_cons, List.pairwise_append] at distinct
    rw [List.zipIdx_cons, List.findSome?_cons, ← number, find_pair _ o holds distinct.1]
    rfl
  | e :: l, n, z + 1, d, o, there, holds, number, distinct => by
    rw [List.flatMap_cons, List.pairwise_append] at distinct
    have within : o ∈ l.flatMap (fun e => e.pairs) := List.mem_flatMap.mpr ⟨d, List.mem_of_getElem? there, holds⟩
    have missing : e.pairs.find? (fun o => o.pair == q) = none := by
      rw [List.find?_eq_none]
      intro p inE same
      exact distinct.2.2 p inE o within ((eq_of_beq same).trans number.symm)
    rw [List.zipIdx_cons, List.findSome?_cons, missing]
    rw [show n + (z + 1) = n + 1 + z by omega]
    exact findSome_pair q l (n + 1) z d o there holds number distinct.2.1

theorem assigned_pair (t : State) (z : Nat) (d : ZoneDefinition) (o : OutputPair) (defined : t.definitions[z]? = some d)
    (holds : o ∈ d.pairs) (distinct : (t.definitions.flatMap (fun e => e.pairs)).Pairwise (fun a b => a.pair ≠ b.pair)) :
    t.assigned o.pair = some (z, o) := by
  unfold State.assigned
  rw [List.head?_filterMap, findSome_pair o.pair t.definitions 0 z d o defined holds rfl distinct, Nat.zero_add]

theorem assigned_none (t : State) (q : Nat) (free : ∀ d o, d ∈ t.definitions → o ∈ d.pairs → o.pair ≠ q) : t.assigned q = none := by
  unfold State.assigned
  rw [List.head?_filterMap, List.findSome?_eq_none_iff]
  intro d there
  rw [Option.map_eq_none_iff, List.find?_eq_none]
  intro o holds same
  exact free d.1 o (List.fst_mem_of_mem_zipIdx there) holds (eq_of_beq same)

theorem playedPosition_behind (w delay : Nat) : playedPosition w delay = behind 2560 w (48 + delay) := rfl

/-- A sample as a pair emits it (R69, R113). -/
theorem emitted_eq (trim gain : Nat) (x : Stereo) :
    emitted trim gain x = { left := limit24 (roundDiv ((mixed (x.left.toInt * attenuation trim)).toInt * gain) 480),
                            right := limit24 (roundDiv ((mixed (x.right.toInt * attenuation trim)).toInt * gain) 480) } := by
  have one : ∀ y : Sample, mixSamples [(y, attenuation trim)] = mixed (y.toInt * attenuation trim) := fun y => by
    rw [mixSamples_eq]
    simp
  unfold emitted mixStereo gated
  simp only [List.map_cons, List.map_nil, one]

/-- What an output pair emits at a local sample, and its ring after it (R71, R113, R115). -/
theorem played_pair (t : State) (i : InputSamples) (q : Nat) (low : q < 6) (outputs : t.ports.outputs.length = 6)
    (paths : t.mixer.paths.length = 6) :
    (t.assigned q = none → (t.played i).ports.outputs.getD q .zero = .zero)
      ∧ ∀ z o, t.assigned q = some (z, o) →
        let path := t.path q
        let w := path.ring.write
        (t.played i).ports.outputs.getD q .zero
            = emitted o.trim t.follower.stepGate.gain (heardAt path.held path.ring (behind 2560 w (48 + o.delay)) q t.localCount)
          ∧ ((t.played i).path q).ring.write = (w + 1) % 2560
          ∧ ((w + 1) % 8 ≠ 0 →
              ((t.played i).path q).ring.current = path.ring.current ++ [((t.played i).zone z).sum]) := by
  obtain ⟨mixer, -, -, count, -, -, member, startUp, -, follower, ports⟩ := gatedFor_facts t i
  obtain ⟨-, -, -, -, -, zones, -⟩ := played_blocks t i
  have definitions : (t.gatedFor i).mixZones.definitions = t.definitions :=
    definitions_of t _ (by simp [member]) (by simp [startUp])
  have assigned : (t.gatedFor i).mixZones.assigned q = t.assigned q := by rw [State.assigned, State.assigned, definitions]
  have path : (t.gatedFor i).mixZones.path q = t.path q := by
    show (t.gatedFor i).mixer.paths.getD q _ = _
    rw [mixer]
    rfl
  have room : q < (t.gatedFor i).mixZones.mixer.paths.length := by
    show q < (t.gatedFor i).mixer.paths.length
    rw [mixer, paths]
    exact low
  have slots : q < (t.gatedFor i).mixZones.ports.outputs.length := by
    have same : (t.gatedFor i).mixZones.ports = (t.ports.sample i).1 := by simp [ports]
    rw [same, (sample_reads t.ports i).2, outputs]
    exact low
  have zone : ∀ z, (t.gatedFor i).mixZones.zone z = (t.played i).zone z := fun z => by rw [State.zone, State.zone, zones]
  have gain : (t.gatedFor i).mixZones.follower = t.follower.stepGate := by simp [follower]
  have counts : (t.gatedFor i).mixZones.localCount = t.localCount := by simp [count]
  obtain ⟨emits, write, current⟩ := (playPairs_stage (t.gatedFor i).mixZones).2 q low room slots
  have plays := playPair_eq (t.gatedFor i).mixZones q room slots
  rw [assigned, path, counts, gain] at plays
  have played : (t.gatedFor i).mixZones.playPairs = t.played i := rfl
  rw [played] at emits write current
  refine ⟨fun free => ?_, fun z o own => ?_⟩
  · rw [free] at plays
    rw [emits, plays]
  · rw [own] at plays
    dsimp only at plays
    obtain ⟨written, -, grown⟩ := push_facts (t.path q).ring alignPositions ((t.gatedFor i).mixZones.zone z).sum
    refine ⟨?_, ?_, fun whole => ?_⟩
    · rw [emits, plays]
      dsimp only
      rw [readHeld_heard, heardAt_push, playedPosition_behind]
    · rw [write, plays]
      exact written
    · rw [current, plays]
      exact (grown whole).trans (by rw [zone])

/-- Settles O37: the blocks one by one, each from its part in the local sample. -/
theorem aLocalSampleMovesTheBlocks : Obligations.ALocalSampleMovesTheBlocks := by
  intro i s released t p counts
  have acts := exec_outside (.localSample i) s (fun t => t.localSample i) rfl released
  have settled : s.settle = t := rfl
  rw [settled] at acts
  clear_value t
  refine ⟨fun dormant => ?_, fun awake => ⟨_, acts, ?_⟩⟩
  · have stands : t.localSample i = t := if_pos dormant
    rw [acts, stands]
  obtain ⟨mixer, ports, announce, blend, call, calls, follower, count, tick, -, -⟩ := localSample_blocks t i awake
  obtain ⟨-, -, -, -, quiet, -, -, -, -, -, round, -⟩ := played_blocks t i
  obtain ⟨-, -, blend', -, -, -, -, -, -, clips, -, -, channels, -⟩ := cadenced_blocks t i
  obtain ⟨-, blendRound, idle⟩ := blendSample_turned (t.cadenced i)
  obtain ⟨-, callRound, off⟩ := callSample_turned (t.cadenced i).blendSample
  obtain ⟨-, -, -, -, -, -, -, takenRound, takenIdle⟩ := portSample_turned t i
  have frame := State.localSample_frame t i
  have handed : (t.localSample i).ports.quiet = (t.ports.sample i).1.quiet := by rw [ports, quiet]
  have channel : ∀ c, (t.localSample i).channel c = (t.channel c).count := fun c => by
    rw [← channels c, State.channel, State.channel, announce]
  have zone : ∀ z, (t.localSample i).zone z = (t.played i).zone z := fun z => by rw [State.zone, State.zone, mixer]
  have path : ∀ q, (t.localSample i).path q = (t.played i).path q := fun q => by rw [State.path, State.path, mixer]
  have gated : (t.gatedFor i).blend = (t.portSample i).blend := rfl
  have roundBlend : (t.localSample i).blend.round = (t.blend.round + 1) % 8 := by
    rw [blend, blendRound, blend', gated, takenRound]
  have quietBlend : t.blend.state = .idle → (t.localSample i).blend.out = .zero := fun resting => by
    rw [blend]
    exact idle (by rw [blend', gated]; exact takenIdle resting)
  have roundCall : (t.localSample i).call.round = (t.call.round + 1) % 8 := by rw [call, callRound, calls]
  have silentCall : t.call.state = .off → (t.localSample i).call.uplink = 0 := fun resting => by
    rw [call]
    exact off (by rw [calls]; exact resting)
  have roundMixer : (t.localSample i).mixer.round = (t.mixer.round + 1) % 8 := by rw [mixer, round]
  have keptClips : (t.localSample i).announce.clips = t.announce.clips := by rw [announce, clips]
  obtain ⟨-, line, tables, member, note, startUp, -, regions, -⟩ := frame
  have pairs := fun q low outputs paths => played_pair t i q low outputs paths
  have zones := fun z inside => (zone z).trans (played_zone t i z inside)
  simp only [← zone, ← path, ← ports] at pairs
  generalize t.localSample i = u at *
  clear announce blend call
  have buffer := congrArg Ports.buffer handed
  have digital := congrArg Ports.digital handed
  have balance := congrArg Ports.balance handed
  have guard := congrArg Ports.slipGuard handed
  have reading := congrArg Ports.reading handed
  have reads := congrArg Ports.blockReads handed
  have worst := congrArg Ports.blockWorst handed
  have inputs := congrArg Ports.inputs handed
  have gap := congrArg Ports.arrivalGap handed
  dsimp only [Ports.quiet] at buffer digital balance guard reading reads worst inputs gap
  obtain ⟨takes, gaps, still, empty, slips⟩ := portsSample_facts t.ports i
  obtain ⟨lost, marks⟩ := sample_counts t.ports i
  obtain ⟨closes, opens, stays⟩ := stepGate_cases t.follower
  have marked : ∀ q, CountsMark t.ports (t.ports.sample i).1 q → counts u q := fun q m => by
    show qualityCode u.ports.blockWorst = _
    rw [worst]
    exact m.2
  refine ⟨⟨line, tables, member, note, startUp⟩, keptClips, regions, inputs.trans takes, gap.trans gaps, count, tick, roundMixer,
    roundBlend, roundCall, fun off => ?_, fun on none => ?_, reads.trans (sample_reads t.ports i).1, fun no => marked _ (lost no),
    fun x rest on holds => ⟨fun calm => ?_, fun low guarded => ?_, fun y more high guarded long => ?_⟩,
    fun gate => follower.trans (closes gate), fun gate => follower.trans (opens gate), fun gate => follower.trans (stays gate),
    fun c leads runs => (channel c).trans ((count_cases _).1 leads runs),
    fun c l follows awaits => (channel c).trans ((count_cases _).2 l follows awaits), quietBlend, silentCall,
    fun z inside => ?_, fun outputs paths => ⟨fun q low free => ?_, fun z d o defined holds low distinct => ?_⟩⟩
  · rw [digital, buffer, balance]
    exact still off
  · rw [reading, digital, balance]
    exact empty on none
  · obtain ⟨hasBuffer, hasDigital, hasBalance, hasGuard⟩ := (slips x rest on holds).1 calm
    exact ⟨buffer.trans hasBuffer, digital.trans hasDigital, balance.trans hasBalance, guard.trans hasGuard,
      marked _ ((marks x rest on holds).1 calm)⟩
  · obtain ⟨hasBuffer, hasDigital, hasGuard, -⟩ := (slips x rest on holds).2.1 low guarded
    obtain ⟨mark, slipped⟩ := (marks x rest on holds).2.1 low guarded
    exact ⟨buffer.trans hasBuffer, digital.trans hasDigital, marked _ mark, guard.trans hasGuard, balance.trans slipped⟩
  · obtain ⟨hasBuffer, hasDigital, hasGuard, -⟩ := (slips x rest on holds).2.2 y more high guarded long
    obtain ⟨mark, slipped⟩ := (marks x rest on holds).2.2 y more high guarded long
    exact ⟨buffer.trans hasBuffer, digital.trans hasDigital, marked _ mark, guard.trans hasGuard, balance.trans slipped⟩
  · dsimp only
    rw [zones z inside]
    exact sampled_facts t (t.zone z)
  · exact (pairs q low outputs paths).1 (assigned_none t q free)
  · obtain ⟨emits, write, current⟩ := (pairs o.pair low outputs paths).2 z o (assigned_pair t z d o defined holds distinct)
    refine ⟨?_, write, current⟩
    rw [follower, emits]
    exact emitted_eq _ _ _

end Sys2Proof.Machine
end

section
/-! PROOFS. Cadences and plays fall due (R125, R126, R129, R130). -/

namespace Sys2Proof.Machine

set_option maxRecDepth 20000

/-! ## The expiry of a leader (R129) -/

/-- A leader with its staged values loaded (R129 step 1). -/
def CadenceChannel.loadedLeader (k : CadenceChannel) : CadenceChannel :=
  { k with activePeriod := k.stagedPeriod, activeRepetitions := k.stagedRepetitions }

/-- A follower with its staged values loaded, triggered (R129 step 2). -/
def CadenceChannel.loadedFollower (k : CadenceChannel) : CadenceChannel :=
  { k with activeDelay := k.stagedDelay, activeClip := k.stagedClip, remaining := k.stagedDelay, counting := true }

theorem triggerFollowers_channel (s : State) (c j : Nat) (inside : c < s.announce.channels.length)
    (leads : (s.channel c).role = .leader) :
    (s.triggerFollowers c).channel j = if j = c then (s.channel c).loadedLeader
      else if (s.channel j).role = .follower c then (s.channel j).loadedFollower else s.channel j := by
  rw [State.triggerFollowers, channel_onFollowers, loadStaged_channel s c j inside leads]
  by_cases self : j = c
  · subst self
    rw [if_pos rfl, if_pos rfl]
    exact if_neg fun follows => by
      have role : (s.channel j).role = .follower j := follows
      rw [leads] at role
      cases role
  · rw [if_neg self, if_neg self]
    by_cases follows : (s.channel j).role = .follower c
    · rw [if_pos follows, if_pos follows]
      exact (if_pos follows).symm
    · rw [if_neg follows, if_neg follows, if_neg follows]

theorem triggerFollowers_kept (s : State) (c : Nat) :
    CadKept s (s.triggerFollowers c) ∧ (s.triggerFollowers c).announce.plays = s.announce.plays
      ∧ (s.triggerFollowers c).host = s.host :=
  ⟨cadKept_trans (cadKept_trans (cadKept_onChannel s c _) (cadKept_onFollowers _ c _)) (cadKept_onFollowers _ c _), rfl, rfl⟩

/-- Without a follower that counts 0 no firing takes place. -/
theorem fireFollowers_idle (w : State) (c : Nat) (idle : ∀ j, j ∈ w.followersOf c → ¬FireDue w j) : w.fireFollowers c = w := by
  unfold State.fireFollowers
  generalize w.followersOf c = followers at idle
  induction followers with
  | nil => rfl
  | cons j l ih =>
    rw [List.foldl_cons, fires_idle w j (idle j (List.mem_cons_self ..))]
    exact ih fun m mem => idle m (List.mem_cons_of_mem _ mem)

/-- A leader with one repetition more counted (R129 step 3). -/
def CadenceChannel.counted (k : CadenceChannel) : CadenceChannel := { k with done := min 255 (k.done + 1) }

/-- The repetition counted, the leader runs on or stops (R129 step 3). -/
theorem countRepetition_cases (v : State) (c : Nat) (inside : c < v.announce.channels.length) :
    let k := (v.channel c).counted
    let u := v.countRepetition c
    (k.activeRepetitions ≠ 0 ∧ k.activeRepetitions ≤ k.done →
        u.channel c = { k with running := false } ∧ u.host = v.eventRaised .cadenceDone [c] none)
      ∧ (¬(k.activeRepetitions ≠ 0 ∧ k.activeRepetitions ≤ k.done) →
        u.channel c = { k with time := k.activePeriod } ∧ u.host = v.host)
      ∧ (∀ j, j ≠ c → u.channel j = v.channel j) ∧ CadKept v u ∧ u.announce.plays = v.announce.plays := by
  intro k u
  have counted : (v.onChannel c CadenceChannel.counted).channel c = k := channel_onChannel v c _ inside
  have length : c < (v.onChannel c CadenceChannel.counted).announce.channels.length := by rw [onChannel_len]; exact inside
  have kept : ∀ f, CadKept v ((v.onChannel c CadenceChannel.counted).onChannel c f) := fun f =>
    cadKept_trans (cadKept_onChannel v c _) (cadKept_onChannel _ c f)
  have others : ∀ f j, j ≠ c → ((v.onChannel c CadenceChannel.counted).onChannel c f).channel j = v.channel j := fun f j other =>
    (channel_onChannel_ne _ _ _ _ other).trans (channel_onChannel_ne _ _ _ _ other)
  by_cases ends : k.activeRepetitions ≠ 0 ∧ k.activeRepetitions ≤ k.done
  · have done : u = raise .cadenceDone [c] none ((v.onChannel c CadenceChannel.counted).onChannel c
        (fun k => { k with running := false })) := if_pos (by rw [← counted] at ends; exact ends)
    have channels : ∀ j, u.channel j = ((v.onChannel c CadenceChannel.counted).onChannel c
        (fun k => { k with running := false })).channel j := fun j => by
      rw [done, State.channel, State.channel]
      simp
    refine ⟨fun _ => ⟨?_, ?_⟩, fun runs => absurd ends runs, fun j other => (channels j).trans (others _ j other), ?_, ?_⟩
    · rw [channels, channel_onChannel _ _ _ length, counted]
    · rw [done, raise_host]
      rfl
    · refine cadKept_trans (kept (fun k => { k with running := false })) ?_
      rw [done]
      simp [CadKept, State.sameLine]
    · rw [done]
      simp [State.onChannel]
  · have runs : u = (v.onChannel c CadenceChannel.counted).onChannel c (fun k => { k with time := k.activePeriod }) :=
      if_neg (by rw [← counted] at ends; exact ends)
    refine ⟨fun stops => absurd stops ends, fun _ => ⟨?_, by rw [runs]; rfl⟩, fun j other => ?_, ?_, by rw [runs]; rfl⟩
    · rw [runs, channel_onChannel _ _ _ length, counted]
    · rw [runs, others _ j other]
    · rw [runs]
      exact kept _

theorem expires_iff (k : CadenceChannel) : k.expires = true ↔ k.role = .leader ∧ k.running = true ∧ k.time = 0 := by
  unfold CadenceChannel.expires
  rw [Bool.and_eq_true, Bool.and_eq_true, beq_iff_eq, beq_iff_eq, and_assoc]

/-- The followers of an expiring leader, triggered and fired, seen from outside (R129, R130). -/
theorem expiry_fires (s : State) (c : Nat) (low : c < 8) (channels : s.announce.channels.length = 8)
    (plays : s.announce.plays.length = 4) (leads : (s.channel c).role = .leader) :
    let v := (s.triggerFollowers c).fireFollowers c
    v.channel c = (s.channel c).loadedLeader ∧ CadKept s v ∧ s.zeroDelaysFire v c (fun f => (s.channel f).missed)
      ∧ (∀ f, f < 8 → f ≠ c → (s.channel f).role ≠ .follower c → v.channel f = s.channel f)
      ∧ (∀ f, f < 8 → (s.channel f).role = .follower c → (s.channel f).stagedDelay ≠ 0 →
          v.channel f = (s.channel f).loadedFollower)
      ∧ ((∀ f, f < 8 → (s.channel f).role = .follower c → (s.channel f).stagedDelay ≠ 0) → v.host = s.host) := by
  intro v
  have channel := fun j => triggerFollowers_channel s c j (by omega) leads
  obtain ⟨kept, samePlays, host⟩ := triggerFollowers_kept s c
  have length : (s.triggerFollowers c).announce.channels.length = 8 := kept.2.2.2.2.2.2.2.2.2.trans channels
  have room : (s.triggerFollowers c).announce.plays.length = 4 := by rw [samePlays]; exact plays
  have follower : ∀ f, (s.channel f).role = .follower c → (s.triggerFollowers c).channel f = (s.channel f).loadedFollower :=
    fun f follows => by
      have other : f ≠ c := fun self => by rw [self, leads] at follows; cases follows
      rw [channel, if_neg other, if_pos follows]
  have role : ∀ f, ((s.triggerFollowers c).channel f).role = (s.channel f).role := fun f => by
    rw [channel]
    split
    next self =>
      rw [self]
      rfl
    next =>
      split
      · rfl
      · rfl
  obtain ⟨keeps, others, waits⟩ := fireFollowers_channels (s.triggerFollowers c) c length room
  refine ⟨?_, cadKept_trans kept keeps, ?_, fun f _ other foreign => ?_, fun f low follows delayed => ?_, fun delayed => ?_⟩
  · refine (others c (by rw [role, leads]; exact fun no => by cases no)).trans ?_
    rw [channel, if_pos rfl]
  · exact fireFollowers_zeroDelays s (s.triggerFollowers c) c _ length room samePlays kept.1 (fun f => by rw [role]) follower
  · refine (others f (by rw [role]; exact foreign)).trans ?_
    rw [channel, if_neg other, if_neg foreign]
  · exact (waits f low (by rw [follower f follows]; exact delayed)).trans (follower f follows)
  · have idle : v = s.triggerFollowers c := fireFollowers_idle _ c fun f mem due => by
      obtain ⟨low, follows⟩ := (followers_mem _ c f).mp mem
      rw [role] at follows
      obtain ⟨_, -, -, zero⟩ := due
      rw [follower f follows] at zero
      exact delayed f low follows zero
    rw [idle, host]

theorem eventRaised_last (s v : State) (station : v.member.station = s.member.station) (startUp : v.startUp = s.startUp)
    (tables : v.tables = s.tables) (hosted : s.hasHost = true) (k : EventKind) (subject : List Nat) (cause : Option Cause) :
    (v.eventRaised k subject cause).events = addEvent
      { kind := k, subject := subject, cause := cause, stamp := s.tables.frameCount.setWidth 16 } v.host.events := by
  unfold State.eventRaised
  rw [if_pos (by rw [hasHost_of s v station startUp]; exact hosted), tables]

/-! ## A follower that fires (R130) -/

theorem fireDue_follower (s : State) (f l : Nat) (role : (s.channel f).role = .follower l) (counting : (s.channel f).counting = true)
    (zero : (s.channel f).remaining = 0) : FireDue s f := ⟨l, role, counting, zero⟩

/-- Where no firing is due, the firing row does nothing. -/
theorem followerFires_waits (s : State) (f : Nat)
    (waits : ∀ l, ¬((s.channel f).role = .follower l ∧ (s.channel f).counting = true ∧ (s.channel f).remaining = 0
      ∧ ¬((s.channel l).role = .leader ∧ (s.channel l).running = true ∧ (s.channel l).time = 0))) : s.followerFires f = s := by
  by_cases follows : ∃ l, (s.channel f).role = .follower l
  · obtain ⟨l, role⟩ := follows
    rw [followerFires_eq s f l role]
    by_cases expires : (s.channel l).expires = true
    · exact if_pos expires
    · rw [if_neg expires]
      refine fires_idle s f fun due => ?_
      obtain ⟨_, -, counting, zero⟩ := due
      exact waits l ⟨role, counting, zero, mt (expires_iff _).mpr expires⟩
  · exact followerFires_other s f fun l role => follows ⟨l, role⟩

/-! ## The plays of a local sample (R125, R126) -/

theorem sounding_eq (p : Play) (place count : Nat) : p.sounding place count = playSample p place count := rfl

theorem moveOn_moved (p : Play) (length : Nat) (sounds : p.finished = false) : playMoved p (p.moveOn length) length := by
  unfold Play.moveOn playMoved
  dsimp only
  generalize (if (p.position + 1) % 8 = 0 ∨ p.position + 1 = length then _ else _ : List PlayGroup) = groups
  split
  · exact ⟨rfl, rfl, rfl, rfl, fun _ => ⟨rfl, rfl, rfl, sounds⟩, by omega, by omega⟩
  · split
    · exact ⟨rfl, rfl, rfl, rfl, by omega, fun _ _ => ⟨rfl, rfl, rfl, sounds⟩, by omega⟩
    · exact ⟨rfl, rfl, rfl, rfl, by omega, by omega, fun _ _ => rfl⟩

theorem filterMap_sum {α β} (f : α → Option β) (g : β → Int) : ∀ l : List α,
    ((l.filterMap f).map g).sum = (l.map (fun x => ((f x).map g).getD 0)).sum
  | [] => rfl
  | x :: l => by
    rw [List.map_cons, List.sum_cons, ← filterMap_sum f g l]
    cases term : f x with
    | none => rw [List.filterMap_cons_none term, Option.map_none, Option.getD_none, Int.zero_add]
    | some y => rw [List.filterMap_cons_some term, List.map_cons, List.sum_cons, Option.map_some, Option.getD_some]

/-- What a play in a place comes to at a local sample, with its level (R125). -/
def State.stepAt (s : State) (o : Option Play × Nat) : Option ((Play × Option Sample) × Nat) :=
  o.1.map (fun p => (p.step (s.clip p.clip).length o.2 s.localCount, p.level))

/-- The sample that a step brings to the announce source, with its gain (R126). -/
def stepTerm (o : Option ((Play × Option Sample) × Nat)) : Option (Sample × Gain) :=
  o.bind (fun x => x.1.2.map (fun v => (v, attenuation x.2)))

theorem soundPlays_eq (s : State) :
    s.soundPlays.announce.plays = (s.announce.plays.zipIdx.map s.stepAt).map (Option.map (fun x => x.1.1))
      ∧ s.soundPlays.announce.out = mixSamples ((s.announce.plays.zipIdx.map s.stepAt).filterMap stepTerm) := ⟨rfl, rfl⟩

theorem step_cases (p : Play) (length place count : Nat) :
    (p.finished = true → p.step length place count = (p, none))
      ∧ (p.finished = false → 1 < p.wait → p.step length place count = ({ p with wait := p.wait - 1 }, none))
      ∧ (p.finished = false → p.wait ≤ 1 → p.step length place count = (p.moveOn length, some (playSample p place count))) := by
  unfold Play.step
  refine ⟨fun done => if_pos done, fun plays waits => ?_, fun plays sounds => ?_⟩
  · rw [if_neg (by rw [plays]; decide), if_pos waits]
  · rw [if_neg (by rw [plays]; decide), if_neg (Nat.not_lt.mpr sounds), sounding_eq]

theorem stepTerm_adds (s : State) (place : Nat) (o : Option Play) (there : s.announce.plays.getD place none = o) :
    ((stepTerm (s.stepAt (o, place))).map (fun t => t.1.toInt * (t.2 : Int))).getD 0 = s.playAdds place := by
  unfold State.playAdds
  rw [there]
  cases o with
  | none => rfl
  | some p =>
    obtain ⟨finished, waits, sounds⟩ := step_cases p (s.clip p.clip).length place s.localCount
    unfold stepTerm State.stepAt
    dsimp only [Option.map_some, Option.bind_some]
    cases done : p.finished with
    | true =>
      rw [finished done]
      rfl
    | false =>
      by_cases late : p.wait ≤ 1
      · rw [sounds done late, if_pos ⟨rfl, late⟩]
        rfl
      · rw [waits done (by omega), if_neg fun now => late now.2]
        rfl

/-- The announce source gives the sum of the plays by their levels (R126). -/
theorem soundPlays_out (s : State) (plays : s.announce.plays.length = 4) :
    s.soundPlays.announce.out = mixed (s.playAdds 0 + s.playAdds 1 + s.playAdds 2 + s.playAdds 3) := by
  rw [(soundPlays_eq s).2, mixSamples_eq, List.filterMap_map, filterMap_sum]
  have adds := stepTerm_adds s
  generalize s.announce.plays = l at plays adds ⊢
  obtain ⟨a, b, c, d, rfl⟩ := four_of_length l plays
  have a' := adds 0 a rfl
  have b' := adds 1 b rfl
  have c' := adds 2 c rfl
  have d' := adds 3 d rfl
  simp only [List.zipIdx_cons, List.zipIdx_nil, List.map_cons, List.map_nil, List.sum_cons, List.sum_nil, Function.comp_apply,
    Nat.zero_add, Nat.reduceAdd, a', b', c', d']
  congr 1
  omega

theorem soundPlays_place (s : State) (place : Nat) :
    s.soundPlays.announce.plays.getD place none = (s.announce.plays.getD place none).map
      (fun p => (p.step (s.clip p.clip).length place s.localCount).1) := by
  rw [(soundPlays_eq s).1, List.getD_eq_getElem?_getD, List.getD_eq_getElem?_getD, List.getElem?_map, List.getElem?_map,
    List.getElem?_zipIdx]
  cases s.announce.plays[place]? with
  | none => rfl
  | some o =>
    simp only [Option.map_some, Option.getD_some, Nat.zero_add, State.stepAt]
    cases o <;> rfl

/-- The sounding of a place, up to the groups held (R125). -/
theorem soundPlays_bare (s d : State) (place : Nat)
    (bare : d.announce.plays.map (Option.map Play.bare) = s.soundPlays.announce.plays.map (Option.map Play.bare)) :
    (s.announce.plays.getD place none = none → d.announce.plays.getD place none = none)
      ∧ ∀ p, s.announce.plays.getD place none = some p → ∃ q, d.announce.plays.getD place none = some q
        ∧ q.bare = (p.step (s.clip p.clip).length place s.localCount).1.bare := by
  have same := bare_plays_get bare place
  rw [soundPlays_place] at same
  refine ⟨fun free => ?_, fun p plays => ?_⟩
  · rw [free] at same
    exact Option.map_eq_none_iff.mp same
  · rw [plays] at same
    obtain ⟨q, holds, steps⟩ := Option.map_eq_some_iff.mp same
    exact ⟨q, holds, steps⟩

theorem playMoved_bare {p q m : Play} {length : Nat} (same : q.bare = m.bare) (moved : playMoved p m length) :
    playMoved p q length := by
  unfold Play.bare at same
  injection same with clip level repeats done position starter _ wait finished _
  unfold playMoved
  rw [clip, level, repeats, starter, position, done, wait, finished]
  exact moved

/-- What the play in a place comes to at a local sample, as the obligation reads it (R125). -/
theorem bare_moved (p q : Play) (length place count : Nat) (steps : q.bare = (p.step length place count).1.bare) :
    (p.finished = true → q.bare = p.bare)
      ∧ (p.finished = false → 1 < p.wait → q.bare = { p with wait := p.wait - 1 }.bare)
      ∧ (p.finished = false → p.wait ≤ 1 → playMoved p q length) := by
  obtain ⟨finished, waits, sounds⟩ := step_cases p length place count
  refine ⟨fun done => ?_, fun plays waiting => ?_, fun plays now => ?_⟩
  · rw [steps, finished done]
  · rw [steps, waits plays waiting]
  · rw [sounds plays now] at steps
    have moved := moveOn_moved p length plays
    exact playMoved_bare steps moved

/-! ## A play that completes (R126) -/

theorem playCompleted_cases (s : State) (place : Nat) :
    let freed := { s.announce with plays := s.announce.plays.set place none }
    (∀ p, s.announce.plays.getD place none = some p → p.finished = true →
        (p.starter = .host → s.playCompleted place = { s with announce := freed
                                                              host := s.eventRaised .playDone [place, p.clip] (some .completed) })
        ∧ (∀ c, p.starter = .follower c → s.playCompleted place = { s with announce := freed }))
      ∧ ((∀ p, s.announce.plays.getD place none = some p → p.finished = false) → s.playCompleted place = s) := by
  intro freed
  refine ⟨fun p holds done => ?_, fun unfinished => ?_⟩
  · have ends : s.playCompleted place = s.endPlay place (some .completed) := by
      unfold State.playCompleted
      rw [holds]
      exact if_pos done
    rw [ends]
    unfold State.endPlay
    rw [holds]
    refine ⟨fun host => ?_, fun c follower => ?_⟩
    · simp only [host]
      exact raise_eq _ _ _ _
    · simp only [follower, freed]
  · unfold State.playCompleted
    cases holds : s.announce.plays.getD place none with
    | none => rfl
    | some p => exact if_neg (by rw [unfinished p holds]; decide)

/-! ## The obligation -/

/-- The firings of followers of delay 0 speak of the places and of the followers' channels alone. -/
theorem zeroDelaysFire_after {s u v : State} {leader : Nat} {missed : Nat → Bool} (fires : s.zeroDelaysFire v leader missed)
    (channels : ∀ f, (s.channel f).role = .follower leader → u.channel f = v.channel f)
    (plays : u.announce.plays = v.announce.plays) : s.zeroDelaysFire u leader missed := by
  obtain ⟨followers, taken, free⟩ := fires
  refine ⟨fun f low follows delay => ?_, fun place p holds => by rw [plays]; exact taken place p holds,
    fun place low none most => by rw [plays]; exact free place low none most⟩
  have fired := followers f low follows delay
  unfold State.playBegun at fired ⊢
  rw [channels f follows, plays]
  exact fired

/-- The expiry of a leader as its row makes it (R129). -/
theorem cadenceExpiry_expires (s : State) (c : Nat) (low : c < 8) (channels : s.announce.channels.length = 8)
    (plays : s.announce.plays.length = 4) (leads : (s.channel c).role = .leader) (runs : (s.channel c).running = true)
    (zero : (s.channel c).time = 0) :
    let k := s.channel c
    let done := min 255 (k.done + 1)
    let ends := k.stagedRepetitions ≠ 0 ∧ k.stagedRepetitions ≤ done
    let loaded := { k with activePeriod := k.stagedPeriod, activeRepetitions := k.stagedRepetitions, done := done }
    let u := s.cadenceExpiry c
    (ends → u.channel c = { loaded with running := false })
      ∧ (¬ends → u.channel c = { loaded with time := k.stagedPeriod })
      ∧ (∀ f, f < 8 → f ≠ c → (s.channel f).role ≠ .follower c → u.channel f = s.channel f)
      ∧ (∀ f, f < 8 → (s.channel f).role = .follower c → (s.channel f).stagedDelay ≠ 0 →
          u.channel f = (s.channel f).loadedFollower)
      ∧ s.zeroDelaysFire u c (fun f => (s.channel f).missed)
      ∧ (ends → s.hasHost = true → ∃ earlier, u.host.events = addEvent
          { kind := .cadenceDone, subject := [c], cause := none, stamp := s.tables.frameCount.setWidth 16 } earlier)
      ∧ ((∀ f, f < 8 → (s.channel f).role = .follower c → (s.channel f).stagedDelay ≠ 0) →
          (ends → u.host = s.eventRaised .cadenceDone [c] none) ∧ (¬ends → u.host = s.host))
      ∧ CadKept s u := by
  intro k done ends loaded u
  obtain ⟨leader, kept, fires, others, delays, host⟩ := expiry_fires s c low channels plays leads
  have expiry : u = ((s.triggerFollowers c).fireFollowers c).countRepetition c := if_pos ((expires_iff _).mpr ⟨leads, runs, zero⟩)
  rw [expiry]
  clear_value u
  generalize (s.triggerFollowers c).fireFollowers c = v at leader kept fires others delays host ⊢
  have length : v.announce.channels.length = 8 := kept.2.2.2.2.2.2.2.2.2.trans channels
  obtain ⟨stops, goesOn, rest, keeps, samePlays⟩ := countRepetition_cases v c (by omega)
  have same : (v.channel c).counted = loaded := by rw [leader]; rfl
  rw [same] at stops goesOn
  obtain ⟨line, tables, member, -, startUp⟩ := kept.2.2.1
  have follower : ∀ f, (s.channel f).role = .follower c → f ≠ c := fun f follows self => by
    rw [self, leads] at follows
    cases follows
  refine ⟨fun stop => (stops stop).1, fun on => (goesOn on).1, fun f low other foreign => (rest f other).trans (others f low other foreign),
    fun f low follows delayed => (rest f (follower f follows)).trans (delays f low follows delayed),
    zeroDelaysFire_after fires (fun f follows => rest f (follower f follows)) samePlays, fun stop hosted => ?_,
    fun delayed => ⟨fun stop => ?_, fun on => (goesOn on).2.trans (host delayed)⟩, cadKept_trans ?_ keeps⟩
  · exact ⟨_, by rw [(stops stop).2]; exact eventRaised_last s v (by rw [member]) startUp tables hosted _ _ _⟩
  · exact (stops stop).2.trans (eventRaised_same (host delayed) (by rw [member]) (by rw [startUp])
      (by rw [tables]) _ _ _)
  · exact kept

/-- Settles O44: the expiry by its three steps, the firing row by its guard, a play that completes by its starter, and the plays
of a local sample place by place. -/
theorem cadencesAndPlaysFallDue : Obligations.CadencesAndPlaysFallDue := by
  intro s released sizes
  obtain ⟨-, -, -, -, -, -, -, plays, channels, -⟩ := sizes
  refine ⟨fun c => ⟨fun waits => ?_, fun due => ⟨_, exec_due (.cadenceExpiry c) s (fun t => t.cadenceExpiry c.val) rfl released, ?_⟩⟩,
    fun f => ⟨fun waits => ?_, fun l due => ⟨_, exec_due (.followerFire f) s (fun t => t.followerFires f.val) rfl released, ?_⟩⟩,
    fun place => ?_, ?_⟩
  · rw [exec_due (.cadenceExpiry c) s (fun t => t.cadenceExpiry c.val) rfl released]
    have stands : s.cadenceExpiry c.val = s := if_neg (mt (expires_iff _).mp waits)
    rw [stands]
  · obtain ⟨leads, runs, zero⟩ := due
    obtain ⟨stops, goesOn, others, delays, fires, tells, quiet, kept⟩ :=
      cadenceExpiry_expires s c.val c.isLt channels plays leads runs zero
    obtain ⟨clips, memory, sameLine, -, ports, follower, mixer, blend, call, -⟩ := kept
    exact ⟨stops, goesOn, others, delays, fires, tells, quiet, clips, sameLine, ports, follower, mixer, blend, call, memory⟩
  · rw [exec_due (.followerFire f) s (fun t => t.followerFires f.val) rfl released]
    rw [followerFires_waits s f.val waits]
  · obtain ⟨role, counting, zero, calm⟩ := due
    have inside : f.val < s.announce.channels.length := by rw [channels]; exact f.isLt
    have fired : s.followerFires f.val = s.fire f.val :=
      (followerFires_eq s f.val l role).trans (if_neg (mt (expires_iff _).mp calm))
    have ready := fireDue_follower s f.val l role counting zero
    obtain ⟨kept, others, -, -, misses, -⟩ := fires_due s f.val ready inside plays
    obtain ⟨clips, memory, sameLine, -, ports, follower, mixer, blend, call, -⟩ := kept
    rw [fired]
    exact ⟨others, misses, fun sounds p low free lowest => fire_sounds s f.val p ready inside plays sounds low free lowest,
      clips, sameLine, ports, follower, mixer, blend, call, memory⟩
  · rw [exec_due (.playCompleted place) s (fun t => t.playCompleted place.val) rfl released]
    obtain ⟨ends, stands⟩ := playCompleted_cases s place.val
    refine ⟨fun p holds done => ⟨fun host => ?_, fun c follower => ?_⟩, fun unfinished => ?_⟩
    · rw [(ends p holds done).1 host]
    · rw [(ends p holds done).2 c follower]
    · rw [stands unfinished]
  · intro i t awake room
    have acts := exec_outside (.localSample i) s (fun t => t.localSample i) rfl released
    have settled : s.settle = t := rfl
    rw [settled] at acts
    clear_value t
    refine ⟨_, acts, ?_⟩
    obtain ⟨-, -, announce, -⟩ := localSample_blocks t i awake
    obtain ⟨same, -, -, count, -⟩ := played_blocks t i
    obtain ⟨-, -, -, -, -, -, -, -, -, -, out, bare, -⟩ := cadenced_blocks t i
    rw [announce]
    generalize t.played i = a at same count out bare
    generalize t.cadenced i = d at out bare ⊢
    have adds : ∀ place, a.playAdds place = t.playAdds place := fun place => by rw [State.playAdds, State.playAdds, same, count]
    have clip : ∀ n, a.clip n = t.clip n := fun n => by rw [State.clip, State.clip, same]
    refine ⟨?_, fun place _ => ?_⟩
    · rw [out, soundPlays_out a (by rw [same]; exact room), adds, adds, adds, adds]
    · obtain ⟨free, held⟩ := soundPlays_bare a d place bare
      rw [same] at free held
      refine ⟨free, fun p holds => ?_⟩
      obtain ⟨q, there, steps⟩ := held p holds
      rw [clip] at steps
      exact ⟨q, there, bare_moved p q _ place _ steps⟩

end Sys2Proof.Machine
end

section
/-! PROOFS. How the event list grows within a local sample, and what the requests of the blend engine leave of it (R65, R133). -/

namespace Sys2Proof.Machine

set_option maxRecDepth 20000

/-! ## Events (R93, R180) -/

theorem moreEvents_request (s : State) (r : Request) : s.moreEvents (s.request r) := by
  unfold State.request
  split
  · exact State.moreEvents_refl s
  · split
    · exact moreEvents_endRequest_gap s r _
    · exact State.moreEvents_of_eq rfl

/-- A request after an update that leaves the event list alone. -/
theorem moreEvents_update_request {s w : State} (same : w.host = s.host) (r : Request) : s.moreEvents (w.request r) :=
  State.moreEvents_trans (State.moreEvents_of_eq (congrArg HostPort.events same)) (moreEvents_request w r)

theorem moreEvents_two_requests {s w : State} (same : w.host = s.host) (r q : Request) : s.moreEvents ((w.request r).request q) :=
  State.moreEvents_trans (moreEvents_update_request same r) (moreEvents_request _ q)

theorem moreEvents_update {s u v : State} (more : s.moreEvents u) (same : v.host = u.host) : s.moreEvents v :=
  State.moreEvents_trans more (State.moreEvents_of_eq (congrArg HostPort.events same))

theorem playPair_host (s : State) (k : Nat) : (s.playPair k).host = s.host := by
  unfold State.playPair
  split <;> rfl

theorem moreEvents_alignReads (s : State) (k delay : Nat) : s.moreEvents (s.alignReads k delay) := by
  unfold State.alignReads
  dsimp only
  split
  · exact State.moreEvents_of_eq rfl
  · exact moreEvents_two_requests (by rfl) _ _

theorem moreEvents_alignWrites (s : State) (k : Nat) : s.moreEvents (s.alignWrites k) := by
  unfold State.alignWrites
  split
  · exact State.moreEvents_refl s
  · exact moreEvents_two_requests (by rfl) _ _

theorem moreEvents_playPairs (s : State) : s.moreEvents s.playPairs := by
  unfold State.playPairs State.alignTurn
  have pairs := moreEvents_forEach 6 (fun p w => w.playPair p)
    (fun p w => State.moreEvents_of_eq (congrArg HostPort.events (playPair_host w p))) s
  generalize forEach 6 (fun p w => w.playPair p) s = w at pairs ⊢
  refine moreEvents_update (State.moreEvents_trans pairs ?_) rfl
  split
  · exact State.moreEvents_trans (moreEvents_alignWrites _ _) (moreEvents_alignReads _ _ _)
  · exact State.moreEvents_refl w

theorem moreEvents_requestGroups (s : State) (place : Nat) : s.moreEvents (s.requestGroups place) := by
  unfold State.requestGroups
  split
  · exact State.moreEvents_refl s
  · refine moreEvents_foldl _ (fun w g => ?_) _ s
    unfold State.requestGroup
    split
    · exact State.moreEvents_refl w
    · split
      · exact State.moreEvents_refl w
      · exact moreEvents_update_request (by rfl) _

theorem moreEvents_announceSample (s : State) : s.moreEvents s.announceSample :=
  State.moreEvents_trans (State.moreEvents_of_eq rfl)
    (moreEvents_forEach 4 (fun place w => w.requestGroups place) (fun place w => moreEvents_requestGroups w place) s.soundPlays)

theorem moreEvents_blendReads (s : State) (tap : Nat) (groups : List Nat) : s.moreEvents (s.blendReads tap groups) :=
  moreEvents_foldl _ (fun _ _ => moreEvents_two_requests rfl _ _) groups s

theorem moreEvents_blendTurn (s : State) : s.moreEvents s.blendTurn := by
  have reads : ∀ (w : State) (same : w.host = s.host) (tap : Nat) (groups : List Nat), s.moreEvents (w.blendReads tap groups) :=
    fun w same tap groups => State.moreEvents_trans (State.moreEvents_of_eq (congrArg HostPort.events same))
      (moreEvents_blendReads w tap groups)
  unfold State.blendTurn
  split
  · unfold State.blendWrites
    split
    · exact State.moreEvents_refl s
    · exact moreEvents_two_requests (by rfl) _ _
  · exact reads _ (by rfl) _ _
  · split
    · exact State.moreEvents_refl s
    · exact reads _ (by rfl) _ _
  · split
    · exact State.moreEvents_refl s
    · exact reads _ (by rfl) _ _
  · exact State.moreEvents_refl s

theorem moreEvents_blendSample (s : State) : s.moreEvents s.blendSample := by
  unfold State.blendSample
  refine moreEvents_update (u := if s.blend.state = .idle ∨ s.blendLength = 0 then _ else s.blendWork.blendTurn) ?_ rfl
  split
  · exact State.moreEvents_of_eq rfl
  · exact State.moreEvents_trans (State.moreEvents_of_eq rfl) (moreEvents_blendTurn s.blendWork)

theorem moreEvents_echoTurn (s : State) : s.moreEvents s.echoTurn := by
  unfold State.echoTurn State.echoWrite State.echoReads
  split
  · split
    · exact State.moreEvents_refl s
    · exact moreEvents_update_request (by rfl) _
  · split
    · exact State.moreEvents_trans (State.moreEvents_of_eq rfl)
        (moreEvents_foldl _ (fun w g => moreEvents_request w _) _ _)
    · exact State.moreEvents_refl s

theorem cancelSample_host (s : State) : s.cancelSample.host = s.testReference.host := by
  unfold State.cancelSample State.stepFallback State.historySample
  rfl

theorem moreEvents_testReference (s : State) : s.moreEvents s.testReference := by
  unfold State.testReference
  dsimp only
  split
  · exact (grew_goCanceller _ _ _).moreEvents
  · exact State.moreEvents_of_eq rfl

theorem moreEvents_callSample (s : State) : s.moreEvents s.callSample := by
  unfold State.callSample
  refine moreEvents_update (u := if s.call.state = .off then _ else _) ?_ rfl
  split
  · exact State.moreEvents_of_eq rfl
  · refine State.moreEvents_trans ?_ (moreEvents_echoTurn _)
    refine moreEvents_update ?_ (cancelSample_host _)
    exact State.moreEvents_trans (State.moreEvents_of_eq rfl) (moreEvents_testReference _)

theorem cadenceSample_host (s : State) : s.cadenceSample.host = s.host := rfl

theorem mixZones_host (s : State) : s.mixZones.host = s.host := rfl

theorem gatedFor_host (s : State) (i : InputSamples) : (s.gatedFor i).host = (s.portSample i).host := rfl

/-- Within a local sample events join those of the read of the decoder port. -/
theorem moreEvents_localSample (t : State) (i : InputSamples) (awake : t.member.station ≠ .dormant) :
    (t.portSample i).moreEvents (t.localSample i) := by
  obtain ⟨-, -, -, -, -, -, -, -, -, -, host⟩ := localSample_blocks t i awake
  refine moreEvents_update ?_ host
  refine State.moreEvents_trans ?_ (moreEvents_callSample _)
  refine State.moreEvents_trans ?_ (moreEvents_blendSample _)
  unfold State.cadenced
  refine moreEvents_update ?_ (cadenceSample_host _)
  refine State.moreEvents_trans ?_ (moreEvents_announceSample _)
  unfold State.played
  refine State.moreEvents_trans (moreEvents_update (State.moreEvents_refl _) ?_) (moreEvents_playPairs _)
  exact (mixZones_host _).trans (gatedFor_host t i)

/-! ## What requests leave of the blend engine (R133, R135) -/

/-- The parts of the blend engine that a quality, a slip or a result moves, and no request. -/
def State.blendJudged (s : State) := (s.blend.valid, s.blend.fast, s.blend.correction, s.blend.goodRun, s.blend.poorRun)

theorem request_blendJudged (s : State) (r : Request) : (s.request r).blendJudged = s.blendJudged := by
  have gap : ∀ w : State, (w.takeGap r).blendJudged = w.blendJudged := fun w => by
    unfold State.takeGap
    cases r.purpose <;> simp [State.blendJudged, State.settleBlendRead]
  unfold State.request
  split
  · rfl
  · split
    · unfold State.endRequest
      dsimp only
      rw [raise_eq]
      exact (gap _).trans rfl
    · rfl

theorem blendTurn_blendJudged (s : State) : s.blendTurn.blendJudged = s.blendJudged := by
  have reads : ∀ (tap : Nat) (groups : List Nat) (w : State), (w.blendReads tap groups).blendJudged = w.blendJudged :=
    fun tap groups w => by
      unfold State.blendReads
      induction groups generalizing w with
      | nil => rfl
      | cons g l ih =>
        rw [List.foldl_cons, ih]
        exact (request_blendJudged _ _).trans (request_blendJudged _ _)
  unfold State.blendTurn
  split
  · unfold State.blendWrites
    split
    · rfl
    · exact (request_blendJudged _ _).trans ((request_blendJudged _ _).trans rfl)
  · exact (reads _ _ _).trans rfl
  · split
    · rfl
    · exact (reads _ _ _).trans rfl
  · split
    · rfl
    · exact (reads _ _ _).trans rfl
  · rfl

end Sys2Proof.Machine
end

section
/-! PROOFS. The blend engine's own moves and its work at a local sample (R133, R134, R136, R139, R142 to R148). -/

namespace Sys2Proof.Machine

set_option maxRecDepth 20000

/-! ## The ends of states and of crossfades (R139, R143, R145, R147) -/

theorem filled_cases (s : State) :
    (s.blend.state = .filling → s.effectiveDelay ≤ s.blend.fill → s.filled = s.blendGoes s.blend .analogue .filled)
      ∧ (s.blend.state ≠ .filling ∨ s.blend.fill < s.effectiveDelay → s.filled = s) := by
  unfold State.filled
  refine ⟨fun fills full => ?_, fun waits => if_neg fun due => ?_⟩
  · rw [if_pos ⟨fills, full⟩, goBlend_eq]
  · obtain other | short := waits
    · exact other due.1
    · exact absurd due.2 (by omega)

theorem toDigitalComplete_cases (s : State) :
    (s.blend.state = .toDigital → 2400 ≤ s.blend.mix → s.toDigitalComplete = s.blendGoes s.blend .digital .complete)
      ∧ (s.blend.state ≠ .toDigital ∨ s.blend.mix < 2400 → s.toDigitalComplete = s) := by
  unfold State.toDigitalComplete
  refine ⟨fun rises full => ?_, fun waits => if_neg fun due => ?_⟩
  · rw [if_pos ⟨rises, full⟩, goBlend_eq]
  · obtain other | short := waits
    · exact other due.1
    · exact absurd due.2 (by omega)

theorem toAnalogueComplete_cases (s : State) :
    (s.blend.state = .toAnalogue → s.blend.mix = 0 →
        s.toAnalogueComplete = s.blendGoes { s.blend with fast := false } .analogue .complete)
      ∧ (s.blend.state ≠ .toAnalogue ∨ s.blend.mix ≠ 0 → s.toAnalogueComplete = s) := by
  unfold State.toAnalogueComplete
  refine ⟨fun falls empty => ?_, fun waits => if_neg fun due => ?_⟩
  · rw [if_pos ⟨falls, empty⟩, goBlend_eq]
    rfl
  · obtain other | more := waits
    · exact other due.1
    · exact more due.2

theorem crossfadeEnd_cases (s : State) :
    (∀ f, s.blend.crossfade = some f → 480 ≤ f.weight → s.crossfadeEnd = { s with blend := { s.blend with crossfade := none } })
      ∧ (∀ f, s.blend.crossfade = some f → f.weight < 480 → s.crossfadeEnd = s)
      ∧ (s.blend.crossfade = none → s.crossfadeEnd = s) := by
  unfold State.crossfadeEnd
  refine ⟨fun f fades whole => ?_, fun f fades part => ?_, fun still => ?_⟩
  · rw [fades]
    exact if_pos whole
  · rw [fades]
    exact if_neg (Nat.not_le.mpr part)
  · rw [still]

/-! ## The attempt and its result (R142 to R144) -/

/-- The correlator with its window begun at the digital sample at hand (R142). -/
def State.windowed (s : State) : Correlator :=
  { s.blend.correlator with
    phase := .window, done := 1
    digital := [(s.ports.digital.getD .zero).left.toInt + (s.ports.digital.getD .zero).right.toInt] }

theorem beginWindow_eq (s : State) : s.beginWindow = { s with blend := { s.blend with correlator := s.windowed } } := rfl

theorem primingDone_cases (s : State) :
    (s.blend.correlator.phase = .priming → 4096 ≤ s.blend.correlator.done →
        s.primingDone = { s with blend := { s.blend with correlator := s.windowed } })
      ∧ (s.blend.correlator.phase ≠ .priming ∨ s.blend.correlator.done < 4096 → s.primingDone = s) := by
  unfold State.primingDone
  refine ⟨fun primes full => if_pos ⟨primes, full⟩, fun waits => if_neg fun due => ?_⟩
  obtain other | short := waits
  · exact other due.1
  · exact absurd due.2 (by omega)

/-- A FOUND result, seen from outside (R143). -/
theorem found_facts (s : State) (j correction : Int) :
    let u := s.found j correction
    u.blend.state = .toDigital ∧ u.blend.correction = correction ∧ u.blend.valid = true
      ∧ u.blend.attempts = 0 ∧ u.blend.last = .found j correction ∧ u.blend.mix = s.blend.mix
      ∧ u.blend.crossfade = some { old := s.blend.main, delay := s.effectiveDelay, weight := 0 } ∧ u.blend.main.held = []
      ∧ u.blend.correlator.phase = .notRunning ∧ u.ports = { s.ports with balance := 0 }
      ∧ u.host = s.eventRaised .blendChanged [blendCode .toDigital] (some .found)
      ∧ State.sameLine s u ∧ u.store = s.store ∧ u.mixer = s.mixer ∧ u.announce = s.announce ∧ u.call = s.call := by
  intro u
  have found : u = s.found j correction := rfl
  rw [State.found, goBlend_eq] at found
  rw [found]
  exact ⟨rfl, rfl, rfl, rfl, rfl, rfl, rfl, rfl, rfl, rfl, rfl, ⟨rfl, rfl, rfl, rfl, rfl⟩, rfl, rfl, rfl, rfl⟩

/-- A NOT_FOUND result, seen from outside (R144). -/
theorem notFound_facts (s : State) :
    (s.blend.attempts < 2 → s.notFound = { s with blend :=
        { s.blend with attempts := s.blend.attempts + 1, last := .notFound, correlator := s.windowed } })
      ∧ (2 ≤ s.blend.attempts → let u := s.notFound
        u.blend.state = .lockout ∧ u.blend.attempts = s.blend.attempts + 1 ∧ u.blend.last = .notFound
          ∧ u.blend.correlator.phase = .notRunning ∧ u.blend.valid = s.blend.valid ∧ u.blend.correction = s.blend.correction
          ∧ u.host = ({ s with host := s.eventRaised .blendChanged [blendCode .lockout] (some .notFound) }).eventRaised
              .blendAlignFailed [s.blend.attempts + 1] none
          ∧ u.ports = s.ports ∧ State.sameLine s u ∧ u.store = s.store ∧ u.mixer = s.mixer
          ∧ u.announce = s.announce ∧ u.call = s.call) := by
  unfold State.notFound
  refine ⟨fun few => (if_neg (by dsimp only; omega)).trans rfl, fun many => ?_⟩
  intro u
  have locked : u = _ := if_pos (by dsimp only; omega)
  rw [goBlend_eq, raise_eq] at locked
  rw [locked]
  exact ⟨rfl, rfl, rfl, rfl, rfl, rfl, rfl, rfl, ⟨rfl, rfl, rfl, rfl, rfl⟩, rfl, rfl, rfl, rfl⟩

theorem correlationResult_cases (s : State) :
    let k := s.blend.correlator
    (k.phase ≠ .forming ∨ k.done < 64 → s.correlationResult = s)
      ∧ (k.phase = .forming → 64 ≤ k.done →
        (∀ j, k.result = some j → -2048 ≤ j + s.ports.balance → j + s.ports.balance ≤ 2047 →
            s.correlationResult = s.found j (j + s.ports.balance))
        ∧ (k.result = none ∨ (∃ j, k.result = some j ∧ ¬(-2048 ≤ j + s.ports.balance ∧ j + s.ports.balance ≤ 2047)) →
            s.correlationResult = s.notFound)) := by
  intro k
  unfold State.correlationResult
  refine ⟨fun waits => if_neg fun due => ?_, fun forms full => ?_⟩
  · obtain other | short := waits
    · exact other due.1
    · exact absurd due.2 (Nat.not_le.mpr short)
  rw [if_pos ⟨forms, full⟩]
  refine ⟨fun j result low high => ?_, fun missed => ?_⟩
  · rw [show s.blend.correlator.result = some j from result]
    exact if_pos ⟨low, high⟩
  · obtain none | ⟨j, result, beyond⟩ := missed
    · rw [show s.blend.correlator.result = .none from none]
    · rw [show s.blend.correlator.result = some j from result]
      exact if_neg beyond

/-! ## A slip at a local sample (R134, R145 to R148) -/

/-- The slip notice of a read: none where no slip is made (R74). -/
theorem sample_slip (p : Ports) (i : InputSamples) :
    ((p.sample i).2 = 0 ↔ p.keepsStep) ∧ (p.keepsStep → (p.sample i).1.balance = p.balance) := by
  unfold Ports.sample Ports.read Ports.keepsStep
  dsimp only
  cases reading : p.reading with
  | false => exact ⟨iff_of_true rfl (.inl rfl), fun _ => rfl⟩
  | true =>
    simp only [if_true]
    cases buffer : p.buffer with
    | nil => exact ⟨iff_of_true rfl (.inr (.inl rfl)), fun _ => rfl⟩
    | cons x rest =>
      simp only [reduceCtorEq, false_or]
      split
      next low =>
        refine ⟨iff_of_false ?_ (by omega), fun keeps => absurd keeps (by omega)⟩
        cases p.lastHanded <;> exact Int.one_ne_zero
      next low =>
        split
        next high =>
          refine ⟨iff_of_false ?_ (by omega), fun keeps => absurd keeps (by omega)⟩
          cases rest with
          | nil => exact absurd high.1 (by simp)
          | cons y more => exact Int.neg_ne_zero.mpr Int.one_ne_zero
        next high => exact ⟨iff_of_true rfl (by omega), fun _ => rfl⟩

/-- The blend engine after the read of the decoder port, which may have slipped (R134, R145 to R148). -/
def Slipped (s u : State) (beyond : Prop) (change : Int) : Prop :=
  let b := s.blend
  let c := u.blend
  let falls := beyond ∧ (b.state = .toDigital ∨ b.state = .digital)
  (falls → c.state = .toAnalogue ∧ c.fast = false ∧ c.goodRun = 0 ∧ c.poorRun = 0
      ∧ u.host = s.eventRaised .blendChanged [blendCode .toAnalogue] (some .slipLimit))
    ∧ (¬falls → c.state = b.state ∧ c.fast = b.fast ∧ c.goodRun = b.goodRun ∧ c.poorRun = b.poorRun)
    ∧ (beyond → b.state ≠ .idle → b.state ≠ .aligning → b.state ≠ .filling → c.valid = false)
    ∧ (¬beyond ∨ b.state = .aligning ∨ b.state = .filling → c.valid = b.valid)
    ∧ (c.correction = b.correction ∧ c.mix = b.mix ∧ c.gain = b.gain ∧ c.fill = b.fill ∧ c.ring = b.ring ∧ c.main = b.main)
    ∧ c.crossfade = b.crossfade.map (fun x => { x with delay := x.delay + change })

theorem slipLimit_cases (s : State) :
    (s.blend.state = .toDigital ∨ s.blend.state = .digital →
        s.slipLimit = s.blendGoes { s.blend with valid := false, fast := false } .toAnalogue .slipLimit)
      ∧ (s.blend.state = .toAnalogue ∨ s.blend.state = .analogue ∨ s.blend.state = .lockout →
        s.slipLimit = { s with blend := { s.blend with valid := false } })
      ∧ (s.blend.state = .idle ∨ s.blend.state = .aligning ∨ s.blend.state = .filling → s.slipLimit = s) := by
  unfold State.slipLimit State.fallBack
  dsimp only
  refine ⟨fun state => ?_, fun state => ?_, fun state => ?_⟩
  · rw [goBlend_eq]
    obtain state | state := state <;> rw [state] <;> rfl
  · obtain state | state | state := state <;> rw [state]
  · obtain state | state | state := state <;> rw [state]

theorem slipNotice_slipped (s : State) (before : Int) :
    Slipped s (s.slipNotice before) (256 < s.ports.balance.natAbs) (s.ports.balance - before) := by
  have limit : s.ports.beyondLimit = true ↔ 256 < s.ports.balance.natAbs := decide_eq_true_iff
  unfold State.slipNotice
  dsimp only
  by_cases beyond : 256 < s.ports.balance.natAbs
  · rw [if_pos (limit.mpr beyond)]
    obtain ⟨falls, distrusts, stands⟩ := slipLimit_cases { s with blend := s.blend.moveOldTap (s.ports.balance - before) }
    have state : ∀ b, s.blend.state = b → (s.blend.moveOldTap (s.ports.balance - before)).state = b := fun b same => same
    by_cases high : s.blend.state = .toDigital ∨ s.blend.state = .digital
    · rw [falls high]
      exact ⟨fun _ => ⟨rfl, rfl, rfl, rfl, rfl⟩, fun no => absurd ⟨beyond, high⟩ no, fun _ _ _ _ => rfl,
        fun no => by rcases no with no | no | no <;> simp_all, ⟨rfl, rfl, rfl, rfl, rfl, rfl⟩, rfl⟩
    by_cases low : s.blend.state = .idle ∨ s.blend.state = .aligning ∨ s.blend.state = .filling
    · rw [stands low]
      exact ⟨fun no => absurd no.2 high, fun _ => ⟨rfl, rfl, rfl, rfl⟩,
        fun _ idle aligning filling => absurd low (by simp [idle, aligning, filling]), fun _ => rfl,
        ⟨rfl, rfl, rfl, rfl, rfl, rfl⟩, rfl⟩
    · have other : s.blend.state = .toAnalogue ∨ s.blend.state = .analogue ∨ s.blend.state = .lockout := by
        cases state : s.blend.state <;> simp_all
      rw [distrusts other]
      exact ⟨fun no => absurd no.2 high, fun _ => ⟨rfl, rfl, rfl, rfl⟩, fun _ _ _ _ => rfl,
        fun no => absurd (no.resolve_left (Classical.not_not.mpr beyond)) (fun still => low (.inr still)),
        ⟨rfl, rfl, rfl, rfl, rfl, rfl⟩, rfl⟩
  · rw [if_neg (mt limit.mp beyond)]
    exact ⟨fun no => absurd no.1 beyond, fun _ => ⟨rfl, rfl, rfl, rfl⟩, fun no => absurd no beyond, fun _ => rfl,
      ⟨rfl, rfl, rfl, rfl, rfl, rfl⟩, rfl⟩

/-- The read of the decoder port, with what its slip makes of the blend engine (R74, R134). -/
theorem portSample_slipped (t : State) (i : InputSamples) :
    Slipped t (t.portSample i) (¬t.ports.keepsStep ∧ 256 < (t.ports.sample i).1.balance.natAbs)
      ((t.ports.sample i).1.balance - t.ports.balance) := by
  obtain ⟨none, keeps⟩ := sample_slip t.ports i
  have port : t.portSample i = if (t.ports.sample i).2 = 0 then { t with ports := (t.ports.sample i).1 }
      else ({ t with ports := (t.ports.sample i).1 } : State).slipNotice t.ports.balance := rfl
  rw [port]
  by_cases calm : t.ports.keepsStep
  · rw [if_pos (none.mpr calm), keeps calm]
    refine ⟨fun no => absurd calm no.1.1, fun _ => ⟨rfl, rfl, rfl, rfl⟩, fun no => absurd calm no.1, fun _ => rfl,
      ⟨rfl, rfl, rfl, rfl, rfl, rfl⟩, ?_⟩
    simp
  · rw [if_neg (mt none.mp calm)]
    have slips := slipNotice_slipped { t with ports := (t.ports.sample i).1 } t.ports.balance
    generalize (t.ports.sample i).1 = p at slips ⊢
    rw [show (¬t.ports.keepsStep ∧ 256 < p.balance.natAbs) = (256 < p.balance.natAbs) from propext (and_iff_right calm)]
    exact slips

/-! ## The work at a local sample (R133, R136, R139, R143) -/

/-- The output of the engine by its gains, its taps and the digital sample (R136, R143). -/
def blendOut (gain mix weight : Nat) (old main digital : Stereo) : Stereo :=
  { left := blendSide gain mix weight old.left main.left digital.left
    right := blendSide gain mix weight old.right main.right digital.right }

theorem blendWork_out (d : State) :
    d.blendWork.blend.out = blendOut d.blendWork.blend.gain d.blendWork.blend.mix
      (match d.blendWork.blend.crossfade with | some x => x.weight | none => 480)
      (match d.blend.crossfade with
        | some x => readHeld x.old.held (d.blend.ring.push d.blendLength (d.ports.inputs.getD 0 .zero))
            (behind d.blendLength d.blend.ring.write x.delay) 7 d.localCount
        | none => .zero)
      (readHeld d.blend.main.held (d.blend.ring.push d.blendLength (d.ports.inputs.getD 0 .zero))
        (behind d.blendLength d.blend.ring.write d.effectiveDelay) 6 d.localCount)
      (d.ports.digital.getD .zero) := by
  obtain ⟨_, _, _, _, _, _, _, _, _, _, ⟨_, _, _, _, _, _, _, _, _, _, _, _, _, crossfade, _, _, _, _⟩, _, _, _, _⟩ := d
  cases crossfade <;> rfl

theorem blendWork_crossfade (d : State) :
    d.blendWork.blend.crossfade.map (fun x => (x.weight, x.delay))
      = d.blend.crossfade.map (fun x => (min 480 (x.weight + 1), x.delay)) := by
  obtain ⟨_, _, _, _, _, _, _, _, _, _, ⟨_, _, _, _, _, _, _, _, _, _, _, _, _, crossfade, _, _, _, _⟩, _, _, _, _⟩ := d
  cases crossfade <;> rfl

/-- The blend engine after its samples of a local sample, in the state that it meets (R133 to R136). -/
theorem blendWork_facts (d : State) (works : d.blend.state ≠ .idle) :
    let b := d.blend
    let c := d.blendWork.blend
    let w := b.ring.write
    let main := heardAt b.main.held b.ring (behind d.blendLength w d.effectiveDelay) 6 d.localCount
    let digital := d.ports.digital.getD .zero
    let out (weight : Nat) (old : Stereo) : Stereo := blendOut c.gain c.mix weight old main digital
    c.state = b.state
      ∧ c.mix = (if b.state = .toDigital then min 2400 (b.mix + 1)
          else if b.state = .toAnalogue then b.mix - (if b.fast then 50 else 1) else b.mix)
      ∧ c.gain = (if b.state = .filling then 0 else min 480 (b.gain + 1))
      ∧ c.ring.write = (w + 1) % d.blendLength ∧ c.fill = min d.blendLength (b.fill + 1)
      ∧ d.blendWork.blendJudged = d.blendJudged
      ∧ (b.crossfade = none → c.crossfade = none ∧ c.out = out 480 .zero)
      ∧ ∀ f, b.crossfade = some f → c.crossfade.map (fun x => (x.weight, x.delay)) = some (min 480 (f.weight + 1), f.delay)
          ∧ c.out = out (min 480 (f.weight + 1))
              (heardAt f.old.held b.ring (behind d.blendLength w f.delay) 7 d.localCount) := by
  intro b c w main digital out
  have tap : ∀ (held : List HeldGroup) (position reader : Nat),
      readHeld held (b.ring.push d.blendLength (d.ports.inputs.getD 0 .zero)) position reader d.localCount
        = heardAt held b.ring position reader d.localCount := fun held position reader => by
    rw [readHeld_heard, heardAt_push]
  refine ⟨rfl, ?_, ?_, (push_facts _ _ _).1, rfl, rfl, fun still => ?_, fun f fades => ?_⟩
  · show (match b.state with | .toDigital => _ | .toAnalogue => _ | _ => _) = _
    cases state : b.state <;> rfl
  · show (match b.state with | .idle => _ | .filling => _ | _ => _) = _
    cases state : b.state
    case idle => exact absurd state works
    all_goals rfl
  · have faded : c.crossfade = none := by
      have map := blendWork_crossfade d
      rw [show d.blend.crossfade = none from still] at map
      exact Option.map_eq_none_iff.mp map
    have sounds := blendWork_out d
    rw [show d.blendWork.blend.crossfade = none from faded, show d.blend.crossfade = none from still, tap] at sounds
    exact ⟨faded, sounds⟩
  · have map := blendWork_crossfade d
    have sounds := blendWork_out d
    rw [show d.blend.crossfade = some f from fades] at map sounds
    obtain ⟨g, goesOn, moved⟩ := Option.map_eq_some_iff.mp map
    rw [show d.blendWork.blend.crossfade = some g from goesOn] at sounds
    dsimp only at sounds
    rw [tap, tap, (Prod.mk.inj moved).1] at sounds
    exact ⟨map, sounds⟩

theorem blendLength_same {s t : State} (regions : s.store.regions = t.store.regions) : s.blendLength = t.blendLength := by
  rw [State.blendLength, State.blendLength, Store.rowsOf, Store.rowsOf, Store.regionsOf, Store.regionsOf, regions]

theorem nominalDelay_same {s t : State} (startUp : s.startUp = t.startUp) : s.nominalDelay = t.nominalDelay := by
  rw [State.nominalDelay, State.nominalDelay, startUp]

theorem blendSample_rests (d : State) (rests : d.blend.state = .idle ∨ d.blendLength = 0) : d.blendSample.blend.out = .zero := by
  unfold State.blendSample
  rw [if_pos rests]

/-- The engine at a local sample: its work, of which the requests of its turn leave what counts (R133 to R136). -/
theorem blendSample_works (d : State) (works : d.blend.state ≠ .idle) (long : d.blendLength ≠ 0) :
    d.blendSample.blendKept = d.blendWork.blendKept ∧ d.blendSample.blendJudged = d.blendWork.blendJudged := by
  have sample : d.blendSample = { d.blendWork.blendTurn with
      blend := { d.blendWork.blendTurn.blend with round := (d.blend.round + 1) % 8 } } := by
    unfold State.blendSample
    rw [if_neg (not_or.mpr ⟨works, long⟩)]
  rw [sample]
  exact ⟨blendTurn_blendKept d.blendWork, blendTurn_blendJudged d.blendWork⟩

/-- The state in which the blend engine meets a local sample. -/
theorem localSample_meets_blend (t : State) (i : InputSamples) (awake : t.member.station ≠ .dormant) :
    let c := (t.portSample i).blend
    let d := t.cadenced i
    let u := t.localSample i
    u.blend = d.blendSample.blend ∧ d.blend = c ∧ d.blendLength = t.blendLength ∧ d.localCount = t.localCount
      ∧ d.effectiveDelay = t.nominalDelay + c.correction + u.ports.balance ∧ d.ports.digital = u.ports.digital
      ∧ u.ports.balance = (t.ports.sample i).1.balance := by
  obtain ⟨-, ports, -, blend, -⟩ := localSample_blocks t i awake
  obtain ⟨-, -, -, -, quiet, -⟩ := played_blocks t i
  obtain ⟨-, ports', blend', -, count, -, -, -, startUp, -, -, -, -, -, regions, -⟩ := cadenced_blocks t i
  have gated : (t.gatedFor i).blend = (t.portSample i).blend := rfl
  rw [gated] at blend'
  generalize t.portSample i = v at *
  generalize t.localSample i = u at *
  generalize t.cadenced i = d at *
  generalize t.played i = a at *
  have same : d.ports = u.ports := ports'.trans ports.symm
  refine ⟨blend, blend', blendLength_same regions, count, ?_, congrArg Ports.digital same, ?_⟩
  · rw [State.effectiveDelay, nominalDelay_same startUp, blend', same]
  · rw [ports]
    have balance := congrArg Ports.balance quiet
    exact balance

/-- The blend engine after its work at a local sample, by the engine `c` that the read of the decoder port left it (R133 to R136,
R139, R143, R145, R147). -/
def BlendWorked (t u : State) (c : Blend) : Prop :=
  let b := t.blend
  let length := t.blendLength
  let w := b.ring.write
  let delay : Int := t.nominalDelay + b.correction + u.ports.balance
  let main := heardAt b.main.held b.ring (behind length w delay) 6 t.localCount
  let digital := u.ports.digital.getD .zero
  (u.blend.state = c.state ∧ u.blend.fast = c.fast ∧ u.blend.valid = c.valid ∧ u.blend.correction = b.correction
      ∧ u.blend.goodRun = c.goodRun ∧ u.blend.poorRun = c.poorRun)
    ∧ u.blend.mix = (if c.state = .toDigital then min 2400 (b.mix + 1)
        else if c.state = .toAnalogue then b.mix - (if c.fast then 50 else 1) else b.mix)
    ∧ u.blend.gain = (if c.state = .filling then 0 else min 480 (b.gain + 1))
    ∧ u.blend.ring.write = (w + 1) % length ∧ u.blend.fill = min length (b.fill + 1)
    ∧ (c.crossfade = none →
        u.blend.crossfade = none ∧ u.blend.out = blendOut u.blend.gain u.blend.mix 480 .zero main digital)
    ∧ ∀ f, c.crossfade = some f → ∃ g, u.blend.crossfade = some g ∧ g.weight = min 480 (f.weight + 1) ∧ g.delay = f.delay
        ∧ u.blend.out = blendOut u.blend.gain u.blend.mix g.weight
            (heardAt f.old.held b.ring (behind length w g.delay) 7 t.localCount) main digital

theorem slipped_state {s u : State} {beyond : Prop} {change : Int} (slipped : Slipped s u beyond change) :
    u.blend.state = s.blend.state
      ∨ u.blend.state = .toAnalogue ∧ (s.blend.state = .toDigital ∨ s.blend.state = .digital) := by
  obtain ⟨slips, keeps, -⟩ := slipped
  by_cases fall : beyond ∧ (s.blend.state = .toDigital ∨ s.blend.state = .digital)
  · exact .inr ⟨(slips fall).1, fall.2⟩
  · exact .inl (keeps fall).1

/-- A slip neither begins nor ends IDLE or FILLING. -/
theorem slipped_state_iff {s u : State} {beyond : Prop} {change : Int} (slipped : Slipped s u beyond change) :
    (u.blend.state = .idle ↔ s.blend.state = .idle) ∧ (u.blend.state = .filling ↔ s.blend.state = .filling) := by
  obtain same | ⟨falls, high | high⟩ := slipped_state slipped
  · rw [same]
    exact ⟨Iff.rfl, Iff.rfl⟩
  · rw [falls, high]
    decide
  · rw [falls, high]
    decide

theorem localSample_blend (t : State) (i : InputSamples) (awake : t.member.station ≠ .dormant) :
    (t.blend.state = .idle ∨ t.blendLength = 0 → (t.localSample i).blend.out = .zero)
      ∧ (t.blend.state ≠ .idle → 0 < t.blendLength → BlendWorked t (t.localSample i) (t.portSample i).blend) := by
  obtain ⟨blend, met, long, count, delay, digital, -⟩ := localSample_meets_blend t i awake
  have slipped := portSample_slipped t i
  obtain ⟨idle, -⟩ := slipped_state_iff slipped
  obtain ⟨-, -, -, -, ⟨correction, mix, gain, fill, ring, main⟩, -⟩ := slipped
  generalize t.localSample i = u at *
  generalize t.portSample i = c at *
  generalize t.cadenced i = d at *
  refine ⟨fun rests => ?_, fun works room => ?_⟩
  · rw [blend]
    refine blendSample_rests d (rests.imp (fun off => ?_) (fun none => long.trans none))
    rw [met, idle]
    exact off
  · have active : d.blend.state ≠ .idle := by rw [met, Ne, idle]; exact works
    obtain ⟨kept, judged⟩ := blendSample_works d active (by rw [long]; exact Nat.pos_iff_ne_zero.mp room)
    obtain ⟨state', mix', gain', write', fill', judged', alone, fading⟩ := blendWork_facts d active
    have judges := judged.trans judged'
    simp only [State.blendKept, State.blendJudged, Prod.mk.injEq] at kept judges
    obtain ⟨-, -, -, -, -, keptState, keptMix, keptGain, keptFill, keptOut, keptWrite, keptFade⟩ := kept
    obtain ⟨valid, fast, correction', goodRun, poorRun⟩ := judges
    rw [← blend] at keptState keptMix keptGain keptFill keptOut keptWrite keptFade valid fast correction' goodRun poorRun
    rw [← keptMix, ← keptGain, ← keptOut] at alone fading
    rw [← keptState] at state'
    rw [← keptMix] at mix'
    rw [← keptGain] at gain'
    rw [← keptWrite] at write'
    rw [← keptFill] at fill'
    rw [← keptFade] at fading
    rw [met] at state' mix' gain' write' fill' alone fading valid fast correction' goodRun poorRun
    rw [long, count, delay, main, ring, correction, digital] at alone fading
    rw [mix] at mix'
    rw [gain] at gain'
    rw [long, ring] at write'
    rw [long, fill] at fill'
    refine ⟨⟨state', fast, valid, correction'.trans correction, goodRun, poorRun⟩, mix', gain', write', fill', fun none => ?_,
      fun f fades => ?_⟩
    · obtain ⟨still, sounds⟩ := alone none
      rw [still] at keptFade
      exact ⟨Option.map_eq_none_iff.mp keptFade, sounds⟩
    · obtain ⟨moved, sounds⟩ := fading f fades
      obtain ⟨g, goesOn, steps⟩ := Option.map_eq_some_iff.mp moved
      obtain ⟨weight, place⟩ := Prod.mk.inj steps
      refine ⟨g, goesOn, weight, place, ?_⟩
      rw [weight, place]
      exact sounds

theorem raises_of_eventRaised {t c u : State} {k : EventKind} {subject : List Nat} {cause : Option Cause}
    (host : c.host = t.eventRaised k subject cause) (more : c.moreEvents u) (hosted : t.hasHost = true) :
    t.raises u k subject cause := by
  obtain ⟨l, joined⟩ := more
  refine ⟨_ :: l, ?_, List.mem_cons_self⟩
  rw [joined, host, State.eventRaised, if_pos hosted]
  rfl

/-- Settles O42: the ends by their rows, the result by what the correlator finds, and the local sample by what a slip leaves of the
engine, which then does its work. -/
theorem blendMovesAndResults : Obligations.BlendMovesAndResults := by
  intro s released b k delay x windowed
  have due := fun c f e => exec_due c s f e released
  obtain ⟨fills, unfilled⟩ := filled_cases s
  obtain ⟨rises, rising⟩ := toDigitalComplete_cases s
  obtain ⟨falls, falling⟩ := toAnalogueComplete_cases s
  obtain ⟨ends, fading, still⟩ := crossfadeEnd_cases s
  obtain ⟨primes, priming⟩ := primingDone_cases s
  obtain ⟨forming, formed⟩ := correlationResult_cases s
  have window : s.windowed = windowed := rfl
  rw [due .filled State.filled rfl, due .toDigitalComplete State.toDigitalComplete rfl,
    due .toAnalogueComplete State.toAnalogueComplete rfl, due .tapCrossfadeEnd State.crossfadeEnd rfl,
    due .primingDone State.primingDone rfl, due .correlationResult State.correlationResult rfl]
  refine ⟨fun fill full => by rw [fills fill full], fun waits => by rw [unfilled waits],
    fun rise full => by rw [rises rise full], fun waits => by rw [rising waits],
    fun fall empty => by rw [falls fall empty], fun waits => by rw [falling waits],
    fun f fade whole => by rw [ends f fade whole], fun f fade part => by rw [fading f fade part], fun none => by rw [still none],
    fun prime full => by rw [primes prime full, window], fun waits => by rw [priming waits],
    fun waits => by rw [forming waits], fun forms full => ⟨fun j result low high => ?_, fun missed => ⟨fun few => ?_, fun many => ?_⟩⟩,
    ?_⟩
  · rw [(formed forms full).1 j result low high]
    exact ⟨_, rfl, found_facts s j _⟩
  · rw [(formed forms full).2 missed, (notFound_facts s).1 few, window]
  · rw [(formed forms full).2 missed]
    exact ⟨_, rfl, (notFound_facts s).2 many⟩
  · intro i t b length w awake
    have acts := exec_outside (.localSample i) s (fun t => t.localSample i) rfl released
    have settled : s.settle = t := rfl
    rw [settled] at acts
    clear_value t
    refine ⟨_, acts, ?_⟩
    obtain ⟨-, -, -, -, -, -, balance⟩ := localSample_meets_blend t i awake
    obtain ⟨rests, working⟩ := localSample_blend t i awake
    have grows := moreEvents_localSample t i awake
    have slipped := portSample_slipped t i
    rw [← balance] at slipped
    generalize t.localSample i = u at *
    generalize t.portSample i = c at *
    refine ⟨rests, fun works room => ⟨c.blend.state, c.blend.fast, ?_⟩⟩
    obtain ⟨⟨state, fast, valid, correction, good, poor⟩, mix, gain, write, fill, alone, fading⟩ := working works room
    obtain ⟨-, filling⟩ := slipped_state_iff slipped
    obtain ⟨slips, keeps, distrusts, trusts, -, crossfade⟩ := slipped
    have gain' : u.blend.gain = if b.state = .filling then 0 else min 480 (b.gain + 1) := by
      rw [gain]
      simp only [filling]
      rfl
    rw [crossfade] at alone fading
    refine ⟨fun fall => ?_, fun calm => ?_, fun beyond aligning fills => ?_, fun sound => ?_, state, fast, correction, mix, gain',
      write, fill, fun none => ?_, fun f fades => ?_⟩
    · obtain ⟨falls, slow, noGood, noPoor, host⟩ := slips fall
      exact ⟨falls, slow, good.trans noGood, poor.trans noPoor, raises_of_eventRaised host grows⟩
    · obtain ⟨same, sameFast, sameGood, samePoor⟩ := keeps calm
      exact ⟨same, sameFast, good.trans sameGood, poor.trans samePoor⟩
    · exact valid.trans (distrusts beyond works aligning fills)
    · exact valid.trans (trusts sound)
    · rw [← mix, ← gain']
      exact alone (by rw [show t.blend.crossfade = .none from none]; rfl)
    · obtain ⟨g, goesOn, weight, place, sounds⟩ := fading { f with delay := f.delay + (u.ports.balance - t.ports.balance) }
        (by rw [show t.blend.crossfade = some f from fades]; rfl)
      refine ⟨g, goesOn, weight, place, ?_⟩
      rw [← mix, ← gain']
      exact sounds

end Sys2Proof.Machine
end

section
/-! PROOFS. Bursts, requests and store frame boundaries (R79, R80, R83 to R85, R93). -/

namespace Sys2Proof.Machine

set_option maxRecDepth 20000

/-! ## A burst completes (R79, R80, R85) -/

/-- The store after a completed burst, before its client learns of it: a write has landed, the head has left its queue, and its bank
closes where the burst carried close after (R79, R80). -/
def Store.moved (st : Store) (b : Nat) (q : QueueId) (r : Request) (rest : List Request) : Store :=
  ((if r.access = .write then st.writeBurst r else st).onQueue q (fun _ => rest)).onBank b (fun k =>
    { k with burst := none, state := if r.closeAfter then .closing else k.state })

/-- What the client of a completed burst is handed: a late burst is a gap (R85). -/
def Store.outcome (st : Store) (r : Request) : RequestEnd :=
  if r.late then .gap .deadline else .served (if r.access = .read then st.readBurst r else [])

/-- The state in which the client has been handed its burst. -/
def State.burstHanded (t : State) (b : Nat) (q : QueueId) (r : Request) (rest : List Request) : State :=
  ({ t with store := t.store.moved b q r rest }).endRequest r (t.store.outcome r)

theorem burstComplete_none (t : State) (b : Nat) (idle : (t.store.bank b).burst = none) : t.burstComplete b = t := by
  unfold State.burstComplete Store.completeBurst
  rw [idle]

theorem burstComplete_some (t : State) (b : Nat) (q : QueueId) (r : Request) (rest : List Request)
    (flies : (t.store.bank b).burst = some q) (head : t.store.queue q = r :: rest) :
    t.burstComplete b = { (t.burstHanded b q r rest).feedLoader with
      store := (t.burstHanded b q r rest).feedLoader.store.arbitrate } := by
  have completes : t.store.completeBurst b = (t.store.moved b q r rest, some (r, t.store.outcome r)) := by
    unfold Store.completeBurst
    rw [flies]
    dsimp only
    rw [head]
    rfl
  unfold State.burstComplete
  rw [completes]
  rfl

theorem writeWord_blocks (st : Store) (a : Nat) (v : Sample) :
    (st.writeWord a v).queues = st.queues ∧ (st.writeWord a v).banks.length = st.banks.length
      ∧ (st.writeWord a v).gaps = st.gaps := by
  unfold Store.writeWord
  dsimp only
  split
  · split
    · exact ⟨rfl, rfl, rfl⟩
    · exact ⟨rfl, List.length_modify .., rfl⟩
  · exact ⟨rfl, rfl, rfl⟩

theorem writeBurst_blocks (st : Store) (r : Request) :
    (st.writeBurst r).queues = st.queues ∧ (st.writeBurst r).banks.length = st.banks.length ∧ (st.writeBurst r).gaps = st.gaps := by
  unfold Store.writeBurst
  split
  · refine List.foldlRecOn (motive := fun w : Store => w.queues = st.queues ∧ w.banks.length = st.banks.length ∧ w.gaps = st.gaps)
      _ _ ⟨rfl, rfl, rfl⟩ (fun w sofar d _ => ?_)
    obtain ⟨queues, banks, gaps⟩ := sofar
    split
    · obtain ⟨queues', banks', gaps'⟩ := writeWord_blocks w (_ + d.1) d.2
      exact ⟨queues'.trans queues, banks'.trans banks, gaps'.trans gaps⟩
    · exact ⟨queues, banks, gaps⟩
  · exact ⟨rfl, rfl, rfl⟩

theorem moved_facts (st : Store) (b : Nat) (q : QueueId) (r : Request) (rest : List Request) (queues : st.queues.length = 5) :
    let m := st.moved b q r rest
    m.memory = (if r.access = .write then (st.writeBurst r).memory else st.memory)
      ∧ (∀ p, m.queue p = if p = q then rest else st.queue p) ∧ m.queues.length = 5 ∧ m.gaps = st.gaps
      ∧ (r.closeAfter = true → b < st.banks.length → (m.bank b).state = .closing) := by
  obtain ⟨sameQueues, sameBanks, sameGaps⟩ := writeBurst_blocks st r
  have landed : ∀ w : Store, w.queues = st.queues → w.banks.length = st.banks.length → w.gaps = st.gaps →
      let n := (w.onQueue q (fun _ => rest)).onBank b (fun k =>
        { k with burst := none, state := if r.closeAfter then .closing else k.state })
      n.memory = w.memory ∧ (∀ p, n.queue p = if p = q then rest else st.queue p) ∧ n.queues.length = 5 ∧ n.gaps = st.gaps
        ∧ (r.closeAfter = true → b < st.banks.length → (n.bank b).state = .closing) := fun w sameQueues sameBanks sameGaps => by
    refine ⟨rfl, fun p => ?_, ?_, sameGaps, fun closes inside => ?_⟩
    · refine (onQueue_queue w q p (fun _ => rest) (by rw [sameQueues]; exact queues)).trans ?_
      rw [Store.queue, Store.queue, sameQueues]
    · show (w.queues.modify _ _).length = 5
      rw [List.length_modify, sameQueues, queues]
    · show ((w.banks.modify b _).getD b .reset).state = _
      rw [List.getD_eq_getElem?_getD, List.getElem?_modify, List.getElem?_eq_getElem (by rw [sameBanks]; exact inside)]
      simp [closes]
  unfold Store.moved
  by_cases writes : r.access = .write
  · rw [if_pos writes, if_pos writes]
    exact landed _ sameQueues sameBanks sameGaps
  · rw [if_neg writes, if_neg writes]
    exact landed st rfl rfl rfl

/-- What the client makes of the store and the host port: nothing where the burst is served, a gap where it is late (R83, R85). -/
theorem burstHanded_cases (t : State) (b : Nat) (q : QueueId) (r : Request) (rest : List Request) :
    let m : State := { t with store := t.store.moved b q r rest }
    let e := t.burstHanded b q r rest
    (r.late = false → e.store = m.store ∧ e.host = t.host)
      ∧ (r.late = true → e = m.endRequest r (.gap .deadline) ∧ m.gapOf e r .deadline)
      ∧ ∃ gaps, e.store = { m.store with gaps := gaps } := by
  intro m e
  cases late : r.late with
  | false =>
    have handed : e = m.takeServed r (if r.access = .read then t.store.readBurst r else []) := by
      show m.endRequest r (t.store.outcome r) = _
      unfold Store.outcome
      rw [late]
      rfl
    have store : e.store = m.store := by rw [handed]; simp
    have host : e.host = t.host := by rw [handed]; simp [m]
    exact ⟨fun _ => ⟨store, host⟩, (fun no => by cases no), m.store.gaps, store⟩
  | true =>
    have handed : e = m.endRequest r (.gap .deadline) := by
      show m.endRequest r (t.store.outcome r) = _
      unfold Store.outcome
      rw [late]
      rfl
    have gap := endRequest_gapOf m r .deadline
    rw [← handed] at gap
    exact ⟨(fun no => by cases no), fun _ => ⟨handed, gap⟩, _, gap.1⟩

/-- The words that a write burst lands, and those that it leaves (R79). -/
theorem writeBurst_words (st : Store) (r : Request) (a : Nat) (canonical : st.memory.wf = true) (address : st.address r = some a) :
    (∀ x, (∀ d, d ∈ r.data → d.1 < r.words → x ≠ a + d.1) → (st.writeBurst r).memory.read x = st.memory.read x)
      ∧ ∀ d, d ∈ r.data → d.1 < r.words → (∀ e, e ∈ r.data → e.1 = d.1 → e = d) →
          (st.writeBurst r).memory.read (a + d.1) = d.2 := by
  unfold Store.writeBurst
  rw [address]
  exact (writeData r.data r.words a st canonical).2

/-- A completed burst, with what the loader and the arbiter then do (R80, R87, R120). -/
theorem burstComplete_facts (t : State) (b : Nat) (q : QueueId) (r : Request) (rest : List Request)
    (flies : (t.store.bank b).burst = some q) (head : t.store.queue q = r :: rest) (queues : t.store.queues.length = 5) :
    let u := t.burstComplete b
    let e := t.burstHanded b q r rest
    u.store.memory = (if r.access = .write then (t.store.writeBurst r).memory else t.store.memory)
      ∧ (∀ p, p ≠ .loading → u.store.queue p = if p = q then rest else t.store.queue p)
      ∧ (∃ more, u.store.queue .loading = (if q = .loading then rest else t.store.queue .loading) ++ more)
      ∧ (r.closeAfter = true → b < t.store.banks.length → (u.store.bank b).state = .closing)
      ∧ u.store.gaps = e.store.gaps ∧ u.host = e.host ∧ u.mixer = e.mixer ∧ u.blend = e.blend ∧ u.call = e.call
      ∧ u.announce.plays = e.announce.plays := by
  intro u e
  obtain ⟨-, -, gaps, store⟩ := burstHanded_cases t b q r rest
  obtain ⟨memory, queue, length, -, closing⟩ := moved_facts t.store b q r rest queues
  have loaded : Loaded e e.feedLoader := feedLoader_loaded e (by rw [show e.store = _ from store]; exact length)
  have handed : ∀ p, e.store.queue p = if p = q then rest else t.store.queue p := fun p => by
    rw [show e.store = _ from store]
    exact queue p
  have completes : u = { e.feedLoader with store := e.feedLoader.store.arbitrate } := burstComplete_some t b q r rest flies head
  have outside := loaded.outside
  have words : e.feedLoader.store.memory = e.store.memory := by simp
  have host := congrArg State.host outside
  have mixer := congrArg State.mixer outside
  have blend := congrArg State.blend outside
  have call := congrArg State.call outside
  obtain ⟨more, loads⟩ := loaded.more
  rw [completes]
  refine ⟨?_, fun p other => ?_, ⟨more, ?_⟩, fun closes inside => ?_, ?_, ?_, ?_, ?_, ?_, loaded.plays⟩
  · refine (Store.arbitrate_frame _).1.trans (words.trans ?_)
    rw [show e.store = _ from store]
    exact memory
  · exact (arbitrate_queue _ p).trans ((loaded.others p other).trans (handed p))
  · refine (arbitrate_queue _ _).trans (loads.trans ?_)
    rw [handed]
    simp only [eq_comm]
  · refine arbitrate_closing _ b (loaded.closing b ?_)
    rw [show e.store = _ from store]
    exact closing closes inside
  · exact (arbitrate_loaded _).1.trans loaded.gaps
  · exact host
  · exact mixer
  · exact blend
  · exact call

/-! ## A store frame boundary (R84, R85) -/

theorem judgeStart_length (s : State) (onTime : Bool) :
    (s.judgeStart onTime).host.events.length ≤ s.host.events.length + 1
      ∧ s.judgeMiss.host.events.length ≤ s.host.events.length + 1 := by
  have follows : ∀ new cause, (s.follow new cause).host.events.length ≤ s.host.events.length + 1 := fun new cause => by
    unfold State.follow
    rw [raise_host]
    exact eventRaised_length _ _ _ _
  have miss : s.judgeMiss.host.events.length ≤ s.host.events.length + 1 := by
    unfold State.judgeMiss
    split
    · exact Nat.le_succ _
    · exact Nat.le_succ _
    · split
      · exact follows _ _
      · exact Nat.le_succ _
  refine ⟨?_, miss⟩
  unfold State.judgeStart State.judgeOnTime
  split
  · exact follows _ _
  · split
    · repeat' split
      all_goals first | exact follows _ _ | exact Nat.le_succ _
    · exact miss

/-- A state at which a boundary falls, seen from a state before it: the store as it stood, an event more at most (R84). -/
def BoundaryAt (t w : State) : Prop :=
  w.store = t.store ∧ w.hasHost = t.hasHost ∧ w.host.events.length ≤ t.host.events.length + 1

theorem boundary_facts (t w : State) (at' : BoundaryAt t w) :
    ∃ m : Store, t.store.boundary m ∧ w.storeBoundary.store = m.arbitrate
      ∧ (t.hasHost = true → t.host.events.length + 1 + t.store.lapsed.length ≤ 31 → ∀ r, r ∈ t.store.lapsed →
          { kind := .storeGap, subject := [clientCode r.queue.client, accessCode r.access], cause := some .deadline,
            stamp := w.storeBoundary.tables.frameCount.setWidth 16 } ∈ w.storeBoundary.host.events) := by
  obtain ⟨store, hasHost, events⟩ := at'
  obtain ⟨m, boundary, acts⟩ := storeBoundary_store w
  rw [store] at boundary
  refine ⟨m, boundary, acts, fun hosted room r lapses => ?_⟩
  have tables : w.storeBoundary.tables = w.tables := by simp
  rw [tables]
  exact storeBoundary_events w (hasHost.trans hosted) (by rw [store]; omega) r (by rw [store]; exact lapses)

theorem hasHost_same {s u : State} (station : u.member.station = s.member.station) (record : u.startUp.record = s.startUp.record) :
    u.hasHost = s.hasHost := by
  unfold State.hasHost State.roles State.inForce
  rw [station, record]

/-- The state that a start has judged, at which its boundary falls. -/
theorem start_boundary (t : State) (emitted inWindow : Bool) : ∃ w, BoundaryAt t w ∧ t.start emitted inWindow = w.storeBoundary := by
  have counted : ∀ w : State, w.countSilence.host = w.host := fun w => by
    unfold State.countSilence
    split <;> rfl
  refine ⟨_, ⟨?_, ?_, ?_⟩, rfl⟩
  · simp
  · exact hasHost_same (by simp) (by simp)
  · refine Nat.le_trans (judgeStart_length _ _).1 ?_
    rw [counted]
    simp

theorem missStart_boundary (t : State) : ∃ w, BoundaryAt t w ∧ t.missStart = w.storeBoundary := by
  have counted : ∀ w : State, w.countSilence.host = w.host := fun w => by
    unfold State.countSilence
    split <;> rfl
  refine ⟨_, ⟨?_, ?_, ?_⟩, rfl⟩
  · simp
  · exact hasHost_same (by simp) (by simp)
  · exact Nat.le_trans (judgeStart_length _ true).2 (Nat.le_of_eq (congrArg (fun h : HostPort => h.events.length + 1) (counted _)))

/-- The rows at which a boundary falls: a start seen or emitted ends with it, a missing one is followed by the keep-up flag's own
start (R3, R84). -/
theorem exec_boundary (c : Instr) (s t : State) (released : s.released) (settled : s.settle = t) (awake : t.member.station ≠ .dormant) :
    let leads := t.keepUp = true ∧ t.member.station.onLine = true
    let seen := ∃ w, c = .frameStart w
    let emitted := (c = .leadStart ∨ c = .frameTimerExpiry) ∧ leads ∧ t.line.timerExpired = false
    let missing := ¬leads ∧ (c = .frameTimerExpiry ∧ t.line.timerExpired = false
      ∨ c = .missingStart ∧ t.line.timerExpired = true)
    seen ∨ emitted ∨ missing → ∃ w, BoundaryAt t w ∧ exec c s = .next w.storeBoundary.keepUpStart
      ∧ (¬missing → w.storeBoundary.keepUpStart = w.storeBoundary) := by
  intro leads seen emitted missing rows
  obtain ⟨inWindow, rfl⟩ | ⟨row, ⟨keepUp, onLine⟩, running⟩ | ⟨idle, row⟩ := rows
  · have acts := exec_outside (.frameStart inWindow) s (fun t => t.startSeen inWindow) rfl released
    rw [settled] at acts
    have begins : t.startSeen inWindow = t.start false inWindow := if_neg awake
    obtain ⟨w, at', starts⟩ := start_boundary t false inWindow
    have stands := start_keepUp t false inWindow
    rw [starts] at stands
    exact ⟨w, at', by rw [acts, begins, starts], fun _ => stands⟩
  · have acts := exec_leads c s row released
    rw [settled] at acts
    obtain ⟨w, at', starts⟩ := start_boundary t true true
    have stands := start_keepUp t true true
    rw [starts] at stands
    exact ⟨w, at', by rw [acts keepUp onLine running, starts, stands], fun _ => stands⟩
  · have stays : t.keepUp = false ∨ t.member.station.onLine = false := by
      rw [← Bool.not_eq_true, ← Bool.not_eq_true]
      exact Classical.not_and_iff_not_or_not.mp idle
    have acts := exec_misses c s released
    rw [settled] at acts
    obtain ⟨w, at', misses⟩ := missStart_boundary t
    exact ⟨w, at', by rw [acts awake stays row, misses], fun no => absurd ⟨idle, row⟩ no⟩

/-- Settles O40: the burst by what its store and its client make of it, a request by its arrival, and the boundary at the state that
the start has judged. -/
theorem aBurstMovesItsWords : Obligations.ABurstMovesItsWords := by
  refine ⟨fun b s released => ?_, fun s r queues => request_cases s r queues, fun c s released => ?_⟩
  · intro t
    have acts := exec_outside (.burstComplete b) s (fun t => t.burstComplete b.val) rfl released
    have settled : s.settle = t := rfl
    rw [settled] at acts
    clear_value t
    refine ⟨fun idle => by rw [acts, burstComplete_none t b.val idle], fun q r rest flies head canonical queues banks => ⟨_, acts, ?_⟩⟩
    obtain ⟨memory, queue, more, closing, gaps, host, mixer, blend, call, plays⟩ :=
      burstComplete_facts t b.val q r rest flies head queues
    obtain ⟨served, gap, -⟩ := burstHanded_cases t b.val q r rest
    obtain ⟨-, -, -, movedGaps, -⟩ := moved_facts t.store b.val q r rest queues
    have frame := State.burstComplete_frame t b.val
    generalize t.burstComplete b.val = u at *
    generalize t.burstHanded b.val q r rest = e at *
    obtain ⟨-, -, line, tables, member, follower, ports, note, startUp, -⟩ := frame
    refine ⟨fun reads => ?_, fun writes a address => ?_, queue, more, fun closes => closing closes (by rw [banks]; exact b.isLt),
      fun early => ?_, fun late => ?_, ⟨line, tables, member, note, startUp⟩, ports, follower⟩
    · rw [memory, reads]
      exact if_neg (by decide)
    · rw [memory, if_pos writes]
      exact writeBurst_words t.store r a canonical address
    · obtain ⟨store, told⟩ := served early
      exact ⟨by rw [gaps, store]; exact movedGaps, host.trans told⟩
    · exact ⟨{ t with store := t.store.moved b.val q r rest }, e, (gap late).2, rfl, movedGaps, gaps, host, mixer, blend, call, plays⟩
  · intro t leads seen emitted missing
    have falls := exec_boundary c s t released rfl
    clear_value t
    intro awake rows queues
    obtain ⟨w, at', acts, stands⟩ := falls awake rows
    obtain ⟨m, boundary, store, listed⟩ := boundary_facts t w at'
    exact ⟨m, w.storeBoundary, _, acts, rfl, stands, boundary, store, listed⟩

end Sys2Proof.Machine
end

section
/-! PROOFS. The start-up record is judged (R71, R82, R98, R117, R181, R182, Table 11-7). -/

namespace Sys2Proof.Machine

set_option maxRecDepth 20000

/-! ## Lists without a double -/

theorem allDistinct_iff (l : List Nat) : allDistinct l = true ↔ l.Nodup := by
  induction l with
  | nil => exact iff_of_true rfl List.nodup_nil
  | cons x l ih =>
    unfold allDistinct
    rw [Bool.and_eq_true, ih, List.nodup_cons, Bool.not_eq_true', ← Bool.not_eq_true, List.contains_iff_mem]

theorem allDistinct_map_iff {α : Type} (f : α → Nat) (l : List α) :
    allDistinct (l.map f) = true ↔ l.Pairwise (fun a b => f a ≠ f b) := by
  rw [allDistinct_iff, List.Nodup, List.pairwise_map]

/-! ## The region plan (R81, R82) -/

theorem rowsOfPlan_eq (regions : List Region) (c : Client) : rowsOfPlan regions c = spaceRows regions c := by
  unfold rowsOfPlan spaceRows
  generalize regions.filter (fun g => g.client == c) = l
  rw [List.sum_eq_foldl, List.foldl_map]

theorem regionInRange_iff (g : Region) : regionInRange g = true ↔ regionFits g := by
  unfold regionInRange regionFits
  simp only [Bool.and_eq_true, List.contains_iff_mem, decide_eq_true_eq, beq_iff_eq, ← Nat.dvd_iff_mod_eq_zero, and_assoc]

theorem regionFits_positive (g : Region) (fits : regionFits g) : 0 < g.group ∧ 0 < g.rows / g.group := by
  obtain ⟨group, -, -, -, enough, -⟩ := fits
  have positive : 0 < g.group := by
    simp at group
    omega
  exact ⟨positive, Nat.div_pos enough positive⟩

/-- The rows of a region in range fill a rectangle of banks and bank rows (R81). -/
theorem regionPlaces_iff (g : Region) (fits : regionFits g) (bank row : Nat) :
    regionPlaces g bank row ↔ (g.firstBank ≤ bank ∧ bank < g.firstBank + g.group)
      ∧ (g.firstRow ≤ row ∧ row < g.firstRow + g.rows / g.group) := by
  have positive := (regionFits_positive g fits).1
  obtain ⟨-, -, -, -, -, -, whole, -⟩ := fits
  unfold regionPlaces
  refine ⟨fun places => ?_, fun within => ?_⟩
  · obtain ⟨k, inside, rfl, rfl⟩ := places
    have column := Nat.mod_lt k positive
    have line : k / g.group < g.rows / g.group := Nat.div_lt_div_of_lt_of_dvd whole inside
    exact ⟨⟨Nat.le_add_right _ _, Nat.add_lt_add_left column _⟩, Nat.le_add_right _ _, Nat.add_lt_add_left line _⟩
  · obtain ⟨⟨low, high⟩, ⟨first, last⟩⟩ := within
    refine ⟨(row - g.firstRow) * g.group + (bank - g.firstBank), ?_, ?_, ?_⟩
    · have lines : (row - g.firstRow) + 1 ≤ g.rows / g.group := by omega
      have filled := Nat.mul_le_mul_right g.group lines
      rw [Nat.div_mul_cancel whole, Nat.add_mul, Nat.one_mul] at filled
      omega
    · rw [Nat.add_comm ((row - g.firstRow) * g.group), Nat.add_mul_mod_self_right, Nat.mod_eq_of_lt (by omega)]
      omega
    · rw [Nat.add_comm ((row - g.firstRow) * g.group), Nat.add_mul_div_right _ _ positive, Nat.div_eq_of_lt (by omega)]
      omega

theorem regionsMeet_iff (g h : Region) (fits : regionFits g) (fits' : regionFits h) :
    regionsMeet g h = true ↔ ∃ bank row, regionPlaces g bank row ∧ regionPlaces h bank row := by
  simp only [regionPlaces_iff g fits, regionPlaces_iff h fits']
  unfold regionsMeet
  rw [Bool.and_eq_true, decide_eq_true_eq, decide_eq_true_eq]
  refine ⟨fun meets => ⟨max g.firstBank h.firstBank, max g.firstRow h.firstRow, ?_⟩, fun ⟨bank, row, inG, inH⟩ => ?_⟩
  · have := regionFits_positive g fits
    have := regionFits_positive h fits'
    omega
  · omega

theorem planDisjoint_iff (regions : List Region) (fits : ∀ g, g ∈ regions → regionFits g) :
    planDisjoint regions = true
      ↔ regions.Pairwise (fun g h => ∀ bank row, ¬(regionPlaces g bank row ∧ regionPlaces h bank row)) := by
  induction regions with
  | nil => exact iff_of_true rfl List.Pairwise.nil
  | cons g l ih =>
    unfold planDisjoint
    rw [Bool.and_eq_true, ih (fun h mem => fits h (List.mem_cons_of_mem _ mem)), List.pairwise_cons, List.all_eq_true]
    refine and_congr_left fun _ => forall_congr' fun h => forall_congr' fun mem => ?_
    rw [Bool.not_eq_true', ← Bool.not_eq_true,
      regionsMeet_iff g h (fits g List.mem_cons_self) (fits h (List.mem_cons_of_mem _ mem))]
    exact not_exists.trans (forall_congr' fun bank => not_exists)

theorem planFits_iff (r : StartUpRecord) :
    planFits r ↔ (∀ g, g ∈ r.regions → regionInRange g = true) ∧ planConsistent r = true := by
  unfold planFits
  have ranges : (∀ g, g ∈ r.regions → regionFits g) ↔ ∀ g, g ∈ r.regions → regionInRange g = true := by
    simp only [regionInRange_iff]
  rw [ranges]
  refine and_congr_right fun inRange => ?_
  unfold planConsistent
  rw [Bool.and_eq_true, Bool.and_eq_true, Bool.and_eq_true, planDisjoint_iff r.regions (ranges.mpr inRange), and_assoc, and_assoc]
  refine and_congr_right fun _ => and_congr ?_ (and_congr ?_ ?_)
  · rw [rowsOfPlan_eq, Bool.or_eq_true, List.all_eq_true, decide_eq_true_eq, Classical.or_iff_not_imp_left]
    simp
  · rw [rowsOfPlan_eq, Bool.or_eq_true, decide_eq_true_eq, Bool.not_eq_true', Classical.or_iff_not_imp_left, Bool.not_eq_false]
  · rw [rowsOfPlan_eq, Bool.or_eq_true, decide_eq_true_eq, Bool.not_eq_true', Classical.or_iff_not_imp_left, Bool.not_eq_false]
    unfold blendRowsNeeded
    exact imp_congr_right fun _ => by omega

/-! ## Zones, routes and offers (R71, R98, R117, R182) -/

theorem zonesFit_iff (r : StartUpRecord) :
    zonesFit r ↔ (∀ d, d ∈ r.zones → zoneInRange d = true) ∧ zonesConsistent r = true := by
  unfold zonesFit zonesConsistent
  have range : ∀ d, zoneInRange d = true ↔ d.id ≤ 15 ∧ 1 ≤ d.pairs.length ∧ d.pairs.length ≤ 3 ∧ d.duckDepth ≤ 30
      ∧ ∀ o, o ∈ d.pairs → o.pair ≤ 5 ∧ o.delay ≤ 2400 ∧ o.trim ≤ 63 := fun d => by
    unfold zoneInRange
    simp only [Bool.and_eq_true, decide_eq_true_eq, List.all_eq_true, and_assoc]
  simp only [range, Bool.and_eq_true, allDistinct_map_iff, ← List.map_flatMap]

/-- Where each zone's routes name no stream twice, no two routes are the same. -/
theorem routes_pairwise (l : List AutonomousRoute)
    (distinct : ∀ z, (l.filter (fun t => t.zone == z)).Pairwise (fun t v => t.stream ≠ v.stream)) :
    l.Pairwise (fun t v => ¬(t.zone = v.zone ∧ t.stream = v.stream)) := by
  induction l with
  | nil => exact List.Pairwise.nil
  | cons t l ih =>
    refine List.pairwise_cons.mpr ⟨fun v mem same => ?_, ih fun z => ?_⟩
    · have own := distinct t.zone
      rw [List.filter_cons_of_pos (by simp)] at own
      exact (List.pairwise_cons.mp own).1 v (List.mem_filter.mpr ⟨mem, by simp [same.1]⟩) same.2
    · exact (distinct z).sublist (List.Sublist.filter _ (List.sublist_cons_self t l))

theorem pairwise_routes (l : List AutonomousRoute) (z : Nat)
    (distinct : l.Pairwise (fun t v => ¬(t.zone = v.zone ∧ t.stream = v.stream))) :
    (l.filter (fun t => t.zone == z)).Pairwise (fun t v => t.stream ≠ v.stream) := by
  refine (distinct.filter _).imp_of_mem fun inT inV apart same => apart ⟨?_, same⟩
  have zoneT := eq_of_beq (List.mem_filter.mp inT).2
  have zoneV := eq_of_beq (List.mem_filter.mp inV).2
  rw [zoneT, zoneV]

/-- No route goes to a zone that is not defined. -/
theorem routes_known (zones : List ZoneDefinition) (routes : List AutonomousRoute)
    (defined : ∀ t, t ∈ routes → ∃ d, d ∈ zones ∧ d.id = t.zone) (z : Nat) :
    routes.filter (fun t => t.zone == z) = [] ∨ ∃ d, d ∈ zones ∧ d.id = z := by
  refine Classical.or_iff_not_imp_right.mpr fun unknown => List.filter_eq_nil_iff.mpr fun t mem same => unknown ?_
  obtain ⟨d, there, id⟩ := defined t mem
  exact ⟨d, there, id.trans (eq_of_beq same)⟩

theorem routesFit_iff (r : StartUpRecord) :
    routesFit r ↔ (∀ t, t ∈ r.routes → t.zone ≤ 15 ∧ t.stream ≤ 63 ∧ t.level ≤ 63) ∧ routesConsistent r = true := by
  unfold routesFit routesConsistent
  simp only [Bool.and_eq_true, List.all_eq_true, List.any_eq_true, beq_iff_eq, allDistinct_map_iff, List.length_map,
    decide_eq_true_eq]
  refine ⟨fun ⟨each, distinct, few⟩ => ⟨fun t mem => ?_, fun t mem => ?_, fun d _ => ⟨pairwise_routes _ _ distinct, few d.id⟩⟩,
    fun ⟨range, defined, zones⟩ => ⟨fun t mem => ?_, routes_pairwise _ fun z => ?_, fun z => ?_⟩⟩
  · exact ⟨(each t mem).1, (each t mem).2.1, (each t mem).2.2.1⟩
  · exact (each t mem).2.2.2
  · exact ⟨(range t mem).1, (range t mem).2.1, (range t mem).2.2, defined t mem⟩
  · obtain none | ⟨d, mem, rfl⟩ := routes_known r.zones r.routes defined z
    · rw [none]
      exact List.Pairwise.nil
    · exact (zones d mem).1
  · obtain none | ⟨d, mem, rfl⟩ := routes_known r.zones r.routes defined z
    · rw [none]
      exact Nat.zero_le 6
    · exact (zones d mem).2

theorem offerFits_iff (r : StartUpRecord) (o : AutonomousOffer) :
    offerFits r o ↔ (o.index ≤ 3 ∧ 1 ≤ o.channels ∧ o.channels ≤ 8 ∧ o.cls ≤ 3) ∧ bindingInRange o.binding = true
      ∧ offerConsistent r o = true := by
  unfold offerFits offerConsistent bindingAllowed bindingInRange
  cases binding : o.binding <;> simp [bindingAllows, definesOpen] <;> grind

/-! ## The record (R181, Table 11-7) -/

theorem recordValid_iff (r : StartUpRecord) : recordValid r = true ↔ recordFits r := by
  unfold recordValid recordInRange recordFits
  rw [planFits_iff, zonesFit_iff, routesFit_iff]
  simp only [offerFits_iff, Bool.and_eq_true, decide_eq_true_eq, List.all_eq_true, allDistinct_map_iff]
  have offers : (∀ o, o ∈ r.offers → (o.index ≤ 3 ∧ 1 ≤ o.channels ∧ o.channels ≤ 8 ∧ o.cls ≤ 3)
        ∧ bindingInRange o.binding = true ∧ offerConsistent r o = true)
      ↔ (∀ o, o ∈ r.offers → (o.index ≤ 3 ∧ 1 ≤ o.channels ∧ o.channels ≤ 8 ∧ o.cls ≤ 3) ∧ bindingInRange o.binding = true)
        ∧ ∀ o, o ∈ r.offers → offerConsistent r o = true := by
    simp only [← and_assoc, forall_and]
  rw [offers]
  refine ⟨fun valid => ?_, fun fits => ?_⟩
  · obtain ⟨⟨⟨⟨⟨inRange, plan⟩, zonesAgree⟩, routesAgree⟩, offersAgree⟩, distinct⟩ := valid
    obtain ⟨⟨⟨⟨⟨⟨⟨⟨⟨station, zones⟩, zoneRange⟩, regions⟩, regionRange⟩, least, most⟩, offers⟩, offerRange⟩, routes⟩, routeRange⟩ := inRange
    exact ⟨station, zones, regions, least, most, offers, routes, ⟨regionRange, plan⟩, ⟨zoneRange, zonesAgree⟩,
      ⟨routeRange, routesAgree⟩, ⟨offerRange, offersAgree⟩, distinct⟩
  · obtain ⟨station, zones, regions, least, most, offers, routes, ⟨regionRange, plan⟩, ⟨zoneRange, zonesAgree⟩, ⟨routeRange, routesAgree⟩,
      ⟨offerRange, offersAgree⟩, distinct⟩ := fits
    exact ⟨⟨⟨⟨⟨⟨⟨⟨⟨⟨⟨⟨⟨⟨station, zones⟩, zoneRange⟩, regions⟩, regionRange⟩, least, most⟩, offers⟩, offerRange⟩, routes⟩, routeRange⟩,
      plan⟩, zonesAgree⟩, routesAgree⟩, offersAgree⟩, distinct⟩

theorem judgeRecord_iff (head following : List Byte) (check : BitVec 16) (length : Nat) (fields : Option StartUpRecord)
    (r : StartUpRecord) : judgeRecord (.read head following check length fields) = some r
      ↔ fields = some r ∧ crcBytes (head ++ following) = check ∧ length = following.length ∧ recordFits r := by
  unfold judgeRecord checkAgrees
  dsimp only
  rw [← recordValid_iff]
  by_cases agrees : crcBytes (head ++ following) = check ∧ length = following.length
  · rw [if_pos (by simp [agrees]), Option.filter_eq_some_iff]
    exact ⟨fun ⟨known, valid⟩ => ⟨known, agrees.1, agrees.2, valid⟩, fun ⟨known, _, _, valid⟩ => ⟨known, valid⟩⟩
  · rw [if_neg (by simpa using agrees)]
    exact iff_of_false (by simp) (fun no => agrees ⟨no.2.1, no.2.2.1⟩)

end Sys2Proof.Machine
end

section
/-! PROOFS. A valid record sets up the zones (R98, R117, R181). -/

namespace Sys2Proof.Machine

set_option maxRecDepth 20000

/-! ## Waiting routes (R99, R100, R107) -/

/-- What the host can tell of a route entry, its target aside (R101, R116). -/
def RouteEntry.seen (e : RouteEntry) : Nat × Nat × Option Nat × RouteState × Gain := (e.stream, e.level, e.cls, e.state, e.ramp.current)

/-- A zone whose entries all wait, of class not known and silent, with what is seen of them. -/
def Zone.waitsWith (v : Zone) (seen : List (Nat × Nat × Option Nat × RouteState × Gain)) : Prop :=
  (∀ e, e ∈ v.routes → e.state = .waiting ∧ e.ramp.current = 0 ∧ e.cls = none) ∧ v.routes.map RouteEntry.seen = seen

/-- Every zone of a station that is not MEMBER holds waiting entries alone. -/
def State.zonesWait (s : State) (seen : Nat → List (Nat × Nat × Option Nat × RouteState × Gain)) : Prop :=
  s.member.station ≠ .member ∧ ∀ z, (s.zone z).waitsWith (seen z)

theorem onZone_holds (s : State) (z : Nat) (f : Zone → Zone) (P : Nat → Zone → Prop) (holds : ∀ y, P y (s.zone y))
    (step : P z (s.zone z) → P z (f (s.zone z))) (y : Nat) : P y ((s.onZone z f).zone y) := by
  by_cases own : y = z
  · subst own
    by_cases inside : y < s.mixer.zones.length
    · rw [onZone_zone s y f inside]
      exact step (holds y)
    · have same : (s.onZone y f).zone y = s.zone y := by
        unfold State.zone State.onZone
        rw [getD_beyond _ _ (by rw [List.length_modify]; omega), getD_beyond _ _ (by omega)]
      rw [same]
      exact holds y
  · rw [onZone_other s z y f own]
    exact holds y

theorem waitsWith_map (v : Zone) (seen) (f : RouteEntry → RouteEntry) (waits : v.waitsWith seen)
    (keeps : ∀ e : RouteEntry, e.state = .waiting → e.ramp.current = 0 → (f e).seen = e.seen) :
    ({ v with routes := v.routes.map f } : Zone).waitsWith seen := by
  obtain ⟨each, list⟩ := waits
  have same : ∀ e, e ∈ v.routes → (f e).seen = e.seen := fun e mem => keeps e (each e mem).1 (each e mem).2.1
  refine ⟨fun e mem => ?_, ?_⟩
  · obtain ⟨g, inList, rfl⟩ := List.mem_map.mp mem
    obtain ⟨state, current, cls⟩ := each g inList
    have kept := same g inList
    simp only [RouteEntry.seen, Prod.mk.injEq] at kept
    obtain ⟨-, -, sameCls, sameState, sameCurrent⟩ := kept
    exact ⟨sameState.trans state, sameCurrent.trans current, sameCls.trans cls⟩
  · rw [← list, List.map_map]
    exact List.map_congr_left same

theorem retargetEntry_seen (d : ZoneDefinition) (dominant : Option Nat) (e : RouteEntry) (waits : e.state = .waiting)
    (silent : e.ramp.current = 0) : (retargetEntry d dominant e).seen = e.seen := by
  unfold retargetEntry
  dsimp only
  rw [if_pos waits]
  unfold RouteEntry.seen
  rw [silent]
  rfl

theorem retarget_waits (s : State) (z : Nat) (seen) (waits : s.zonesWait seen) : (s.retarget z).zonesWait seen := by
  unfold State.retarget
  split
  · exact waits
  · exact ⟨waits.1, onZone_holds s z _ (fun y v => v.waitsWith (seen y)) waits.2
      (fun own => waitsWith_map _ _ _ own (retargetEntry_seen _ _))⟩

theorem testRoutes_waits (s : State) (z : Nat) (seen) (waits : s.zonesWait seen) : (s.testRoutes z).zonesWait seen := by
  obtain ⟨off, zones⟩ := waits
  refine ⟨off, onZone_holds s z _ (fun y v => v.waitsWith (seen y)) zones fun own => ?_⟩
  have idle : ∀ x, s.mayPlay x = false := fun x => by
    unfold State.mayPlay
    rw [show (s.member.station == .member) = false from beq_false_of_ne off, Bool.false_and]
  have stays : (s.zone z).routes.filterMap (fun e => testEntry (s.mayPlay e.stream) e) = (s.zone z).routes := by
    refine (filterMap_congr_mem fun e mem => ?_).trans List.filterMap_some
    rw [idle]
    unfold testEntry
    rw [(own.1 e mem).1]
  rw [stays]
  exact own

theorem retakePosition_waits (s : State) (z : Nat) (seen) (waits : s.zonesWait seen) : (s.retakePosition z).zonesWait seen := by
  unfold State.retakePosition
  split
  · exact waits
  · have placed : ∀ p : CallPosition, (s.onZone z (fun v => { v with position := p })).zonesWait seen := fun p =>
      ⟨waits.1, onZone_holds s z _ (fun y v => v.waitsWith (seen y)) waits.2 (fun own => own)⟩
    have told : ∀ (w : State) k l c, w.zonesWait seen → (raise k l c w).zonesWait seen := fun w k l c held =>
      ⟨by simpa using held.1, fun y => by rw [raise_zone]; exact held.2 y⟩
    dsimp only
    split
    · exact placed _
    · split
      · exact placed _
      · exact told _ _ _ _ (placed _)

theorem zonesAtStation_waits (s : State) (seen) (waits : s.zonesWait seen) : s.zonesAtStation.zonesWait seen :=
  foldl_holds (P := fun w => w.zonesWait seen) _
    (fun w z sofar => retarget_waits _ z seen (retakePosition_waits _ z seen (testRoutes_waits w z seen sofar))) _ s waits

theorem zonesWait_of {s u : State} {seen} (waits : s.zonesWait seen) (mixer : u.mixer = s.mixer) (off : u.member.station ≠ .member) :
    u.zonesWait seen := ⟨off, fun z => by rw [State.zone, mixer]; exact waits.2 z⟩

/-- A station that goes from OFFLINE to LISTENING keeps the entries of its zones waiting (R100). -/
theorem goTo_listening_waits (s : State) (cause : Cause) (seen) (offline : s.member.station = .offline) (waits : s.zonesWait seen) :
    (s.goTo .listening cause).zonesWait seen := by
  have listens : ({ s with member.station := .listening, member.cause := some cause } : State).zonesWait seen :=
    ⟨(fun no => by cases no), waits.2⟩
  have entered : ∀ w : State, w.mixer = s.mixer → w.member.station = .listening → w.zonesAtStation.checkServed.zonesWait seen :=
    fun w mixer station => by
      have first := zonesAtStation_waits w seen (zonesWait_of listens mixer (by rw [station]; decide))
      exact zonesWait_of first (by simp) (by simpa using first.1)
  unfold State.goTo
  rw [offline]
  refine entered _ ?_ ?_
  · simp [StationState.takesPart, StationState.dropsTables, StationState.drives, State.enterStation]
  · simp [StationState.takesPart, StationState.dropsTables, StationState.drives, State.enterStation]

/-! ## Autonomous routes (R99, R117) -/

theorem placeRoute_last (e : RouteEntry) (l : List RouteEntry) (ranks : ∀ f, f ∈ l → f.rank ≤ e.rank) : placeRoute e l = l ++ [e] := by
  induction l with
  | nil => rfl
  | cons f l ih =>
    unfold placeRoute
    rw [if_neg (Nat.not_lt.mpr (ranks f List.mem_cons_self)), ih (fun g mem => ranks g (List.mem_cons_of_mem _ mem))]
    rfl

theorem rank_le (f : RouteEntry) (none : f.cls = none) (e : RouteEntry) (unknown : e.cls = .none) : f.rank ≤ e.rank := by
  have ranks : f.rank = e.rank := by rw [RouteEntry.rank, RouteEntry.rank, none, unknown]
  exact Nat.le_of_eq ranks

/-- What is seen of an autonomous route (R117). -/
def routeSeen (t : AutonomousRoute) : Nat × Nat × Option Nat × RouteState × Gain := (t.stream, t.level, none, .waiting, 0)

theorem waitsWith_place (v : Zone) (seen) (e : RouteEntry) (t : AutonomousRoute) (waits : v.waitsWith seen) (same : e.seen = routeSeen t) :
    ({ v with routes := placeRoute e v.routes } : Zone).waitsWith (seen ++ [routeSeen t]) := by
  obtain ⟨each, list⟩ := waits
  simp only [RouteEntry.seen, routeSeen, Prod.mk.injEq] at same
  obtain ⟨stream, level, cls, state, current⟩ := same
  have last := placeRoute_last e v.routes (fun f mem => rank_le f (each f mem).2.2 e cls)
  unfold Zone.waitsWith
  dsimp only
  rw [last]
  refine ⟨fun f mem => ?_, ?_⟩
  · obtain inList | own := List.mem_append.mp mem
    · exact each f inList
    · rw [List.mem_singleton.mp own]
      exact ⟨state, current, cls⟩
  · rw [List.map_append, list]
    simp [RouteEntry.seen, routeSeen, stream, level, cls, state, current]

/-- A route goes to the place of the zone that it names. -/
theorem installRoute_place (s : State) (zones : List ZoneDefinition) (t : AutonomousRoute) (z : Nat) (d : ZoneDefinition)
    (defined : zones[z]? = some d) (distinct : zones.Pairwise (fun d e => d.id ≠ e.id)) (seen) (inside : z < s.mixer.zones.length)
    (waits : (s.zone z).waitsWith seen) :
    ((s.installRoute zones t).zone z).waitsWith (seen ++ ([t].filter (fun v => v.zone == d.id)).map routeSeen) := by
  unfold State.installRoute
  by_cases own : t.zone = d.id
  · have found : zones.findIdx? (fun e => e.id == t.zone) = some z := by
      rw [List.findIdx?_eq_some_iff_getElem]
      obtain ⟨low, there⟩ := List.getElem?_eq_some_iff.mp defined
      refine ⟨low, by simp [there, own], fun j before => ?_⟩
      have apart := List.pairwise_iff_getElem.mp distinct j z (by omega) low before
      rw [there] at apart
      simpa [own] using apart
    rw [found, List.filter_cons_of_pos (by simp [own])]
    dsimp only
    rw [onZone_zone]
    · exact waitsWith_place _ seen _ t waits rfl
    · exact inside
  · rw [List.filter_cons_of_neg (by simp [own])]
    have stands : ((s.installRoute zones t).zone z).waitsWith seen := by
      unfold State.installRoute
      split
      · exact waits
      next y found =>
        obtain ⟨low, there, -⟩ := List.findIdx?_eq_some_iff_getElem.mp found
        have other : z ≠ y := fun same => by
          subst same
          rw [(List.getElem?_eq_some_iff.mp defined).2] at there
          exact own (eq_of_beq there).symm
        rw [onZone_other _ _ _ _ other]
        exact waits
    rw [List.filter_nil, List.map_nil, List.append_nil]
    exact stands

theorem installRoute_length (s : State) (zones : List ZoneDefinition) (t : AutonomousRoute) :
    (s.installRoute zones t).mixer.zones.length = s.mixer.zones.length := by
  unfold State.installRoute
  split
  · rfl
  · exact List.length_modify ..

theorem installRoutes_place (zones : List ZoneDefinition) (z : Nat) (d : ZoneDefinition) (defined : zones[z]? = some d)
    (distinct : zones.Pairwise (fun d e => d.id ≠ e.id)) : ∀ (l : List AutonomousRoute) (s : State) (seen), z < s.mixer.zones.length →
      (s.zone z).waitsWith seen → ((l.foldl (fun acc t => acc.installRoute zones t) s).zone z).waitsWith
        (seen ++ (l.filter (fun v => v.zone == d.id)).map routeSeen)
  | [], s, seen, _, waits => by
    rw [List.filter_nil, List.map_nil, List.append_nil]
    exact waits
  | t :: l, s, seen, inside, waits => by
    have first := installRoute_place s zones t z d defined distinct seen inside waits
    have rest := installRoutes_place zones z d defined distinct l (s.installRoute zones t) _
      (by rw [installRoute_length]; exact inside) first
    rw [List.append_assoc, ← List.map_append, ← List.filter_append] at rest
    exact rest

end Sys2Proof.Machine
end

section
/-! PROOFS. The content report, clip by clip (R96, R118, R122). -/

namespace Sys2Proof.Machine

set_option maxRecDepth 20000

/-- A clip that went to INVALID (R122). -/
def Clip.lost (c : Clip) : Clip := { c with state := .invalid, received := 0, written := 0 }

/-- The last word of a clip lies inside the CLIP space and every word in a bank of the report (R118, R122). -/
def Store.keepsClip (st : Store) (report : Nat → Bool) (c : Clip) : Prop :=
  c.offset + c.length - 1 < 256 * spaceRows st.regions .clip
    ∧ ∀ w b row k, c.offset ≤ w → w < c.offset + c.length → st.locate .clip w = some (b, row, k) → report b = true

theorem dropBuffer_clips (s : State) (i : Nat) : (s.dropBuffer i).announce.clips = s.announce.clips := by
  unfold State.dropBuffer
  split <;> rfl

theorem loseClip_clips (s : State) (i : Nat) (cause : Cause) :
    (s.loseClip i cause).announce.clips = s.announce.clips.modify i Clip.lost := by
  unfold State.loseClip
  dsimp only
  have clips : ∀ (w : State) p c, (w.endPlays p c).announce.clips = w.announce.clips := by simp
  rw [clips, raise_eq, ← dropBuffer_clips s i]
  rfl

theorem loseClip_clip_other (s : State) (i j : Nat) (cause : Cause) (other : j ≠ i) : (s.loseClip i cause).clip j = s.clip j := by
  unfold State.clip
  rw [loseClip_clips, getD_modify_ne _ _ _ _ _ other]

theorem loseClip_clip_own (s : State) (i : Nat) (cause : Cause) (used : s.clip i ≠ .none) :
    (s.loseClip i cause).clip i = (s.clip i).lost := by
  have inside : i < s.announce.clips.length := by
    refine Classical.byContradiction fun beyond => ?_
    exact used (getD_beyond _ _ (Nat.le_of_not_lt beyond))
  unfold State.clip
  rw [loseClip_clips, getD_modify_eq _ _ _ _ inside]

/-- One pass of the report loses the clips that it is held against, each on its own. -/
theorem losePass_clip (against : Store → Clip → Bool) (cause : Cause) (s : State) (spares : against s.store .none = false) (j : Nat) :
    ∀ n, (forEach n (fun i acc => if against acc.store (acc.clip i) then acc.loseClip i cause else acc) s).clip j
        = (if j < n ∧ against s.store (s.clip j) = true then (s.clip j).lost else s.clip j)
      ∧ (forEach n (fun i acc => if against acc.store (acc.clip i) then acc.loseClip i cause else acc) s).store = s.store
  | 0 => ⟨(if_neg (fun no => absurd no.1 (Nat.not_lt_zero j))).symm, rfl⟩
  | n + 1 => by
    obtain ⟨before, store⟩ := losePass_clip against cause s spares j n
    unfold forEach at before store ⊢
    rw [List.range_succ, List.foldl_append]
    generalize (List.range n).foldl _ s = w at before store ⊢
    show (if against w.store (w.clip n) = true then w.loseClip n cause else w).clip j = _
      ∧ (if against w.store (w.clip n) = true then w.loseClip n cause else w).store = _
    rw [store]
    by_cases own : j = n
    · subst own
      rw [if_neg (fun no => absurd no.1 (Nat.lt_irrefl j))] at before
      rw [before]
      by_cases held : against s.store (s.clip j) = true
      · have used : w.clip j ≠ .none := fun no => by
          rw [← before, no, spares] at held
          cases held
        rw [if_pos held, if_pos ⟨Nat.lt_succ_self j, held⟩, loseClip_clip_own w j cause used, before]
        exact ⟨rfl, by simpa using store⟩
      · rw [if_neg held, if_neg (fun no => held no.2)]
        exact ⟨before, store⟩
    · have same : (if against s.store (w.clip n) = true then w.loseClip n cause else w).clip j = w.clip j := by
        split
        · exact loseClip_clip_other w n j cause own
        · rfl
      rw [same, before]
      have bound : j < n ↔ j < n + 1 := ⟨Nat.lt_succ_of_lt, fun low => Nat.lt_of_le_of_ne (Nat.le_of_lt_succ low) own⟩
      refine ⟨by simp only [bound], ?_⟩
      split
      · simpa using store
      · exact store

theorem spaceOf_eq (st : Store) (c : Client) : st.spaceOf c = 256 * spaceRows st.regions c := by
  rw [← rowsOfPlan_eq, Nat.mul_comm]
  rfl

theorem locate_inside (st : Store) (c : Client) (w : Nat) (inside : w < st.spaceOf c) :
    st.locate c w = (placeRow (st.regionsOf c) (w / 256)).map (fun place => (place.1, place.2, w % 256)) := by
  unfold Store.locate
  dsimp only
  rw [if_neg (by omega), Nat.mod_eq_of_lt inside]

/-- A clip inside its space lies in the banks that its words lie in (R118). -/
theorem banksOfClip_iff (st : Store) (c : Clip) (some : 1 ≤ c.length) (inside : c.offset + c.length - 1 < st.spaceOf .clip) (b : Nat) :
    b ∈ st.banksOfClip c ↔ ∃ w row k, c.offset ≤ w ∧ w < c.offset + c.length ∧ st.locate .clip w = .some (b, row, k) := by
  unfold Store.banksOfClip
  rw [List.mem_filterMap]
  constructor
  · rintro ⟨k, inRange, placed⟩
    rw [List.mem_range] at inRange
    obtain ⟨⟨bank, row⟩, place, rfl⟩ := Option.map_eq_some_iff.mp placed
    have rowOf : max c.offset (256 * (c.offset / 256 + k)) / 256 = c.offset / 256 + k := by omega
    refine ⟨max c.offset (256 * (c.offset / 256 + k)), row, max c.offset (256 * (c.offset / 256 + k)) % 256, by omega, by omega, ?_⟩
    rw [locate_inside _ _ _ (by omega), rowOf, place]
    rfl
  · rintro ⟨w, row, k, low, high, located⟩
    rw [locate_inside _ _ _ (by omega)] at located
    obtain ⟨⟨bank, bankRow⟩, place, same⟩ := Option.map_eq_some_iff.mp located
    simp only [Prod.mk.injEq] at same
    obtain ⟨rfl, rfl, -⟩ := same
    refine ⟨w / 256 - c.offset / 256, List.mem_range.mpr (by omega), ?_⟩
    rw [show c.offset / 256 + (w / 256 - c.offset / 256) = w / 256 by omega, place]
    rfl

theorem keepsClip_iff (st : Store) (report : Nat → Bool) (c : Clip) (some : 1 ≤ c.length) :
    st.keepsClip report c ↔ st.beyondSpace c = false ∧ (st.banksOfClip c).any (fun b => !report b) = false := by
  unfold Store.keepsClip Store.beyondSpace
  rw [← spaceOf_eq, decide_eq_false_iff_not, Nat.not_le]
  refine and_congr_right fun inside => ?_
  rw [List.any_eq_false]
  simp only [banksOfClip_iff st c some inside, Bool.not_eq_true, Bool.not_eq_false']
  exact ⟨fun each b ⟨w, row, k, low, high, located⟩ => each w b row k low high located,
    fun each w b row k low high located => each b ⟨w, row, k, low, high, located⟩⟩

/-- What the report of retained banks makes of each clip (R122). -/
theorem contentReport_clip (s : State) (report : Nat → Bool) (i : Nat) (low : i < 32) :
    ((s.clip i).state = .loading → (s.contentReport report).clip i = .none)
      ∧ ((s.clip i).state = .ready ∨ (s.clip i).state = .locked → 1 ≤ (s.clip i).length →
          (s.store.keepsClip report (s.clip i) → (s.contentReport report).clip i = s.clip i)
            ∧ (¬s.store.keepsClip report (s.clip i) → (s.contentReport report).clip i = (s.clip i).lost))
      ∧ ((s.clip i).state = .invalid → ((s.contentReport report).clip i).state = .invalid)
      ∧ ((s.clip i).state = .empty → (s.contentReport report).clip i = s.clip i) := by
  obtain ⟨fitted, store⟩ := losePass_clip (fun st c => c.state.heldAgainstSpace && st.beyondSpace c) .notRetained s.emptyLoads rfl i 32
  obtain ⟨reported, -⟩ := losePass_clip (fun st c => c.state.playable && (st.banksOfClip c).any (fun b => !report b)) .notRetained
    (forEach 32 (fun i acc => if (acc.clip i).state.heldAgainstSpace && acc.store.beyondSpace (acc.clip i) then
      acc.loseClip i .notRetained else acc) s.emptyLoads) rfl i 32
  rw [fitted, store] at reported
  have storeSame : s.emptyLoads.store = s.store := rfl
  rw [storeSame, emptyLoads_clip] at reported
  have result : (s.contentReport report).clip i = _ := reported
  clear fitted store reported
  rw [result]
  clear result storeSame
  generalize s.clip i = c
  have lostState : c.lost.state = .invalid := rfl
  refine ⟨fun loading => ?_, fun usable some => ?_, fun invalid => ?_, fun empty => ?_⟩
  · simp [loading, Clip.none, ClipState.heldAgainstSpace, ClipState.playable]
  · rw [keepsClip_iff _ _ _ some]
    have playable : c.state.playable = true ∧ c.state ≠ .loading := by
      obtain ready | locked := usable
      · simp [ready, ClipState.playable]
      · simp [locked, ClipState.playable]
    obtain ⟨playable, settled⟩ := playable
    simp only [low, if_neg settled, ClipState.heldAgainstSpace, playable, true_and, Bool.true_or, Bool.true_and]
    cases beyond : s.store.beyondSpace c
    · cases outside : (s.store.banksOfClip c).any (fun b => !report b) <;> simp [playable, outside]
    · simp [lostState, show ClipState.invalid.playable = false from rfl]
  · have kept : ClipState.invalid.playable = false := rfl
    cases beyond : s.store.beyondSpace c <;> simp [beyond, invalid, lostState, ClipState.heldAgainstSpace, kept, low]
  · simp [empty, ClipState.heldAgainstSpace, ClipState.playable]

end Sys2Proof.Machine
end

section
/-! PROOFS. The start-up record is judged (R181). -/

namespace Sys2Proof.Machine

set_option maxRecDepth 20000

/-! ## A valid record (R98, R117, R122, R137) -/

/-- A valid record kept, with its regions and retained banks (R181). -/
def State.recordPlaced (s : State) (r : StartUpRecord) : State :=
  { s with startUp.record := some r, startUp.reading := false, store.regions := r.regions, store.retained := r.retained }

/-- A valid record after the content report (R122). -/
def State.recordReported (s : State) (r : StartUpRecord) : State := (s.recordPlaced r).contentReport s.store.retains

/-- A valid record with its autonomous routes installed (R117). -/
def State.recordRouted (s : State) (r : StartUpRecord) : State :=
  r.routes.foldl (fun acc t => acc.installRoute r.zones t) (s.recordReported r)

theorem setUp_recordRouted (s : State) (r : StartUpRecord) : s.setUp r = (s.recordRouted r).autostart := rfl

theorem setUp_clip (s : State) (r : StartUpRecord) (i : Nat) : (s.setUp r).clip i = (s.recordReported r).clip i := by
  rw [setUp_recordRouted]
  simp [State.clip, State.recordRouted]

theorem setUp_zone (s : State) (r : StartUpRecord) (z : Nat) : (s.setUp r).zone z = (s.recordRouted r).zone z := by
  rw [setUp_recordRouted]
  simp [State.zone]

theorem autostart_blend (s : State) (r : StartUpRecord) (record : s.startUp.record = some r) (idle : s.blend.state = .idle) :
    let fits := r.nominalDelay + 2368 ≤ 128 * spaceRows s.store.regions .blend
    (r.autostart = true → fits → s.autostart.blend.state = .filling ∧ s.autostart.blend.fill = 0 ∧ s.autostart.blend.attempts = 0)
      ∧ (r.autostart = false ∨ ¬fits → s.autostart.blend = s.blend) := by
  intro fits
  have fitsIff : s.blendFits = true ↔ fits := by
    have rows : s.store.rowsOf .blend = spaceRows s.store.regions .blend := rowsOfPlan_eq _ _
    have delay : s.nominalDelay = r.nominalDelay := by
      unfold State.nominalDelay
      rw [record]
    rw [blendFits_iff, rows, delay, Nat.mul_comm]
    exact ⟨fun both => both.2, fun long => ⟨Nat.lt_of_lt_of_le (by omega) long, long⟩⟩
  unfold State.autostart
  rw [record, idle]
  dsimp only
  constructor
  · intro starts long
    rw [if_pos (by simp [starts])]
    unfold State.enableFromIdle
    rw [if_pos (fitsIff.mpr long)]
    dsimp only
    rw [goBlend_eq]
    exact ⟨rfl, rfl, rfl⟩
  · rintro (off | short)
    · rw [if_neg (by simp [off])]
    · split
      · unfold State.enableFromIdle
        rw [if_neg (fun no => short (fitsIff.mp no))]
      · rfl

theorem setUp_blend (s : State) (r : StartUpRecord) (idle : s.blend.state = .idle) :
    let fits := r.nominalDelay + 2368 ≤ 128 * spaceRows r.regions .blend
    (r.autostart = true → fits → (s.setUp r).blend.state = .filling ∧ (s.setUp r).blend.fill = 0 ∧ (s.setUp r).blend.attempts = 0)
      ∧ (r.autostart = false ∨ ¬fits → (s.setUp r).blend = s.blend) := by
  have blend : (s.recordRouted r).blend = s.blend := by simp [State.recordRouted, State.recordReported, State.recordPlaced]
  have record : (s.recordRouted r).startUp.record = some r := by simp [State.recordRouted, State.recordReported, State.recordPlaced]
  have regions : (s.recordRouted r).store.regions = r.regions := by simp [State.recordRouted, State.recordReported, State.recordPlaced]
  have starts := autostart_blend (s.recordRouted r) r record (by rw [blend]; exact idle)
  rw [regions, blend, ← setUp_recordRouted] at starts
  exact starts

/-! ## The zones of a valid record (R98, R117) -/

theorem installRoute_waits (s : State) (zones : List ZoneDefinition) (t : AutonomousRoute)
    (waits : ∀ z, ∃ seen, (s.zone z).waitsWith seen) (z : Nat) : ∃ seen, ((s.installRoute zones t).zone z).waitsWith seen := by
  unfold State.installRoute
  split
  · exact waits z
  · refine onZone_holds _ _ _ (fun _ v => ∃ seen, v.waitsWith seen) waits ?_ z
    rintro ⟨seen, own⟩
    exact ⟨_, waitsWith_place _ seen _ t own rfl⟩

theorem recordRouted_waits (s : State) (r : StartUpRecord) (bare : ∀ z, (s.zone z).routes = []) (z : Nat) :
    ∃ seen, ((s.recordRouted r).zone z).waitsWith seen := by
  have empty : ∀ z, ∃ seen, ((s.recordReported r).zone z).waitsWith seen := fun z => by
    have same : (s.recordReported r).zone z = s.zone z := by simp [State.zone, State.recordReported, State.recordPlaced]
    rw [same]
    exact ⟨[], by simp [bare z], by simp [bare z]⟩
  exact foldl_holds (P := fun w => ∀ z, ∃ seen, (w.zone z).waitsWith seen) _
    (fun w t sofar => installRoute_waits w r.zones t sofar) _ _ empty z

/-- The zones of a station that a valid record takes from OFFLINE to LISTENING (R117). -/
theorem recordZones (s : State) (r : StartUpRecord) (offline : s.member.station = .offline) (bare : ∀ z, (s.zone z).routes = [])
    (four : s.mixer.zones.length = 4) (fits : recordFits r) (z : Nat) (d : ZoneDefinition) (defined : r.zones[z]? = some d) :
    (((s.setUp r).goTo .listening .startUp).zone z).routes.map RouteEntry.seen
      = (r.routes.filter (fun v => v.zone == d.id)).map routeSeen := by
  obtain ⟨-, fewZones, -, -, -, -, -, -, ⟨-, distinct, -⟩, -⟩ := fits
  obtain ⟨low, -⟩ := List.getElem?_eq_some_iff.mp defined
  have reportedZone : (s.recordReported r).zone z = s.zone z := by simp [State.zone, State.recordReported, State.recordPlaced]
  have bareWaits : ((s.recordReported r).zone z).waitsWith [] := by
    rw [reportedZone]
    exact ⟨by simp [bare z], by simp [bare z]⟩
  have inside : z < (s.recordReported r).mixer.zones.length := by
    have same : (s.recordReported r).mixer = s.mixer := by simp [State.recordReported, State.recordPlaced]
    rw [same, four]
    omega
  have placed := installRoutes_place r.zones z d defined distinct r.routes (s.recordReported r) [] inside bareWaits
  have mixer : (s.setUp r).mixer = (s.recordRouted r).mixer := by
    rw [setUp_recordRouted]
    simp
  have each : ∀ y, ((s.recordRouted r).zone y).waitsWith (((s.recordRouted r).zone y).routes.map RouteEntry.seen) := fun y => by
    obtain ⟨seen, waits⟩ := recordRouted_waits s r bare y
    exact ⟨waits.1, rfl⟩
  have stationUp : (s.setUp r).member.station = .offline := by simpa using offline
  have waits : (s.setUp r).zonesWait (fun y => ((s.recordRouted r).zone y).routes.map RouteEntry.seen) :=
    ⟨(by rw [stationUp]; decide), fun y => by rw [setUp_zone]; exact each y⟩
  have listens := goTo_listening_waits (s.setUp r) .startUp _ stationUp waits
  exact (listens.2 z).2.trans placed.2

/-- What a valid record makes of each clip (R122). -/
theorem recordClips (s : State) (r : StartUpRecord) (i : Nat) (low : i < 32) :
    let u := (s.setUp r).goTo .listening .startUp
    let c := s.clip i
    let kept := c.offset + c.length - 1 < 256 * spaceRows r.regions .clip
      ∧ ∀ w b row k, c.offset ≤ w → w < c.offset + c.length → u.store.locate .clip w = some (b, row, k) →
        s.store.retained.getLsbD b = true
    (c.state = .loading → u.clip i = .none)
      ∧ (c.state = .ready ∨ c.state = .locked → 1 ≤ c.length →
          (kept → u.clip i = c) ∧ (¬kept → u.clip i = { c with state := .invalid, received := 0, written := 0 }))
      ∧ (c.state = .invalid → (u.clip i).state = .invalid)
      ∧ (c.state = .empty → u.clip i = c) := by
  intro u c kept
  have clip : u.clip i = (s.recordReported r).clip i := by
    have announce : u.announce = (s.setUp r).announce := by simp [u]
    rw [← setUp_clip, State.clip, announce]
    rfl
  have located : ∀ w, u.store.locate .clip w = (s.recordPlaced r).store.locate .clip w := fun w => by
    have regions : u.store.regions = r.regions := by simpa [u] using (setUp_facts s r).2.2.1
    unfold Store.locate Store.spaceOf Store.rowsOf Store.regionsOf
    rw [regions]
    rfl
  have keptIff : kept ↔ (s.recordPlaced r).store.keepsClip s.store.retains c := by
    simp only [kept, located]
    rfl
  rw [keptIff, clip]
  exact contentReport_clip (s.recordPlaced r) s.store.retains i low

theorem judgedRecord_fits {read : RecordRead} {r : StartUpRecord} (judged : judgeRecord read = some r) : recordFits r := by
  cases read with
  | noAcknowledge => cases judged
  | read head following check length fields =>
    exact ((judgeRecord_iff head following check length fields r).mp judged).2.2.2

/-- An invalid record, before its events (R181). -/
def State.recordFailed (s : State) : State :=
  { s with startUp.reading := false, startUp.record := none, store.regions := [], store.retained := 0,
           member.cause := some .configInvalid }

/-- Events are taken while OFFLINE (R180). -/
theorem raise_events_offline (k : EventKind) (subject : List Nat) (cause : Option Cause) (s : State)
    (offline : s.member.station = .offline) : (raise k subject cause s).host.events
      = addEvent { kind := k, subject := subject, cause := cause, stamp := s.tables.frameCount.setWidth 16 } s.host.events := by
  have told : s.hasHost = true := by
    unfold State.hasHost
    rw [offline]
    rfl
  rw [raise_eq]
  exact congrArg HostPort.events (if_pos told)

theorem recordFailed_events (s : State) (offline : s.member.station = .offline) :
    let event (k : EventKind) (subject : List Nat) : EventRecord :=
      { kind := k, subject := subject, cause := some .configInvalid, stamp := s.tables.frameCount.setWidth 16 }
    (raise .stationChanged [stationCode .offline] (some .configInvalid)
        (raise .startUpFailed [] (some .configInvalid) s.recordFailed)).host.events
      = addEvent (event .stationChanged [stationCode .offline]) (addEvent (event .startUpFailed []) s.host.events) := by
  have first := raise_events_offline .startUpFailed [] (some .configInvalid) s.recordFailed offline
  have second := raise_events_offline .stationChanged [stationCode .offline] (some .configInvalid)
    (raise .startUpFailed [] (some .configInvalid) s.recordFailed) (by simpa [State.recordFailed] using offline)
  rw [first] at second
  simpa [State.recordFailed] using second

/-- Settles O9: the judgement by the fields of Table 11-7, and each block that a record sets up. -/
theorem startUpRecordIsJudged : Obligations.StartUpRecordIsJudged := by
  refine ⟨rfl, judgeRecord_iff, ?_⟩
  intro read s released t
  have acts := exec_outside (.startUpRecordRead read) s (fun u => u.recordRead read) rfl released
  have settled : s.settle = t := rfl
  rw [settled] at acts
  clear_value t
  clear settled released
  refine ⟨fun idle => ?_, fun reading offline => ⟨t.recordRead read, acts, ?_⟩⟩
  · rw [acts, State.recordRead, if_neg (by rw [idle]; decide)]
  · unfold State.recordRead
    rw [if_pos reading]
    cases judged : judgeRecord read with
    | none =>
      dsimp only
      refine ⟨?_, ?_, ?_, ?_, ?_, fun _ => ?_, (fun r no => by cases no)⟩
      · simp
      · simp
      · simp
      · simp
      · simp
      · refine ⟨?_, ?_, ?_, ?_, ?_, ?_, ?_, ?_, recordFailed_events t offline⟩
        · simpa using offline
        all_goals simp
    | some r =>
      have fits : recordFits r := judgedRecord_fits judged
      dsimp only
      obtain ⟨record, stopped, regions, retained⟩ := setUp_facts t r
      refine ⟨by simpa using stopped, by simpa using record, by simp, by simp, by simp, (fun no => by cases no), ?_⟩
      rintro r ⟨⟩
      have definitions : ((t.setUp r).goTo .listening .startUp).definitions = r.zones := by
        unfold State.definitions State.inForce
        rw [if_neg (by rw [(goTo_station _ _ _).1]; decide)]
        have kept : ((t.setUp r).goTo .listening .startUp).startUp.record = some r := by simpa using record
        rw [kept]
      have tables : ((t.setUp r).goTo .listening .startUp).tables = (t.setUp r).tables.cleared := by
        rw [goTo_tables]
        rfl
      refine ⟨(goTo_station _ _ _).1, (goTo_station _ _ _).2, by simpa using regions, by simpa using retained, definitions,
        fun n => ?_, fun x => ?_, fun bare four z d defined => recordZones t r offline bare four fits z d defined,
        fun i low => ?_, fun idle => ?_⟩
      · rw [tables]
        exact cleared_station _ n
      · rw [tables]
        exact cleared_entry _ x
      · exact recordClips t r i low
      · have blend : ((t.setUp r).goTo .listening .startUp).blend = (t.setUp r).blend := by simp
        rw [blend]
        exact setUp_blend t r idle

end Sys2Proof.Machine
end

section
/-! PROOFS. The arbiter's four stages, and what each leaves of a bank (R86 to R91). -/

namespace Sys2Proof.Machine

set_option maxRecDepth 20000

/-! ## The stages -/

/-- The queues whose heads go before ordinary refreshes (R86). -/
def earlyQueues : List QueueId := [.echo, .align, .blend, .playback]

/-- The arbitration after the urgent refreshes. -/
def Store.afterUrgent (st : Store) : Arbitration :=
  (st.byDebt Bank.urgent).foldl (fun a b => claim b (fun st => st.urgentStep b) a) (st, [])

/-- The arbitration after the ECHO, ALIGN, BLEND and CLIP playback heads. -/
def Store.afterHeads (st : Store) : Arbitration := earlyQueues.foldl (fun a q => claimHead q a) st.afterUrgent

/-- The arbitration after the ordinary refreshes. -/
def Store.afterOrdinary (st : Store) : Arbitration :=
  (st.afterHeads.1.byDebt Bank.owesOrdinary).foldl (fun a b => claim b (fun st => st.ordinaryStep b) a) st.afterHeads

/-- The arbitration after the CLIP loading head. -/
def Store.afterLoading (st : Store) : Arbitration := claimHead .loading st.afterOrdinary

theorem arbitrate_stages (st : Store) (on : st.retention = false) : st.arbitrate = st.afterLoading.1 :=
  if_neg (by rw [on]; decide)

/-- The openings that urgent refreshes and the early heads take at most. -/
def Store.earlySpent (st : Store) : Nat := st.idleBanks (fun c => decide (8 ≤ (st.bank c).debt)) + st.opens earlyQueues

/-- The order of refreshes goes by the debts alone (R87). -/
theorem insertByDebt_congr (st u : Store) (debts : ∀ c, (u.bank c).debt = (st.bank c).debt) (b : Nat) :
    ∀ l, u.insertByDebt b l = st.insertByDebt b l
  | [] => rfl
  | c :: l => by
    unfold Store.insertByDebt
    rw [debts, debts, insertByDebt_congr st u debts b l]

theorem byDebt_congr (st u : Store) (p : Bank → Bool) (debts : ∀ c, (u.bank c).debt = (st.bank c).debt)
    (same : ∀ c, p (u.bank c) = p (st.bank c)) : u.byDebt p = st.byDebt p := by
  unfold Store.byDebt
  simp only [same, insertByDebt_congr st u debts]

theorem urgent_iff (st : Store) (b : Nat) : b ∈ st.byDebt Bank.urgent ↔ b < 8 ∧ 8 ≤ (st.bank b).debt := by
  rw [(byDebt_facts st Bank.urgent).1]
  simp [Bank.urgent]

theorem owes_iff (st : Store) (b : Nat) : b ∈ st.byDebt Bank.owesOrdinary ↔ b < 8 ∧ 1 ≤ (st.bank b).debt ∧ (st.bank b).debt < 8 := by
  rw [(byDebt_facts st Bank.owesOrdinary).1]
  simp [Bank.owesOrdinary]

/-- What the urgent refreshes leave (R91). -/
structure UrgentStage (st : Store) : Prop where
  prog : Prog st st.afterUrgent (st.idleBanks (fun c => decide (8 ≤ (st.bank c).debt))) (fun _ => True)
  budget : st.afterUrgent.1.budget = st.budget - st.idleBanks (fun c => decide (8 ≤ (st.bank c).debt))
  allowance : st.afterUrgent.1.allowance = st.allowance
  others : ∀ c, (st.bank c).debt < 8 → st.afterUrgent.1.bank c = st.bank c ∧ c ∉ st.afterUrgent.2
  outcome : ∀ b, b < 8 → 8 ≤ (st.bank b).debt → st.afterUrgent.1.bank b = urgentOutcome (st.bank b)
    (st.idleBanks (fun c => decide (8 ≤ (st.bank c).debt) && st.refreshedBefore c b) < st.budget)

theorem urgentStage (st : Store) (eight : st.banks.length = 8) : UrgentStage st := by
  have fold := urgentFold st (st.byDebt Bank.urgent) (st, []) 0 (Prog.start st) (byDebt_nodup st _)
    (fun b mem => ⟨by simp, by rw [eight]; exact ((urgent_iff st b).mp mem).1⟩)
  have idle := idleIn_byDebt st Bank.urgent
  rw [idle, Nat.zero_add] at fold
  obtain ⟨prog, budget, allowance, others, taken, outcome⟩ := fold
  refine ⟨prog, budget, allowance, fun c low => ?_, fun b inside high => ?_⟩
  · have absent : c ∉ st.byDebt Bank.urgent := fun mem => absurd ((urgent_iff st c).mp mem).2 (Nat.not_le.mpr low)
    exact ⟨others c absent, fun mem => (taken c mem).elim (fun no => by simp at no) absent⟩
  · obtain ⟨l1, l2, split, ahead⟩ := idleIn_ahead st Bank.urgent b inside (by simpa [Bank.urgent] using high)
    have own := outcome l1 b l2 split
    rw [ahead] at own
    exact own

theorem headsStage (st : Store) (eight : st.banks.length = 8) :
    HeadClaims st st.afterUrgent st.afterHeads (st.idleBanks (fun c => decide (8 ≤ (st.bank c).debt))) (fun _ => True) earlyQueues :=
  headClaims st earlyQueues st.afterUrgent _ _ (urgentStage st eight).prog (by decide) (fun _ _ => trivial)

theorem ordinaryStage (st : Store) (eight : st.banks.length = 8) :
    Ordinary st st.afterHeads st.afterOrdinary st.earlySpent (fun p => True ∧ p ∉ earlyQueues) (st.byDebt Bank.owesOrdinary) := by
  have prog := (headsStage st eight).prog
  have same : st.afterHeads.1.byDebt Bank.owesOrdinary = st.byDebt Bank.owesOrdinary :=
    byDebt_congr st st.afterHeads.1 _ prog.debt (fun c => by simp only [Bank.owesOrdinary, prog.debt])
  have fold := ordinaryFold st _ (st.byDebt Bank.owesOrdinary) st.afterHeads _ prog (byDebt_nodup st _)
  rw [← same] at fold ⊢
  exact fold

theorem loadingStage (st : Store) (eight : st.banks.length = 8) :
    HeadClaim st st.afterOrdinary st.afterLoading (st.earlySpent + st.idleIn (st.byDebt Bank.owesOrdinary))
      (fun p => True ∧ p ∉ earlyQueues) .loading :=
  headClaim st st.afterOrdinary _ _ (ordinaryStage st eight).prog .loading ⟨trivial, by decide⟩

theorem idleIn_owes (st : Store) : st.idleIn (st.byDebt Bank.owesOrdinary)
    = st.idleBanks (fun c => decide (1 ≤ (st.bank c).debt ∧ (st.bank c).debt < 8)) := idleIn_byDebt st Bank.owesOrdinary

/-- The queues ahead of a queue among the early ones. -/
theorem earlyQueues_split (q : QueueId) (early : q ≠ .loading) :
    ∃ l2, earlyQueues = allQueues.filter (fun p => decide (p.place < q.place)) ++ q :: l2 := by
  cases q with
  | loading => exact absurd rfl early
  | echo => exact ⟨[.align, .blend, .playback], rfl⟩
  | align => exact ⟨[.blend, .playback], rfl⟩
  | blend => exact ⟨[.playback], rfl⟩
  | playback => exact ⟨[], rfl⟩

theorem ahead_iff (p q : QueueId) : p ∈ allQueues.filter (fun p => decide (p.place < q.place)) ↔ p.place < q.place := by
  rw [List.mem_filter, decide_eq_true_iff]
  exact and_iff_right (by cases p <;> decide)

theorem early_iff (p : QueueId) : p ∈ earlyQueues ↔ p.place < QueueId.loading.place := ahead_iff p .loading

theorem notLoading_early (p : QueueId) (early : p ∈ earlyQueues) : p ≠ .loading := fun same => by
  subst same
  exact absurd early (by decide)

/-! ## What a stage leaves as it is -/

/-- A bank with an urgent refresh has no further step (R91). -/
theorem afterLoading_urgent (st : Store) (eight : st.banks.length = 8) (b : Nat) (urgent : 8 ≤ (st.bank b).debt) :
    st.afterLoading.1.bank b = st.afterUrgent.1.bank b := by
  have absent : b ∉ st.byDebt Bank.owesOrdinary := fun mem => absurd ((owes_iff st b).mp mem).2.2 (Nat.not_lt.mpr urgent)
  calc st.afterLoading.1.bank b = st.afterOrdinary.1.bank b := (loadingStage st eight).urgent b urgent
    _ = st.afterHeads.1.bank b := ((ordinaryStage st eight).others b (.inl absent)).1
    _ = st.afterUrgent.1.bank b := (headsStage st eight).urgent b urgent

/-- A bank that has had its step among the early heads keeps it. -/
theorem afterLoading_stepped (st : Store) (eight : st.banks.length = 8) (b : Nat) (taken : b ∈ st.afterHeads.2) :
    st.afterLoading.1.bank b = st.afterHeads.1.bank b := by
  obtain ⟨ordinary, still⟩ := (ordinaryStage st eight).done b taken
  exact ((loadingStage st eight).done b still).1.trans ordinary

theorem afterHeads_changed (st : Store) (eight : st.banks.length = 8) (b : Nat) (changed : st.afterHeads.1.bank b ≠ st.bank b) :
    b ∈ st.afterHeads.2 := by
  refine Classical.byContradiction fun absent => ?_
  exact changed ((headsStage st eight).prog.fresh b absent)

/-- A bank that no early head claims and whose refresh is not urgent comes unchanged to the ordinary refreshes. -/
theorem afterHeads_unclaimed (st : Store) (eight : st.banks.length = 8) (b : Nat) (low : (st.bank b).debt < 8)
    (free : ∀ p, p ∈ earlyQueues → ∀ row, ¬st.claims p b row) : st.afterHeads.1.bank b = st.bank b ∧ b ∉ st.afterHeads.2 := by
  obtain ⟨same, absent⟩ := (urgentStage st eight).others b low
  obtain ⟨kept, taken⟩ := (headsStage st eight).others b free
  exact ⟨kept.trans same, fun mem => absent (taken mem)⟩

/-- A bank with an open row comes unchanged through the ordinary refreshes (R90). -/
theorem afterOrdinary_fresh (st : Store) (eight : st.banks.length = 8) (b : Nat) (absent : b ∉ st.afterHeads.2)
    (busy : b ∉ st.byDebt Bank.owesOrdinary ∨ (st.bank b).state ≠ .idle) : b ∉ st.afterOrdinary.2 := fun mem =>
  absent (((ordinaryStage st eight).others b busy).2 mem)

/-- The budget that the loading head finds (R90). -/
theorem loading_budget (st : Store) (eight : st.banks.length = 8)
    (left : st.earlySpent + min st.allowance (st.idleIn (st.byDebt Bank.owesOrdinary)) < st.budget) :
    0 < st.afterOrdinary.1.budget := by
  have spent := (headsStage st eight).prog.budget
  obtain ⟨cost, -, -⟩ := (ordinaryStage st eight).cost
  rw [(headsStage st eight).allowance, (urgentStage st eight).allowance] at cost
  unfold Store.earlySpent at left
  omega

end Sys2Proof.Machine
end

section
/-! PROOFS. What the arbiter makes of each bank (R86 to R91). -/

namespace Sys2Proof.Machine

set_option maxRecDepth 20000

/-! ## Urgent refreshes (R91) -/

theorem urgentOutcome_burst (k : Bank) (left : Prop) [Decidable left] : (urgentOutcome k left).burst = k.burst := by
  unfold urgentOutcome
  repeat' split
  all_goals rfl

theorem arbitrate_urgent (st : Store) (on : st.retention = false) (eight : st.banks.length = 8) (b : Nat) (inside : b < 8)
    (urgent : 8 ≤ (st.bank b).debt) :
    let ahead := st.idleBanks (fun c => decide (8 ≤ (st.bank c).debt) && st.refreshedBefore c b)
    (st.arbitrate.bank b).burst = (st.bank b).burst
      ∧ (∀ r, (st.bank b).state = .open r → (st.bank b).burst = none → (st.arbitrate.bank b).state = .closing)
      ∧ ((st.bank b).state = .idle → ahead < st.budget → (st.arbitrate.bank b).state = .refreshing)
      ∧ ((st.bank b).state = .idle → st.budget ≤ ahead → (st.arbitrate.bank b).state = .idle) := by
  intro ahead
  have becomes : st.arbitrate.bank b = urgentOutcome (st.bank b) (ahead < st.budget) := by
    rw [arbitrate_stages st on, afterLoading_urgent st eight b urgent]
    exact (urgentStage st eight).outcome b inside urgent
  rw [becomes]
  refine ⟨urgentOutcome_burst _ _, fun r opened rest => ?_, fun idle left => ?_, fun idle spent => ?_⟩
  · unfold urgentOutcome
    rw [if_neg (by rw [opened]; exact fun no => by cases no), if_pos ((atRest_iff _).mpr ⟨⟨r, opened⟩, rest⟩)]
  · unfold urgentOutcome
    rw [if_pos idle, if_pos left]
  · unfold urgentOutcome
    rw [if_pos idle, if_neg (Nat.not_lt.mpr spent)]
    exact idle

/-! ## Heads (R86, R88) -/

theorem headOutcome_closes (k : Bank) (q : QueueId) (row r : Nat) (opened : k.state = .open r) (other : r ≠ row) (rest : k.burst = none) :
    headOutcome k q row True = { k with state := .closing } := by
  unfold headOutcome
  rw [if_neg (by rw [opened]; exact fun no => by cases no), if_pos ((atRest_iff _).mpr ⟨⟨r, opened⟩, rest⟩),
    if_neg (by rw [opened]; exact fun no => other (BankState.open.inj no)), if_pos trivial]

theorem headOutcome_opens (k : Bank) (q : QueueId) (row : Nat) (idle : k.state = .idle) :
    headOutcome k q row True = { k with state := .opening row } := by
  unfold headOutcome
  rw [if_pos idle, if_pos trivial]

theorem closing_moves (k : Bank) (r : Nat) (opened : k.state = .open r) : ({ k with state := .closing } : Bank) ≠ k := fun same => by
  have no : BankState.closing = k.state := congrArg Bank.state same
  rw [opened] at no
  cases no

theorem opening_moves (k : Bank) (row : Nat) (idle : k.state = .idle) : ({ k with state := .opening row } : Bank) ≠ k := fun same => by
  have no : BankState.opening row = k.state := congrArg Bank.state same
  rw [idle] at no
  cases no

theorem burst_moves (k : Bank) (q : QueueId) (rest : k.burst = none) : ({ k with burst := some q } : Bank) ≠ k := fun same => by
  have no : some q = k.burst := congrArg Bank.burst same
  rw [rest] at no
  cases no

/-- What a head comes to on its bank: its next step where the openings of the more urgent claimants leave one for it. -/
structure HeadActs (st : Store) (q : QueueId) (b row refreshes : Nat) : Prop where
  bursts : (st.bank b).state = .open row → (st.bank b).burst = none → st.arbitrate.bank b = { st.bank b with burst := some q }
  moves : st.idleBanks (fun c => decide (8 ≤ (st.bank c).debt)) + st.openingsOf q.place + refreshes < st.budget →
    headOutcome (st.bank b) q row True ≠ st.bank b → ((st.bank b).state = .idle → q = .loading → (st.bank b).debt = 0) →
    st.arbitrate.bank b = headOutcome (st.bank b) q row True

/-- An early head acts before any refresh that is not urgent. -/
theorem earlyHead_acts (st : Store) (on : st.retention = false) (eight : st.banks.length = 8) (b : Nat) (inside : b < 8)
    (low : (st.bank b).debt < 8) (q : QueueId) (row : Nat) (claims : st.claims q b row) (early : q ≠ .loading)
    (first : ∀ p other, p.place < q.place → ¬st.claims p b other) : HeadActs st q b row 0 := by
  obtain ⟨l2, split⟩ := earlyQueues_split q early
  obtain ⟨moves, bursts⟩ := (headsStage st eight).outcome _ q l2 split b row claims ((urgentStage st eight).others b low).2 low
    (by rw [eight]; exact inside) (fun p mem other => first p other ((ahead_iff p q).mp mem))
  have lasts : st.afterHeads.1.bank b ≠ st.bank b → st.arbitrate.bank b = st.afterHeads.1.bank b := fun changed => by
    rw [arbitrate_stages st on]
    exact afterLoading_stepped st eight b (afterHeads_changed st eight b changed)
  refine ⟨fun opened rest => ?_, fun left changes _ => ?_⟩
  · have own := bursts opened rest
    exact (lasts (by rw [own]; exact burst_moves _ _ rest)).trans own
  · have own := moves left changes
    exact (lasts (by rw [own]; exact changes)).trans own

/-- A bank that no early head claims comes unchanged to the loading head, but for an ordinary refresh. -/
theorem loadingHead_acts (st : Store) (on : st.retention = false) (eight : st.banks.length = 8) (b : Nat) (inside : b < 8)
    (low : (st.bank b).debt < 8) (row : Nat) (claims : st.claims .loading b row)
    (first : ∀ p other, p.place < QueueId.loading.place → ¬st.claims p b other) :
    HeadActs st .loading b row (min st.allowance (st.idleIn (st.byDebt Bank.owesOrdinary))) := by
  obtain ⟨-, absent⟩ := afterHeads_unclaimed st eight b low (fun p mem other => first p other ((early_iff p).mp mem))
  have outcome : (b ∉ st.byDebt Bank.owesOrdinary ∨ (st.bank b).state ≠ .idle) →
      st.arbitrate.bank b = headOutcome (st.bank b) .loading row (0 < st.afterOrdinary.1.budget) := fun busy => by
    rw [arbitrate_stages st on]
    exact (loadingStage st eight).outcome b row claims (afterOrdinary_fresh st eight b absent busy) low (by rw [eight]; exact inside)
  refine ⟨fun opened rest => ?_, fun left changes calm => ?_⟩
  · rw [outcome (.inr (by rw [opened]; exact fun no => by cases no))]
    exact headOutcome_row _ _ _ _ opened rest
  · have budget : 0 < st.afterOrdinary.1.budget := loading_budget st eight left
    rw [outcome, headOutcome_left _ _ _ _ budget]
    by_cases idle : (st.bank b).state = .idle
    · refine .inl fun mem => ?_
      have owed := ((owes_iff st b).mp mem).2.1
      rw [calm idle rfl] at owed
      exact absurd owed (by decide)
    · exact .inr idle

/-- With the budget spent a row hit goes ahead of heads that claim another row of its bank (R87, R88). -/
theorem rowHit_acts (st : Store) (on : st.retention = false) (eight : st.banks.length = 8) (b : Nat) (inside : b < 8)
    (low : (st.bank b).debt < 8) (q : QueueId) (row : Nat) (claims : st.claims q b row) (spent : st.budget = 0)
    (others : ∀ p other, p.place < q.place → st.claims p b other → other ≠ row)
    (opened : (st.bank b).state = .open row) (rest : (st.bank b).burst = none) :
    st.arbitrate.bank b = { st.bank b with burst := some q } := by
  have broke : st.afterUrgent.1.budget = 0 := by rw [(urgentStage st eight).budget, spent, Nat.zero_sub]
  have fresh := ((urgentStage st eight).others b low).2
  have within : b < st.banks.length := by rw [eight]; exact inside
  rw [arbitrate_stages st on]
  by_cases early : q = .loading
  · subst early
    have absent : b ∉ st.afterHeads.2 := fun mem =>
      fresh ((headsStage st eight).miss broke b row opened (fun p early other => others p other ((early_iff p).mp early)) mem)
    have free := afterOrdinary_fresh st eight b absent (.inr (by rw [opened]; exact fun no => by cases no))
    rw [(loadingStage st eight).outcome b row claims free low within]
    exact headOutcome_row _ _ _ _ opened rest
  · obtain ⟨l2, split⟩ := earlyQueues_split q early
    have own := (headsStage st eight).hit broke _ q l2 split b row claims fresh low within
      (fun p mem other => others p other ((ahead_iff p q).mp mem)) opened rest
    exact (afterLoading_stepped st eight b (afterHeads_changed st eight b (by rw [own]; exact burst_moves _ _ rest))).trans own

/-! ## Ordinary refreshes (R90) -/

theorem arbitrate_ordinary (st : Store) (on : st.retention = false) (eight : st.banks.length = 8) (b : Nat) (inside : b < 8)
    (owes : 1 ≤ (st.bank b).debt) (low : (st.bank b).debt < 8) (idle : (st.bank b).state = .idle)
    (free : ∀ p row, p ≠ .loading → ¬st.claims p b row) :
    let ahead := st.idleBanks (fun c => decide (1 ≤ (st.bank c).debt ∧ (st.bank c).debt < 8) && st.refreshedBefore c b)
    st.idleBanks (fun c => decide (8 ≤ (st.bank c).debt)) + st.openingsOf 4 + ahead < st.budget → ahead < st.allowance →
      (st.arbitrate.bank b).state = .refreshing := by
  intro ahead left allowed
  obtain ⟨-, absent⟩ := afterHeads_unclaimed st eight b low (fun p early row => free p row (notLoading_early p early))
  obtain ⟨l1, l2, split, sameAhead⟩ := idleIn_ahead st Bank.owesOrdinary b inside (by simpa [Bank.owesOrdinary] using ⟨owes, low⟩)
  have aheadIs : st.idleIn l1 = ahead := sameAhead
  have budget := (headsStage st eight).prog.budget
  have allowance : st.afterHeads.1.allowance = st.allowance :=
    (headsStage st eight).allowance.trans (urgentStage st eight).allowance
  have openings : st.openingsOf 4 = st.opens earlyQueues := rfl
  obtain ⟨refreshes, taken⟩ := (ordinaryStage st eight).outcome l1 b l2 split absent idle (by omega) (by omega)
    (by rw [eight]; exact inside)
  rw [arbitrate_stages st on, ((loadingStage st eight).done b taken).1, refreshes]

theorem arbitrate_allowance (st : Store) (on : st.retention = false) (eight : st.banks.length = 8) (b : Nat)
    (low : (st.bank b).debt < 8) (none : st.allowance = 0) (refreshes : (st.arbitrate.bank b).state = .refreshing) :
    (st.bank b).state = .refreshing := by
  rw [arbitrate_stages st on] at refreshes
  have allowance : st.afterHeads.1.allowance = 0 :=
    ((headsStage st eight).allowance.trans (urgentStage st eight).allowance).trans none
  have beforeLoading := (loadingStage st eight).refresh b refreshes
  rw [(ordinaryStage st eight).spentOut (.inl allowance)] at beforeLoading
  rw [← ((urgentStage st eight).others b low).1]
  exact (headsStage st eight).refresh b beforeLoading

end Sys2Proof.Machine
end

section
/-! PROOFS. What a bank loss notice makes of the clips, the load buffer and the plays (R92, R122, R126). -/

namespace Sys2Proof.Machine

set_option maxRecDepth 20000

/-- A play by its place. -/
def State.playAt (s : State) (place : Nat) : Option Play := s.announce.plays.getD place none

/-! ## Plays that end (R126) -/

/-- A play that ends frees its place, and the host hears of its own. -/
theorem endPlay_some (s : State) (place : Nat) (c : Cause) (p : Play) (plays : s.playAt place = some p) :
    let freed : State := { s with announce.plays := s.announce.plays.set place none }
    s.endPlay place (some c) = if p.starter = .host then raise .playDone [place, p.clip] (some c) freed else freed := by
  intro freed
  unfold State.playAt at plays
  unfold State.endPlay
  rw [plays]
  dsimp only
  cases p.starter <;> rfl

/-- From one state to another plays have ended, and nothing else has changed that clips are judged by. -/
structure State.playsEnd (s u : State) (ends : Nat → Play → Prop) (c : Cause) : Prop where
  grew : s.grew u
  store : u.store = s.store
  clips : u.announce.clips = s.announce.clips
  bufferClip : u.announce.bufferClip = s.announce.bufferClip
  buffer : u.announce.buffer = s.announce.buffer
  free : ∀ place, s.playAt place = none → u.playAt place = none
  ended : ∀ place p, s.playAt place = some p → ends place p → u.playAt place = none
    ∧ (p.starter = .host → s.hasHost = true → s.raises u .playDone [place, p.clip] (some c))
  stands : ∀ place p, s.playAt place = some p → ¬ends place p → u.playAt place = some p

theorem State.playsEnd_refl (s : State) (c : Cause) : s.playsEnd s (fun _ _ => False) c :=
  ⟨grew_refl s, rfl, rfl, rfl, rfl, fun _ free => free, fun _ _ _ no => no.elim, fun _ _ plays _ => plays⟩

theorem State.playsEnd_trans {s w u : State} {ends more : Nat → Play → Prop} {c : Cause} (first : s.playsEnd w ends c)
    (second : w.playsEnd u more c) : s.playsEnd u (fun place p => ends place p ∨ more place p) c := by
  refine ⟨grew_trans first.grew second.grew, second.store.trans first.store, second.clips.trans first.clips,
    second.bufferClip.trans first.bufferClip, second.buffer.trans first.buffer,
    fun place free => second.free place (first.free place free), fun place p plays ended => ?_, fun place p plays stands => ?_⟩
  · by_cases early : ends place p
    · obtain ⟨free, tells⟩ := first.ended place p plays early
      exact ⟨second.free place free, fun host hosted => raises_grew (grew_refl s) (tells host hosted) second.grew⟩
    · obtain ⟨free, tells⟩ := second.ended place p (first.stands place p plays early) (ended.resolve_left early)
      exact ⟨free, fun host hosted => raises_grew first.grew (tells host (first.grew.2.2.trans hosted)) (grew_refl u)⟩
  · exact second.stands place p (first.stands place p plays fun no => stands (.inl no)) fun no => stands (.inr no)

theorem State.playsEnd_congr {s u : State} {ends same : Nat → Play → Prop} {c : Cause} (ended : s.playsEnd u ends c)
    (iff : ∀ place p, s.playAt place = some p → (ends place p ↔ same place p)) : s.playsEnd u same c :=
  { ended with
    ended := fun place p plays e => ended.ended place p plays ((iff place p plays).mpr e)
    stands := fun place p plays e => ended.stands place p plays (fun no => e ((iff place p plays).mp no)) }

theorem endPlay_ends (s : State) (place : Nat) (c : Cause) (p : Play) (plays : s.playAt place = some p) :
    s.playsEnd (s.endPlay place (some c)) (fun y _ => y = place) c := by
  have inside : place < s.announce.plays.length := by
    refine Classical.byContradiction fun beyond => ?_
    unfold State.playAt at plays
    rw [getD_beyond _ _ (Nat.le_of_not_lt beyond)] at plays
    cases plays
  have eq := endPlay_some s place c p plays
  dsimp only at eq
  generalize freedIs : ({ s with announce.plays := s.announce.plays.set place none } : State) = freed at eq
  have freedGrew : s.grew freed := freedIs ▸ grew_of_host rfl rfl rfl
  have announce : (s.endPlay place (some c)).announce = { s.announce with plays := s.announce.plays.set place none } := by
    rw [eq]
    split <;> simp [← freedIs]
  have grew : s.grew (s.endPlay place (some c)) := by
    rw [eq]
    split
    · exact grew_trans freedGrew (grew_raise _ _ _ _)
    · exact freedGrew
  have own : (s.endPlay place (some c)).playAt place = none := by
    unfold State.playAt
    rw [announce]
    simp [inside]
  have others : ∀ y, y ≠ place → (s.endPlay place (some c)).playAt y = s.playAt y := fun y other => by
    unfold State.playAt
    rw [announce]
    simp [Ne.symm other]
  refine ⟨grew, by simp, by rw [announce], by rw [announce], by rw [announce], fun y free => ?_, ?_, fun y q playing other => ?_⟩
  · by_cases same : y = place
    · rw [same]
      exact own
    · rw [others y same]
      exact free
  · rintro y q playing rfl
    refine ⟨own, fun host hosted => ?_⟩
    obtain rfl : p = q := Option.some.inj (plays.symm.trans playing)
    rw [eq, if_pos host]
    exact raises_of _ _ _ freedGrew hosted (grew_refl _)
  · rw [others y other]
    exact playing

/-- The plays with a property end, those of the places below a bound. -/
theorem endPlays_below (s : State) (q : Play → Bool) (c : Cause) :
    ∀ n, s.playsEnd (forEach n (fun place acc =>
      match acc.announce.plays.getD place none with
      | some play => if q play then acc.endPlay place (some c) else acc
      | none => acc) s) (fun place p => place < n ∧ q p = true) c
  | 0 => State.playsEnd_congr (State.playsEnd_refl s c) fun place p _ => by simp
  | n + 1 => by
    have before := endPlays_below s q c n
    unfold forEach at before ⊢
    rw [List.range_succ, List.foldl_append]
    generalize (List.range n).foldl _ s = w at before ⊢
    show s.playsEnd (match w.playAt n with
      | some play => if q play then w.endPlay n (some c) else w
      | none => w) _ c
    have same : w.playAt n = s.playAt n := by
      cases playing : s.playAt n with
      | none => exact before.free n playing
      | some p => exact before.stands n p playing fun no => Nat.lt_irrefl n no.1
    cases playing : w.playAt n with
    | none =>
      refine State.playsEnd_congr before fun place p plays => ?_
      have other : place ≠ n := fun own => by
        rw [own, ← same, playing] at plays
        cases plays
      constructor
      · exact fun ⟨low, ends⟩ => ⟨by omega, ends⟩
      · exact fun ⟨low, ends⟩ => ⟨by omega, ends⟩
    | some p =>
      dsimp only
      have here : s.playAt n = some p := same.symm.trans playing
      split
      next ends =>
        refine State.playsEnd_congr (State.playsEnd_trans before (endPlay_ends w n c p playing)) fun place r plays => ?_
        constructor
        · rintro (⟨low, match'⟩ | rfl)
          · exact ⟨by omega, match'⟩
          · rw [here] at plays
            cases plays
            exact ⟨by omega, ends⟩
        · rintro ⟨low, match'⟩
          by_cases own : place = n
          · exact .inr own
          · exact .inl ⟨by omega, match'⟩
      next stays =>
        refine State.playsEnd_congr before fun place r plays => ?_
        constructor
        · exact fun ⟨low, ends⟩ => ⟨by omega, ends⟩
        · rintro ⟨low, ends⟩
          refine ⟨?_, ends⟩
          have other : place ≠ n := fun own => by
            rw [own, here] at plays
            cases plays
            exact stays ends
          omega

theorem endPlays_ends (s : State) (q : Play → Bool) (c : Cause) :
    s.playsEnd (s.endPlays q (some c)) (fun place p => place < 4 ∧ q p = true) c := endPlays_below s q c 4

/-! ## Clips that are lost (R122) -/

/-- From one state to another the clips with a property have gone to INVALID, with what follows from that (R122, R126). -/
structure State.clipsLost (s u : State) (lost : Nat → Prop) : Prop where
  grew : s.grew u
  store : u.store = s.store
  gone : ∀ i, lost i → u.clip i = (s.clip i).lost
  stays : ∀ i, ¬lost i → u.clip i = s.clip i
  emptied : ∀ i, s.announce.bufferClip = some i → lost i → u.announce.buffer = [] ∧ u.announce.bufferClip = none
  filled : ∀ i, s.announce.bufferClip = some i → ¬lost i → u.announce.bufferClip = some i
  empty : s.announce.bufferClip = none → u.announce.buffer = s.announce.buffer ∧ u.announce.bufferClip = none
  told : ∀ i, lost i → s.hasHost = true → s.raises u .clipLost [i] (some .bankLost)
  free : ∀ place, s.playAt place = none → u.playAt place = none
  ended : ∀ place p, place < 4 → s.playAt place = some p → lost p.clip → u.playAt place = none
    ∧ (p.starter = .host → s.hasHost = true → s.raises u .playDone [place, p.clip] (some .clipInvalid))
  plays : ∀ place p, s.playAt place = some p → ¬lost p.clip → u.playAt place = some p

theorem State.clipsLost_of {s u : State} (grew : s.grew u) (store : u.store = s.store) (announce : u.announce = s.announce) :
    s.clipsLost u (fun _ => False) := by
  have clip : ∀ i, u.clip i = s.clip i := fun i => by rw [State.clip, announce]; rfl
  have play : ∀ place, u.playAt place = s.playAt place := fun place => by rw [State.playAt, announce]; rfl
  exact ⟨grew, store, fun _ no => no.elim, fun i _ => clip i, fun _ _ no => no.elim, fun i here _ => by rw [announce]; exact here,
    fun no => by rw [announce]; exact ⟨rfl, no⟩, fun _ no => no.elim, fun place free => (play place).trans free,
    fun _ _ _ _ no => no.elim, fun place p plays _ => (play place).trans plays⟩

theorem State.clipsLost_congr {s u : State} {lost same : Nat → Prop} (l : s.clipsLost u lost) (iff : ∀ i, lost i ↔ same i) :
    s.clipsLost u same := by
  have eq : lost = same := funext fun i => propext (iff i)
  rwa [← eq]

theorem Clip.lost_lost (c : Clip) : c.lost.lost = c.lost := rfl

theorem State.clipsLost_trans {s w u : State} {lost more : Nat → Prop} (first : s.clipsLost w lost) (second : w.clipsLost u more) :
    s.clipsLost u (fun i => lost i ∨ more i) := by
  refine ⟨grew_trans first.grew second.grew, second.store.trans first.store, fun i gone => ?_, fun i stays => ?_, fun i here gone => ?_,
    fun i here stays => ?_, fun none => ?_, fun i gone hosted => ?_, fun place free => second.free place (first.free place free),
    fun place p inside plays gone => ?_, fun place p plays stays => ?_⟩
  · by_cases early : lost i
    · by_cases late : more i
      · rw [second.gone i late, first.gone i early, Clip.lost_lost]
      · rw [second.stays i late, first.gone i early]
    · rw [second.gone i (gone.resolve_left early), first.stays i early]
  · rw [second.stays i fun no => stays (.inr no), first.stays i fun no => stays (.inl no)]
  · by_cases early : lost i
    · obtain ⟨empty, none⟩ := first.emptied i here early
      obtain ⟨same, still⟩ := second.empty none
      exact ⟨same.trans empty, still⟩
    · exact second.emptied i (first.filled i here early) (gone.resolve_left early)
  · exact second.filled i (first.filled i here fun no => stays (.inl no)) fun no => stays (.inr no)
  · obtain ⟨same, none⟩ := first.empty none
    obtain ⟨same', none⟩ := second.empty none
    exact ⟨same'.trans same, none⟩
  · rcases gone with early | late
    · exact raises_grew (grew_refl s) (first.told i early hosted) second.grew
    · exact raises_grew first.grew (second.told i late (first.grew.2.2.trans hosted)) (grew_refl u)
  · by_cases early : lost p.clip
    · obtain ⟨free, tells⟩ := first.ended place p inside plays early
      exact ⟨second.free place free, fun host hosted => raises_grew (grew_refl s) (tells host hosted) second.grew⟩
    · obtain ⟨free, tells⟩ := second.ended place p inside (first.plays place p plays early) (gone.resolve_left early)
      exact ⟨free, fun host hosted => raises_grew first.grew (tells host (first.grew.2.2.trans hosted)) (grew_refl u)⟩
  · exact second.plays place p (first.plays place p plays fun no => stays (.inl no)) fun no => stays (.inr no)

/-- One clip goes to INVALID (R122). -/
theorem loseClip_lost (s : State) (i : Nat) (used : s.clip i ≠ .none) : s.clipsLost (s.loseClip i .bankLost) (fun j => j = i) := by
  generalize lostIs : (s.dropBuffer i).onClip i Clip.lost = lost
  have eq : s.loseClip i .bankLost = (raise .clipLost [i] (some .bankLost) lost).endPlays (fun p => p.clip == i) (some .clipInvalid) := by
    rw [← lostIs]
    rfl
  have ends := endPlays_ends (raise .clipLost [i] (some .bankLost) lost) (fun p => p.clip == i) .clipInvalid
  rw [← eq] at ends
  have host : lost.host = s.host ∧ lost.tables = s.tables ∧ lost.member = s.member ∧ lost.startUp = s.startUp ∧ lost.store = s.store
      ∧ lost.announce.plays = s.announce.plays := by
    rw [← lostIs]
    unfold State.onClip State.dropBuffer
    split <;> exact ⟨rfl, rfl, rfl, rfl, rfl, rfl⟩
  obtain ⟨host, tables, member, startUp, store, playsSame⟩ := host
  have lostGrew : s.grew lost := grew_of_host host (by rw [tables]) (hasHost_of _ _ (by rw [member]) startUp)
  have toldGrew : s.grew (raise .clipLost [i] (some .bankLost) lost) := grew_trans lostGrew (grew_raise _ _ _ _)
  have announce : (raise .clipLost [i] (some .bankLost) lost).announce = lost.announce := by simp
  have playAt : ∀ place, (raise .clipLost [i] (some .bankLost) lost).playAt place = s.playAt place := fun place => by
    rw [State.playAt, announce, playsSame]
    rfl
  have buffer : lost.announce.bufferClip = (if s.announce.bufferClip = some i then none else s.announce.bufferClip)
      ∧ lost.announce.buffer = (if s.announce.bufferClip = some i then [] else s.announce.buffer) := by
    rw [← lostIs]
    unfold State.onClip State.dropBuffer
    split
    · exact ⟨rfl, rfl⟩
    · exact ⟨rfl, rfl⟩
  obtain ⟨bufferClip, buffer⟩ := buffer
  have uBuffer := ends.buffer.trans ((congrArg Announce.buffer announce).trans buffer)
  have uBufferClip := ends.bufferClip.trans ((congrArg Announce.bufferClip announce).trans bufferClip)
  refine ⟨grew_trans toldGrew ends.grew, by rw [ends.store]; simpa using store, ?_, fun j other => loseClip_clip_other s i j _ other, ?_,
    fun j here other => ?_, fun none => ?_, ?_, fun place free => ends.free place ((playAt place).trans free), ?_,
    fun place p plays other => ?_⟩
  · rintro j rfl
    exact loseClip_clip_own s j _ used
  · rintro j here rfl
    rw [uBuffer, uBufferClip, if_pos here, if_pos here]
    exact ⟨rfl, rfl⟩
  · rw [uBufferClip, if_neg (fun same => other (Option.some.inj (here.symm.trans same)))]
    exact here
  · rw [uBuffer, uBufferClip, none]
    exact ⟨rfl, rfl⟩
  · rintro j rfl hosted
    exact raises_of _ _ _ lostGrew hosted ends.grew
  · rintro place p inside plays rfl
    obtain ⟨free, tells⟩ := ends.ended place p ((playAt place).trans plays) ⟨inside, beq_self_eq_true _⟩
    exact ⟨free, fun host hosted => raises_grew toldGrew (tells host (toldGrew.2.2.trans hosted)) (grew_refl _)⟩
  · exact ends.stands place p ((playAt place).trans plays) fun no => other (eq_of_beq no.2)

end Sys2Proof.Machine
end

section
/-! PROOFS. The banks of the sample store (R80, R86 to R92). -/

namespace Sys2Proof.Machine

set_option maxRecDepth 20000

/-! ## Bank loss notices (R92, R122) -/

/-- A clip that holds words lies in a bank (R122). -/
def State.clipHolds (s : State) (bank i : Nat) : Prop :=
  (s.clip i).state.holdsWords = true ∧ bank ∈ s.store.banksOfClip (s.clip i)

theorem clipHolds_used {s : State} {bank i : Nat} (holds : s.clipHolds bank i) : s.clip i ≠ .none := fun no => by
  have words := holds.1
  rw [no] at words
  cases words

theorem clipHolds_same {s u : State} {bank i : Nat} (store : u.store = s.store) (clip : u.clip i = s.clip i) :
    u.clipHolds bank i ↔ s.clipHolds bank i := by
  unfold State.clipHolds
  rw [store, clip]

theorem lost_holds {s u : State} {bank i : Nat} (gone : u.clip i = (s.clip i).lost) : ¬u.clipHolds bank i := fun holds => by
  have words := holds.1
  rw [gone] at words
  cases words

/-- One pass of a bank loss notice, over the clips below a bound. -/
theorem bankLost_below (s : State) (bank : Nat) :
    ∀ n, s.clipsLost (forEach n (fun i acc =>
      if (acc.clip i).state.holdsWords && (acc.store.banksOfClip (acc.clip i)).contains bank then acc.loseClip i .bankLost else acc) s)
      (fun i => i < n ∧ s.clipHolds bank i)
  | 0 => State.clipsLost_congr (State.clipsLost_of (grew_refl s) rfl rfl) fun i => by simp
  | n + 1 => by
    have before := bankLost_below s bank n
    unfold forEach at before ⊢
    rw [List.range_succ, List.foldl_append]
    generalize (List.range n).foldl _ s = w at before ⊢
    show s.clipsLost (if (w.clip n).state.holdsWords && (w.store.banksOfClip (w.clip n)).contains bank then
      w.loseClip n .bankLost else w) _
    have same : w.clipHolds bank n ↔ s.clipHolds bank n :=
      clipHolds_same before.store (before.stays n fun no => Nat.lt_irrefl n no.1)
    have test : ((w.clip n).state.holdsWords && (w.store.banksOfClip (w.clip n)).contains bank) = true ↔ s.clipHolds bank n := by
      rw [← same, State.clipHolds, Bool.and_eq_true, List.contains_iff_mem]
    by_cases holds : s.clipHolds bank n
    · rw [if_pos (test.mpr holds)]
      refine State.clipsLost_congr (State.clipsLost_trans before (loseClip_lost w n (clipHolds_used (same.mpr holds)))) fun i => ?_
      constructor
      · rintro (⟨low, holds⟩ | rfl)
        · exact ⟨by omega, holds⟩
        · exact ⟨by omega, holds⟩
      · rintro ⟨low, holds⟩
        by_cases own : i = n
        · exact .inr own
        · exact .inl ⟨by omega, holds⟩
    · rw [if_neg (fun no => holds (test.mp no))]
      refine State.clipsLost_congr before fun i => ?_
      constructor
      · exact fun ⟨low, held⟩ => ⟨by omega, held⟩
      · rintro ⟨low, held⟩
        have other : i ≠ n := fun own => holds (own ▸ held)
        exact ⟨by omega, held⟩

theorem overdue_lost (s : State) (bank : Nat) : s.clipsLost (s.overdue bank) (fun i => i < 32 ∧ s.clipHolds bank i) := by
  have told : s.clipsLost (raise .refreshOverdue [bank] none s) (fun _ => False) :=
    State.clipsLost_of (grew_raise _ _ _ _) (by simp) (by simp)
  have lost := bankLost_below (raise .refreshOverdue [bank] none s) bank 32
  refine State.clipsLost_congr (State.clipsLost_trans told lost) fun i => ?_
  rw [false_or, clipHolds_same told.store (told.stays i id)]

theorem overdue_tells (s : State) (bank : Nat) (hosted : s.hasHost = true) :
    s.raises (s.overdue bank) .refreshOverdue [bank] none := by
  have lost := bankLost_below (raise .refreshOverdue [bank] none s) bank 32
  exact raises_of _ _ _ (grew_refl s) hosted lost.grew

/-- What the notices of a list of banks lose (R92). -/
theorem overdues_lost (l : List Nat) (s : State) :
    s.clipsLost (l.foldl (fun acc b => acc.overdue b) s) (fun i => i < 32 ∧ ∃ b, b ∈ l ∧ s.clipHolds b i) := by
  induction l generalizing s with
  | nil => exact State.clipsLost_congr (State.clipsLost_of (grew_refl s) rfl rfl) fun i => by simp
  | cons b l ih =>
    rw [List.foldl_cons]
    have first := overdue_lost s b
    have rest := ih (s.overdue b)
    generalize s.overdue b = w at first rest ⊢
    refine State.clipsLost_congr (State.clipsLost_trans first rest) fun i => ?_
    by_cases early : i < 32 ∧ s.clipHolds b i
    · exact iff_of_true (.inl early) ⟨early.1, b, List.mem_cons_self, early.2⟩
    · have same : ∀ c, w.clipHolds c i ↔ s.clipHolds c i := fun c => clipHolds_same first.store (first.stays i early)
      simp only [same]
      constructor
      · rintro (no | ⟨low, c, mem, holds⟩)
        · exact absurd no early
        · exact ⟨low, c, List.mem_cons_of_mem _ mem, holds⟩
      · rintro ⟨low, c, mem, holds⟩
        obtain rfl | later := List.mem_cons.mp mem
        · exact absurd ⟨low, holds⟩ early
        · exact .inr ⟨low, c, later, holds⟩

theorem overdues_tell (b : Nat) (l : List Nat) (s : State) (mem : b ∈ l) (hosted : s.hasHost = true) :
    s.raises (l.foldl (fun acc b => acc.overdue b) s) .refreshOverdue [b] none := by
  induction l generalizing s with
  | nil => cases mem
  | cons c l ih =>
    rw [List.foldl_cons]
    have first := (overdue_lost s c).grew
    obtain rfl | later := List.mem_cons.mp mem
    · exact raises_grew (grew_refl s) (overdue_tells s b hosted) (overdues_lost l _).grew
    · exact raises_grew first (ih (s.overdue c) later (first.2.2.trans hosted)) (grew_refl _)

/-! ## Rising debts (R87, R89, R92) -/

/-- The state in which every debt has risen. -/
def State.risen (s : State) : State := { s with store := { s.store.riseDebts with refreshTick := 0 } }

/-- The state in which the banks that reach 16 have been told of. -/
def State.noticed (s : State) : State := s.store.reachingOverdue.foldl (fun acc b => acc.overdue b) s.risen

theorem refreshDebtRise_due (s : State) (due : 6 ≤ s.store.refreshTick) : s.refreshDebtRise
    = if s.store.turnsUrgent then { s.noticed with store := s.noticed.store.arbitrate } else s.noticed := if_pos due

theorem reaching_iff (st : Store) (b : Nat) : b ∈ st.reachingOverdue ↔ b < 8 ∧ (st.bank b).debt = 15 := by
  simp [Store.reachingOverdue]

/-- What a rise makes of the banks (R89, R92). -/
structure Risen (st u : Store) : Prop where
  debt : ∀ b, b < 8 → (u.bank b).debt = min 16 ((st.bank b).debt + 1)
  lost : ∀ b, b < 8 → (st.bank b).debt = 15 → ∃ e, (u.bank b).loss = some e
  stands : ∀ b, b < 8 → (st.bank b).debt ≠ 15 → (u.bank b).loss = (st.bank b).loss
  state : ∀ b, b < 8 → (u.bank b).state = (st.bank b).state
  budget : u.budget = st.budget
  memory : u.memory = st.memory
  regions : u.regions = st.regions
  tick : u.refreshTick = 0

theorem risen_store (s : State) (eight : s.store.banks.length = 8) : Risen s.store s.risen.store := by
  have marked := mark_facts s.store.reachingOverdue (List.Pairwise.filter _ List.nodup_range) s.store eight
    (fun b mem => ((reaching_iff _ b).mp mem).1)
  dsimp only at marked
  generalize markedIs : s.store.reachingOverdue.foldl (fun acc b =>
    ({ acc.onBank b (fun k => { k with loss := some acc.lossEvents, rewritten := [] }) with
      lossEvents := acc.lossEvents + 1, overdue := min 65535 (acc.overdue + 1) } : Store)) s.store = m at marked
  obtain ⟨length, debt, same, lost, memory, -, budget, state⟩ := marked
  have eq : s.risen.store = { m with banks := m.banks.map (fun k => { k with debt := min 16 (k.debt + 1) }), refreshTick := 0 } := by
    rw [← markedIs]
    rfl
  have bank : ∀ b, b < 8 → s.risen.store.bank b = { m.bank b with debt := min 16 ((m.bank b).debt + 1) } := fun b inside => by
    rw [eq]
    unfold Store.bank
    simp [List.getD_eq_getElem?_getD, List.getElem?_eq_getElem (length.symm ▸ inside : b < m.banks.length)]
  refine ⟨fun b inside => by rw [bank b inside, debt], fun b inside reaches => ?_, fun b inside no => ?_,
    fun b inside => by rw [bank b inside]; exact state b, by rw [eq]; exact budget, by rw [eq]; exact memory, ?_, by rw [eq]⟩
  · rw [bank b inside]
    exact lost b ((reaching_iff _ b).mpr ⟨inside, reaches⟩)
  · rw [bank b inside]
    exact same b fun mem => no ((reaching_iff _ b).mp mem).2
  · rw [eq, ← markedIs]
    exact List.foldlRecOn (motive := fun u : Store => u.regions = s.store.regions) _ _ rfl fun u same b _ => same

/-- A clip of one word at least lies in a bank by its words as by its rows (R118). -/
theorem liesIn_iff (s : State) (i b : Nat) (some : 1 ≤ (s.clip i).length) :
    b ∈ s.store.banksOfClip (s.clip i) ↔ s.clipLiesIn i b := by
  unfold Store.banksOfClip State.clipLiesIn
  generalize s.clip i = c at some ⊢
  rw [List.mem_filterMap]
  constructor
  · rintro ⟨k, inRange, placed⟩
    rw [List.mem_range] at inRange
    obtain ⟨⟨bank, row⟩, place, rfl⟩ := Option.map_eq_some_iff.mp placed
    refine ⟨max c.offset (256 * (c.offset / 256 + k)), row, by omega, by omega, ?_⟩
    rw [show max c.offset (256 * (c.offset / 256 + k)) / 256 = c.offset / 256 + k by omega]
    exact place
  · rintro ⟨w, row, low, high, place⟩
    refine ⟨w / 256 - c.offset / 256, List.mem_range.mpr (by omega), ?_⟩
    rw [show c.offset / 256 + (w / 256 - c.offset / 256) = w / 256 by omega, place]
    rfl

end Sys2Proof.Machine
end

section
/-! PROOFS. The banks complete and the arbiter acts (R80, R86 to R92). -/

namespace Sys2Proof.Machine

set_option maxRecDepth 20000

/-! ## Completions (Table 5-2, R89) -/

theorem completeOpen_cases (st : Store) (b : Nat) :
    (∀ r, (st.bank b).state = .opening r → st.completeOpen b = (st.onBank b (fun k => { k with state := .open r })).arbitrate)
      ∧ ((∀ r, (st.bank b).state ≠ .opening r) → st.completeOpen b = st) := by
  unfold Store.completeOpen
  refine ⟨fun r opening => by rw [opening], fun other => ?_⟩
  split
  next r opening => exact absurd opening (other r)
  next => rfl

theorem completeClose_cases (st : Store) (b : Nat) :
    ((st.bank b).state = .closing → st.completeClose b = (st.onBank b (fun k => { k with state := .idle })).arbitrate)
      ∧ ((st.bank b).state ≠ .closing → st.completeClose b = st) := by
  unfold Store.completeClose
  refine ⟨fun closing => by rw [closing], fun other => ?_⟩
  split
  next closing => exact absurd closing other
  next => rfl

theorem completeRefresh_cases (st : Store) (b : Nat) :
    ((st.bank b).state = .refreshing → st.completeRefresh b = (st.onBank b (fun k =>
        { k with state := .idle, debt := k.debt - 1, nextRefresh := (k.nextRefresh + 1) % 512 })).arbitrate)
      ∧ ((st.bank b).state ≠ .refreshing → st.completeRefresh b = st) := by
  unfold Store.completeRefresh
  refine ⟨fun refreshing => by rw [refreshing], fun other => ?_⟩
  split
  next refreshing => exact absurd refreshing other
  next => rfl

/-! ## A rise (R89, R92) -/

/-- What a rise leaves beside the store: the notices of the banks that reach 16. -/
theorem refreshDebtRise_beside (s : State) (due : 6 ≤ s.store.refreshTick) :
    s.refreshDebtRise.announce = s.noticed.announce ∧ s.refreshDebtRise.host = s.noticed.host := by
  rw [refreshDebtRise_due s due]
  split <;> exact ⟨rfl, rfl⟩

theorem refreshDebtRise_store (s : State) (due : 6 ≤ s.store.refreshTick) : s.refreshDebtRise.store
    = if s.store.turnsUrgent then s.risen.store.arbitrate else s.risen.store := by
  have store : s.noticed.store = s.risen.store := (overdues_lost _ s.risen).store
  rw [refreshDebtRise_due s due, ← store]
  split <;> rfl

theorem noticed_lost (s : State) :
    s.risen.clipsLost s.noticed (fun i => i < 32 ∧ ∃ b, b ∈ s.store.reachingOverdue ∧ s.risen.clipHolds b i) := overdues_lost _ _

theorem clipOverdue_iff (s : State) (eight : s.store.banks.length = 8) (i : Nat) (low : i < 32) (some : 1 ≤ (s.clip i).length) :
    (i < 32 ∧ ∃ b, b ∈ s.store.reachingOverdue ∧ s.risen.clipHolds b i) ↔ s.clipOverdue i := by
  have banks : s.risen.store.banksOfClip (s.clip i) = s.store.banksOfClip (s.clip i) := by
    unfold Store.banksOfClip Store.regionsOf
    rw [(risen_store s eight).regions]
  have holds : ∀ b, s.risen.clipHolds b i ↔ (s.clip i).state.holdsWords = true ∧ s.clipLiesIn i b := fun b => by
    rw [← liesIn_iff s i b some, ← banks]
    rfl
  simp only [holds, reaching_iff, State.clipOverdue]
  constructor
  · exact fun ⟨_, b, ⟨inside, debt⟩, words, lies⟩ => ⟨words, b, inside, debt, lies⟩
  · exact fun ⟨words, b, inside, debt, lies⟩ => ⟨low, b, ⟨inside, debt⟩, words, lies⟩

theorem noticed_raises {s u : State} {k : EventKind} {subject : List Nat} {cause : Option Cause} (host : u.host = s.noticed.host)
    (told : s.risen.raises s.noticed k subject cause) : s.raises u k subject cause := by
  obtain ⟨records, joined, mem⟩ := told
  exact ⟨records, by rw [host]; exact joined, mem⟩

/-- What a rise that is due makes of the banks and of the clips and plays in them (R92, R122, R126). -/
theorem risesDebts (s : State) (due : 6 ≤ s.store.refreshTick) (eight : s.store.banks.length = 8) :
    let u := s.refreshDebtRise
    u.store.refreshTick = 0 ∧ u.store.memory = s.store.memory
        ∧ (∀ b, b < 8 → (u.store.bank b).debt = min 16 ((s.store.bank b).debt + 1))
        ∧ (∀ b, b < 8 → (s.store.bank b).debt = 15 → ∃ e, (u.store.bank b).loss = some e)
        ∧ (∀ b, b < 8 → (s.store.bank b).debt ≠ 15 → (u.store.bank b).loss = (s.store.bank b).loss)
        ∧ ((∀ b, b < 8 → (s.store.bank b).debt ≠ 7) → u.store.budget = s.store.budget
            ∧ ∀ b, b < 8 → (u.store.bank b).state = (s.store.bank b).state) := by
  intro u
  obtain ⟨a, first, arbitrated⟩ := arbitrate_of s.risen.store
  have risen := risen_store s eight
  have store : u.store = if s.store.turnsUrgent then a.1 else s.risen.store := by
    rw [first]
    exact refreshDebtRise_store s due
  have tick : u.store.refreshTick = s.risen.store.refreshTick := by
    rw [store]
    split
    · exact arbitrated.tick
    · rfl
  have bank : ∀ b, (u.store.bank b).debt = (s.risen.store.bank b).debt ∧ (u.store.bank b).loss = (s.risen.store.bank b).loss := fun b => by
    rw [store]
    split
    · exact arbitrated.debt b
    · exact ⟨rfl, rfl⟩
  refine ⟨tick.trans risen.tick, by simp [u], fun b inside => (bank b).1.trans (risen.debt b inside),
    fun b inside reaches => (bank b).2 ▸ risen.lost b inside reaches,
    fun b inside no => (bank b).2.trans (risen.stands b inside no), fun calm => ?_⟩
  have still : s.store.turnsUrgent = false := by
    simp only [Store.turnsUrgent, List.any_eq_false, List.mem_range, beq_iff_eq]
    exact calm
  rw [store, if_neg (by rw [still]; decide)]
  exact ⟨risen.budget, risen.state⟩

/-! ## The arbiter (R86 to R91) -/

theorem headActs (st : Store) (on : st.retention = false) (eight : st.banks.length = 8) (b : Nat) (inside : b < 8)
    (low : (st.bank b).debt < 8) (q : QueueId) (row : Nat) (claims : st.claims q b row)
    (first : ∀ p other, p.place < q.place → ¬st.claims p b other) :
    HeadActs st q b row (if q = .loading then min st.allowance
      (st.idleBanks (fun c => decide (1 ≤ (st.bank c).debt ∧ (st.bank c).debt < 8))) else 0) := by
  by_cases early : q = .loading
  · subst early
    rw [if_pos rfl, ← idleIn_owes]
    exact loadingHead_acts st on eight b inside low row claims first
  · rw [if_neg early]
    exact earlyHead_acts st on eight b inside low q row claims early first

/-- What the arbiter makes of a bank, out of retention. -/
theorem arbitrate_bank (st : Store) (on : st.retention = false) (eight : st.banks.length = 8) (b : Nat) (inside : b < 8) :
    let k := st.bank b
    let n := st.arbitrate.bank b
    let urgent (c : Nat) : Bool := decide (8 ≤ (st.bank c).debt)
    let owes (c : Nat) : Bool := decide (1 ≤ (st.bank c).debt ∧ (st.bank c).debt < 8)
    let spent (queues : Nat) : Nat := st.idleBanks urgent + st.openingsOf queues
    let before (c : Nat) : Bool := st.refreshedBefore c b
    bankStep k n
    ∧ (8 ≤ k.debt → n.burst = k.burst
      ∧ (∀ r, k.state = .open r → k.burst = none → n.state = .closing)
      ∧ (k.state = .idle → st.idleBanks (fun c => urgent c && before c) < st.budget → n.state = .refreshing)
      ∧ (k.state = .idle → st.budget ≤ st.idleBanks (fun c => urgent c && before c) → n.state = .idle))
    ∧ (k.debt < 8 → ∀ q row, st.claims q b row →
      let refreshes := if q = .loading then min st.allowance (st.idleBanks owes) else 0
      ((∀ p other, p.place < q.place → ¬st.claims p b other) →
        (k.state = .open row → k.burst = none → n.state = .open row ∧ n.burst = some q)
        ∧ (∀ r, k.state = .open r → r ≠ row → k.burst = none → spent q.place + refreshes < st.budget →
            n.state = .closing ∧ n.burst = none)
        ∧ (k.state = .idle → (q = .loading → k.debt = 0) → spent q.place + refreshes < st.budget →
            n.state = .opening row))
      ∧ (st.budget = 0 → (∀ p other, p.place < q.place → st.claims p b other → other ≠ row) →
          k.state = .open row → k.burst = none → n.state = .open row ∧ n.burst = some q))
    ∧ (1 ≤ k.debt → k.debt < 8 → k.state = .idle → (∀ p row, p ≠ .loading → ¬st.claims p b row) →
        spent 4 + st.idleBanks (fun c => owes c && before c) < st.budget →
        st.idleBanks (fun c => owes c && before c) < st.allowance → n.state = .refreshing)
    ∧ (k.debt < 8 → st.allowance = 0 → n.state = .refreshing → k.state = .refreshing) := by
  intro k n urgent owes spent before
  refine ⟨?_, fun high => arbitrate_urgent st on eight b inside high, fun low q row claims => ⟨fun first => ?_, ?_⟩,
    fun some low idle free => arbitrate_ordinary st on eight b inside some low idle free,
    fun low none refreshing => arbitrate_allowance st on eight b low none refreshing⟩
  · have stepped := (loadingStage st eight).prog.step b
    rw [← arbitrate_stages st on] at stepped
    exact stepped
  · obtain ⟨bursts, moves⟩ := headActs st on eight b inside low q row claims first
    refine ⟨fun opened rest => ?_, fun r opened other rest left => ?_, fun idle calm left => ?_⟩
    · have acts : n = { k with burst := some q } := bursts opened rest
      rw [acts]
      exact ⟨opened, rfl⟩
    · have closes := headOutcome_closes k q row r opened other rest
      have acts : n = headOutcome k q row True := moves left (by rw [closes]; exact closing_moves k r opened)
        (fun idle => by rw [show (st.bank b).state = .open r from opened] at idle; cases idle)
      rw [acts, closes]
      exact ⟨rfl, rest⟩
    · have opens := headOutcome_opens k q row idle
      have acts : n = headOutcome k q row True := moves left (by rw [opens]; exact opening_moves k row idle) (fun _ => calm)
      rw [acts, opens]
  · intro spent others opened rest
    have acts : n = { k with burst := some q } := rowHit_acts st on eight b inside low q row claims spent others opened rest
    rw [acts]
    exact ⟨opened, rfl⟩

/-- Settles O39: the completions by their banks, the rise by the banks it brings to 16 and the clips in them, and the arbiter by its
four stages. -/
theorem banksCompleteAndTheArbiterActs : Obligations.BanksCompleteAndTheArbiterActs := by
  refine ⟨?_, ?_, ?_⟩
  · intro b s released t k becomes
    have opens := exec_outside (.openComplete b) s (fun t => { t with store := t.store.completeOpen b.val }) rfl released
    have closes := exec_outside (.closeComplete b) s (fun t => { t with store := t.store.completeClose b.val }) rfl released
    have refreshes := exec_outside (.refreshComplete b) s (fun t => { t with store := t.store.completeRefresh b.val }) rfl released
    have settled : s.settle = t := rfl
    rw [settled] at opens closes refreshes
    clear_value t
    obtain ⟨opened, unopened⟩ := completeOpen_cases t.store b.val
    obtain ⟨closed, unclosed⟩ := completeClose_cases t.store b.val
    obtain ⟨refreshed, unrefreshed⟩ := completeRefresh_cases t.store b.val
    refine ⟨fun r opening => ?_, fun other => ?_, fun closing => ?_, fun other => ?_, fun refreshing => ?_, fun other => ?_⟩
    · rw [opens, opened r opening]
    · rw [opens, unopened other]
    · rw [closes, closed closing]
    · rw [closes, unclosed other]
    · rw [refreshes, refreshed refreshing]
    · rw [refreshes, unrefreshed other]
  · intro s released
    have acts := exec_due .refreshDebtRise s State.refreshDebtRise rfl released
    refine ⟨fun early => ?_, fun due eight => ⟨s.refreshDebtRise, acts, ?_⟩⟩
    · rw [acts, State.refreshDebtRise, if_neg (Nat.not_le.mpr early)]
    · obtain ⟨tick, memory, debt, lost, stands, calm⟩ := risesDebts s due eight
      obtain ⟨announce, host⟩ := refreshDebtRise_beside s due
      have clip : ∀ i, s.refreshDebtRise.clip i = s.noticed.clip i := fun i => by rw [State.clip, announce]; rfl
      have gone := noticed_lost s
      refine ⟨tick, memory, debt, lost, stands, calm, fun b inside reaches hosted => ?_, fun _ i low some => ?_,
        fun thirtyTwo place p inside plays some => ?_, by simp, ?_, by simp, by simp, by simp, by simp, by simp⟩
      · exact noticed_raises host (overdues_tell b _ s.risen ((reaching_iff _ b).mpr ⟨inside, reaches⟩) hosted)
      · have overdue := clipOverdue_iff s eight i low some
        refine ⟨fun reaches => ⟨?_, fun here => ?_, fun hosted => ?_⟩, fun no => ?_⟩
        · exact (clip i).trans (gone.gone i (overdue.mpr reaches))
        · rw [announce]
          exact gone.emptied i here (overdue.mpr reaches)
        · exact noticed_raises host (gone.told i (overdue.mpr reaches) hosted)
        · exact (clip i).trans (gone.stays i fun reaches => no (overdue.mp reaches))
      · have low : p.clip < 32 := by
          refine Classical.byContradiction fun beyond => ?_
          rw [State.clip, getD_beyond _ _ (by omega)] at some
          exact absurd some (by decide)
        have overdue := clipOverdue_iff s eight p.clip low some
        refine ⟨fun reaches => ?_, fun no => ?_⟩
        · obtain ⟨free, tells⟩ := gone.ended place p inside plays (overdue.mpr reaches)
          exact ⟨by rw [announce]; exact free, fun own hosted => noticed_raises host (tells own hosted)⟩
        · rw [announce]
          exact gone.plays place p plays fun reaches => no (overdue.mp reaches)
      · simp [State.sameLine]
  · intro st
    obtain ⟨a, first, arbitrated⟩ := arbitrate_of st
    have bank : ∀ b, st.arbitrate.bank b = a.1.bank b := fun b => by rw [first]
    refine ⟨by simp, first ▸ arbitrated.queues, first ▸ arbitrated.frames, fun retained => if_pos retained,
      first ▸ arbitrated.budget, first ▸ arbitrated.allowance, fun b => ?_⟩
    refine ⟨by rw [bank]; exact (arbitrated.debt b).1, fun changed => ?_, fun spent idle => ?_, fun on eight inside => arbitrate_bank st on eight b inside⟩
    · have taken : b ∈ a.2 := by
        refine Classical.byContradiction fun absent => ?_
        exact changed ((bank b).trans (arbitrated.fresh b absent))
      exact (arbitrated.may b taken).imp (fun both => both.1) id
    · refine (bank b).trans (arbitrated.fresh b fun taken => ?_)
      rcases arbitrated.may b taken with ⟨-, some⟩ | ⟨⟨r, opened⟩, -⟩
      · rw [spent] at some
        exact absurd some (by decide)
      · rw [idle] at opened
        cases opened

end Sys2Proof.Machine
end

section
/-! PROOFS. The canceller at the end of a block, at the end of a freeze and when its reference is lost (R163 to R166). -/

namespace Sys2Proof.Machine

set_option maxRecDepth 20000

/-! ## The canceller's moves, seen from outside (R161, R164, R165) -/

/-- A move of the canceller touches the call unit and the events alone. -/
theorem goCanceller_beside (s : State) (new : CancellerState) (cause : Cause) :
    State.sameLine s (s.goCanceller new cause) ∧ State.sameAudio s (s.goCanceller new cause)
      ∧ (s.goCanceller new cause).mixer = s.mixer := by
  simp [State.sameLine, State.sameAudio]

/-- A move to another state from a call unit: what it leaves of it, and what it clears (R161, R166). -/
theorem goCanceller_call (s : State) (c : CallUnit) (new : CancellerState) (cause : Cause) (moves : c.state ≠ new) :
    let u := ({ s with call := c } : State).goCanceller new cause
    u.call.state = new ∧ u.host = s.eventRaised .cancellerChanged [cancellerCode new] (some cause)
      ∧ u.call.convergedRun = 0 ∧ u.call.quietRun = 0 ∧ u.call.block = .start
      ∧ u.call.last = c.last ∧ u.call.served = c.served ∧ u.call.servedReference = c.servedReference
      ∧ u.call.coefficients = c.coefficients ∧ u.call.searchDone = c.searchDone
      ∧ u.call.bulkDelay = c.bulkDelay ∧ u.call.freeze = c.freeze ∧ u.call.frozen = c.frozen
      ∧ (new ≠ .converging → u.call.gathered = c.gathered) := by
  intro u
  have moved : u = ({ s with call := c } : State).goCanceller new cause := rfl
  rw [goCanceller_eq _ new cause moves] at moved
  rw [moved]
  unfold State.enterCanceller
  cases new
  case converging =>
    by_cases done : c.searchDone <;>
      simp [done, State.restartBlocks, State.eventRaised, State.hasHost, State.roles, State.inForce]
  all_goals simp [State.restartBlocks, State.eventRaised, State.hasHost, State.roles, State.inForce]

/-! ## The end of a block (R165, R166) -/

theorem blockErle_range (c : CallUnit) (count : Nat) : -20 ≤ c.blockErle count ∧ c.blockErle count ≤ 60 := by
  unfold CallUnit.blockErle
  dsimp only
  split
  · exact decibels_range _ _
  · omega

theorem freezeShort_eq (c : CallUnit) :
    ∃ frozen, c.freezeShort = { c with freeze := max 480 c.freeze, frozen := frozen } := by
  unfold CallUnit.freezeShort
  split
  · exact ⟨true, by rw [Nat.max_eq_left (by omega)]⟩
  · exact ⟨c.frozen, by rw [Nat.max_eq_right (by omega)]⟩

/-- The run of measured blocks with a high ERLE after this block (R166). -/
def CallUnit.convergedNext (c : CallUnit) (count : Nat) : Nat :=
  if c.blockMeasured then (if c.erleHigh count then c.convergedRun + 1 else 0) else c.convergedRun

/-- The run of measured blocks with a low ERLE after this block (R166). -/
def CallUnit.lossNext (c : CallUnit) (count : Nat) : Nat :=
  if c.blockMeasured then (if c.erleLow count then c.lossRun + 1 else 0) else c.lossRun

/-- The run of blocks without near-end speech after this block (R166). -/
def CallUnit.quietNext (c : CallUnit) : Nat := if c.block.nearEnd then 0 else c.quietRun + 1

/-- The freeze count after this block (R166). -/
def CallUnit.freezeNext (c : CallUnit) : Nat :=
  if c.block.farEnd && c.block.nearEnd then max 480 c.freeze else c.freeze

/-- What no reaction to a block changes: the other blocks, the judgement, and whom the canceller serves. -/
structure BlockReaction (s u : State) : Prop where
  line : State.sameLine s u
  audio : State.sameAudio s u
  mixer : u.mixer = s.mixer
  last : u.call.last = s.call.last
  served : u.call.served = s.call.served
  reference : u.call.servedReference = s.call.servedReference

theorem BlockReaction.refl (s : State) : BlockReaction s s :=
  ⟨⟨rfl, rfl, rfl, rfl, rfl⟩, ⟨rfl, rfl, rfl, rfl, rfl, rfl⟩, rfl, rfl, rfl, rfl⟩

/-- A change of the call unit that leaves the judgement and the service. -/
theorem BlockReaction.update (s : State) (c : CallUnit) (last : c.last = s.call.last) (served : c.served = s.call.served)
    (reference : c.servedReference = s.call.servedReference) : BlockReaction s { s with call := c } :=
  ⟨⟨rfl, rfl, rfl, rfl, rfl⟩, ⟨rfl, rfl, rfl, rfl, rfl, rfl⟩, rfl, last, served, reference⟩

/-- A change of the call unit that leaves the judgement and the service, and then a move. -/
theorem BlockReaction.move (s : State) (c : CallUnit) (new : CancellerState) (cause : Cause) (moves : c.state ≠ new)
    (last : c.last = s.call.last) (served : c.served = s.call.served) (reference : c.servedReference = s.call.servedReference) :
    BlockReaction s (({ s with call := c } : State).goCanceller new cause) := by
  obtain ⟨line, audio, mixer⟩ := goCanceller_beside { s with call := c } new cause
  obtain ⟨-, -, -, -, -, last', served', reference', -⟩ := goCanceller_call s c new cause moves
  exact ⟨line, audio, mixer, last'.trans last, served'.trans served, reference'.trans reference⟩

/-- What the search makes of the call unit at the end of a block in CONVERGING (R165). -/
def CallUnit.searched (c d : CallUnit) : Prop :=
  (c.block.farEnd = false ∨ c.searchDone = true →
      d.searchDone = c.searchDone ∧ d.bulkDelay = c.bulkDelay ∧ d.gathered = c.gathered)
    ∧ (c.block.farEnd = true → c.searchDone = false → c.gathered < 19 →
        d.searchDone = false ∧ d.gathered = c.gathered + 1)
    ∧ (c.block.farEnd = true → c.searchDone = false → 19 ≤ c.gathered →
        d.searchDone = true ∧ 32 ≤ d.bulkDelay ∧ d.bulkDelay ≤ 4736)

/-- The search at the end of a block, and what it leaves (R165). -/
theorem gather_searched (c : CallUnit) :
    c.searched c.gather
      ∧ c.gather = { c with
          gathered := c.gather.gathered, bulkDelay := c.gather.bulkDelay, searchDone := c.gather.searchDone } := by
  unfold CallUnit.gather CallUnit.searched
  refine ⟨⟨fun rests => ?_, fun far searches few => ?_, fun far searches many => ?_⟩, ?_⟩
  · rw [if_neg fun both => by simp [both.1, both.2] at rests]
    exact ⟨rfl, rfl, rfl⟩
  · rw [if_pos ⟨searches, far⟩, if_neg (Nat.not_le.mpr few)]
    exact ⟨searches, rfl⟩
  · rw [if_pos ⟨searches, far⟩, if_pos many]
    have short := Nat.mod_lt (Config.searchPeak c.copies) (show 4769 > 0 by decide)
    refine ⟨rfl, ?_, ?_⟩ <;> dsimp only <;> omega
  · split
    · split <;> rfl
    · rfl

/-- CONVERGING at the end of a block before its move: freeze count, search and run (R165, R166). -/
theorem blockConverging_eq (s : State) :
    ∃ c : CallUnit, s.blockConverging = (if 50 ≤ s.call.convergedNext s.localCount
          then ({ s with call := c } : State).goCanceller .converged .erleHigh else { s with call := c })
      ∧ c.state = s.call.state ∧ c.last = s.call.last ∧ c.served = s.call.served ∧ c.servedReference = s.call.servedReference
      ∧ c.freeze = s.call.freezeNext ∧ c.coefficients = s.call.coefficients
      ∧ c.convergedRun = s.call.convergedNext s.localCount ∧ s.call.searched c := by
  obtain ⟨frozen, freeze, next, shortened⟩ : ∃ frozen freeze, freeze = s.call.freezeNext
      ∧ (if s.call.block.farEnd && s.call.block.nearEnd then s.call.freezeShort else s.call)
        = { s.call with freeze := freeze, frozen := frozen } := by
    unfold CallUnit.freezeNext
    split
    · obtain ⟨frozen, short⟩ := freezeShort_eq s.call
      exact ⟨frozen, _, rfl, short⟩
    · exact ⟨s.call.frozen, _, rfl, rfl⟩
  obtain ⟨searched, shape⟩ := gather_searched { s.call with freeze := freeze, frozen := frozen }
  have acts : s.blockConverging = if 50 ≤ s.call.convergedNext s.localCount
      then ({ s with call := { ({ s.call with freeze := freeze, frozen := frozen } : CallUnit).gather with
        convergedRun := s.call.convergedNext s.localCount } } : State).goCanceller .converged .erleHigh
      else { s with call := { ({ s.call with freeze := freeze, frozen := frozen } : CallUnit).gather with
        convergedRun := s.call.convergedNext s.localCount } } := by
    unfold State.blockConverging
    dsimp only
    rw [shortened]
    rfl
  generalize ({ s.call with freeze := freeze, frozen := frozen } : CallUnit).gather = g at *
  obtain ⟨run, ran⟩ : ∃ run, s.call.convergedNext s.localCount = run := ⟨_, rfl⟩
  rw [ran] at acts ⊢
  refine ⟨_, acts, ?_, ?_, ?_, ?_, ?_, ?_, rfl, searched⟩ <;> rw [shape]
  exact next

/-- CONVERGING at the end of a block: the search, the freeze count and the run, and the move by the run (R165, R166). -/
theorem blockConverging_facts (s : State) (converging : s.call.state = .converging) :
    let c := s.call
    let u := s.blockConverging
    let run := c.convergedNext s.localCount
    BlockReaction s u ∧ u.call.freeze = c.freezeNext ∧ u.call.coefficients = c.coefficients ∧ c.searched u.call
      ∧ (run < 50 → u.call.state = .converging ∧ u.call.convergedRun = run ∧ u.host = s.host)
      ∧ (50 ≤ run → u.call.state = .converged ∧ u.call.convergedRun = 0
          ∧ u.host = s.eventRaised .cancellerChanged [cancellerCode .converged] (some .erleHigh)) := by
  intro c u run
  obtain ⟨d, acts, state, last, served, reference, freeze, coefficients, runs, searched⟩ := blockConverging_eq s
  by_cases enough : 50 ≤ s.call.convergedNext s.localCount
  · rw [if_pos enough] at acts
    have moves : d.state ≠ .converged := by rw [state, converging]; decide
    obtain ⟨state', host, cleared, -, -, -, -, -, coefficients', done, delay, freeze', -, gathered⟩ :=
      goCanceller_call s d .converged .erleHigh moves
    have reaction := BlockReaction.move s d .converged .erleHigh moves last served reference
    rw [← acts] at state' host cleared coefficients' done delay freeze' gathered reaction
    refine ⟨reaction, freeze'.trans freeze, coefficients'.trans coefficients, ?_, fun few => absurd few (Nat.not_lt.mpr enough),
      fun _ => ⟨state', cleared, host⟩⟩
    unfold CallUnit.searched
    rw [show u.call.searchDone = d.searchDone from done, show u.call.bulkDelay = d.bulkDelay from delay,
      show u.call.gathered = d.gathered from gathered (by decide)]
    exact searched
  · rw [if_neg enough] at acts
    rw [show u = _ from acts]
    exact ⟨BlockReaction.update s d last served reference, freeze, coefficients, searched,
      fun _ => ⟨state.trans converging, runs, rfl⟩, fun many => absurd many enough⟩

/-- The call unit with its coefficients discarded (R161). -/
theorem discardCoefficients_call (s : State) (c : CallUnit) :
    ∃ d : CallUnit, ({ s with call := c } : State).discardCoefficients = { s with call := d }
      ∧ d.state = c.state ∧ d.last = c.last ∧ d.served = c.served ∧ d.servedReference = c.servedReference
      ∧ d.coefficients = List.replicate 1024 0 ∧ d.searchDone = false ∧ d.freeze = 0 :=
  ⟨({ s with call := c } : State).discardCoefficients.call, rfl, rfl, rfl, rfl, rfl, rfl, rfl, rfl⟩

/-- CONVERGED at the end of a block: double talk, or the run and the move by it (R166). -/
theorem blockConverged_facts (s : State) (converged : s.call.state = .converged) :
    let c := s.call
    let u := s.blockConverged
    let run := c.lossNext s.localCount
    BlockReaction s u
      ∧ (c.block.farEnd = true → c.block.nearEnd = true → u.call.state = .doubleTalk ∧ u.call.quietRun = 0
          ∧ u.host = s.eventRaised .cancellerChanged [cancellerCode .doubleTalk] (some .nearEnd))
      ∧ (c.block.farEnd = false ∨ c.block.nearEnd = false → run < 10 → u.call.state = .converged ∧ u.call.lossRun = run
          ∧ u.host = s.host)
      ∧ (c.block.farEnd = false ∨ c.block.nearEnd = false → 10 ≤ run → u.call.state = .converging ∧ u.call.searchDone = false
          ∧ u.call.coefficients = List.replicate 1024 0 ∧ u.call.freeze = 0
          ∧ u.host = s.eventRaised .cancellerChanged [cancellerCode .converging] (some .erleLow)) := by
  intro c u loss
  obtain ⟨run, ran⟩ : ∃ run, loss = run := ⟨_, rfl⟩
  have leaves : ∀ {d : CallUnit} (new : CancellerState), new ≠ .converged → d.state = c.state → d.state ≠ new :=
    fun new other same reached => other (reached.symm.trans (same.trans converged))
  obtain ⟨d, discarded, state, last, served, reference, coefficients, search, freeze⟩ :=
    discardCoefficients_call s { c with lossRun := run }
  have acts : u = if c.block.farEnd && c.block.nearEnd then ({ s with call := c } : State).goCanceller .doubleTalk .nearEnd
      else if 10 ≤ run then ({ s with call := d } : State).goCanceller .converging .erleLow
      else { s with call := { c with lossRun := run } } := by
    rw [← discarded, ← ran]
    rfl
  rw [ran]
  by_cases talk : (c.block.farEnd && c.block.nearEnd) = true
  · obtain ⟨far, near⟩ := Bool.and_eq_true_iff.mp talk
    have single : ¬(c.block.farEnd = false ∨ c.block.nearEnd = false) := by simp [far, near]
    have moves := leaves (d := c) .doubleTalk (by decide) rfl
    obtain ⟨state', host, -, quiet, -⟩ := goCanceller_call s c .doubleTalk .nearEnd moves
    have reaction := BlockReaction.move s c .doubleTalk .nearEnd moves rfl rfl rfl
    rw [if_pos talk] at acts
    rw [acts]
    exact ⟨reaction, fun _ _ => ⟨state', quiet, host⟩, fun no => absurd no single, fun no => absurd no single⟩
  · have double : c.block.farEnd = true → c.block.nearEnd ≠ true := fun far near => talk (by rw [far, near]; rfl)
    rw [if_neg talk] at acts
    by_cases enough : 10 ≤ run
    · have moves := leaves .converging (by decide) state
      obtain ⟨state', host, -, -, -, -, -, -, coefficients', search', -, freeze', -⟩ :=
        goCanceller_call s d .converging .erleLow moves
      have reaction := BlockReaction.move s d .converging .erleLow moves last served reference
      rw [if_pos enough] at acts
      rw [acts]
      exact ⟨reaction, fun far near => absurd near (double far), fun _ few => absurd few (Nat.not_lt.mpr enough),
        fun _ _ => ⟨state', search'.trans search, coefficients'.trans coefficients, freeze'.trans freeze, host⟩⟩
    · rw [if_neg enough] at acts
      rw [acts]
      exact ⟨BlockReaction.update s _ rfl rfl rfl, fun far near => absurd near (double far), fun _ _ => ⟨converged, rfl, rfl⟩,
        fun _ many => absurd many enough⟩

/-- DOUBLE_TALK at the end of a block: the run of quiet blocks, and the move by it (R166). -/
theorem blockDoubleTalk_facts (s : State) (talks : s.call.state = .doubleTalk) :
    let c := s.call
    let u := s.blockDoubleTalk
    BlockReaction s u ∧ u.call.coefficients = c.coefficients
      ∧ (c.quietNext < 10 → u.call.state = .doubleTalk ∧ u.call.quietRun = c.quietNext ∧ u.host = s.host)
      ∧ (10 ≤ c.quietNext → u.call.state = .converged
          ∧ u.host = s.eventRaised .cancellerChanged [cancellerCode .converged] (some .nearEndQuiet)) := by
  intro c u
  have leaves : c.state ≠ .converged := fun same => CancellerState.noConfusion (talks.symm.trans same)
  have acts : u = if 10 ≤ c.quietNext
      then ({ s with call := { c with quietRun := c.quietNext } } : State).goCanceller .converged .nearEndQuiet
      else { s with call := { c with quietRun := c.quietNext } } := rfl
  -- as a variable: the kernel would evaluate the powers of R166 to tell the run from the one before
  obtain ⟨run, next⟩ : ∃ run, c.quietNext = run := ⟨_, rfl⟩
  rw [next] at acts ⊢
  by_cases enough : 10 ≤ run
  · rw [if_pos enough] at acts
    obtain ⟨state, host, -, -, -, -, -, -, coefficients, -⟩ :=
      goCanceller_call s { c with quietRun := run } .converged .nearEndQuiet leaves
    rw [← acts] at state host coefficients
    exact ⟨acts ▸ BlockReaction.move s _ _ _ leaves rfl rfl rfl, coefficients, fun few => absurd few (Nat.not_lt.mpr enough),
      fun _ => ⟨state, host⟩⟩
  · rw [if_neg enough] at acts
    rw [acts]
    exact ⟨BlockReaction.update s _ rfl rfl rfl, rfl, fun _ => ⟨talks, rfl, rfl⟩, fun many => absurd many enough⟩

/-- The reaction of the canceller to its block, by its state (R166). -/
def State.blockReacted (s : State) : State :=
  match s.call.state with
  | .converging => s.blockConverging
  | .converged => s.blockConverged
  | .doubleTalk => s.blockDoubleTalk
  | _ => s

/-- A block that is not yet full stands; a full one is judged, the canceller reacts, and the next one begins (R166). -/
theorem cancellerBlock_cases (s : State) :
    (s.call.block.count < 480 → s.cancellerBlock = s)
      ∧ (480 ≤ s.call.block.count → ∃ j : BlockJudgement,
          j.farEnd = s.call.block.farEnd ∧ j.nearEnd = s.call.block.nearEnd ∧ j.measured = s.call.blockMeasured
          ∧ -20 ≤ j.erle ∧ j.erle ≤ 60
          ∧ s.cancellerBlock
            = { ({ s with call.last := j } : State).blockReacted with
                call := { ({ s with call.last := j } : State).blockReacted.call with block := .start } }) := by
  unfold State.cancellerBlock
  obtain ⟨low, high⟩ := blockErle_range s.call s.localCount
  exact ⟨fun few => if_neg (Nat.not_le.mpr few), fun full =>
    ⟨⟨s.call.blockErle s.localCount, s.call.block.farEnd, s.call.block.nearEnd, s.call.blockMeasured⟩, rfl, rfl, rfl, low, high,
      (if_pos full).trans rfl⟩⟩

/-- The reaction to a judged block, by the state of the canceller (R166). -/
theorem blockReacted_cases (s : State) (j : BlockJudgement) :
    let n : State := { s with call.last := j }
    let u := n.blockReacted
    BlockReaction n u
      ∧ (s.call.state = .off ∨ s.call.state = .fallback → u = n)
      ∧ (s.call.state = .converging → u = n.blockConverging) ∧ (s.call.state = .converged → u = n.blockConverged)
      ∧ (s.call.state = .doubleTalk → u = n.blockDoubleTalk) := by
  intro n u
  have acts : u = match s.call.state with
      | .converging => n.blockConverging | .converged => n.blockConverged | .doubleTalk => n.blockDoubleTalk | _ => n := rfl
  cases state : s.call.state <;> rw [state] at acts
  case converging => exact ⟨acts ▸ (blockConverging_facts n state).1, by simp, fun _ => acts, by simp, by simp⟩
  case converged => exact ⟨acts ▸ (blockConverged_facts n state).1, by simp, by simp, fun _ => acts, by simp⟩
  case doubleTalk => exact ⟨acts ▸ (blockDoubleTalk_facts n state).1, by simp, by simp, by simp, fun _ => acts⟩
  all_goals exact ⟨acts ▸ BlockReaction.refl n, fun _ => acts, by simp, by simp, by simp⟩

/-! ## The end of a freeze, and the loss of the reference (R163, R164) -/

/-- The reference ceases to be usable (R164). -/
theorem goCanceller_fallback (s : State) (cause : Cause) (moves : s.call.state ≠ .fallback) :
    (s.goCanceller .fallback cause).call.fallback = .at (if s.servedDownlinkLive then attenuation 12 else gainOne) := by
  rw [goCanceller_eq s .fallback cause moves]
  rfl

theorem freezeEnd_cases (s : State) :
    (s.call.frozen = true → s.call.freeze = 0 → s.freezeEnd = { s with call := { s.call with frozen := false } })
      ∧ (s.call.frozen = false ∨ s.call.freeze ≠ 0 → s.freezeEnd = s) := by
  unfold State.freezeEnd
  refine ⟨fun frozen done => if_pos ⟨frozen, done⟩, fun waits => if_neg fun due => ?_⟩
  obtain ⟨frozen, done⟩ := due
  exact waits.elim (fun thawed => Bool.noConfusion (thawed.symm.trans frozen)) (fun counts => counts done)

theorem referenceLost_cases (s : State) :
    (s.call.state = .off ∨ s.call.state = .fallback ∨ s.call.usable = true → s.referenceLost = s)
      ∧ (s.call.state = .converging ∨ s.call.state = .converged ∨ s.call.state = .doubleTalk → s.call.usable = false →
          s.referenceLost = s.goCanceller .fallback .referenceLost) := by
  unfold State.referenceLost
  constructor
  · rintro (off | fallback | usable)
    · rw [off]
    · rw [fallback]
    · rw [if_pos usable]
      split <;> rfl
  · rintro (state | state | state) lost <;> simp [state, lost]

end Sys2Proof.Machine
end

section
/-! PROOFS. The ECHO requests of a local sample and their gaps (R93, R163). -/

namespace Sys2Proof.Machine

set_option maxRecDepth 20000

/-! ## The gap count of ECHO at a local sample (R93, R163) -/

/-- The gap count of ECHO. -/
def State.echoGaps (s : State) : Option Nat := s.store.gaps[clientCode .echo]?

theorem enqueue_gaps (st : Store) (r : Request) : (st.enqueue r).gaps = st.gaps := by
  unfold Store.enqueue
  dsimp only
  split
  · exact (arbitrate_loaded _).1
  · rfl

theorem endRequest_echoGaps (s : State) (r : Request) (cause : Cause) :
    (s.endRequest r (.gap cause)).echoGaps = (countGap s.store.gaps r)[clientCode .echo]? := by
  rw [State.echoGaps, (endRequest_gapOf s r cause).1]

theorem request_echoGaps (s : State) (r : Request) (other : r.queue ≠ .echo) : (s.request r).echoGaps = s.echoGaps := by
  have apart : clientCode r.queue.client ≠ clientCode .echo := by
    revert other
    cases r.queue <;> decide
  unfold State.request
  split
  · rfl
  · split
    · rw [endRequest_echoGaps]
      simp [countGap, apart, State.echoGaps]
    · exact congrArg (·[clientCode .echo]?) (enqueue_gaps s.store r)

theorem foldl_echoGaps {α : Type} (f : State → α → State) (keeps : ∀ s x, (f s x).echoGaps = s.echoGaps) (l : List α)
    (s : State) : (l.foldl f s).echoGaps = s.echoGaps := by
  induction l generalizing s with
  | nil => rfl
  | cons x l ih => rw [List.foldl_cons, ih, keeps]

theorem alignBurst_echoGaps (s : State) (access : Access) (pair group : Nat) (right : Bool) (data : List (Nat × Sample))
    (purpose : Purpose) : (s.alignBurst access pair group right data purpose).echoGaps = s.echoGaps :=
  request_echoGaps s _ (show QueueId.align ≠ .echo by decide)

theorem blendBurst_echoGaps (s : State) (access : Access) (group : Nat) (right : Bool) (data : List (Nat × Sample))
    (purpose : Purpose) : (s.blendBurst access group right data purpose).echoGaps = s.echoGaps :=
  request_echoGaps s _ (show QueueId.blend ≠ .echo by decide)

theorem playPairs_echoGaps (s : State) : s.playPairs.echoGaps = s.echoGaps := by
  have pairs : ∀ (w : State) (p : Nat), (w.playPair p).echoGaps = w.echoGaps := fun w p => by
    unfold State.playPair
    split <;> rfl
  have writes : ∀ (w : State) (p : Nat), (w.alignWrites p).echoGaps = w.echoGaps := fun w p => by
    unfold State.alignWrites
    split
    · rfl
    · dsimp only
      rw [alignBurst_echoGaps, alignBurst_echoGaps]
      rfl
  have reads : ∀ (w : State) (p d : Nat), (w.alignReads p d).echoGaps = w.echoGaps := fun w p d => by
    unfold State.alignReads
    dsimp only
    split
    · rfl
    · rw [alignBurst_echoGaps, alignBurst_echoGaps]
      rfl
  have turn : ∀ w : State, w.alignTurn.echoGaps = w.echoGaps := fun w => by
    have marked : ∀ (v : State) (round : Nat), State.echoGaps { v with mixer.round := round } = v.echoGaps := fun _ _ => rfl
    unfold State.alignTurn
    refine (marked _ _).trans ?_
    split
    · rw [reads, writes]
    · rfl
  unfold State.playPairs forEach
  rw [turn, foldl_echoGaps (fun w p => w.playPair p) pairs]

theorem announceSample_echoGaps (s : State) : s.announceSample.echoGaps = s.echoGaps := by
  have groups : ∀ (w : State) (place offset repetition group due : Nat),
      (w.requestGroup place offset repetition group due).echoGaps = w.echoGaps := fun w _ _ _ _ _ => by
    unfold State.requestGroup
    split
    · rfl
    · split
      · rfl
      · exact request_echoGaps _ _ (show QueueId.playback ≠ .echo by decide)
  have sounded : s.soundPlays.echoGaps = s.echoGaps := by simp [State.echoGaps]
  unfold State.announceSample forEach
  refine (foldl_echoGaps (fun w place => w.requestGroups place) (fun w place => ?_) _ s.soundPlays).trans sounded
  unfold State.requestGroups
  split
  · rfl
  · exact foldl_echoGaps _ (fun w _ => groups w _ _ _ _ _) _ _

theorem blendSample_echoGaps (s : State) : s.blendSample.echoGaps = s.echoGaps := by
  have reads : ∀ (w : State) (tap : Nat) (groups : List Nat), (w.blendReads tap groups).echoGaps = w.echoGaps :=
    fun w _ groups => foldl_echoGaps _ (fun v _ => by rw [blendBurst_echoGaps, blendBurst_echoGaps]) groups w
  have turn : ∀ w : State, w.blendTurn.echoGaps = w.echoGaps := fun w => by
    unfold State.blendTurn
    split
    · unfold State.blendWrites
      split
      · rfl
      · dsimp only
        rw [blendBurst_echoGaps, blendBurst_echoGaps]
        rfl
    · exact reads _ _ _
    · split
      · rfl
      · exact reads _ _ _
    · split
      · rfl
      · exact reads _ _ _
    · rfl
  unfold State.blendSample
  show State.echoGaps (if s.blend.state = .idle ∨ s.blendLength = 0 then _ else s.blendWork.blendTurn) = _
  split
  · rfl
  · exact (turn s.blendWork).trans (by simp [State.echoGaps])

/-- No block before the call unit makes an ECHO request at a local sample. -/
theorem cadenced_echoGaps (t : State) (i : InputSamples) : (t.cadenced i).blendSample.echoGaps = t.echoGaps := by
  have counted : ∀ w : State, w.cadenceSample.echoGaps = w.echoGaps := fun _ => rfl
  have gated : (t.gatedFor i).mixZones.store = t.store := by
    obtain ⟨-, -, -, -, -, -, -, -, store, -, -⟩ := gatedFor_facts t i
    simp [store]
  unfold State.cadenced State.played
  rw [blendSample_echoGaps, counted, announceSample_echoGaps, playPairs_echoGaps, State.echoGaps, gated, State.echoGaps]

/-! ## ECHO requests (R163) -/

/-- What an ECHO gap sets (R163). -/
def State.freezing (s : State) : Nat × Bool × Bool := (s.call.freeze, s.call.frozen, s.call.block.unfrozen)

/-- The ECHO requests of a local sample: no gap, and what a gap sets stands; or a gap that is counted, and freezes adaptation. -/
def State.echoAsked (s u : State) : Prop :=
  u.call.block.whole = s.call.block.whole
    ∧ ((u.echoGaps = s.echoGaps ∧ u.freezing = s.freezing)
      ∨ (u.freezing = (4800, true, false)
        ∧ ∀ n, s.echoGaps = some n → n ≤ 65535 → ∃ m, u.echoGaps = some m ∧ min 65535 (n + 1) ≤ m ∧ m ≤ 65535))

theorem echoAsked_refl (s : State) : s.echoAsked s := ⟨rfl, .inl ⟨rfl, rfl⟩⟩

theorem State.echoAsked.trans {s u v : State} (first : s.echoAsked u) (second : u.echoAsked v) : s.echoAsked v := by
  obtain ⟨whole, asked⟩ := first
  obtain ⟨whole', asked'⟩ := second
  refine ⟨whole'.trans whole, ?_⟩
  obtain ⟨same', still'⟩ | ⟨freezes', counts'⟩ := asked'
  · rw [same', still']
    exact asked
  · refine .inr ⟨freezes', fun n held below => ?_⟩
    obtain ⟨same, -⟩ | ⟨-, counts⟩ := asked
    · exact counts' n (same.trans held) below
    · obtain ⟨m, count, more, limit⟩ := counts n held below
      obtain ⟨m', count', more', limit'⟩ := counts' m count limit
      exact ⟨m', count', by omega, limit'⟩

theorem settleEchoRead_block (s : State) (ring group : Nat) (part : Part) :
    (s.settleEchoRead ring group part).call.block = s.call.block := by
  unfold State.settleEchoRead
  split <;> rfl

theorem takeGap_freezing (s : State) (r : Request) (own : r.purpose.owner = .call) :
    (s.takeGap r).freezing = (4800, true, false) ∧ (s.takeGap r).call.block.whole = s.call.block.whole := by
  have frozen : ∀ w : State, w.freezeForGap.call.block.whole = w.call.block.whole := fun _ => rfl
  unfold State.takeGap
  cases purpose : r.purpose <;> rw [purpose] at own <;> cases own
  case echoWrite => exact ⟨rfl, rfl⟩
  case echoRead ring group =>
    exact ⟨rfl, (frozen _).trans <| congrArg CancellerBlock.whole (settleEchoRead_block s ring group .silent)⟩

/-- A request of the canceller: it waits, or is a gap (R93, R163). -/
theorem request_echoAsked (s : State) (r : Request) (queue : r.queue = .echo) (own : r.purpose.owner = .call) :
    s.echoAsked (s.request r) := by
  unfold State.request
  split
  · exact echoAsked_refl s
  · split
    next cause gap =>
      have counted := endRequest_echoGaps s r cause
      have ended : ∃ w : State, w.call = s.call ∧ s.endRequest r (.gap cause) = w.takeGap r := by
        unfold State.endRequest
        exact ⟨_, by rw [raise_eq], rfl⟩
      obtain ⟨w, same, taken⟩ := ended
      obtain ⟨freezes, whole⟩ := takeGap_freezing w r own
      rw [← taken] at freezes whole
      refine ⟨by rw [whole, same], .inr ⟨freezes, fun n held below =>
        ⟨min 65535 (n + 1), ?_, Nat.le_refl _, Nat.min_le_left _ _⟩⟩⟩
      rw [counted, countGap, queue]
      have stood : s.store.gaps[2]? = some n := held
      simp [QueueId.client, clientCode, stood]
    next => exact ⟨rfl, .inl ⟨congrArg (·[clientCode .echo]?) (enqueue_gaps s.store r), rfl⟩⟩

theorem echoTurn_asked (s : State) : s.echoAsked s.echoTurn := by
  unfold State.echoTurn
  split
  · unfold State.echoWrite
    split
    · exact echoAsked_refl s
    · exact request_echoAsked _ _ rfl rfl
  · split
    · have reads : ∀ (n : Nat) (deadline : BitVec 32) (groups : List Nat) (w : State), w.echoAsked
          (groups.foldl (fun acc g => acc.request (burst .echo .read (g * 8) [] deadline (.echoRead n g))) w) := by
        intro n deadline groups
        induction groups with
        | nil => exact echoAsked_refl
        | cons g groups ih => exact fun w => (request_echoAsked w _ rfl rfl).trans (ih _)
      unfold State.echoReads
      exact reads _ _ _ _
    · exact echoAsked_refl s

/-- Between its turns the canceller makes no request (R163). -/
theorem echoTurn_rests (s : State) (writes : s.call.round ≠ 0) (reads : s.call.round ≠ 4) : s.echoTurn = s := by
  unfold State.echoTurn
  rw [if_neg writes, if_neg reads]

end Sys2Proof.Machine
end

section
/-! PROOFS. What the canceller hears at a local sample, and its work (R162 to R166). -/

namespace Sys2Proof.Machine

set_option maxRecDepth 20000

/-! ## What the canceller hears at a local sample (R162, R163) -/

theorem referenceUsable_hears (s : State) : s.referenceUsable = true ↔ s.hearsReference := by
  unfold State.referenceUsable State.hearsReference State.referenceOf State.mayPlay
  cases served : s.call.served with
  | none => simp
  | some j => cases reference : (s.tables.call j).reference <;> simp [reference, and_assoc]

theorem servedDownlinkLive_hears (s : State) : s.servedDownlinkLive = true ↔ s.hearsDownlink := by
  unfold State.servedDownlinkLive State.hearsDownlink
  cases served : s.call.served with
  | none => simp
  | some j => cases downlink : (s.tables.call j).downlink <;> simp [downlink]

/-- The microphone sum by the inputs of the local sample (R72, R162). -/
theorem microphoneSum_eq (s t : State) (i : InputSamples) (inputs : s.ports.inputs = [i.in0, i.in1, i.in2, i.in3])
    (member : s.member = t.member) (startUp : s.startUp = t.startUp) :
    s.microphoneSum = limit24 (t.microphonesTotal i) := by
  have record : s.inForce = t.inForce := by rw [State.inForce, State.inForce, member, startUp]
  unfold State.microphoneSum State.microphonesTotal
  rw [record]
  dsimp only
  congr 1
  cases t.inForce with
  | none => simp [List.range_succ]
  | some r =>
    have added : ∀ (chosen : Bool) (total x : Int), (if chosen then total + x else total) = total + (if chosen then x else 0) :=
      fun chosen total x => by cases chosen <;> simp
    simp [List.range_succ, Ports.microphone, inputs, added]

/-- The position that the read tap has reached (R163). -/
def State.tapPosition (s : State) : Nat := behind (s.store.spaceOf .echo) s.call.history.write (s.call.bulkDelay + 1023)

/-- The reference samples with this local sample's, newest first (R162, R163). -/
def State.referencesNow (s : State) : List Int := (s.referenceNow.toInt :: s.call.references).take 5824

/-- The read tap's window with this local sample's, newest first (R163). -/
def State.windowNow (s : State) : List Int :=
  ((heardAt s.call.tap.held s.call.history s.tapPosition 9 s.localCount).left.toInt :: s.call.window).take 1024

/-- Which samples of the window are zeros of a hole or a gap (R163, R166). -/
def State.zerosNow (s : State) : List Bool := (s.call.readsZero s.tapPosition :: s.call.windowZeros).take 1024

/-- The sample that coefficient k takes at this local sample (R162, R163, log 20). -/
def State.filterTakes (s : State) (k : Nat) : Int :=
  if Config.filterReadsWindow then s.windowNow.getD k 0
  else if behind (s.store.spaceOf .echo) s.call.history.write (s.call.bulkDelay + k) / 8 ∈ s.call.history.clean
    then s.referencesNow.getD (s.call.bulkDelay + k) 0 else 0

/-- The echo estimate of this local sample (R162). -/
def State.echoNow (s : State) : Int := echoOf s.call.coefficients s.filterTakes

/-- The state in which the canceller works: the reference is tested and written, the tap has read, the fallback gain has moved. -/
def State.heard (s : State) : State := s.testReference.historySample.stepFallback

/-- Usability is tested, and no move follows where the canceller is not in FALLBACK or hears no reference (R164). -/
theorem testReference_stays (s : State) (calm : ¬(s.call.state = .fallback ∧ s.hearsReference)) :
    s.testReference = { s with call := { s.call with usable := s.referenceUsable } } := by
  unfold State.testReference
  exact if_neg fun both => calm ⟨both.1, (referenceUsable_hears s).mp both.2⟩

/-- A usable reference ends FALLBACK (R164). -/
theorem testReference_returns (s : State) (fallback : s.call.state = .fallback) (hears : s.hearsReference) :
    s.testReference.call.state = .converging ∧ s.testReference.call.freeze = s.call.freeze
      ∧ s.testReference.call.frozen = s.call.frozen := by
  have usable := (referenceUsable_hears s).mpr hears
  have moves : s.call.state ≠ .converging := by rw [fallback]; decide
  obtain ⟨state, -, -, -, -, -, -, -, -, -, -, freeze, frozen, -⟩ :=
    goCanceller_call s { s.call with usable := s.referenceUsable } .converging .referenceBack moves
  unfold State.testReference
  rw [if_pos ⟨fallback, usable⟩]
  exact ⟨state, freeze, frozen⟩

theorem testReference_microphone (s : State) : s.testReference.call.microphone = s.call.microphone := by
  unfold State.testReference
  dsimp only
  split
  next returns =>
    rw [goCanceller_eq _ _ _ (by rw [returns.1]; decide)]
    unfold State.enterCanceller
    dsimp only
    split <;> rfl
  next => rfl

/-- The fallback gain at a local sample (R162). -/
theorem stepFallback_facts (s : State) :
    s.stepFallback.call.downlinkLive = s.servedDownlinkLive
      ∧ fallbackStepped s.call.fallback s.stepFallback.call.fallback s.call.downlinkLive s.servedDownlinkLive := by
  refine ⟨rfl, ?_⟩
  have stepped : s.stepFallback.call.fallback
      = (let r := (if s.servedDownlinkLive = s.call.downlinkLive then s.call.fallback
            else s.call.fallback.toTarget (fallbackGain s.servedDownlinkLive)).advance
         if r.steps = 480 then .at r.target else r) := rfl
  rw [stepped]
  generalize s.servedDownlinkLive = now
  generalize s.call.fallback = g
  generalize s.call.downlinkLive = before
  refine ⟨fun same => ⟨g.advance, advance_stepped g, ?_⟩, fun turned (there : g.current = fallbackGain now) => ?_,
    fun turned (away : g.current ≠ fallbackGain now) => ?_⟩
  · rw [if_pos same]
  · rw [if_neg turned, Ramp.toTarget, if_pos there]
    rfl
  · have begun := advance_stepped (Ramp.mk g.current (fallbackGain now) g.current 0 true)
    have short : (Ramp.mk g.current (fallbackGain now) g.current 0 true).advance.steps ≠ 480 :=
      show (1 : Nat) ≠ 480 by decide
    rw [if_neg turned, Ramp.toTarget, if_neg away]
    dsimp only
    rw [if_neg short]
    exact begun

/-! ## The work of the canceller at a local sample (R162 to R166) -/

theorem readsZero_same {c d : CallUnit} (held : c.tap.held = d.tap.held) (clean : c.history.clean = d.history.clean)
    (position : Nat) : c.readsZero position = d.readsZero position := by
  unfold CallUnit.readsZero Ring.hole
  rw [held, clean]

/-- What the canceller has heard where its state stands (R162, R163). -/
theorem heard_facts (s : State) (calm : ¬(s.call.state = .fallback ∧ s.hearsReference)) :
    let c := s.call
    let h := s.heard.call
    h.state = c.state ∧ h.round = c.round ∧ h.microphone = c.microphone ∧ h.freeze = c.freeze ∧ h.frozen = c.frozen
      ∧ h.block = c.block ∧ h.coefficients = c.coefficients ∧ h.searchDone = c.searchDone ∧ h.bulkDelay = c.bulkDelay
      ∧ h.usable = s.referenceUsable ∧ h.history.write = (c.history.write + 1) % s.store.spaceOf .echo
      ∧ h.history.clean = c.history.clean ∧ h.references = s.referencesNow ∧ h.window = s.windowNow
      ∧ h.windowZeros = s.zerosNow ∧ h.downlinkLive = s.servedDownlinkLive
      ∧ fallbackStepped c.fallback h.fallback c.downlinkLive h.downlinkLive := by
  intro c h
  have heard : s.heard = ({ s with call := { s.call with usable := s.referenceUsable } } : State).historySample.stepFallback := by
    rw [State.heard, testReference_stays s calm]
  have worked : h = _ := congrArg State.call heard
  obtain ⟨live, falls⟩ :=
    stepFallback_facts ({ s with call := { s.call with usable := s.referenceUsable } } : State).historySample
  obtain ⟨write, clean, -⟩ := push_facts s.call.history (s.store.spaceOf .echo) { left := s.referenceSample, right := 0 }
  obtain ⟨usable, tested⟩ : ∃ usable, s.referenceUsable = usable := ⟨_, rfl⟩
  rw [tested] at worked live falls ⊢
  rw [worked]
  refine ⟨rfl, rfl, rfl, rfl, rfl, rfl, rfl, rfl, rfl, rfl, write, clean, rfl, ?_, ?_, live, falls⟩
  · show ((readHeld s.call.tap.held (s.call.history.push (s.store.spaceOf .echo) _) s.tapPosition 9 s.localCount).left.toInt
      :: s.call.window).take 1024 = _
    rw [readHeld_heard, heardAt_push]
    rfl
  · have marks := readsZero_same (c := { s.call with history := s.heard.call.history }) (d := s.call) rfl
      (by rw [heard]; exact clean) s.tapPosition
    rw [State.zerosNow, ← marks, heard]
    rfl

theorem estimate_eq (c : CallUnit) (length w : Nat) (full : c.coefficients.length = 1024) :
    c.estimate length w = echoOf c.coefficients (c.filterSample length w) := by
  unfold CallUnit.estimate echoOf
  congr 2
  refine List.ext_getElem (by simp [full]) fun k low high => ?_
  have inside : k < c.coefficients.length := by simpa using low
  simp [List.getElem?_eq_getElem inside]

theorem back_behind : back = behind := rfl

/-- The echo estimate that the canceller forms (R162). -/
theorem heard_estimate (s : State) (calm : ¬(s.call.state = .fallback ∧ s.hearsReference))
    (full : s.call.coefficients.length = 1024) :
    s.heard.call.estimate s.historyLength s.call.history.write = s.echoNow := by
  obtain ⟨-, -, -, -, -, -, coefficients, -, delay, -, -, clean, references, window, -⟩ := heard_facts s calm
  rw [estimate_eq _ _ _ (by rw [coefficients]; exact full), coefficients, State.echoNow]
  congr 1
  funext k
  unfold CallUnit.filterSample State.filterTakes Ring.hole
  rw [delay, clean, references, window]
  rw [back_behind]
  by_cases stands : behind (s.store.spaceOf .echo) s.call.history.write (s.call.bulkDelay + k) / 8 ∈ s.call.history.clean
  · simp [stands, State.historyLength]
  · simp [stands, State.historyLength]

/-- Whether a zero feeds the filter at this local sample (R163, R166). -/
theorem heard_fedZero (s : State) (calm : ¬(s.call.state = .fallback ∧ s.hearsReference)) :
    s.heard.call.fedZero s.historyLength s.call.history.write = false ↔
      (∀ z, z ∈ s.zerosNow → z = false)
        ∧ (Config.filterReadsWindow = true
          ∨ ∀ k : Nat, k < 1024 →
            behind (s.store.spaceOf .echo) s.call.history.write (s.call.bulkDelay + k) / 8 ∈ s.call.history.clean) := by
  obtain ⟨-, -, -, -, -, -, -, -, delay, -, -, clean, -, -, zeros, -⟩ := heard_facts s calm
  unfold CallUnit.fedZero Ring.hole
  rw [delay, clean, zeros, back_behind]
  cases Config.filterReadsWindow <;> simp [State.historyLength]

theorem copySample_eq (c : CallUnit) (reference microphone : Int) :
    ∃ copies tick, c.copySample reference microphone = { c with copies := copies, searchTick := tick } := by
  unfold CallUnit.copySample
  split
  · split
    · exact ⟨_, _, rfl⟩
    · exact ⟨c.copies, _, rfl⟩
  · exact ⟨c.copies, c.searchTick, rfl⟩

/-- The block with one local sample more (R166). -/
def CancellerBlock.plus (b : CancellerBlock) (reference microphone estimate output : Int) (unfrozen whole : Bool) :
    CancellerBlock :=
  { count := b.count + 1
    reference := b.reference + reference.natAbs * reference.natAbs
    microphone := b.microphone + microphone.natAbs * microphone.natAbs
    estimate := b.estimate + estimate.natAbs * estimate.natAbs
    output := b.output + output.natAbs * output.natAbs
    unfrozen := b.unfrozen && unfrozen
    whole := b.whole && whole }

/-- One local sample of the canceller after it has heard (R162, R165, R166). -/
theorem cancelSample_eq (s : State) :
    let h := s.heard.call
    let length := s.historyLength
    let w := s.call.history.write
    let echo := h.estimate length w
    let out := s.heard.uplinkOutput h.microphone echo
    ∃ coefficients copies tick,
      s.cancelSample.call = { h with
          coefficients := coefficients, copies := copies, searchTick := tick, uplink := out, freeze := h.freeze - 1
          block := h.block.plus s.heard.referenceSample.toInt h.microphone.toInt echo out.toInt (h.freeze == 0)
            (!h.fedZero length w) }
      ∧ (s.heard.adapts = false → coefficients = h.coefficients) := by
  intro h length w echo out
  have acts : s.cancelSample.call = { (if s.heard.adapts
        then ((h.countBlock length w s.heard.referenceSample.toInt h.microphone.toInt echo out.toInt).copySample
          s.heard.referenceSample.toInt h.microphone.toInt).adapt (h.microphone.toInt - echo)
        else (h.countBlock length w s.heard.referenceSample.toInt h.microphone.toInt echo out.toInt).copySample
          s.heard.referenceSample.toInt h.microphone.toInt) with
      uplink := out
      freeze := (if s.heard.adapts
        then ((h.countBlock length w s.heard.referenceSample.toInt h.microphone.toInt echo out.toInt).copySample
          s.heard.referenceSample.toInt h.microphone.toInt).adapt (h.microphone.toInt - echo)
        else (h.countBlock length w s.heard.referenceSample.toInt h.microphone.toInt echo out.toInt).copySample
          s.heard.referenceSample.toInt h.microphone.toInt).freeze - 1 } := rfl
  obtain ⟨copies, tick, copied⟩ := copySample_eq
    (h.countBlock length w s.heard.referenceSample.toInt h.microphone.toInt echo out.toInt)
    s.heard.referenceSample.toInt h.microphone.toInt
  rw [copied] at acts
  by_cases adapts : s.heard.adapts = true
  · rw [if_pos adapts] at acts
    exact ⟨_, copies, tick, acts, fun rests => Bool.noConfusion (rests.symm.trans adapts)⟩
  · rw [if_neg adapts] at acts
    exact ⟨_, copies, tick, acts, fun _ => rfl⟩

theorem heard_reference (s : State) (calm : ¬(s.call.state = .fallback ∧ s.hearsReference)) :
    s.heard.referenceSample = s.referenceNow := by
  rw [State.heard, testReference_stays s calm]
  rfl

/-- Adaptation rests in FALLBACK and DOUBLE_TALK, before the search is done, in a freeze and without a reference (R165). -/
theorem heard_rests (s : State) (calm : ¬(s.call.state = .fallback ∧ s.hearsReference))
    (rests : s.call.state = .fallback ∨ s.call.state = .doubleTalk ∨ s.call.searchDone = false ∨ s.call.freeze ≠ 0
      ∨ ¬s.hearsReference) : s.heard.adapts = false := by
  obtain ⟨state, -, -, freeze, -, -, -, done, -, usable, -⟩ := heard_facts s calm
  unfold State.adapts
  rw [state, freeze, done, usable]
  rw [← referenceUsable_hears s] at rests
  obtain fallback | talks | searches | frozen | silent := rests
  · simp [fallback]
  · simp [talks]
  · simp [searches]
  · simp [frozen]
  · simp [silent]

/-- The call unit after the work of a canceller whose state stands, by the state in which it meets the local sample and the
microphone sum (R162 to R166). -/
structure CancellerWorked (t : State) (mic : Int) (u : CallUnit) : Prop where
  state : u.state = t.call.state
  references : u.references = t.referencesNow
  write : u.history.write = (t.call.history.write + 1) % t.store.spaceOf .echo
  window : u.window = t.windowNow
  live : t.hearsDownlink ↔ u.downlinkLive = true
  fallback : fallbackStepped t.call.fallback u.fallback t.call.downlinkLive u.downlinkLive
  falls : t.call.state = .fallback → u.uplink = mixed (mic * u.fallback.current)
  cancels : t.call.state ≠ .fallback → u.uplink = limit24 (mic - t.echoNow)
  rests : t.call.state = .fallback ∨ t.call.state = .doubleTalk ∨ t.call.searchDone = false ∨ t.call.freeze ≠ 0
    ∨ ¬t.hearsReference → u.coefficients = t.call.coefficients
  count : u.block.count = t.call.block.count + 1
  zeros : u.windowZeros = t.zerosNow
  whole : u.block.whole = true ↔ t.call.block.whole = true ∧ (∀ z, z ∈ t.zerosNow → z = false)
    ∧ (Config.filterReadsWindow = true ∨ ∀ k : Nat, k < 1024 →
      behind (t.store.spaceOf .echo) t.call.history.write (t.call.bulkDelay + k) / 8 ∈ t.call.history.clean)
  unfrozen : t.call.round ≠ 0 → t.call.round ≠ 4 → u.block.unfrozen = (t.call.block.unfrozen && t.call.freeze == 0)
  reference : u.block.reference = t.call.block.reference + t.referenceNow.toInt.natAbs * t.referenceNow.toInt.natAbs
  microphone : u.block.microphone = t.call.block.microphone + mic.natAbs * mic.natAbs
  estimate : u.block.estimate = t.call.block.estimate + t.echoNow.natAbs * t.echoNow.natAbs
  output : u.block.output = t.call.block.output + u.uplink.toInt.natAbs * u.uplink.toInt.natAbs

/-- The canceller, by what it heard, does its work at a local sample and makes its requests (R162 to R166). -/
theorem cancelSample_worked (s : State) (works : s.call.state ≠ .off) (calm : ¬(s.call.state = .fallback ∧ s.hearsReference))
    (full : s.call.coefficients.length = 1024) :
    CancellerWorked s s.call.microphone.toInt s.cancelSample.echoTurn.call := by
  obtain ⟨state, round, microphone, freeze, -, block, coefficients, -, -, -, write, -, references, window, zeros, live, falls⟩ :=
    heard_facts s calm
  obtain ⟨adapted, copies, tick, worked, rests⟩ := cancelSample_eq s
  have kept := echoTurn_callKept s.cancelSample
  obtain ⟨whole, -⟩ := echoTurn_asked s.cancelSample
  have unasked := echoTurn_rests s.cancelSample
  rw [heard_estimate s calm full, heard_reference s calm, microphone, freeze, block] at worked
  simp only [State.callKept, Prod.mk.injEq, worked, CancellerBlock.plus] at kept
  simp only [worked, CancellerBlock.plus] at whole unasked
  obtain ⟨-, -, -, -, -, kState, -, uplink, kReferences, kWindow, kZeros, kWrite, kCoefficients, kFallback, kLive, count,
    reference, sum, estimate, output, -⟩ := kept
  have fed := heard_fedZero s calm
  refine ⟨kState.trans state, kReferences.trans references, kWrite.trans write, kWindow.trans window, ?_, ?_, fun fallback => ?_,
    fun cancels => ?_, fun still => ?_, count, kZeros.trans zeros, ?_, fun writes reads => ?_, reference, sum, estimate, ?_⟩
  · rw [kLive, live, servedDownlinkLive_hears]
  · rw [kFallback, kLive]
    exact falls
  · rw [uplink, kFallback, State.uplinkOutput, state, fallback]
    exact (mixSamples_eq _).trans (by simp)
  · rw [uplink, State.uplinkOutput, state]
    cases now : s.call.state
    case off => exact absurd now works
    case fallback => exact absurd now cancels
    all_goals rfl
  · exact kCoefficients.trans ((rests (heard_rests s calm still)).trans coefficients)
  · rw [whole, Bool.and_eq_true, Bool.not_eq_true', fed]
  · rw [unasked (by rw [round]; exact writes) (by rw [round]; exact reads), worked]
    rfl
  · rw [uplink]
    exact output

/-- The freeze count, and whether adaptation is frozen, once the canceller has heard. -/
theorem heard_freezing (s : State) :
    s.heard.call.freeze = s.call.freeze ∧ s.heard.call.frozen = s.call.frozen
      ∧ (s.call.state ≠ .fallback → s.heard.call.block = s.call.block) := by
  by_cases returns : s.call.state = .fallback ∧ s.hearsReference
  · obtain ⟨fallback, hears⟩ := returns
    obtain ⟨-, freeze, frozen⟩ := testReference_returns s fallback hears
    exact ⟨freeze, frozen, fun other => absurd fallback other⟩
  · obtain ⟨-, -, -, freeze, frozen, block, -⟩ := heard_facts s returns
    exact ⟨freeze, frozen, fun _ => block⟩

/-- The freeze of adaptation after a local sample, told by the gap count of ECHO (R163). -/
theorem cancelled_freezes (s : State) (n : Nat) (held : s.echoGaps = some n) (below : n < 65535) :
    let c := s.call
    let u := s.cancelSample.echoTurn
    (u.echoGaps = some n → u.call.freeze = c.freeze - 1 ∧ u.call.frozen = c.frozen
        ∧ (c.state ≠ .fallback → u.call.block.unfrozen = (c.block.unfrozen && c.freeze == 0)))
      ∧ (u.echoGaps ≠ some n → u.call.freeze = 4800 ∧ u.call.frozen = true ∧ u.call.block.unfrozen = false) := by
  intro c u
  obtain ⟨-, asked⟩ := echoTurn_asked s.cancelSample
  have stood : s.cancelSample.echoGaps = some n := by
    rw [← held]
    simp [State.echoGaps]
  rw [stood] at asked
  simp only [State.freezing, Prod.mk.injEq] at asked
  obtain ⟨same, freeze, frozen, unfrozen⟩ | ⟨freezes, counts⟩ := asked
  · obtain ⟨freeze', frozen', block'⟩ := heard_freezing s
    obtain ⟨adapted, copies, tick, worked, -⟩ := cancelSample_eq s
    refine ⟨fun _ => ⟨freeze.trans ?_, frozen.trans ?_, fun other => unfrozen.trans ?_⟩, fun more => absurd same more⟩
    · rw [worked, ← freeze']
    · rw [worked, ← frozen']
    · rw [worked, ← freeze', ← block' other]
      rfl
  · obtain ⟨m, count, more, -⟩ := counts n rfl (Nat.le_of_lt below)
    refine ⟨fun same => ?_, fun _ => freezes⟩
    have stays : m = n := Option.some.inj (count.symm.trans same)
    omega

end Sys2Proof.Machine
end

section
/-! PROOFS. The call unit within a local sample (R65, R162). -/

namespace Sys2Proof.Machine

set_option maxRecDepth 20000

/-! ## The call unit within a local sample (R65, R162) -/

/-- Two states in which the canceller meets a local sample alike, but for the microphone sum. -/
structure HearsAs (s t : State) : Prop where
  line : s.line = t.line
  tables : s.tables = t.tables
  member : s.member = t.member
  regions : s.store.regions = t.store.regions
  count : s.localCount = t.localCount
  call : s.call = { t.call with microphone := s.call.microphone }
  gaps : s.echoGaps = t.echoGaps

namespace HearsAs

variable {s t : State} (alike : HearsAs s t)
include alike

theorem reference : s.referenceNow = t.referenceNow := by
  unfold State.referenceNow State.lastHanded State.handed
  rw [alike.call, alike.tables, alike.line]

theorem hears : s.hearsReference ↔ t.hearsReference := by
  unfold State.hearsReference
  rw [alike.call, alike.tables, alike.member]

theorem downlink : s.hearsDownlink ↔ t.hearsDownlink := by
  unfold State.hearsDownlink
  rw [alike.call, alike.tables]

theorem length : s.store.spaceOf .echo = t.store.spaceOf .echo := by
  unfold Store.spaceOf Store.rowsOf Store.regionsOf
  rw [alike.regions]

theorem references : s.referencesNow = t.referencesNow := by
  unfold State.referencesNow
  rw [alike.reference, alike.call]

theorem tapPosition : s.tapPosition = t.tapPosition := by
  unfold State.tapPosition
  rw [alike.length, alike.call]

theorem window : s.windowNow = t.windowNow := by
  unfold State.windowNow
  rw [alike.tapPosition, alike.count, alike.call]

theorem zeros : s.zerosNow = t.zerosNow := by
  unfold State.zerosNow
  rw [alike.tapPosition, alike.call]
  rfl

theorem echo : s.echoNow = t.echoNow := by
  have takes : s.filterTakes = t.filterTakes := by
    funext k
    unfold State.filterTakes
    rw [alike.window, alike.references, alike.length, alike.call]
  unfold State.echoNow
  rw [takes, alike.call]

theorem worked {mic : Int} {u : CallUnit} (works : CancellerWorked s mic u) (round : Nat) :
    CancellerWorked t mic { u with round := round } := by
  obtain ⟨microphone, same⟩ : ∃ microphone, s.call = { t.call with microphone := microphone } := ⟨_, alike.call⟩
  obtain ⟨state, references, write, window, live, fallback, falls, cancels, rests, count, zeros, whole, unfrozen, reference, sum,
    estimate, output⟩ := works
  simp only [same, alike.references, alike.length, alike.window, alike.downlink, alike.zeros, alike.echo, alike.hears,
    alike.reference]
    at state references write window live fallback falls cancels rests count zeros whole unfrozen reference sum estimate output
  exact ⟨state, references, write, window, live, fallback, falls, cancels, rests, count, zeros, whole, unfrozen, reference, sum,
    estimate, output⟩

end HearsAs

/-- The call unit at a local sample: the microphone sum is formed, and the canceller works unless it is OFF (R162). -/
theorem callSample_cases (x : State) :
    let s : State := { x with call := { x.call with microphone := x.microphoneSum } }
    (x.call.state = .off → x.callSample.call = { s.call with
        uplink := 0, freeze := x.call.freeze - 1, round := (x.call.round + 1) % 8 })
      ∧ (x.call.state ≠ .off → x.callSample = { s.cancelSample.echoTurn with
          call := { s.cancelSample.echoTurn.call with round := (x.call.round + 1) % 8 } }) := by
  intro s
  unfold State.callSample
  dsimp only
  exact ⟨fun off => by rw [if_pos off], fun works => by rw [if_neg works]⟩

/-- The state in which the call unit meets a local sample. -/
theorem localSample_meets_call (t : State) (i : InputSamples) (awake : t.member.station ≠ .dormant) :
    ∃ x : State, (t.localSample i).call = x.callSample.call ∧ (t.localSample i).echoGaps = x.callSample.echoGaps
      ∧ x.call = t.call ∧ x.line = t.line ∧ x.tables = t.tables ∧ x.member = t.member ∧ x.startUp = t.startUp
      ∧ x.store.regions = t.store.regions ∧ x.localCount = t.localCount ∧ x.echoGaps = t.echoGaps
      ∧ x.ports.inputs = [i.in0, i.in1, i.in2, i.in3] := by
  obtain ⟨-, -, -, -, call, same, -, -, -, gaps, -⟩ := localSample_blocks t i awake
  obtain ⟨-, -, -, -, quiet, -⟩ := played_blocks t i
  obtain ⟨-, ports, -, -, count, line, tables, member, startUp, -, -, -, -, -, regions, -⟩ := cadenced_blocks t i
  obtain ⟨taken, -⟩ := portsSample_facts t.ports i
  have gapped := cadenced_echoGaps t i
  have inputs := congrArg Ports.inputs quiet
  generalize t.played i = a at ports inputs
  generalize t.cadenced i = d at *
  obtain ⟨-, count', line', tables', member', -, ports', -, startUp', -, -, -, -, -, regions', -⟩ := State.blendSample_frame d
  refine ⟨d.blendSample, call, congrArg (fun gaps : List Nat => gaps[clientCode .echo]?) gaps, same, line'.trans line,
    tables'.trans tables, member'.trans member, startUp'.trans startUp, regions'.trans regions, count'.trans count, gapped, ?_⟩
  rw [ports', ports]
  exact inputs.trans taken

/-- The call unit within a local sample: what the canceller meets there, and what becomes of it (R65, R162). -/
theorem localSample_call (t : State) (i : InputSamples) (awake : t.member.station ≠ .dormant) :
    ∃ (s : State) (round : Nat), HearsAs s t ∧ s.call.microphone = limit24 (t.microphonesTotal i)
      ∧ (t.call.state = .off → (t.localSample i).call = { s.call with uplink := 0, freeze := t.call.freeze - 1, round := round })
      ∧ (t.call.state ≠ .off → (t.localSample i).call = { s.cancelSample.echoTurn.call with round := round }
          ∧ (t.localSample i).echoGaps = s.cancelSample.echoTurn.echoGaps) := by
  obtain ⟨x, call, gaps, same, line, tables, member, startUp, regions, count, gapped, inputs⟩ := localSample_meets_call t i awake
  have sum := microphoneSum_eq x t i inputs member startUp
  obtain ⟨rests, works⟩ := callSample_cases x
  rw [call, gaps, ← same]
  refine ⟨{ x with call := { x.call with microphone := x.microphoneSum } }, (x.call.round + 1) % 8,
    ⟨line, tables, member, regions, count, ?_, gapped⟩, sum, rests, fun cancels => ?_⟩
  · rw [← same]
  · have counts : ∀ (w : State) (c : CallUnit), State.echoGaps { w with call := c } = w.echoGaps := fun _ _ => rfl
    rw [works cancels]
    exact ⟨rfl, counts _ _⟩

/-- The canceller at a local sample in OFF, and in FALLBACK with a usable reference; its microphone sum (R162, R164). -/
theorem localSample_microphone (t : State) (i : InputSamples) (awake : t.member.station ≠ .dormant) :
    let c := t.call
    let u := (t.localSample i).call
    u.microphone = limit24 (t.microphonesTotal i)
      ∧ (c.state = .off → u.state = .off ∧ u.uplink = 0 ∧ u.freeze = c.freeze - 1 ∧ u.block = c.block ∧ u.history = c.history
          ∧ u.coefficients = c.coefficients)
      ∧ (c.state = .fallback → t.hearsReference → u.state = .converging) := by
  intro c u
  obtain ⟨s, round, alike, sum, rests, works⟩ := localSample_call t i awake
  have kept := echoTurn_callKept s.cancelSample
  obtain ⟨adapted, copies, tick, worked, -⟩ := cancelSample_eq s
  simp only [State.callKept, Prod.mk.injEq, worked] at kept
  obtain ⟨-, -, -, -, -, state, microphone, -⟩ := kept
  refine ⟨?_, fun off => ?_, fun fallback hears => ?_⟩
  · by_cases off : t.call.state = .off
    · exact (congrArg CallUnit.microphone (rests off)).trans sum
    · have stays : s.heard.call.microphone = s.call.microphone := testReference_microphone s
      exact (congrArg CallUnit.microphone (works off).1).trans (microphone.trans (stays.trans sum))
  · have becomes : u = _ := rests off
    rw [becomes, alike.call]
    exact ⟨off, rfl, rfl, rfl, rfl, rfl⟩
  · have cancels : t.call.state ≠ .off := by
      rw [show t.call.state = .fallback from fallback]
      decide
    have stood : s.call.state = .fallback := by
      rw [alike.call]
      exact fallback
    obtain ⟨returns, -⟩ := testReference_returns s stood (alike.hears.mpr hears)
    exact (congrArg CallUnit.state (works cancels).1).trans (state.trans returns)

/-- The freeze of adaptation after a local sample, told by the gap count of ECHO (R163). -/
theorem localSample_freezes (t : State) (i : InputSamples) (awake : t.member.station ≠ .dormant) (cancels : t.call.state ≠ .off)
    (n : Nat) (held : t.echoGaps = some n) (below : n < 65535) :
    let c := t.call
    let u := t.localSample i
    (u.echoGaps = some n → u.call.freeze = c.freeze - 1 ∧ u.call.frozen = c.frozen
        ∧ (c.state ≠ .fallback → u.call.block.unfrozen = (c.block.unfrozen && c.freeze == 0)))
      ∧ (u.echoGaps ≠ some n → u.call.freeze = 4800 ∧ u.call.frozen = true ∧ u.call.block.unfrozen = false) := by
  intro c u
  obtain ⟨s, round, alike, -, -, works⟩ := localSample_call t i awake
  obtain ⟨call, gaps⟩ := works cancels
  have freezes := cancelled_freezes s n (alike.gaps.trans held) below
  rw [show u.call = _ from call, show u.echoGaps = _ from gaps]
  rw [alike.call] at freezes
  exact freezes

/-- The canceller's work at a local sample where its state stands (R162 to R166). -/
theorem localSample_worked (t : State) (i : InputSamples) (awake : t.member.station ≠ .dormant) (cancels : t.call.state ≠ .off)
    (calm : ¬(t.call.state = .fallback ∧ t.hearsReference)) (full : t.call.coefficients.length = 1024) :
    CancellerWorked t (limit24 (t.microphonesTotal i)).toInt (t.localSample i).call := by
  obtain ⟨s, round, alike, sum, -, works⟩ := localSample_call t i awake
  obtain ⟨call, -⟩ := works cancels
  rw [call, ← sum]
  refine alike.worked (cancelSample_worked s ?_ ?_ ?_) round
  · rw [alike.call]
    exact cancels
  · rw [alike.hears, alike.call]
    exact calm
  · rw [alike.call]
    exact full

end Sys2Proof.Machine
end

section
/-! PROOFS. What the statement of the canceller's blocks comes to (R162 to R166, log 20). -/

namespace Sys2Proof.Machine

set_option maxRecDepth 20000

/-- Where the filter takes the samples of the read tap's window (log 20), the statement of O43 holds: the rows by what falls due,
the local sample by what the canceller hears. -/
theorem theCancellerJudgesItsBlocks_of_window (windowed : Config.filterReadsWindow = true) :
    Obligations.TheCancellerJudgesItsBlocks := by
  intro s released c far near measured high low converged losing quiet freeze
  have due := fun r f e => exec_due r s f e released
  obtain ⟨counts, judges⟩ := cancellerBlock_cases s
  obtain ⟨thaws, frozen⟩ := freezeEnd_cases s
  obtain ⟨stands, loses⟩ := referenceLost_cases s
  rw [due .cancellerBlock State.cancellerBlock rfl, due .freezeEnd State.freezeEnd rfl,
    due .referenceLost State.referenceLost rfl]
  refine ⟨fun few => by rw [counts few], fun full => ?_, fun froze done => by rw [thaws froze done],
    fun waits => by rw [frozen waits], fun waits => by rw [stands waits], fun hears lost => ?_, ?_⟩
  · obtain ⟨j, farEnd, nearEnd, judged, low, high, acts⟩ := judges full
    obtain ⟨⟨line, audio, mixer, last, served, reference⟩, rests, converging, converges, talks⟩ := blockReacted_cases s j
    rw [acts]
    refine ⟨_, rfl, rfl, by rw [last]; exact farEnd, by rw [last]; exact nearEnd, by rw [last]; exact judged,
      by rw [last]; exact low, by rw [last]; exact high, served, reference, line, audio, mixer, fun state => ?_, fun state => ?_,
      fun state => ?_, fun state => ?_⟩
    · rw [rests state]
    · obtain ⟨-, freezes, coefficients, ⟨still, few, many⟩, runs, moves⟩ := blockConverging_facts { s with call.last := j } state
      rw [← converging state] at freezes coefficients still few many runs moves
      exact ⟨freezes, coefficients, still, few, many, runs, moves⟩
    · obtain ⟨-, both, runs, moves⟩ := blockConverged_facts { s with call.last := j } state
      rw [← converges state] at both runs moves
      exact ⟨both, runs, moves⟩
    · obtain ⟨-, coefficients, runs, moves⟩ := blockDoubleTalk_facts { s with call.last := j } state
      rw [← talks state] at coefficients runs moves
      exact ⟨coefficients, runs, moves⟩
  · rw [loses hears lost]
    have moves : c.state ≠ .fallback := by
      rcases hears with state | state | state <;> rw [state] <;> decide
    obtain ⟨state, host, -, -, block, -, -, -, coefficients, -, delay, -⟩ := goCanceller_call s c .fallback .referenceLost moves
    obtain ⟨line, audio, mixer⟩ := goCanceller_beside s .fallback .referenceLost
    exact ⟨_, rfl, state, coefficients, delay, block, goCanceller_fallback s .referenceLost moves, host, line, audio, mixer⟩
  · intro i t c mic ref references length w newest window sample echo position zero zeros awake
    have acts := exec_outside (.localSample i) s (fun t => t.localSample i) rfl released
    have settled : s.settle = t := rfl
    rw [settled] at acts
    clear_value t
    obtain ⟨microphone, off, returns⟩ := localSample_microphone t i awake
    refine ⟨_, acts, microphone, off, returns, fun cancels n held below => localSample_freezes t i awake cancels n held below,
      fun cancels calm full => ?_⟩
    obtain ⟨state, references, write, window, live, fallback, falls, subtracts, rests, count, zeros, whole, unfrozen, reference,
      sum, estimate, output⟩ := localSample_worked t i awake cancels calm full
    refine ⟨state, references, write, window, live, fallback, falls, subtracts, rests, count, zeros, ?_, unfrozen, reference, sum,
      estimate, output⟩
    simp only [windowed, true_or, and_true] at whole ⊢
    exact whole

/-- A canceller that works without an ECHO region: every delay of the filter reads group 0, whose hole mark is clear, and no other
group is. -/
def cancellingUnplaced : State :=
  { State.reset with
    call := { CallUnit.reset with state := .converged, usable := true, history := { Ring.cleared 0 with clean := [0] } } }

theorem cancellingUnplaced_settles :
    let t := cancellingUnplaced.settle
    t.member.station = .offline ∧ t.call.state = .converged ∧ t.call.coefficients.length = 1024 ∧ t.store.spaceOf .echo = 0
      ∧ t.call.history.write = 0 ∧ t.call.history.clean = [0] ∧ t.call.bulkDelay = 32 ∧ t.call.block.whole = true
      ∧ t.zerosNow = [false] := by decide

/-- OFFLINE no keep-up start is due, so it tells the state that it leaves. -/
theorem keepUpStart_offline {u v : State} (off : v.member.station = .offline) (same : u.keepUpStart = v.keepUpStart) : u = v := by
  have idle : ∀ w : State, w.member.station = .offline → w.keepUpStart = w :=
    fun w off => off_keepUp w (by rw [off]; rfl)
  have station : u.keepUpStart.member.station = u.member.station := by simp
  rw [same, idle v off, off] at station
  rw [← idle u station.symm, same, idle v off]

/-- Where the filter takes its samples at the delays of R162 (log 20), the statement of O43 fails: in its clause on a block that is
whole, k runs over the integers below 1,024, the negative ones too, where the filter has the coefficients 0 to 1,023. -/
theorem not_theCancellerJudgesItsBlocks_of_delays (delays : Config.filterReadsWindow = false) :
    ¬ Obligations.TheCancellerJudgesItsBlocks := by
  intro holds
  let i : InputSamples := ⟨.zero, .zero, .zero, .zero⟩
  obtain ⟨-, -, -, -, -, -, samples⟩ := holds cancellingUnplaced rfl
  have sampled := samples i
  have acts := exec_outside (.localSample i) cancellingUnplaced (fun t => t.localSample i) rfl rfl
  obtain ⟨station, state, full, length, write, clean, delay, whole, zeros⟩ := cancellingUnplaced_settles
  generalize cancellingUnplaced.settle = t at *
  have awake : t.member.station ≠ .dormant := by rw [station]; decide
  have cancels : t.call.state ≠ .off := by rw [state]; decide
  have calm : ¬(t.call.state = .fallback ∧ t.hearsReference) := by rw [state]; simp
  obtain ⟨u, acts', -, -, -, -, works⟩ := sampled awake
  have off : (t.localSample i).member.station = .offline := by simp [station]
  have same : u = t.localSample i := keepUpStart_offline off (by injection acts'.symm.trans acts)
  have clear : ∀ k : Nat, k < 1024 →
      behind (t.store.spaceOf .echo) t.call.history.write (t.call.bulkDelay + k) / 8 ∈ t.call.history.clean := fun k _ => by
    have first : behind 0 0 ((32 : Nat) + k) = 0 := by
      simp only [behind, Int.natCast_zero, Int.emod_zero]
      omega
    rw [length, write, delay, clean, first]
    decide
  have stays := (localSample_worked t i awake cancels calm full).whole.mpr ⟨whole, by rw [zeros]; decide, .inr clear⟩
  obtain ⟨-, -, -, -, -, -, -, -, -, -, -, judged, -⟩ := works cancels calm full
  obtain ⟨-, -, windowed | every⟩ := judged.mp (by rw [same]; exact stays)
  · exact Bool.noConfusion (delays.symm.trans windowed)
  · have beyond : behind (t.store.spaceOf .echo) t.call.history.write (t.call.bulkDelay + -40) / 8 ∈ t.call.history.clean :=
      every (-40) (by decide)
    rw [length, write, delay, clean] at beyond
    exact absurd beyond (by decide)

/-- O43 stays unsettled: its statement stands or falls with the free value of log 20, of which nothing is provable. -/
theorem theCancellerJudgesItsBlocks_iff : Obligations.TheCancellerJudgesItsBlocks ↔ Config.filterReadsWindow = true := by
  refine ⟨fun holds => ?_, theCancellerJudgesItsBlocks_of_window⟩
  cases value : Config.filterReadsWindow with
  | false => exact absurd holds (not_theCancellerJudgesItsBlocks_of_delays value)
  | true => rfl

end Sys2Proof.Machine
end
